-- ==== Sys2Proof/Word.lean ====
section
/-! DEFINITION. The word types of the FH9640 model: a register is 32 bits wide (R69), a
memory or frame byte 8 bits, a memory word 64 bits (R96). -/

namespace Sys2Proof

/-- One register (R69). -/
abbrev W32 := BitVec 32

/-- One byte of a memory, a frame or a record. -/
abbrev Byte := BitVec 8

/-- One 64-bit memory word, the unit of the symbol code (R96). -/
abbrev W64 := BitVec 64

end Sys2Proof
end

