-- ==== Sys2Proof/Syntax.lean ====
section
/-! DEFINITION. The commands of the block, one constructor per row of the table of operations and
events, and the operands that carry what the outside world brings: a bus access, a measured
value, a received frame, a board level.

Conventions. `m` is a master ID (R504), `r` a rail, `n` a phase, `c` a feed channel or a cluster,
`b` a battery string, `p` a port. Voltages are in the unit that the rule of the row names (mV
unless it says otherwise), temperatures in 0.1 °C. -/

namespace Sys2Proof

/-- One register write of a transaction: its byte address (R69) and its value. -/
structure RegWr where
  addr : Nat
  val : W32
  deriving DecidableEq, Repr

/-- A memory access of a master (R475 to R485): `wr` is the data of a write, `bad` how many of
the word's 20 symbols the read finds in error and `sym` which one (R96), `waited` how many CORE
cycles this access has waited and `rivals` the other accesses (their master of R479, cycles
waited) that ask for the same bank in the same cycle. `task` is the task that makes it, when a cluster
makes it for one (R113). -/
structure MemReq where
  m : Nat
  addr : Nat
  size : Nat
  wr : Option W64
  bad : Nat
  sym : Nat
  waited : Nat
  rivals : List (Nat × Nat)
  task : Option Nat
  deriving DecidableEq, Repr

/-- The run of a task that reaches its deadline (R113): whether it finished, the time it took in CORE
cycles (R121), and the observations its rules judge: for SENSE_CHK (phase, 1 where the raw code is STUCK
and 0 otherwise, 0) of R192, for THERM (input, `M_now`, `M_then`) of R379 with input 16 the die. -/
structure TaskRun where
  id : Nat
  fin : Bool
  cyc : Nat
  obs : List (Nat × Int × Int)
  deriving DecidableEq, Repr

/-- When a command comes, by the module's own clocks: the CORE cycle in the major frame (R236), and the
phases whose pulse start has come since the last command that told of pulse starts (R149). -/
structure Instant where
  cyc : Nat
  starts : List Nat
  deriving DecidableEq, Repr

/-- What a comparator sees of its input (R156): the code of the input in Q1.15 of its range, and the PWM
cycles since the phase's pulse start (R170, R171). -/
structure Crossing where
  x : Int
  pwm : Nat
  deriving DecidableEq, Repr

/-- A decimated sample set of a rail (R155, R209), as the converters deliver it before correction (R160):
VSNS, the members' currents and the latest samples of GIN0 to GIN3, in Q1.15 of their ranges; the words
of CLE table 3 that the lane found uncorrectable, by their index (R226); the trace units whose bank queue
is full (R237). -/
structure Sample where
  y : Int
  cur : List (Nat × Int)
  poison : List Nat
  full : List Nat
  gin : List Int
  t : Instant
  deriving DecidableEq, Repr

/-- One 1 ms temperature round (R371, R373): the package diode in 0.1 °C, none when it is INVALID, what the
converter measures of the TS inputs in ascending order (the resistance of a thermistor in Ω, the voltage
difference of a diode in nV), and the count of each ring sensor. -/
structure TherRound where
  pkg : Option Int
  ts : List Nat
  ring : List Nat
  deriving DecidableEq, Repr

/-- An entry of the merge stream (R394), with a tag gap that both engines see (R395). -/
inductive Entry where
  | strobe
  | frame (port : Nat)
  | request (m : Nat)
  | gap (lost : Nat)
  deriving DecidableEq, Repr

/-- A HELLO frame that passed the checks of R422 (R423). -/
structure Hello where
  src : Nat
  mac : Nat
  leaving : Bool
  joining : Bool
  epePeriod : Nat
  canopy : Bool
  prio : Nat
  maxW : Nat
  gmax : Nat
  ccap : Nat
  joinAge : Nat
  deriving DecidableEq, Repr

/-- A SHARE report (R270) with its arrival in µs after the receiver's period start (R271). -/
structure ShareRpt where
  src : Nat
  period : Nat
  demand : Nat
  floor : Nat
  maxW : Nat
  prio : Nat
  flags : Nat
  sendOfs : Nat
  arrival : Nat
  good : Bool
  deriving DecidableEq, Repr

/-- A SUMMARY report (R275) with its arrival in µs after the 10 ms period start. -/
structure SumRpt where
  src : Nat
  period : Nat
  sumD : Nat
  sumF : Nat
  gmax : Nat
  sendOfs : Nat
  arrival : Nat
  good : Bool
  deriving DecidableEq, Repr

/-- A CAPSET frame (R423, R433). -/
structure Capset where
  target : Nat
  grove : Nat
  cap : Nat
  effective : Nat
  deriving DecidableEq, Repr

/-- What identifies a request of master 0x2: source address and SEQ (R436), and whether the frame
was authenticated (R437). -/
structure MgmtHdr where
  mac : Nat
  seq : Nat
  auth : Bool
  /-- Eight requests already wait (R436). -/
  full : Bool
  deriving DecidableEq, Repr

/-- A PTP message as the block timestamps it (R438 to R440): the port, whether it ends a Sync
interval and the offset then measured in ns, the mean path delay, the port state of the BMCA,
the grandmaster, and which port's best master ranks higher (R439). -/
structure PtpMsg where
  port : Nat
  sync : Bool
  offset : Int
  delay : Nat
  portState : Nat
  gm : Nat
  bestPort : Nat
  taiS : Nat
  taiNs : Nat
  cyc : Nat
  deriving DecidableEq, Repr

/-- A two-wire write transaction (R448 to R453): every byte after the address, in order, whether
the last byte was acknowledged, whether brown-out held at any moment from START to commit, and
whether a repeated START (and not a STOP) ended it. -/
structure TwtWr where
  bytes : List Byte
  lastAcked : Bool
  brown : Bool
  restart : Bool
  deriving DecidableEq, Repr

/-- How a controller-port transaction ended (R463 to R469). -/
inductive TwcRes where
  | ok (val : Nat)
  | addrNack
  | dataNack
  | pecErr
  | arbLost (pos : Nat)
  deriving DecidableEq, Repr

/-- A unit that failed the self-test (R544); the number is its index. -/
inductive UnitFail where
  | cluster (c : Nat)
  | bank (b : Nat)
  | shadow (b : Nat)
  | mram (b : Nat)
  | lane (k : Nat)
  | solver
  | conv (ch : Nat)
  | spareConv
  | phase (n : Nat)
  | vsns (r : Nat)
  | feed (c : Nat)
  | engine (e : Nat)
  deriving DecidableEq, Repr

/-- A level sensed in the adopt window (R60), in mV; for FD_GATE the level is FD_GATE − FD_SRC. -/
inductive Sensed where
  | phEn (n mv : Nat)
  | phPwm (n mv : Nat)
  | railEn (i mv : Nat)
  | sysPg (mv : Nat)
  | ppsOut (mv : Nat)
  | fdGate (c mv : Nat)
  deriving DecidableEq, Repr

/-- The commands: one constructor per row of the table. -/
inductive Instr where
  /-- POWER_ON (R48). The higher VAUX input rises through 8.8 V, so module reset is released and start-up begins. -/
  | powerOn (va vb straps : Nat)
  /-- BROWN_OUT (R48). The higher input falls through 8.5 V, so register writes by masters 0x1 to 0x3 are refused from then on. -/
  | brownOut
  /-- BROWN_OUT_END (R48). The higher input rises through 8.8 V again, so those writes are accepted again. -/
  | brownOutEnd
  /-- VAUX_INPUT_LOST (R46). One VAUX input is lost; the module reports and records it and otherwise carries on from the other input. -/
  | vauxInputLost (inp : Nat)
  /-- COLLAPSE (R49). The input falls through 7.5 V; the module disconnects from VAUX and runs from the hold-up store. -/
  | collapse (va vb : Nat) (torn : Bool)
  /-- VAUX_DIP (R49). The input returns above 8.8 V within 2 ms of a collapse; service continues without a reset and a VAUX_DIP record is written. -/
  | vauxDip (lowest us : Nat)
  /-- LAST_BREATH_ENTRY (R49). The 2 ms of full operation expire with no recovery; every output goes unpowered and the module enters last-breath mode. -/
  | lastBreathEntry (us : Nat) (torn : Bool)
  /-- LAST_BREATH_RESET (R49). The last-breath record is committed, or 22 ms have passed since the collapse, and the module reset takes effect. -/
  | lastBreathReset
  /-- HOLD_OK (R50). The hold-up store has recharged to its full 40 mJ and HOLD_OK becomes 1. -/
  | holdOk
  /-- RESET_PIN (R58). A low pulse of 1 us or longer on RESET_n resets the module. -/
  | resetPin
  /-- RESET_RELEASE (R58). 10 us after RESET_n rises, with the input above the power-on threshold, reset is released and start-up begins. -/
  | resetRelease (straps : Nat)
  /-- CLK_LOSS (R19). The clock supervisor detects a lost clock and acts on it: a module reset, a port taken down, the two-wire ports stopped or MRAM writes held. -/
  | clkLoss (clk : Nat)
  /-- CLK_RESTART_TRY (R21). Every 100 ms the supervisor tries to restart a lost NETA, NETB, TWI or NVM clock. -/
  | clkRestartTry (clk : Nat) (present : Bool)
  /-- CLK_RESUME (R21). A restarted clock has been present for 10 ms, so its blocks resume and held MRAM writes are made in order. -/
  | clkResume (clk : Nat)
  /-- SYNC_LOCK (R20). The SYNC_IN residual frequency error has stayed below 0.1 ppm for 1 s, so SYNC_IN becomes LOCKED. -/
  | syncLock (ferr : Int)
  /-- SYNC_LOST (R20). No SYNC_IN edge has come for 4 expected periods, or its frequency has left the band; the reference holds its pull and SYNC_LOST counts as a fault. -/
  | syncLost
  /-- FW_RESTART (R24). SYS command FW_RESTART requests a firmware restart, which is refused while no firmware runs. -/
  | fwRestart (m : Nat)
  /-- MODULE_RESET_CMD (R561). SYS command MODULE_RESET makes a module reset with cause COMMAND. -/
  | moduleResetCmd (m : Nat)
  /-- SAPLING_CMD (R561). SYS command SAPLING makes a module reset whose start enters Sapling. -/
  | saplingCmd (m : Nat)
  /-- CLUSTER_LOCKUP (R24). The cluster monitor detects a lock-up and requests a firmware restart. -/
  | clusterLockup (c : Nat)
  /-- CODE_SHADOW_LOADED (R26). The code shadow has been reloaded from MRAM and the clusters start. -/
  | codeShadowLoaded (fmtOk : List Bool)
  /-- FREEZE_END (R28). Every task has committed its first period after a restart, so the allocation freeze ends. -/
  | freezeEnd
  /-- FW_LOST (R30). The freeze has not ended 50 ms after the halt, so the module enters hardware-only service. -/
  | fwLost
  /-- PROFILE_CHANGE (R37). A write of SYS.PROFILE.SEL applies the new profile defaults to each field under its Live or Stop rule. -/
  | profileChange (m : Nat) (v : W32)
  /-- REGISTER_WRITE (R83). A write to a register that has no row of its own is checked for access, Stop, lock and pair rules, then takes effect or is refused. `others` are the
  writes of other masters that arrive with it in the same CORE cycle (R73). -/
  | registerWrite (m addr : Nat) (v : W32) (others : List (Nat × RegWr))
  /-- SOFT_RST (R76). A write of CTRL.SOFT_RST clears a stopped block's internal state and counters. -/
  | softRst (m page : Nat)
  /-- LOCK (R88). A write of LOCK sets the configuration or enable lock of the page. -/
  | lock (m page : Nat) (v : W32)
  /-- EVT_RAW_CLEAR (R78). Writing 1 to EVT_RAW bits clears those events and updates HOST_IRQ_n. -/
  | evtRawClear (m page : Nat) (v : W32)
  /-- FLT_STAT_CLEAR (R79). Writing 1 to an FLT_STAT bit clears the latch, and empties its counter block, only when the cause is gone. -/
  | fltStatClear (m page : Nat) (v : W32)
  /-- FLT_WIN_WRITE (R104). A write of FLT_WIN stages a new fault window, or cancels a waiting one. -/
  | fltWinWrite (m addr : Nat) (v : W32)
  /-- BUCKET_BOUNDARY (R102). At each bucket boundary the oldest bucket is emptied, and a waiting window takes force. -/
  | bucketBoundary (win : Nat)
  /-- TBL_DATA_ACCESS (R80). An access to a TBL_DATA window reaches the selected word and advances TBL_IDX; an index out of range raises TBL_RANGE. -/
  | tblDataAccess (m page : Nat) (wr : Option W32)
  /-- MEMORY_ACCESS (R477). A master accesses SRAM or MRAM through bank arbitration, with correction, poisoning or a bus error. -/
  | memoryAccess (q : MemReq)
  /-- RETIRED (R98). The copy of a row to a spare row completes, and the row is remapped. -/
  | retired (unit row : Nat)
  /-- SCRUB_STEP (R490). The scrub engine reads the next word on an idle cycle or its guard slot. -/
  | scrubStep (sram : Bool) (bad sym : Nat)
  /-- SHADOW_RELOAD (R484). The loader has reloaded an uncorrectable code-shadow word from the MRAM image. -/
  | shadowReload (addr : Nat)
  /-- TAMPER (R493). An enabled TAMPER_n input has been low for 10 us outside a check pulse, so tamper is asserted. -/
  | tamper (j : Nat)
  /-- TAMPER_PULSE_CHECK (R493). Every 100 ms the module pulse-checks a tamper input and asserts tamper on a failure. -/
  | tamperPulseCheck (j : Nat) (wentLow wentHigh : Bool)
  /-- GLITCH (R494). A supply, clock or temperature glitch detector asserts tamper. -/
  | glitch (kind : Nat)
  /-- WIPE_CMD (R495). A write of 0x5A5A_A5A5 to HEART.WIPE_CMD starts a Heartwood wipe. -/
  | wipeCmd (m : Nat) (v : W32)
  /-- WIPED (R495). A Heartwood wipe has completed; the pending flag is cleared and EMPTY is set. -/
  | wiped
  /-- MAJOR_FRAME (R109). A 1 ms major-frame boundary of the period timebase, where repacks, gating, moves and steps take effect. -/
  | majorFrame (done : List Nat)
  /-- TASK_START (R113). A task's period starts and it runs against its commit buffer. -/
  | taskStart (id jit : Nat) (gin : List Int) (acok late : Nat)
  /-- TASK_DEADLINE (R113). At the end of its period a finished task commits its buffer, and an unfinished one is dropped. -/
  | taskDeadline (r : TaskRun)
  /-- OVERFLOW (R114). A task stages a 513th entry and is aborted at once. -/
  | overflow (id : Nat)
  /-- SCHED_EN (R120). A write of SCHED.CTRL.EN starts the tasks, or stops them at the next major frame. -/
  | schedEn (m : Nat) (v : W32)
  /-- CLUSTER_READY (R127). A waking cluster is ready, within 20 us. -/
  | clusterReady (c : Nat)
  /-- BIST_REQ (R128). A write of PLACE.BIST_REQ with GO asks for an in-service test of a cluster, which is refused or vacated. -/
  | bistReq (m : Nat) (v : W32)
  /-- CLUSTER_ISOLATED (R128). A vacated cluster owns no task any more, so it is isolated and its logic test begins. -/
  | clusterIsolated (c : Nat)
  /-- BIST_DONE (R129). An in-service cluster test ends; the cluster passes and returns, or becomes FAILED. -/
  | bistDone (c : Nat) (pass : Bool)
  /-- ROT_TEST (R130). The rotating-test interval expires, so a test of the next cluster is requested. -/
  | rotTest
  /-- BANK_MOVE_DONE (R134). The copy of points and buffers out of an excluded bank has completed, and reads switch location. -/
  | bankMoveDone (bank : Nat)
  /-- RAIL_EN (R186). A write of RAILn.CTRL.EN starts the rail, with loop placement, or stops it. -/
  | railEn (m r : Nat) (v : W32)
  /-- PHASE_EN (R200). A write of PHASEn.CTRL.EN makes the phase available, or takes it out of service. -/
  | phaseEn (m n : Nat) (v : W32)
  /-- LOOP_SAMPLE (R211). A decimated sample reaches the head of the queue and the lane evaluates the rail's loops, observers, charge count and phase adds. -/
  | loopSample (r : Nat) (x : Sample)
  /-- DUTY_RELEASE (R211). Exactly 160 CORE cycles after the sample, the rail's duty words enter the CORE-to-PWM queue. -/
  | dutyRelease (r : Nat) (t : Instant)
  /-- RAIL_PERIOD_BOUNDARY (R150). A rail's PWM period boundary, where offsets, drops, OPEN removals and spares take effect. -/
  | railPeriodBoundary (r : Nat) (t : Instant)
  /-- TRUNC (R166). VSNS rises above the overshoot level and every active phase of the rail ends its high level. -/
  | trunc (r : Nat) (x : Int) (t : Instant)
  /-- TRUNC_EXIT (R166). VSNS falls below the exit level, so pulses resume. -/
  | truncExit (r : Nat) (x : Int) (t : Instant)
  /-- OV (R168). Truncation has lasted longer than OVS_TMAX, which is an over-voltage fault. -/
  | ov (r cyc : Nat)
  /-- CBC_TRIP (R169). A phase's ISNS comparator A trips and that phase ends its high level. -/
  | cbcTrip (n : Nat) (x : Crossing) (t : Instant)
  /-- NEG_LIMIT_TRIP (R171). A phase's ISNS comparator B trips, ending its negative-current interval. -/
  | negLimitTrip (n : Nat) (x : Crossing) (t : Instant)
  /-- UV_COMPARATOR_LOW (R173). CORE sees the VSNS comparator B go low, so the under-voltage timer starts. -/
  | uvComparatorLow (r : Nat) (x : Int)
  /-- UV (R174). The under-voltage timer reaches UV_DELAY and UV fires under its policy. -/
  | uv (r cyc : Nat)
  /-- GIN_HI (R158). A GIN comparator A crosses, raising an event and truncating the selected rails. -/
  | ginHi (i : Nat) (x : Int) (t : Instant)
  /-- GIN_LO (R156). A GIN comparator B crosses and raises an event. -/
  | ginLo (i : Nat) (x : Int) (cyc : Nat)
  /-- ROLL_SLOT_END (R160). A 1 ms rolling-calibration slot ends; corrections are applied and the spare moves to the next channel. -/
  | rollSlotEnd (off gain : Int) (span : Nat)
  /-- CAL_REQ (R161). A write of ADCCAL.CAL_REQ with GO asks for a reference calibration of a channel. -/
  | calReq (m : Nat) (v : W32)
  /-- REF_CAL_DONE (R162). The 2 ms reference calibration ends; the channel is judged, and possibly declared failed. -/
  | refCalDone (off gain : Int) (spareOk : Bool)
  /-- MON_READING (R163). A monitor input's averaged reading completes and its limits are judged. -/
  | monReading (i val : Nat)
  /-- DT_ADAPT (R152). Every 256 switching periods the adaptive dead time moves by one tap. -/
  | dtAdapt (r mean : Nat)
  /-- DROP_READY (R179). The shedding dwell timer reaches DWELL and sets DROP_READY. -/
  | dropReady (r : Nat)
  /-- SS_STALL (R184). VSNS stays below half of the nominal ramp for SS_STALL, so a short is declared. -/
  | ssStall (r cyc : Nat)
  /-- SS_CBC_SHORT (R184). Every active phase has been cut by its limit in every period for 500 us, so a short is declared. -/
  | ssCbcShort (r cyc : Nat)
  /-- SHORT_RETRY (R185). RETRY_GAP expires and the rail starts soft start again. -/
  | shortRetry (r : Nat)
  /-- PROBE_START (R189). A probe of a SUSPECT phase starts at its pulse start. -/
  | probeStart (n : Nat)
  /-- PROBE_DONE (R190). The probe ends after 20 periods with CONDUCTS, OPEN or INCONCLUSIVE. -/
  | probeDone (n : Nat)
  /-- RAIL_COMMIT_REF (R85). The REF bit of RAILn.COMMIT snapshots VSET, SLOPE and RAMP_LEAD for the next loop sample. -/
  | railCommitRef (m r : Nat)
  /-- RAIL_COMMIT_PROT (R85). The PROT bit of RAILn.COMMIT snapshots the protection fields. -/
  | railCommitProt (m r : Nat)
  /-- RAIL_COMMIT_SHED (R176). The SHED bit of RAILn.COMMIT snapshots the shedding tables and checks their hysteresis. -/
  | railCommitShed (m r : Nat)
  /-- CLE_COMMIT (R225). A bit of CLE.COMMIT applies a rail's coefficient sets at its next loop sample. -/
  | cleCommit (m : Nat) (v : W32)
  /-- CLE_EN (R238). A write of CLE.CTRL.EN enables the engine, or is refused while a rail is not OFF. -/
  | cleEn (m : Nat) (v : W32)
  /-- TRACE_EN (R240). A write of TRACEk.CTRL.EN claims the unit's bank, or is refused when no bank is free. -/
  | traceEn (m k : Nat) (v : W32)
  /-- ARM (R236). The ARM bit of TRACEk.ARM starts PRE_FILL. -/
  | arm (m k : Nat)
  /-- FORCE (R235). The FORCE bit of TRACEk.ARM triggers the trace unit. -/
  | force (m k cyc : Nat)
  /-- STOP (R236). The STOP bit of TRACEk.ARM stops recording and returns the unit to IDLE. -/
  | stop (m k : Nat)
  /-- SOLVE_DONE (R252). The hardware completes a solve requested by EPE_REQ and stages its results. -/
  | solveDone
  /-- WAKE (R256). A woken rectifier has stayed silent for 1 s and becomes UNAVAIL. -/
  | wake (slot : Nat)
  /-- DROOP_WAKE (R257). The V_bus slope falls below -WAKE_DVDT, so standby rectifiers are woken by a Zone Write. -/
  | droopWake (gin : List Int)
  /-- WEAR_ACCUMULATE (R260). Every 1 s each phase's wear is accumulated. -/
  | wearAccumulate
  /-- WEAR_SAVE (R260). Every 10 min the wear counters are written to MRAM. -/
  | wearSave
  /-- CAP_ESTIMATE (R264). Every 1 us the cap fast path forms P_in and asserts or releases CAP_n. -/
  | capEstimate (gin : List Int)
  /-- ASSIST_STEP (R267). Every 20 us of assist, A is raised, held or lowered. -/
  | assistStep (mean : Nat) (gin : List Int)
  /-- HARD_LIMIT (R266). The excess is still qualified 100 us after assist or qualification, so rectifier hard limits are written. -/
  | hardLimit
  /-- RELEASED (R266). P_in has stayed below C for RELEASE, so the hard limits are withdrawn. -/
  | released
  /-- SUSTAINED (R268). An excess has stayed qualified for SUSTAIN and counts as a sustained cap fault. -/
  | sustained
  /-- GROVE_CUTOFF (R272). At 600 us into the period the grove unit runs the allocation over the counted reports. -/
  | groveCutoff
  /-- SHARE_RISE (R274). RISE_DELAY after the period start, a pending higher share applies. -/
  | shareRise (canopy : Bool)
  /-- CANOPY_CUTOFF (R276). The canopy allocation runs over the counted SUMMARY frames. -/
  | canopyCutoff
  /-- EPE_COMMIT_SRC (R246). The SRC bit of EPE.COMMIT snapshots the source tables and checks their monotony. -/
  | epeCommitSrc (m : Nat)
  /-- GROVE_EN (R269). A write of GROVE.CTRL.EN starts the exchange, or refuses to start it. -/
  | groveEn (m : Nat) (v : W32)
  /-- FEED_DETECT (R284). The FEED detector's filter expires with the masked FD_VIN comparators low. -/
  | feedDetect (cyc : Nat) (gin : List Int)
  /-- SLOPE_DETECT (R284). The V_bus slope has been below -SLOPE_THR for N samples while armed. -/
  | slopeDetect (cyc : Nat) (gin : List Int)
  /-- ACOK_DETECT (R284). The masked AC_OK_n inputs have been low for ACOK_FILT. -/
  | acokDetect (cyc : Nat) (gin : List Int)
  /-- FULL (R288). The last string phase has begun its first pulse at a Crossing duty, so FULL is raised and t_x is measured. -/
  | full (tx : Nat)
  /-- BUS_LOOP_SAMPLE (R289). At each V_bus sample in CROSSING and QUALIFYING, the bus loop updates the strings' set points. -/
  | busLoopSample (gin : List Int)
  /-- STRING_SHED_RESUME (R286). 10 ms after detection, shedding on the string rails resumes. -/
  | stringShedResume
  /-- IN_GOOD_CHANGE (R292). IN_GOOD changes, so XING enters QUALIFYING or falls back to CROSSING. -/
  | inGoodChange (acok : Nat)
  /-- RETURNING (R293). The qualification timer reaches RETURN_QUAL; the rectifiers return and the walk begins. -/
  | returning
  /-- CUTOFF_EXIT (R292). IN_GOOD has held for RETURN_QUAL in CUTOFF, so XING returns to IDLE and may request power-on. -/
  | cutoffExit
  /-- XING_EN (R310). A write of XING.CTRL.EN starts the detectors, or is refused outside IDLE. -/
  | xingEn (m : Nat) (v : W32)
  /-- XING_COMMIT_BUS (R310). The BUS bit of XING.COMMIT applies the bus-loop reference and gains. -/
  | xingCommitBus (m : Nat)
  /-- FEED_EN (R309). A write of FEEDc.CTRL.EN starts the channel into QUALIFY, or turns it off. -/
  | feedEn (m c : Nat) (v : W32)
  /-- FEED_INS_DELAY (R300). The input has stayed inside its windows for INS_DELAY, so the channel leaves QUALIFY. -/
  | feedInsDelay (c : Nat)
  /-- FEED_EXCURSION (R301). An under- or over-voltage excursion pulls the gate down and returns the channel to QUALIFY. -/
  | feedExcursion (c : Nat) (hi : Bool)
  /-- FEED_ON (R302). The gate reaches VGS_ON and VDS falls below VDS_ON in RAMP, so the channel is ON. -/
  | feedOn (c : Nat)
  /-- FEED_SAMPLE (R303). Every 1 us the feed converter samples the channel and updates the I2t accumulator. -/
  | feedSample (c vin vout : Nat) (vs vgs : Int)
  /-- FAST_TRIP (R304). The shunt voltage exceeds 2 x ILIM and the gate is pulled down within 300 ns. -/
  | fastTrip (c : Nat)
  /-- FEED_RETRY (R305). RETRY_GAP expires in RETRY_WAIT and the channel enters QUALIFY. -/
  | feedRetry (c : Nat)
  /-- FEED_CONDUCT (R306). The forward voltage exceeds FWD_ON in BLOCK, so the channel enters CONDUCT. -/
  | feedConduct (c : Nat)
  /-- REVERSE (R306). The reverse comparator turns the gate off within 200 ns, and the channel returns to BLOCK. -/
  | reverse (c : Nat)
  /-- DAMAGED (R308). The gate has not reached 3.0 V within GATE_TMO, so the channel latches DAMAGED. -/
  | damaged (c : Nat)
  /-- NO_CONDUCT (R308). VDS has not fallen below VDS_ON within VDS_TMO, so the channel latches NO_CONDUCT. -/
  | noConduct (c : Nat)
  /-- DEGRADED (R308). High VDS at low current has persisted for 1 s, so DEGRADED latches. -/
  | degraded (c : Nat)
  /-- FEED_COMMIT_WIN (R312). The WIN bit of FEEDc.COMMIT applies the input windows. -/
  | feedCommitWin (m c : Nat)
  /-- FEED_COMMIT_TRIP (R309). The TRIP bit of FEEDc.COMMIT applies ILIM and I2T from the next sample. -/
  | feedCommitTrip (m c : Nat)
  /-- SEQ_TICK (R317). At each 10 us tick the sequencer samples, runs its state machine and one table step, and drives its outputs. -/
  | seqTick (acok : Nat)
  /-- SEQ_WAIT_DONE (R320). A WAIT_PG, WAIT_OFF or DELAY count reaches ARG, so the step completes. -/
  | seqWaitDone
  /-- STEP_FAULT (R324). A step's TMO expires, or its target becomes unstable, and POLICY acts. -/
  | stepFault
  /-- SEQ_RETRY (R324). The RETRY_GAP of a RETRY policy expires and the target is enabled again. -/
  | seqRetry
  /-- DOWN_LEAD (R327). DOWN_LEAD ticks after entry to DOWN, step 0 of the down table runs. -/
  | downLead
  /-- SEQ_MIN_OFF (R327). MIN_OFF has elapsed since DOWN_DONE, so the sequencer enters UP. -/
  | seqMinOff
  /-- RAIL_FAIL (R329). An identity's fault timer expires; it is marked FAILED and FLT_POL acts. -/
  | railFail (id : Nat)
  /-- RAIL_PG_DEGLITCH (R331). RAIL_PG has held a new level for DGL, so the identity's good changes and edges are counted for chatter. -/
  | railPgDeglitch (id : Nat) (level : Bool)
  /-- SEQ_REQ_ON (R326). The ON bit of SEQ.REQ makes an on request. -/
  | seqReqOn (m : Nat)
  /-- SEQ_REQ_OFF (R326). The OFF bit of SEQ.REQ makes an off request. -/
  | seqReqOff (m : Nat)
  /-- SEQ_EN (R328). A write of SEQ.CTRL.EN starts the sequencer after the group masks are checked. -/
  | seqEn (m : Nat) (v : W32)
  /-- SEQTBL_COMMIT_UP (R322). The UP bit of SEQTBL.COMMIT checks the power-up table and snapshots it. -/
  | seqtblCommitUp (m : Nat)
  /-- SEQTBL_COMMIT_DOWN (R322). The DOWN bit of SEQTBL.COMMIT checks the power-down table and snapshots it. -/
  | seqtblCommitDown (m : Nat)
  /-- WDI_KICK (R334). A rising edge on WDI kicks the watchdog. -/
  | wdiKick
  /-- KICK (R334). A write of 0xA5A5_5A5A to WDOG.KICK kicks the watchdog; other values are counted. -/
  | kick (m : Nat) (v : W32)
  /-- WIN_MIN_END (R335). WIN_MIN elapses, so the watchdog window becomes OPEN. -/
  | winMinEnd
  /-- EXPIRED (R336). WIN_MAX or BOOT_WIN elapses without a kick and the selected action is taken. -/
  | expired
  /-- HOST_RST_END (R336). The HOST_RST_n pulse of RST_W ends. -/
  | hostRstEnd
  /-- WDOG_EN (R335). A write of WDOG.CTRL.EN starts the watchdog in BOOT, or stops it and ends AUTONOMOUS. -/
  | wdogEn (m : Nat) (v : W32)
  /-- BAT_ID_READ (R348). Every 10 ms BAT_ID is read and presence, identity and swap are judged. -/
  | batIdRead (b rid : Nat)
  /-- ACCEPT (R351). The ACCEPT bit of BATTb.CMD clears SWAPPED and returns the learned values to nameplate. -/
  | accept (m b : Nat)
  /-- IMP_GO (R360). The IMP_GO bit of BATTb.CMD requests an impedance measurement. -/
  | impGo (m b : Nat)
  /-- IMP_PERIOD (R360). IMP_PERIOD hours elapse, so an impedance measurement is due. -/
  | impPeriod (b : Nat)
  /-- IMP_FREQ_STEP (R360). A frequency of the impedance sine ends and the next begins. -/
  | impFreqStep (b zmag : Nat) (zph zreal : Int)
  /-- BATT_VOLTAGE_JUDGE (R366). Every 1 ms the hardware judges a string's voltage warning conditions on the mean VSNS. -/
  | battVoltageJudge (b mv : Nat)
  /-- BATT_LEVEL_TIMER (R365). A voltage condition has held or failed for LVL_T, so the string's warning level changes. -/
  | battLevelTimer (b lvl : Nat) (enter : Bool)
  /-- BATT_EN (R594). A write of BATTb.CTRL.EN starts the string, or ends its levels and releases its clamp. -/
  | battEn (m b : Nat) (v : W32)
  /-- BATT_COMMIT_OCV (R369). The OCV bit of BATTb.COMMIT checks and applies the OCV table. -/
  | battCommitOcv (m b : Nat)
  /-- BATT_COMMIT_CHG (R369). The CHG bit of BATTb.COMMIT applies the charge settings. -/
  | battCommitChg (m b : Nat)
  /-- BATT_COMMIT_LVL (R369). The LVL bit of BATTb.COMMIT applies the warning levels. -/
  | battCommitLvl (m b : Nat)
  /-- BATT_COMMIT_LEARN (R357). The LEARN bit of BATTb.COMMIT restores the learned values, or refuses the restore. -/
  | battCommitLearn (m b : Nat) (cap res cyc soh : W32) (idExp : W32)
  /-- THERM_ROUND (R371). Each 1 ms round reads the package diode, the TS inputs and the ring sensors, and compares them with their limits and ranges. -/
  | thermRound (x : TherRound)
  /-- EXCLUDED (R376). A ring sensor has deviated beyond DEV for XCHK.T and is excluded. -/
  | excluded (i : Nat)
  /-- CAL (R375). The CAL bit of THERM.CMD starts a ring-sensor calibration. -/
  | cal (m : Nat)
  /-- CAL_DONE (R375). The package diode has settled, or 100 ms have passed, so the ring offsets are set. -/
  | calDone
  /-- LINK_UP (R386). Synchronisation has held for 10 ms, with negotiation complete, so the port is UP. -/
  | linkUp (p : Nat) (an fd : Bool)
  /-- LINK_DOWN (R386). A port loses synchronisation and goes DOWN. -/
  | linkDown (p : Nat)
  /-- FRAME_RECEIVED (R388). A port accepts a frame into its receive queue, or drops it. -/
  | frameReceived (p : Nat) (bytes : List Byte) (fcsOk : Bool)
  /-- MERGE_ENTRY (R396). Both path engines process one merge-stream entry, compare their outputs and release the active's. -/
  | mergeEntry (e : Entry) (equal : Bool)
  /-- ENGINE_FLAG (R398). A path engine raises its self-check flag, leading to a switch-over, a repair or a double fault. -/
  | engineFlag (mask reason cyc : Nat)
  /-- SUPERVISION_SEND (R390). Every LIFE_CHECK a supervision frame is sent on both ports. -/
  | supervisionSend
  /-- ENTRY_FORGET (R393). A duplicate-table entry not heard for ENTRY_FORGET is freed. -/
  | entryForget (i : Nat)
  /-- REPAIR_STAGE_DONE (R403). A repair stage (reset, test, copy or catch-up) completes and the next begins. -/
  | repairStageDone (e : Nat) (ok : Bool)
  /-- SWITCH (R405). The SWITCH bit of NETPAIR.CMD forces a switch-over, or is refused. -/
  | switch (m cyc : Nat)
  /-- REPAIR (R407). The REPAIR bit of NETPAIR.CMD starts the repair of an engine. -/
  | repair (m e : Nat)
  /-- REBUILD_DONE (R408). The first engine to pass its test after a double fault becomes active with rebuilt state. -/
  | rebuildDone (e : Nat)
  /-- HELLO_RECEIVED (R428). A HELLO is judged against the member table, admitting a member, marking a conflict or mismatch, or yielding. -/
  | helloReceived (f : Hello)
  /-- SHARE_RECEIVED (R271). A SHARE report is counted if it is timely and valid. -/
  | shareReceived (f : ShareRpt)
  /-- SUMMARY_RECEIVED (R275). A SUMMARY frame is counted for the canopy. -/
  | summaryReceived (f : SumRpt)
  /-- CAPSET (R433). A CAPSET frame is taken for GCAP or CCAP, late ones being written at once. -/
  | capset (f : Capset)
  /-- CAPSET_APPLY (R433). At its EFFECTIVE period, the cap of a CAPSET is written as master 0x2. -/
  | capsetApply
  /-- READ (R434). A MGMT_REQ READ reads COUNT words across pages. -/
  | read (q : MgmtHdr) (addr count : Nat)
  /-- WRITE (R435). A MGMT_REQ WRITE writes COUNT words within a page as one staged transaction. -/
  | write (q : MgmtHdr) (addr : Nat) (data : List W32)
  /-- READ_FIXED (R434). A MGMT_REQ READ_FIXED reads one address repeatedly. -/
  | readFixed (q : MgmtHdr) (addr count : Nat)
  /-- WRITE_FIXED (R434). A MGMT_REQ WRITE_FIXED writes one address repeatedly. -/
  | writeFixed (q : MgmtHdr) (addr : Nat) (data : List W32)
  /-- UPDATE_BLK (R572). An UPDATE_BLK frame delivers one block for master 0x2. -/
  | updateBlk (q : MgmtHdr) (ofs : Nat) (data : List Byte)
  /-- SEND (R511). A MBOX frame with OP SEND writes the payload and rings the channel for master 0x2. -/
  | send (q : MgmtHdr) (ch : Nat) (payload : List W32)
  /-- ACK_READ (R511). A MBOX frame with OP ACK_READ returns the acknowledge and, for the receiver, the payload. -/
  | ackRead (q : MgmtHdr) (ch : Nat)
  /-- HELLO_SEND (R430). Every HELLO_INT, and at once on joining, the module sends a HELLO. -/
  | helloSend
  /-- JOIN_DONE (R430). JOIN_T after the first HELLO, JOINING ends and the module shares. -/
  | joinDone
  /-- LEAVING_HELLO (R431). A leaving module sends three HELLOs with LEAVING, 10 ms apart. -/
  | leavingHello
  /-- MEMBER_DROP (R431). A member silent for DROP_T has its slot freed. -/
  | memberDrop (mem : Nat)
  /-- DUP_SHELF_GONE (R429). 3 x HELLO_INT has passed without a frame bearing the module's number from another MAC, so the DUP_SHELF cause is gone. -/
  | dupShelfGone
  /-- HEALTH_SEND (R425). HEALTH is sent every HEALTH_INT, and within 1 ms of a change of state. -/
  | healthSend
  /-- FORGET (R431). The FORGET bit of BENUF.CMD frees one member slot in this view. -/
  | forget (m mem : Nat)
  /-- HELLO_NOW (R430). The HELLO_NOW bit of BENUF.CMD sends a HELLO at once. -/
  | helloNow (m : Nat)
  /-- BENUF_EN (R445). A write of BENUF.CTRL.EN starts or stops Benuf, joining or leaving the grove. -/
  | benufEn (m : Nat) (v : W32)
  /-- PTP_MESSAGE (R440). A PTP message is received and timestamped; Sync intervals are judged for lock. -/
  | ptpMessage (x : PtpMsg)
  /-- ANNOUNCE_TIMEOUT (R439). A port's announce receipt times out, so the servo may change port. -/
  | announceTimeout (p : Nat)
  /-- PPS_EDGE (R442). PPS_OUT rises at each whole second and falls after W. -/
  | ppsEdge (rise : Bool)
  /-- TAI_S_READ (R443). A read of PTP.TAI_S latches TAI_NS. -/
  | taiSRead (m sec ns : Nat)
  /-- TWT_WRITE (R450). A two-wire write transaction is staged and committed at STOP or repeated start. -/
  | twtWrite (x : TwtWr)
  /-- TWT_READ (R454). A two-wire read transaction sends register bytes from the pointer. -/
  | twtRead (ptr : Option Nat) (n : Nat) (lastAcc : Bool)
  /-- TIMEOUT (R457). SCL has been held low for 30 ms, so the target abandons the transaction. -/
  | timeout
  /-- STRETCH_LIMIT (R456). A clock stretch reaches STRETCH_MAX and the target releases SCL. -/
  | stretchLimit (reading : Bool)
  /-- POLL_ROUND (R463). Every POLL_INT a polling round of a controller port starts. -/
  | pollRound (p : Nat)
  /-- TWC_TRANSACTION_START (R465). Between transactions, a controller port takes its next work in priority order. -/
  | twcTransactionStart (p : Nat)
  /-- TWC_TRANSACTION_END (R468). A controller-port transaction ends with success or an error, updating readings and entry states. -/
  | twcTransactionEnd (p : Nat) (res : TwcRes)
  /-- ARB_BACKOFF_END (R469). After the bus is free and the back-off has passed, the port retries the transaction. -/
  | arbBackoffEnd (p : Nat)
  /-- TWC_STRETCH_TMO (R468). A target holds SCL for STRETCH_TMO and the port gives the transaction up. -/
  | twcStretchTmo (p : Nat)
  /-- BUS_STUCK (R468). A line has been held low for 35 ms despite recovery, so BUS_STUCK latches. -/
  | busStuck (p : Nat)
  /-- BUS_RECOVERY_RETRY (R468). Every 100 ms a stuck port retries bus recovery. -/
  | busRecoveryRetry (p : Nat) (free : Bool)
  /-- ALERT (R467). TWCm_ALERT_n held low starts alert handling through the Alert Response Address. -/
  | alert (p addr : Nat)
  /-- TWC_COMMIT_POLL (R473). The POLL bit of TWCm.COMMIT applies the polling table at the next round. -/
  | twcCommitPoll (m p : Nat)
  /-- DOORBELL (R508). A sender's valid ring of DOORBELLk makes the channel FULL and notifies the receiver. -/
  | doorbell (m ch : Nat) (v : W32)
  /-- TAKEN (R508). The receiver writes the acknowledge with TAKEN, or with a progress code. -/
  | taken (m ch : Nat) (h l : W32)
  /-- DONE (R508). The receiver writes the acknowledge with DONE and a return code. -/
  | done (m ch : Nat) (h l : W32)
  /-- MBOX_BIND (R505). A binding write to MBOX table 8 binds and locks an unbound channel, or is refused. -/
  | mboxBind (m ch : Nat) (v : W32)
  /-- MBOX_RESEND (R510). Every 1 s while FULL, a channel to master 0x2 re-sends its MBOX frame. -/
  | mboxResend (ch : Nat)
  /-- INSTALL (R513). Rootstock's key service installs a key in a Heartwood slot. -/
  | install (ch : Nat)
  /-- ERASE (R513). Rootstock's key service erases a key slot. -/
  | erase (ch : Nat)
  /-- RECORD_DRAIN (R522). Every 500 us one staged record is written to its Ring slot, and to the Root log when marked. -/
  | recordDrain
  /-- RD_SEQ (R531). A write of RD_SEQ_H and RD_SEQ_L places the master's read position. -/
  | rdSeq (m : Nat) (h l : W32)
  /-- RD_DATA (R531). A read of the RD_DATA port fetches the next word of the record and advances after word 17. -/
  | rdData (m : Nat) (accepted : Bool)
  /-- SUBMIT (R535). 11 words written to the SUBMIT port make a firmware or host record, or are refused. -/
  | submit (m : Nat) (words : List W32)
  /-- STREAM_FRAME (R534). BATCH records are waiting, or STREAM_T has passed, so a REC_STREAM frame is built and sent. -/
  | streamFrame
  /-- OPTIME_STORE (R519). Once per second the operating time is stored in module state. -/
  | optimeStore
  /-- ANCHOR_INTERVAL (R521). Every ANCHOR_INT while locked, a TIME_ANCHOR record is made. -/
  | anchorInterval
  /-- OPTIME_H_READ (R537). A read of REC.OPTIME_H latches OPTIME_L. -/
  | optimeHRead (m : Nat)
  /-- SCAN_DONE (R526). The recorder's start-up scan completes and sets the next sequence number and Root slot. -/
  | scanDone
  /-- SELFTEST_DONE (R542). The start-up self-test ends and failed units are excluded or the module enters Sapling. -/
  | selftestDone (fails : List UnitFail) (rows : List (Nat × Nat)) (ms : Nat) (readOnly : Bool)
  /-- START_HOLD_RELEASE (R539). Start-up, waiting for HOLD_OK, proceeds to adopt-then-drive. -/
  | startHoldRelease
  /-- ADOPT_WINDOW_END (R547). The 10 us adopt window ends and every output drives its adopted level. -/
  | adoptWindowEnd (lv : List Sensed) (ms : Nat)
  /-- LIFE_ARM (R555). A LIFE.CMD ARM names a target life-cycle state. -/
  | lifeArm (m : Nat) (v : W32) (auth : Bool)
  /-- LIFE_COMMIT (R555). A LIFE.CMD COMMIT starts the transition, or is refused. -/
  | lifeCommit (m : Nat) (v : W32) (auth : Bool)
  /-- ARM_EXPIRY (R555). 1 s passes after ARM without a COMMIT, so the arm lapses. -/
  | armExpiry
  /-- CHANGED (R556). The fuses are blown and read back, so the new life-cycle state is in force. -/
  | changed
  /-- START_IMAGE (R574). UPDATE.CMD START_IMAGE opens an image download for its owner. -/
  | startImage (m : Nat)
  /-- START_PLAN (R574). UPDATE.CMD START_PLAN opens a plan download for its owner. -/
  | startPlan (m : Nat)
  /-- ACTIVATE (R576). UPDATE.CMD ACTIVATE activates a verified image or stores a verified plan. -/
  | activate (m : Nat)
  /-- ABORT (R574). UPDATE.CMD ABORT returns the download to IDLE. -/
  | abort (m : Nat)
  /-- RESUME (R589). UPDATE.CMD RESUME leaves Sapling and continues start-up at step 5. -/
  | resume (m : Nat)
  /-- UPDATE_BLOCK (R571). A TWT block written to UPDATE.BLK_DATA is checked and written to MRAM. -/
  | updateBlock (words : List W32)
  /-- VERIFY_DONE (R574). The read-back SHA-256 or the plan check completes, giving VERIFIED or FAILED. -/
  | verifyDone
  /-- PLAN_STORE_DONE (R582). The limp region and copy word of a stored plan are written, so the download returns to IDLE. -/
  | planStoreDone
  /-- SYNC_IN_PRESENT (R20). SYNC_IN edges arrive within the ±100 ppm band again, so SYNC_IN becomes PRESENT and the reference starts to be pulled towards it. -/
  | syncInPresent (ferr : Int)
  /-- VAUX_INPUT_RETURN (R46). A lost VAUX_A or VAUX_B input comes back, and its VAUX_x_OK status returns to 1. -/
  | vauxInputReturn (inp : Nat)
  /-- CLUSTERS_START (R27). After a firmware restart with cause COMMAND or LOCKUP, the clusters start from the code shadow as it stands, by T1 + 0.6 ms, and check their task state. -/
  | clustersStart (fmtOk : List Bool)
  /-- SYNC_INTERVAL (R438). At each Sync interval the PTP block sends its Delay_Req or peer-delay messages, and, as master under the BMCA, its Sync and Announce messages, on each port. -/
  | syncInterval (p : Nat)
  /-- GIN_HI_END (R158). A GIN comparator A falls back below its threshold, so the GIN truncation of the selected rails ends and their integrators run again. -/
  | ginHiEnd (i : Nat) (x : Int) (t : Instant)
  /-- UV_COMPARATOR_HIGH (R173). CORE sees the VSNS comparator B high again, so the under-voltage timer restarts and a reported UV is no longer present. -/
  | uvComparatorHigh (r : Nat) (x : Int)
  deriving DecidableEq, Repr

end Sys2Proof
end

