-- ==== Sys2Proof/WellFormed.lean ====
section
/-! DEFINITION. What a well-formed command is: every number within the range that the spec gives its
operand. A command outside it names nothing of the block. -/

namespace Sys2Proof

/-- A register write of a transaction: an aligned address of the register space (R69). -/
def RegWr.wf (w : RegWr) : Bool := w.addr < 65536 && w.addr % 4 = 0

/-- A memory access (R476, R477): 1, 2, 4 or 8 bytes at any offset; symbols of R96; the rivals
are masters of R479. -/
def MemReq.wf (q : MemReq) : Bool :=
  q.m < 0x1B && (q.size = 1 || q.size = 2 || q.size = 4 || q.size = 8)
    && q.addr < 2 ^ 32 && q.bad ≤ 20 && q.sym < 20 && q.rivals.all (fun x => x.1 < 0x1B)
    && q.task.all (fun i => i < 12)

/-- A task's run (R117): 12 tasks. -/
def TaskRun.wf (r : TaskRun) : Bool := r.id < 12

/-- A code of Q1.15 (R155). -/
def codeWf (x : Int) : Bool := decide (-32768 ≤ x) && decide (x ≤ 32767)

/-- The latest samples of GIN0 to GIN3 (R155). -/
def ginWf (g : List Int) : Bool := g.length ≤ 4 && g.all codeWf

/-- A moment of the major frame, 1 ms of CORE cycles at 400 MHz (R13, R109), and the phases whose pulses started. -/
def Instant.wf (t : Instant) : Bool := t.cyc < 400000 && t.starts.all (fun n => n < 48)

/-- What a comparator sees (R156). -/
def Crossing.wf (x : Crossing) : Bool := codeWf x.x

/-- A sample set (R155, R209). -/
def Sample.wf (x : Sample) : Bool :=
  codeWf x.y && x.cur.all (fun c => c.1 < 48 && codeWf c.2) && x.full.all (fun k => k < 4)
    && x.gin.length ≤ 4 && x.gin.all codeWf && x.t.wf

/-- A temperature round (R371, R373). -/
def TherRound.wf (x : TherRound) : Bool := x.ts.length ≤ 16 && x.ring.length ≤ 16

/-- An entry of the merge stream (R394). -/
def Entry.wf : Entry → Bool
  | .strobe => true
  | .frame p => p < 2
  | .request m => m < 16
  | .gap n => 1 ≤ n

/-- Frames of the federation (R423). -/
def Hello.wf (f : Hello) : Bool := f.src < 4096 && f.mac < 2 ^ 48 && f.maxW < 2 ^ 32 && f.gmax < 2 ^ 32 && f.ccap < 2 ^ 32
def ShareRpt.wf (f : ShareRpt) : Bool := f.src < 4096 && f.period < 2 ^ 32 && f.demand < 2 ^ 32 && f.floor < 2 ^ 32
def SumRpt.wf (f : SumRpt) : Bool := f.src < 4096 && f.period < 2 ^ 32 && f.sumD < 2 ^ 32 && f.sumF < 2 ^ 32
def Capset.wf (f : Capset) : Bool := f.grove < 256 && f.cap < 2 ^ 32 && f.effective < 2 ^ 32

/-- The header of a management request (R436). -/
def MgmtHdr.wf (q : MgmtHdr) : Bool := q.mac < 2 ^ 48 && q.seq < 2 ^ 16

/-- A PTP message (R438). -/
def PtpMsg.wf (x : PtpMsg) : Bool := x.port < 2 && x.bestPort < 2 && x.portState < 16 && x.taiNs < 10 ^ 9 && x.cyc < 400000

/-- The end of a controller-port transaction (R463, R467). -/
def TwcRes.wf : TwcRes → Bool
  | .ok v => v < 2 ^ 16
  | .addrNack => true
  | .dataNack => true
  | .pecErr => true
  | .arbLost _ => true

/-- A unit of the self-test (R3, R544). -/
def UnitFail.wf : UnitFail → Bool
  | .cluster c => c < 4
  | .bank b => b < 32
  | .shadow b => b < 16
  | .mram b => b < 16
  | .lane k => k < 4
  | .solver => true
  | .conv ch => ch < 64
  | .spareConv => true
  | .phase n => n < 48
  | .vsns r => r < 12
  | .feed c => c < 8
  | .engine e => e < 2

/-- A sensed pin of the board (R40). -/
def Sensed.wf : Sensed → Bool
  | .phEn n _ => n < 48
  | .phPwm n _ => n < 48
  | .railEn i _ => i < 32
  | .sysPg _ => true
  | .ppsOut _ => true
  | .fdGate c _ => c < 8

/-- The well-formed commands. -/
def Instr.wf : Instr → Bool
  | .powerOn va vb straps => va < 2 ^ 16 && vb < 2 ^ 16 && straps < 8
  | .brownOut => true
  | .brownOutEnd => true
  | .vauxInputLost inp => inp < 2
  | .collapse va vb _ => va < 2 ^ 16 && vb < 2 ^ 16
  | .vauxDip _ _ => true
  | .lastBreathEntry _ _ => true
  | .lastBreathReset => true
  | .holdOk => true
  | .resetPin => true
  | .resetRelease straps => straps < 8
  | .clkLoss clk => clk < 8
  | .clkRestartTry clk _ => clk < 8
  | .clkResume clk => clk < 8
  | .syncLock _ => true
  | .syncLost => true
  | .fwRestart m => m < 16
  | .moduleResetCmd m => m < 16
  | .saplingCmd m => m < 16
  | .clusterLockup c => c < 4
  | .codeShadowLoaded fmtOk => fmtOk.length ≤ 12
  | .freezeEnd => true
  | .fwLost => true
  | .profileChange m _ => m < 16
  | .registerWrite m addr _ others => m < 16 && addr < 65536
    && others.all (fun x => x.1 < 16 && x.1 ≠ m && x.2.addr < 65536)
  | .softRst m page => m < 16 && page < 256
  | .lock m page _ => m < 16 && page < 256
  | .evtRawClear m page _ => m < 16 && page < 256
  | .fltStatClear m page _ => m < 16 && page < 256
  | .fltWinWrite m addr _ => m < 16 && addr < 65536
  | .bucketBoundary win => win < 65536 && win % 4 = 0
  | .tblDataAccess m page _ => m < 16 && page < 256
  | .memoryAccess q => q.wf
  | .retired unit row => unit < 66 && row < 2 ^ 16
  | .scrubStep _ bad sym => bad ≤ 20 && sym < 20
  | .shadowReload addr => addr < 0x100000
  | .tamper j => j < 2
  | .tamperPulseCheck j _ _ => j < 2
  | .glitch kind => kind < 3
  | .wipeCmd m _ => m < 16
  | .wiped => true
  | .majorFrame ids => ids.all (fun i => i < 12)
  | .taskStart id _ gin acok _ => id < 12 && ginWf gin && acok < 2 ^ 32
  | .taskDeadline r => r.wf
  | .overflow id => id < 12
  | .schedEn m _ => m < 16
  | .clusterReady c => c < 4
  | .bistReq m _ => m < 16
  | .clusterIsolated c => c < 4
  | .bistDone c _ => c < 4
  | .rotTest => true
  | .bankMoveDone bank => bank < 32
  | .railEn m r _ => m < 16 && r < 12
  | .phaseEn m n _ => m < 16 && n < 48
  | .loopSample r x => r < 12 && x.wf
  | .dutyRelease r t => r < 12 && t.wf
  | .railPeriodBoundary r t => r < 12 && t.wf
  | .trunc r x t => r < 12 && codeWf x && t.wf
  | .truncExit r x t => r < 12 && codeWf x && t.wf
  | .ov r cyc => r < 12 && cyc < 400000
  | .cbcTrip n x t => n < 48 && x.wf && t.wf
  | .negLimitTrip n x t => n < 48 && x.wf && t.wf
  | .uvComparatorLow r x => r < 12 && codeWf x
  | .uv r cyc => r < 12 && cyc < 400000
  | .ginHi i x t => i < 4 && codeWf x && t.wf
  | .ginLo i x cyc => i < 4 && codeWf x && cyc < 400000
  | .rollSlotEnd _ _ span => span ≤ 100
  | .calReq m _ => m < 16
  | .refCalDone _ _ _ => true
  | .monReading i val => i < 16 && val < 2 ^ 16
  | .dtAdapt r _ => r < 12
  | .dropReady r => r < 12
  | .ssStall r cyc => r < 12 && cyc < 400000
  | .ssCbcShort r cyc => r < 12 && cyc < 400000
  | .shortRetry r => r < 12
  | .probeStart n => n < 48
  | .probeDone n => n < 48
  | .railCommitRef m r => m < 16 && r < 12
  | .railCommitProt m r => m < 16 && r < 12
  | .railCommitShed m r => m < 16 && r < 12
  | .cleCommit m _ => m < 16
  | .cleEn m _ => m < 16
  | .traceEn m k _ => m < 16 && k < 4
  | .arm m k => m < 16 && k < 4
  | .force m k cyc => m < 16 && k < 4 && cyc < 400000
  | .stop m k => m < 16 && k < 4
  | .solveDone => true
  | .wake slot => slot < 32
  | .droopWake gin => ginWf gin
  | .wearAccumulate => true
  | .wearSave => true
  | .capEstimate gin => ginWf gin
  | .assistStep _ gin => ginWf gin
  | .hardLimit => true
  | .released => true
  | .sustained => true
  | .groveCutoff => true
  | .shareRise _ => true
  | .canopyCutoff => true
  | .epeCommitSrc m => m < 16
  | .groveEn m _ => m < 16
  | .feedDetect cyc gin => cyc < 400000 && ginWf gin
  | .slopeDetect cyc gin => cyc < 400000 && ginWf gin
  | .acokDetect cyc gin => cyc < 400000 && ginWf gin
  | .full _ => true
  | .busLoopSample gin => ginWf gin
  | .stringShedResume => true
  | .inGoodChange acok => acok < 2 ^ 32
  | .returning => true
  | .cutoffExit => true
  | .xingEn m _ => m < 16
  | .xingCommitBus m => m < 16
  | .feedEn m c _ => m < 16 && c < 8
  | .feedInsDelay c => c < 8
  | .feedExcursion c _ => c < 8
  | .feedOn c => c < 8
  | .feedSample c vin vout _ _ => c < 8 && vin < 2 ^ 20 && vout < 2 ^ 20
  | .fastTrip c => c < 8
  | .feedRetry c => c < 8
  | .feedConduct c => c < 8
  | .reverse c => c < 8
  | .damaged c => c < 8
  | .noConduct c => c < 8
  | .degraded c => c < 8
  | .feedCommitWin m c => m < 16 && c < 8
  | .feedCommitTrip m c => m < 16 && c < 8
  | .seqTick acok => acok < 2 ^ 32
  | .seqWaitDone => true
  | .stepFault => true
  | .seqRetry => true
  | .downLead => true
  | .seqMinOff => true
  | .railFail id => id < 44
  | .railPgDeglitch id _ => id < 44
  | .seqReqOn m => m < 16
  | .seqReqOff m => m < 16
  | .seqEn m _ => m < 16
  | .seqtblCommitUp m => m < 16
  | .seqtblCommitDown m => m < 16
  | .wdiKick => true
  | .kick m _ => m < 16
  | .winMinEnd => true
  | .expired => true
  | .hostRstEnd => true
  | .wdogEn m _ => m < 16
  | .batIdRead b rid => b < 8 && rid < 2 ^ 32
  | .accept m b => m < 16 && b < 8
  | .impGo m b => m < 16 && b < 8
  | .impPeriod b => b < 8
  | .impFreqStep b _ _ _ => b < 8
  | .battVoltageJudge b _ => b < 8
  | .battLevelTimer b lvl _ => b < 8 && 1 ≤ lvl && lvl ≤ 3
  | .battEn m b _ => m < 16 && b < 8
  | .battCommitOcv m b => m < 16 && b < 8
  | .battCommitChg m b => m < 16 && b < 8
  | .battCommitLvl m b => m < 16 && b < 8
  | .battCommitLearn m b _ _ _ _ _ => m < 16 && b < 8
  | .thermRound x => x.wf
  | .excluded i => i < 16
  | .cal m => m < 16
  | .calDone => true
  | .linkUp p _ _ => p < 2
  | .linkDown p => p < 2
  | .frameReceived p bytes _ => p < 2 && bytes.length ≤ 1600
  | .mergeEntry e _ => e.wf
  | .engineFlag mask _ cyc => 1 ≤ mask && mask ≤ 3 && cyc < 400000
  | .supervisionSend => true
  | .entryForget i => i < 2 ^ 16
  | .repairStageDone e _ => e < 2
  | .switch m cyc => m < 16 && cyc < 400000
  | .repair m e => m < 16 && e < 2
  | .rebuildDone e => e < 2
  | .helloReceived f => f.wf
  | .shareReceived f => f.wf
  | .summaryReceived f => f.wf
  | .capset f => f.wf
  | .capsetApply => true
  | .read q addr count => q.wf && addr < 2 ^ 32 && 1 ≤ count && count ≤ 256
  | .write q addr data => q.wf && addr < 2 ^ 32 && 1 ≤ data.length && data.length ≤ 256
  | .readFixed q addr count => q.wf && addr < 2 ^ 32 && 1 ≤ count && count ≤ 256
  | .writeFixed q addr data => q.wf && addr < 2 ^ 32 && 1 ≤ data.length && data.length ≤ 256
  | .updateBlk q ofs data => q.wf && ofs < 2 ^ 32 && 1 ≤ data.length && data.length ≤ 1024
  | .send q ch payload => q.wf && ch < 32 && payload.length = 16
  | .ackRead q ch => q.wf && ch < 32
  | .helloSend => true
  | .joinDone => true
  | .leavingHello => true
  | .memberDrop mem => mem < 64
  | .dupShelfGone => true
  | .healthSend => true
  | .forget m mem => m < 16 && mem < 64
  | .helloNow m => m < 16
  | .benufEn m _ => m < 16
  | .ptpMessage x => x.wf
  | .announceTimeout p => p < 2
  | .ppsEdge _ => true
  | .taiSRead m sec ns => m < 16 && sec < 2 ^ 48 && ns < 10 ^ 9
  | .twtWrite x => x.bytes.length ≠ 0
  | .twtRead _ n _ => 1 ≤ n
  | .timeout => true
  | .stretchLimit _ => true
  | .pollRound p => p < 4
  | .twcTransactionStart p => p < 4
  | .twcTransactionEnd p res => p < 4 && res.wf
  | .arbBackoffEnd p => p < 4
  | .twcStretchTmo p => p < 4
  | .busStuck p => p < 4
  | .busRecoveryRetry p _ => p < 4
  | .alert p addr => p < 4 && addr < 128
  | .twcCommitPoll m p => m < 16 && p < 4
  | .doorbell m ch _ => m < 16 && ch < 32
  | .taken m ch _ _ => m < 16 && ch < 32
  | .done m ch _ _ => m < 16 && ch < 32
  | .mboxBind m ch _ => m < 16 && ch < 32
  | .mboxResend ch => ch < 32
  | .install ch => ch < 32
  | .erase ch => ch < 32
  | .recordDrain => true
  | .rdSeq m _ _ => m < 16
  | .rdData m _ => m < 16
  | .submit m words => m < 16 && words.length ≠ 0
  | .streamFrame => true
  | .optimeStore => true
  | .anchorInterval => true
  | .optimeHRead m => m < 16
  | .scanDone => true
  | .selftestDone fails rows _ _ => fails.all UnitFail.wf && rows.all (fun x => (x.1 < 53 || (64 ≤ x.1 && x.1 < 80)) && x.2 < 256)
  | .startHoldRelease => true
  | .adoptWindowEnd lv _ => lv.all Sensed.wf
  | .lifeArm m _ _ => m < 16
  | .lifeCommit m _ _ => m < 16
  | .armExpiry => true
  | .changed => true
  | .startImage m => m < 16
  | .startPlan m => m < 16
  | .activate m => m < 16
  | .abort m => m < 16
  | .resume m => m < 16
  | .updateBlock words => 1 ≤ words.length && words.length ≤ 64
  | .verifyDone => true
  | .planStoreDone => true
  | .syncInPresent _ => true
  | .vauxInputReturn inp => inp < 2
  | .clustersStart fmtOk => fmtOk.length ≤ 12
  | .syncInterval p => p < 2
  | .ginHiEnd i x t => i < 4 && codeWf x && t.wf
  | .uvComparatorHigh r x => r < 12 && codeWf x

end Sys2Proof
end

