-- ==== Sys2Proof/Machine/Bits.lean ====
section
/-! DEFINITION. Bit fields, complement pairs (R90), saturating counts, Q formats, the roundings of
R593, and the sparse map that registers, tables and memories are held in. -/

namespace Sys2Proof.Machine

/-! ### Bit fields -/

/-- The `w` bits of `v` from bit `lo`, as a number. -/
def bits (v : W32) (lo w : Nat) : Nat := v.toNat / 2 ^ lo % 2 ^ w

/-- Bit `i` of `v`. -/
def bit (v : W32) (i : Nat) : Bool := v.toNat.testBit i

/-- `v` with its `w` bits from bit `lo` replaced by `x`. -/
def setBits (v : W32) (lo w x : Nat) : W32 :=
  BitVec.ofNat 32
    (v.toNat % 2 ^ lo + x % 2 ^ w * 2 ^ lo + v.toNat / 2 ^ (lo + w) * 2 ^ (lo + w))

/-- `v` with bit `i` set. -/
def setBit (v : W32) (i : Nat) : W32 := v ||| BitVec.ofNat 32 (2 ^ i)

/-- `v` with bit `i` cleared. -/
def clrBit (v : W32) (i : Nat) : W32 := v &&& ~~~(BitVec.ofNat 32 (2 ^ i))

/-- A number of `w` bits read as two's complement. -/
def sext (w x : Nat) : Int :=
  if x % 2 ^ w < 2 ^ (w - 1) then ((x % 2 ^ w : Nat) : Int) else ((x % 2 ^ w : Nat) : Int) - 2 ^ w

/-- An integer as the two's-complement number of `w` bits that holds it, saturating. -/
def satInt (w : Nat) (x : Int) : Int :=
  if x < -(2 ^ (w - 1) : Int) then -(2 ^ (w - 1) : Int)
  else if 2 ^ (w - 1) - 1 < x then 2 ^ (w - 1) - 1 else x

/-- The low `w` bits of an integer. -/
def wrapInt (w : Nat) (x : Int) : Nat := (x % 2 ^ w).toNat

/-- `x` kept between `lo` and `hi`. -/
def clampInt (lo hi x : Int) : Int := if x < lo then lo else if hi < x then hi else x

/-- Addition that stops at the largest number of `w` bits. -/
def satAdd (w a b : Nat) : Nat := min (a + b) (2 ^ w - 1)

/-! ### Complement pairs (R90) -/

/-- The halves of an RWP register complement each other (R90, R91). -/
def pairOk (v : W32) : Bool := bits v 16 16 + bits v 0 16 = 0xFFFF

/-- The RWP register of a 16-bit value (R90). -/
def mkPair (x : Nat) : W32 := BitVec.ofNat 32 (x % 2 ^ 16 * 2 ^ 16 + (0xFFFF - x % 2 ^ 16))

/-! ### Roundings -/

/-- Rounding of `a / b` to the nearest, an exact half to the even neighbour (R593). -/
def roundDiv (a : Int) (b : Nat) : Int :=
  if b = 0 then 0 else
  let q := a / (b : Int)
  let r := a % (b : Int)
  if 2 * r < b then q
  else if (b : Int) < 2 * r then q + 1
  else if q % 2 = 0 then q else q + 1

/-- Division rounded up. -/
def ceilDiv (a b : Nat) : Nat := if b = 0 then 0 else (a + b - 1) / b

/-- The largest `r ≤ fuel` with `r * r ≤ n`, searched by bits from `k` down. -/
def isqrtFrom (n : Nat) : Nat → Nat → Nat
  | 0, r => r
  | k + 1, r => if (r + 2 ^ k) * (r + 2 ^ k) ≤ n then isqrtFrom n k (r + 2 ^ k) else isqrtFrom n k r

/-- The integer square root of a number below 2^64. -/
def isqrt (n : Nat) : Nat := isqrtFrom n 33 0

/-! ### Lists by index -/

/-- The entry `i` of a list, or `d` beyond its end. -/
def nth (d : α) (l : List α) (i : Nat) : α := l.getD i d

/-- The list with entry `i` changed; an index beyond its end changes nothing (R2). -/
def upd (l : List α) (i : Nat) (f : α → α) : List α := l.modify i f

/-- A list of `n` copies. -/
def rep (n : Nat) (x : α) : List α := List.replicate n x

/-- Sum of a list of numbers. -/
def sumN (l : List Nat) : Nat := l.foldl (· + ·) 0

/-- Sum of a list of integers. -/
def sumI (l : List Int) : Int := l.foldl (· + ·) 0

/-! ### Sparse maps

A map from a number to a value, as a list of the keys that hold something, with a default `d` for
every other key. Registers are written with `putK`; memories with `setK`, which keeps the list
rising and free of entries equal to the default, so that equal memories are equal lists. -/

/-- What key `k` holds. -/
def getK (d : Nat → α) : List (Nat × α) → Nat → α
  | [], k => d k
  | (k', v) :: l, k => if k = k' then v else getK d l k

/-- The map with key `k` put to `v`. -/
def putK : List (Nat × α) → Nat → α → List (Nat × α)
  | [], k, v => [(k, v)]
  | (k', v') :: l, k, v =>
    if k < k' then (k, v) :: (k', v') :: l
    else if k = k' then (k, v) :: l
    else (k', v') :: putK l k v

/-- The map with key `k` set to `v`, in canonical form. -/
def setK [DecidableEq α] (d : Nat → α) : List (Nat × α) → Nat → α → List (Nat × α)
  | [], k, v => if v = d k then [] else [(k, v)]
  | (k', v') :: l, k, v =>
    if k < k' then (if v = d k then (k', v') :: l else (k, v) :: (k', v') :: l)
    else if k = k' then (if v = d k then l else (k, v) :: l)
    else (k', v') :: setK d l k v

/-- The keys rise strictly from `lo` on, and no entry equals the default. -/
def wfFrom [DecidableEq α] (d : Nat → α) : Nat → List (Nat × α) → Bool
  | _, [] => true
  | lo, (k, v) :: l => decide (lo ≤ k) && decide (v ≠ d k) && wfFrom d (k + 1) l

/-- What a word of a memory holds that nothing is listed for. -/
def zero64 (_ : Nat) : W64 := 0

/-- The canonical form of a sparse map. -/
def wfMap [DecidableEq α] (d : Nat → α) (l : List (Nat × α)) : Bool := wfFrom d 0 l

/-- A key put into a rising list of keys. -/
def insKey : List Nat → Nat → List Nat
  | [], k => [k]
  | k' :: l, k => if k < k' then k :: k' :: l else if k = k' then k' :: l else k' :: insKey l k

/-- A key taken out of a list of keys. -/
def delKey (l : List Nat) (k : Nat) : List Nat := l.filter (fun x => x ≠ k)

end Sys2Proof.Machine
end

