-- ==== Sys2Proof/Machine/Crc.lean ====
section
/-! DEFINITION. The check sums: CRC-16 and CRC-32C of R416, CRC-8 of R458, and words as bytes, most
significant byte first (R449). -/

namespace Sys2Proof.Machine

/-- One bit of a CRC that shifts left, with `w` bits and polynomial `poly`. -/
def crcStepL (w poly : Nat) : Nat → Nat → Nat
  | 0, c => c
  | k + 1, c =>
    crcStepL w poly k
      (if c.testBit (w - 1) then Nat.xor (c * 2 % 2 ^ w) poly else c * 2 % 2 ^ w)

/-- A CRC without reflection over bytes. -/
def crcL (w poly : Nat) : List Byte → Nat → Nat
  | [], c => c
  | b :: l, c => crcL w poly l (crcStepL w poly 8 (Nat.xor c (b.toNat * 2 ^ (w - 8))))

/-- One bit of a reflected CRC. -/
def crcStepR (poly : Nat) : Nat → Nat → Nat
  | 0, c => c
  | k + 1, c => crcStepR poly k (if c % 2 = 1 then Nat.xor (c / 2) poly else c / 2)

/-- A reflected CRC over bytes. -/
def crcR (poly : Nat) : List Byte → Nat → Nat
  | [], c => c
  | b :: l, c => crcR poly l (crcStepR poly 8 (Nat.xor c b.toNat))

/-- The header check: CRC-16, polynomial 0x1021, initial value 0xFFFF (R416). -/
def crc16 (l : List Byte) : Nat := crcL 16 0x1021 l 0xFFFF

/-- CRC-32C, polynomial 0x1EDC_6F41 reflected, initial and final value 0xFFFF_FFFF (R416). -/
def crc32c (l : List Byte) : Nat := Nat.xor (crcR 0x82F63B78 l 0xFFFFFFFF) 0xFFFFFFFF

/-- CRC-32, polynomial 0x04C1_1DB7 reflected, initial and final value 0xFFFF_FFFF (R579). -/
def crc32 (l : List Byte) : Nat := Nat.xor (crcR 0xEDB88320 l 0xFFFFFFFF) 0xFFFFFFFF

/-- The SMBus PEC: CRC-8, polynomial 0x07 (R458). -/
def crc8 (l : List Byte) : Nat := crcL 8 0x07 l 0

/-- The `n` bytes of a number, most significant first. -/
def toBytes : Nat → Nat → List Byte
  | 0, _ => []
  | n + 1, x => BitVec.ofNat 8 (x / 256 ^ n) :: toBytes n x

/-- The number that bytes spell, most significant first. -/
def ofBytes (l : List Byte) : Nat := l.foldl (fun a b => a * 256 + b.toNat) 0

/-- Words as bytes. -/
def wordBytes (l : List W32) : List Byte := l.flatMap (fun w => toBytes 4 w.toNat)

/-- Bytes as words; a trailing part of a word is left out. -/
def bytesWords : List Byte → List W32
  | a :: b :: c :: d :: l => BitVec.ofNat 32 (ofBytes [a, b, c, d]) :: bytesWords l
  | _ => []

end Sys2Proof.Machine
end

