-- ==== Sys2Proof/Config.lean ====
section
/-! DEFINITION. The free values: what the spec leaves open although the block goes on. Each is an
opaque constant, so nothing can be proved about which value it has. -/

namespace Sys2Proof.Config

/-- The data that a read returns when the errors of a word are spread over three or more symbols
and are not detected (R96), per word address and stored word. -/
opaque undetectedRead : Nat → W64 → W64

/-- Whether an error over three or more symbols is detected at a read (R96). -/
opaque undetected : Nat → W64 → Bool

/-- SHA-256 of a byte string (R574, R566): the function itself is not stated in the spec. -/
opaque sha256 : List Byte → List Byte

/-- Whether an ECDSA signature is good for a digest under a key (R567). -/
opaque ecdsaOk : List Byte → List Byte → List Byte → Bool

/-- The AES-CMAC of a message under a key of Heartwood (R437, R513). -/
opaque cmac : List Byte → List Byte → List Byte

/-- The declared cost in µs of task `t` in the image of version `v` (R121). -/
opaque declCost : Nat → Nat → Nat

/-- The temperature in 0.1 °C that a ring sensor's count stands for before its offset (R374). -/
opaque ringCurve : Nat → Int

/-- The temperature in 0.1 °C of a thermistor of a resistance in Ω, by its R_NOM in 10 Ω and its BETA in K: the
formula of R371 with a logarithm, evaluated as the converter does (R371). -/
opaque thermistor : Nat → Nat → Nat → Int

/-- The random back-off, in bit times, of the `n`-th retry of a controller port (R469). -/
opaque backoff : Nat → Nat → Nat

/-- The sine of an impedance measurement, Q1.15 of I_FS, at frequency `f` and sample `k` of it
(R360); the model keeps it within ±1 %. -/
opaque impSine : Nat → Nat → Int

/-- The access list that Rootstock gives HEART at step 5 of start-up (R491), before its fixed bits. -/
opaque heartAcl : W32

/-- A free value of the spec that has no operands of its own, by the place it arises and a
running number. -/
opaque free : Nat → Nat → Nat

end Sys2Proof.Config
end

