-- ==== Sys2Proof/Machine/RegTable.lean ====
section
/-! DEFINITION. The register map: the pages of R72, the registers and fields of every block with
their access code (R6), reset value (R9) and effect (R8), and the numbers of each page's events
and faults. The tables are those of the register and field tables of spec/01 to spec/19. -/

namespace Sys2Proof.Machine

/-- The block types (R72), with the header of every page as `hdr` (R74). -/
inductive Blk where
  | hdr
  | sys
  | clk
  | integ
  | sched
  | sched1
  | place
  | phase
  | rail
  | cle
  | trace
  | adccal
  | epe
  | cap
  | grove
  | feed
  | xing
  | seq
  | seqtbl
  | wdog
  | batt
  | therm
  | net
  | netpair
  | ptp
  | benuf
  | twt
  | twc
  | mem
  | heart
  | mbox
  | recd
  | bist
  | life
  | update
  deriving DecidableEq, Repr

/-- Access codes (R6). -/
inductive Acc where
  | ro
  | rw
  | rwp
  | w1c
  | w1s
  | wo
  deriving DecidableEq, Repr

/-- When a write takes effect (R8): at once, only while EN is 0, at the block's next boundary, or
on the COMMIT of the group with that number. -/
inductive Eff where
  | now
  | stop
  | live
  | group (g : Nat)
  deriving DecidableEq, Repr

/-- One register of a page: its offset, access, effect, reset value and the bits that a write
reaches (R7). -/
structure RegRow where
  off : Nat
  acc : Acc
  eff : Eff
  rst : Nat
  mask : Nat
  deriving DecidableEq, Repr

/-- A field of a register: its offset in the page, its lowest bit and its width. -/
structure Fld where
  off : Nat
  lo : Nat
  w : Nat
  deriving DecidableEq, Repr

/-- The same field `k` registers further on. -/
def Fld.at (f : Fld) (k : Nat) : Fld := ⟨f.off + 4 * k, f.lo, f.w⟩

/-! ### Page bases (R72) -/

/-- First page of SYS; 1 page. -/
def pgSys : Nat := 0x00
/-- First page of CLK; 1 page. -/
def pgClk : Nat := 0x01
/-- First page of INTEG; 1 page. -/
def pgInteg : Nat := 0x02
/-- First page of SCHED; 1 page. -/
def pgSched : Nat := 0x04
/-- First page of SCHED1; 1 page. -/
def pgSched1 : Nat := 0x05
/-- First page of PLACE; 1 page. -/
def pgPlace : Nat := 0x06
/-- First page of PHASE; 48 pages. -/
def pgPhase : Nat := 0x10
/-- First page of RAIL; 12 pages. -/
def pgRail : Nat := 0x40
/-- First page of CLE; 1 page. -/
def pgCle : Nat := 0x50
/-- First page of TRACE; 4 pages. -/
def pgTrace : Nat := 0x51
/-- First page of ADCCAL; 1 page. -/
def pgAdccal : Nat := 0x58
/-- First page of EPE; 1 page. -/
def pgEpe : Nat := 0x60
/-- First page of CAP; 1 page. -/
def pgCap : Nat := 0x61
/-- First page of GROVE; 1 page. -/
def pgGrove : Nat := 0x62
/-- First page of FEED; 8 pages. -/
def pgFeed : Nat := 0x68
/-- First page of XING; 1 page. -/
def pgXing : Nat := 0x70
/-- First page of SEQ; 1 page. -/
def pgSeq : Nat := 0x78
/-- First page of SEQTBL; 1 page. -/
def pgSeqtbl : Nat := 0x79
/-- First page of WDOG; 1 page. -/
def pgWdog : Nat := 0x7A
/-- First page of BATT; 8 pages. -/
def pgBatt : Nat := 0x80
/-- First page of THERM; 1 page. -/
def pgTherm : Nat := 0x88
/-- First page of NET; 2 pages. -/
def pgNet : Nat := 0x90
/-- First page of NETPAIR; 1 page. -/
def pgNetpair : Nat := 0x92
/-- First page of PTP; 1 page. -/
def pgPtp : Nat := 0x93
/-- First page of BENUF; 1 page. -/
def pgBenuf : Nat := 0x94
/-- First page of TWT; 1 page. -/
def pgTwt : Nat := 0xA0
/-- First page of TWC; 4 pages. -/
def pgTwc : Nat := 0xA1
/-- First page of MEM; 1 page. -/
def pgMem : Nat := 0xB0
/-- First page of HEART; 1 page. -/
def pgHeart : Nat := 0xB1
/-- First page of MBOX; 4 pages. -/
def pgMbox : Nat := 0xB8
/-- First page of REC; 1 page. -/
def pgRec : Nat := 0xC0
/-- First page of BIST; 1 page. -/
def pgBist : Nat := 0xC8
/-- First page of LIFE; 1 page. -/
def pgLife : Nat := 0xC9
/-- First page of UPDATE; 1 page. -/
def pgUpdate : Nat := 0xD0

/-! ### Register offsets -/

/-- HDR.PAGE_ID (R74): Block type, instance, layout version, page count. -/
def PAGE_ID : Nat := 0x00
/-- HDR.CTRL (R74): Enable, soft reset; block bits from 8. -/
def CTRL : Nat := 0x04
/-- HDR.STAT (R74): Running, pending and lock state; block bits from 8. -/
def STAT : Nat := 0x08
/-- HDR.EVT_RAW (R74): Events since last cleared. -/
def EVT_RAW : Nat := 0x0C
/-- HDR.EVT_EN (R74): Events that assert HOST_IRQ_n. -/
def EVT_EN : Nat := 0x10
/-- HDR.FLT_STAT (R74): Lasting faults; cleared only once the cause is gone. -/
def FLT_STAT : Nat := 0x14
/-- HDR.FLT_WIN (R74): Fault window of the page's block faults. -/
def FLT_WIN : Nat := 0x18
/-- HDR.LOCK (R74): Configuration and enable locks. -/
def LOCK : Nat := 0x1C
/-- SYS.TBL_SEL (R558): Table 0: identity (R551). -/
def TBL_SEL : Nat := 0x20
/-- SYS.TBL_IDX (R558): Word, 0 to 16. -/
def TBL_IDX : Nat := 0x24
/-- SYS.TBL_DATA (R558): Identity word. -/
def TBL_DATA : Nat := 0x28
/-- SYS.STATUS (R558): Phase of life and flags. -/
def SYS_STATUS : Nat := 0x2C
/-- SYS.PROFILE (R558): [1:0] SEL (R34, R37). -/
def SYS_PROFILE : Nat := 0x30
/-- SYS.RESET_CAUSE (R558): Last module reset. -/
def SYS_RESET_CAUSE : Nat := 0x34
/-- SYS.RESTART (R558): Firmware restarts. -/
def SYS_RESTART : Nat := 0x38
/-- SYS.CMD (R558): Command (R561). -/
def SYS_CMD : Nat := 0x3C
/-- SYS.FW_VERSION (R558): Epoch [31:24], major.minor.patch [23:0] of the running image. -/
def SYS_FW_VERSION : Nat := 0x40
/-- SYS.OUT_FAIL0 (R558): Bit n: phase n output failed at adopt, 0 to 31. -/
def SYS_OUT_FAIL0 : Nat := 0x44
/-- SYS.OUT_FAIL1 (R558): [15:0] phases 32 to 47; [16] SYS_PG; [17] PPS_OUT. -/
def SYS_OUT_FAIL1 : Nat := 0x48
/-- SYS.OUT_FAIL2 (R558): Bit i: RAIL_EN[i] failed at adopt. -/
def SYS_OUT_FAIL2 : Nat := 0x4C
/-- SYS.MAC_H (R558): [15:0] MAC [47:32] in use. -/
def SYS_MAC_H : Nat := 0x50
/-- SYS.MAC_L (R558): MAC [31:0] in use. -/
def SYS_MAC_L : Nat := 0x54
/-- SYS.START_TIME (R558): [15:0] ms from the start of step 1 to the end of step 10. -/
def SYS_START_TIME : Nat := 0x58
/-- CLK.SYNC_CFG (R22): SYNC_IN enable, edge and frequency. -/
def CLK_SYNC_CFG : Nat := 0x20
/-- CLK.SYNC_STAT (R22): SYNC_IN state and frequency error. -/
def CLK_SYNC_STAT : Nat := 0x24
/-- CLK.CLK_STAT (R22): Clocks present. -/
def CLK_CLK_STAT : Nat := 0x28
/-- CLK.LOSS_CNT (R22): Losses of NETA, NETB, TWI and NVM since reset, saturating. -/
def CLK_LOSS_CNT : Nat := 0x2C
/-- CLK.LOSS_LAST (R22): Last loss. -/
def CLK_LOSS_LAST : Nat := 0x30
/-- CLK.PULL (R22): Pull of the reference in force, 0.001 ppm, signed. -/
def CLK_PULL : Nat := 0x34
/-- INTEG.PAIR_WIN (R106): Window for pair mismatches at use, applied to each page. -/
def INTEG_PAIR_WIN : Nat := 0x2C
/-- INTEG.PAIR_ERR (R106): [31:16] refused pair writes; [15:0] mismatches at use; each saturates at 0xFFFF. -/
def INTEG_PAIR_ERR : Nat := 0x30
/-- INTEG.PAIR_LAST (R106): Last pair event. -/
def INTEG_PAIR_LAST : Nat := 0x34
/-- INTEG.CFG_LAST (R106): Last refused write. -/
def INTEG_CFG_LAST : Nat := 0x38
/-- INTEG.CFG_CNT (R106): Refused writes since reset, saturating. -/
def INTEG_CFG_CNT : Nat := 0x3C
/-- INTEG.IRQ_SUM0 (R106): Bit p of IRQ_SUMi is page 32i + p asserting HOST_IRQ_n (R78). -/
def INTEG_IRQ_SUM0 : Nat := 0x40
/-- INTEG.IRQ_SUM1 (R106): Bit p of IRQ_SUMi is page 32i + p asserting HOST_IRQ_n (R78). -/
def INTEG_IRQ_SUM1 : Nat := 0x44
/-- INTEG.IRQ_SUM2 (R106): Bit p of IRQ_SUMi is page 32i + p asserting HOST_IRQ_n (R78). -/
def INTEG_IRQ_SUM2 : Nat := 0x48
/-- INTEG.IRQ_SUM3 (R106): Bit p of IRQ_SUMi is page 32i + p asserting HOST_IRQ_n (R78). -/
def INTEG_IRQ_SUM3 : Nat := 0x4C
/-- INTEG.IRQ_SUM4 (R106): Bit p of IRQ_SUMi is page 32i + p asserting HOST_IRQ_n (R78). -/
def INTEG_IRQ_SUM4 : Nat := 0x50
/-- INTEG.IRQ_SUM5 (R106): Bit p of IRQ_SUMi is page 32i + p asserting HOST_IRQ_n (R78). -/
def INTEG_IRQ_SUM5 : Nat := 0x54
/-- INTEG.IRQ_SUM6 (R106): Bit p of IRQ_SUMi is page 32i + p asserting HOST_IRQ_n (R78). -/
def INTEG_IRQ_SUM6 : Nat := 0x58
/-- INTEG.IRQ_SUM7 (R106): Bit p of IRQ_SUMi is page 32i + p asserting HOST_IRQ_n (R78). -/
def INTEG_IRQ_SUM7 : Nat := 0x5C
/-- SCHED.TB_CFG (R139): Timebase options. -/
def SCHED_TB_CFG : Nat := 0x2C
/-- SCHED.TB_STAT (R139): Timebase source and steps. -/
def SCHED_TB_STAT : Nat := 0x30
/-- SCHED.MFRAME (R139): Major frames since release, [31:0]. -/
def SCHED_MFRAME : Nat := 0x34
/-- SCHED.DROP_CNT (R139): Drops since reset, saturating. -/
def SCHED_DROP_CNT : Nat := 0x38
/-- SCHED.DROP_LAST (R139): Last drop or abort. -/
def SCHED_DROP_LAST : Nat := 0x3C
/-- SCHED.JIT_MAX (R139): Largest task start jitter since reset, in CORE cycles, saturating. -/
def SCHED_JIT_MAX : Nat := 0x40
/-- SCHED1.TASK_COST0 (R141): [31:16] utilisation in 0.1 %, [15:0] high-water time in µs, task 0. -/
def SCHED1_TASK_COST0 : Nat := 0x20
/-- SCHED1.TASK_COST1 (R141): [31:16] utilisation in 0.1 %, [15:0] high-water time in µs, task 1. -/
def SCHED1_TASK_COST1 : Nat := 0x24
/-- SCHED1.TASK_COST2 (R141): [31:16] utilisation in 0.1 %, [15:0] high-water time in µs, task 2. -/
def SCHED1_TASK_COST2 : Nat := 0x28
/-- SCHED1.TASK_COST3 (R141): [31:16] utilisation in 0.1 %, [15:0] high-water time in µs, task 3. -/
def SCHED1_TASK_COST3 : Nat := 0x2C
/-- SCHED1.TASK_COST4 (R141): [31:16] utilisation in 0.1 %, [15:0] high-water time in µs, task 4. -/
def SCHED1_TASK_COST4 : Nat := 0x30
/-- SCHED1.TASK_COST5 (R141): [31:16] utilisation in 0.1 %, [15:0] high-water time in µs, task 5. -/
def SCHED1_TASK_COST5 : Nat := 0x34
/-- SCHED1.TASK_COST6 (R141): [31:16] utilisation in 0.1 %, [15:0] high-water time in µs, task 6. -/
def SCHED1_TASK_COST6 : Nat := 0x38
/-- SCHED1.TASK_COST7 (R141): [31:16] utilisation in 0.1 %, [15:0] high-water time in µs, task 7. -/
def SCHED1_TASK_COST7 : Nat := 0x3C
/-- SCHED1.TASK_COST8 (R141): [31:16] utilisation in 0.1 %, [15:0] high-water time in µs, task 8. -/
def SCHED1_TASK_COST8 : Nat := 0x40
/-- SCHED1.TASK_COST9 (R141): [31:16] utilisation in 0.1 %, [15:0] high-water time in µs, task 9. -/
def SCHED1_TASK_COST9 : Nat := 0x44
/-- SCHED1.TASK_COST10 (R141): [31:16] utilisation in 0.1 %, [15:0] high-water time in µs, task 10. -/
def SCHED1_TASK_COST10 : Nat := 0x48
/-- SCHED1.TASK_COST11 (R141): [31:16] utilisation in 0.1 %, [15:0] high-water time in µs, task 11. -/
def SCHED1_TASK_COST11 : Nat := 0x4C
/-- PLACE.CFG (R142): LEAN and rotating test. -/
def PLACE_CFG : Nat := 0x2C
/-- PLACE.BIST_REQ (R142): In-service self-test request. -/
def PLACE_BIST_REQ : Nat := 0x30
/-- PLACE.CLU_STAT (R142): State of each cluster. -/
def PLACE_CLU_STAT : Nat := 0x34
/-- PLACE.CLU_LOAD (R142): Load of each cluster. -/
def PLACE_CLU_LOAD : Nat := 0x38
/-- PLACE.PLAN_STAT (R142): N−1 result and last refusal. -/
def PLACE_PLAN_STAT : Nat := 0x3C
/-- PLACE.POINTS (R142): Declared and numbered points. -/
def PLACE_POINTS : Nat := 0x40
/-- PLACE.SLOT_LAST (R142): Last refused rail. -/
def PLACE_SLOT_LAST : Nat := 0x44
/-- PLACE.MOVE_CNT (R142): Task owner changes since reset, saturating. -/
def PLACE_MOVE_CNT : Nat := 0x48
/-- PHASE.CFG (R202): Rail, role, policy, sense gain. -/
def PHASE_CFG : Nat := 0x20
/-- PHASE.ISNS_SCALE (R202): Current at full scale, 0.1 A. -/
def PHASE_ISNS_SCALE : Nat := 0x24
/-- PHASE.ILIM_POS (R202): Cycle-by-cycle limit, 0.1 A. -/
def PHASE_ILIM_POS : Nat := 0x28
/-- PHASE.ILIM_NEG (R202): Negative limit magnitude, 0.1 A. -/
def PHASE_ILIM_NEG : Nat := 0x2C
/-- PHASE.OPEN_THR (R202): Open-suspect threshold, 0.1 A (1.0 A). -/
def PHASE_OPEN_THR : Nat := 0x30
/-- PHASE.MODEL (R202): Declared inductance and path resistance. -/
def PHASE_MODEL : Nat := 0x34
/-- PHASE.STATUS (R202): State, flags, position, rank. -/
def PHASE_STATUS : Nat := 0x38
/-- PHASE.IPH (R202): Current in use and observer estimate. -/
def PHASE_IPH : Nat := 0x3C
/-- PHASE.DUTY (R202): Duty in force and ceiling. -/
def PHASE_DUTY : Nat := 0x40
/-- PHASE.CBC_CNT (R202): Cycle-by-cycle trips since reset, saturating. -/
def PHASE_CBC_CNT : Nat := 0x44
/-- PHASE.PROBE (R202): Last probe. -/
def PHASE_PROBE : Nat := 0x48
/-- RAIL.CFG (R204): Kind, modes, decimation, blanking, frequency, observer input. -/
def RAIL_CFG : Nat := 0x2C
/-- RAIL.VSET (R204): Set point, rail voltage unit. -/
def RAIL_VSET : Nat := 0x30
/-- RAIL.SLOPE (R204): Ramp slope, 0.1 V/ms, from 1 to 1,000. -/
def RAIL_SLOPE : Nat := 0x34
/-- RAIL.RAMP_LEAD (R204): Ramp lead, mV (100 mV). -/
def RAIL_RAMP_LEAD : Nat := 0x38
/-- RAIL.OVS (R204): Overshoot threshold and hysteresis. -/
def RAIL_OVS : Nat := 0x3C
/-- RAIL.OVS_MIN (R204): Minimum overshoot margin, mV (50 mV). -/
def RAIL_OVS_MIN : Nat := 0x40
/-- RAIL.UV_THR (R204): Under-voltage level, rail voltage unit; 0 off. -/
def RAIL_UV_THR : Nat := 0x44
/-- RAIL.UV_DELAY (R204): [16:0] delay, µs (100 µs). -/
def RAIL_UV_DELAY : Nat := 0x48
/-- RAIL.ILIM_RAIL (R204): Rail limit, 1 A; 0 none. -/
def RAIL_ILIM_RAIL : Nat := 0x4C
/-- RAIL.PH_RATING (R204): Phase rating, 0.1 A. -/
def RAIL_PH_RATING : Nat := 0x50
/-- RAIL.DUTY_MAX (R204): Maximum duty, Q1.15 (0.90). -/
def RAIL_DUTY_MAX : Nat := 0x54
/-- RAIL.DUTY_MIN (R204): Open-suspect duty, Q1.15 (0.05). -/
def RAIL_DUTY_MIN : Nat := 0x58
/-- RAIL.SHED_CFG (R204): Shedding enable, minimum phases, dwell. -/
def RAIL_SHED_CFG : Nat := 0x5C
/-- RAIL.DT (R204): Dead time. -/
def RAIL_DT : Nat := 0x60
/-- RAIL.DT_LIM (R204): Adaptive bounds. -/
def RAIL_DT_LIM : Nat := 0x64
/-- RAIL.SS_CFG (R204): Stall time and retry gap. -/
def RAIL_SS_CFG : Nat := 0x68
/-- RAIL.SHORT_WIN (R204): Short counter window (4 in 1 s). -/
def RAIL_SHORT_WIN : Nat := 0x6C
/-- RAIL.OVS_TMAX (R204): [15:0] maximum truncation, ms (10 ms). -/
def RAIL_OVS_TMAX : Nat := 0x70
/-- RAIL.PROBE_CFG (R204): Probe settings. -/
def RAIL_PROBE_CFG : Nat := 0x74
/-- RAIL.OBS_CFG (R204): Observer and derating. -/
def RAIL_OBS_CFG : Nat := 0x78
/-- RAIL.COMMIT (R204): Bit 0 REF, bit 1 PROT, bit 2 SHED. -/
def RAIL_COMMIT : Nat := 0x7C
/-- RAIL.STATUS (R204): State and counts. -/
def RAIL_STATUS : Nat := 0x80
/-- RAIL.VMEAS (R204): Voltage and reference. -/
def RAIL_VMEAS : Nat := 0x84
/-- RAIL.IMEAS (R204): Current and capacity. -/
def RAIL_IMEAS : Nat := 0x88
/-- RAIL.PER_TAPS (R204): [19:0] period in taps, following `CFG.FSW_KHZ` (R148). -/
def RAIL_PER_TAPS : Nat := 0x8C
/-- RAIL.TRUNC_CNT (R204): Truncations since reset, saturating. -/
def RAIL_TRUNC_CNT : Nat := 0x90
/-- RAIL.SHED_CNT (R204): [15:0] adds, [31:16] drops, each saturating. -/
def RAIL_SHED_CNT : Nat := 0x94
/-- RAIL.DT_NOW (R204): Dead time in force, layout as `DT`. -/
def RAIL_DT_NOW : Nat := 0x98
/-- RAIL.CAPACITY (R204): Capacity and refused table entry. -/
def RAIL_CAPACITY : Nat := 0x9C
/-- CLE.COMMIT (R238): Bit r: apply rail r's sets (R225). -/
def CLE_COMMIT : Nat := 0x2C
/-- CLE.CPEND (R238): Bit r: rail r has a committed set waiting for its sample. -/
def CLE_CPEND : Nat := 0x30
/-- CLE.LANE_USE0 (R238): Lane occupancy. -/
def CLE_LANE_USE0 : Nat := 0x34
/-- CLE.LANE_USE1 (R238): Lane occupancy. -/
def CLE_LANE_USE1 : Nat := 0x38
/-- CLE.LANE_USE2 (R238): Lane occupancy. -/
def CLE_LANE_USE2 : Nat := 0x3C
/-- CLE.LANE_USE3 (R238): Lane occupancy. -/
def CLE_LANE_USE3 : Nat := 0x40
/-- CLE.LAST (R238): Last refusal, mismatch or poison. -/
def CLE_LAST : Nat := 0x44
/-- CLE.FREEZE (R238): Bit r: voltage integrator frozen; bit 16 + r: current integrator frozen. -/
def CLE_FREEZE : Nat := 0x48
/-- CLE.SAT_CNT (R238): Samples with a saturated rail output since reset, saturating. -/
def CLE_SAT_CNT : Nat := 0x4C
/-- TRACE.CFG (R240): Source rail, divider, auto re-arm. -/
def TRACE_CFG : Nat := 0x2C
/-- TRACE.NODES0 (R240): NODESj: node 2j in [31:16], node 2j + 1 in [15:0] (R234). -/
def TRACE_NODES0 : Nat := 0x30
/-- TRACE.NODES1 (R240): NODESj: node 2j in [31:16], node 2j + 1 in [15:0] (R234). -/
def TRACE_NODES1 : Nat := 0x34
/-- TRACE.NODES2 (R240): NODESj: node 2j in [31:16], node 2j + 1 in [15:0] (R234). -/
def TRACE_NODES2 : Nat := 0x38
/-- TRACE.NODES3 (R240): NODESj: node 2j in [31:16], node 2j + 1 in [15:0] (R234). -/
def TRACE_NODES3 : Nat := 0x3C
/-- TRACE.TRIG (R240): Trigger kind, polarity, node. -/
def TRACE_TRIG : Nat := 0x40
/-- TRACE.TRIG_LEVEL (R240): [15:0] level, Q1.15. -/
def TRACE_TRIG_LEVEL : Nat := 0x44
/-- TRACE.TRIG_SRC (R240): Fault and external sources. -/
def TRACE_TRIG_SRC : Nat := 0x48
/-- TRACE.PRE (R240): [11:0] samples before the trigger (2,048). -/
def TRACE_PRE : Nat := 0x4C
/-- TRACE.ARM (R240): Bit 0 ARM, bit 1 FORCE, bit 2 STOP. -/
def TRACE_ARM : Nat := 0x50
/-- TRACE.STATUS (R240): State and trigger position. -/
def TRACE_STATUS : Nat := 0x54
/-- TRACE.TRIG_FRAME (R240): `SCHED.MFRAME` at the trigger. -/
def TRACE_TRIG_FRAME : Nat := 0x58
/-- TRACE.TRIG_CYC (R240): CORE cycle in the major frame at the trigger, from 0 to 399,999. -/
def TRACE_TRIG_CYC : Nat := 0x5C
/-- ADCCAL.CFG (R206): Rolling enable, minimum span. -/
def ADCCAL_CFG : Nat := 0x2C
/-- ADCCAL.CAL_REQ (R206): Reference calibration request. -/
def ADCCAL_CAL_REQ : Nat := 0x30
/-- ADCCAL.SPARE_STAT (R206): Spare converter use. -/
def ADCCAL_SPARE_STAT : Nat := 0x34
/-- ADCCAL.ROLL_POS (R206): [5:0] channel, [31:16] passes since reset. -/
def ADCCAL_ROLL_POS : Nat := 0x38
/-- ADCCAL.FAIL_MAP0 (R206): Bit c: channel c failed. -/
def ADCCAL_FAIL_MAP0 : Nat := 0x3C
/-- ADCCAL.FAIL_MAP1 (R206): Bit c: channel 32 + c failed. -/
def ADCCAL_FAIL_MAP1 : Nat := 0x40
/-- ADCCAL.GIN_CFG0 (R206): GIN gain, mode, decimation. -/
def ADCCAL_GIN_CFG0 : Nat := 0x44
/-- ADCCAL.GIN_CFG1 (R206): GIN gain, mode, decimation. -/
def ADCCAL_GIN_CFG1 : Nat := 0x48
/-- ADCCAL.GIN_CFG2 (R206): GIN gain, mode, decimation. -/
def ADCCAL_GIN_CFG2 : Nat := 0x4C
/-- ADCCAL.GIN_CFG3 (R206): GIN gain, mode, decimation. -/
def ADCCAL_GIN_CFG3 : Nat := 0x50
/-- ADCCAL.GIN_HI0 (R206): Comparator A threshold. -/
def ADCCAL_GIN_HI0 : Nat := 0x54
/-- ADCCAL.GIN_HI1 (R206): Comparator A threshold. -/
def ADCCAL_GIN_HI1 : Nat := 0x58
/-- ADCCAL.GIN_HI2 (R206): Comparator A threshold. -/
def ADCCAL_GIN_HI2 : Nat := 0x5C
/-- ADCCAL.GIN_HI3 (R206): Comparator A threshold. -/
def ADCCAL_GIN_HI3 : Nat := 0x60
/-- ADCCAL.GIN_LO0 (R206): Comparator B threshold. -/
def ADCCAL_GIN_LO0 : Nat := 0x64
/-- ADCCAL.GIN_LO1 (R206): Comparator B threshold. -/
def ADCCAL_GIN_LO1 : Nat := 0x68
/-- ADCCAL.GIN_LO2 (R206): Comparator B threshold. -/
def ADCCAL_GIN_LO2 : Nat := 0x6C
/-- ADCCAL.GIN_LO3 (R206): Comparator B threshold. -/
def ADCCAL_GIN_LO3 : Nat := 0x70
/-- ADCCAL.GIN_ACT0 (R206): Bits [12i+11:12i], i = 0, 1: bit r set when rail r is truncated by GIN i comparator A. -/
def ADCCAL_GIN_ACT0 : Nat := 0x74
/-- ADCCAL.GIN_ACT1 (R206): Bits [12i+11:12i], i = 0, 1: bit r set when rail r is truncated by GIN 2 + i comparator A. -/
def ADCCAL_GIN_ACT1 : Nat := 0x78
/-- ADCCAL.MON_CFG (R206): Monitor converter enables, averaging. -/
def ADCCAL_MON_CFG : Nat := 0x7C
/-- ADCCAL.MON_EN (R206): Bit i: MON[i] read. -/
def ADCCAL_MON_EN : Nat := 0x80
/-- ADCCAL.MON_DIV (R206): Bit i: MON[i] read through the 1/33 divider. -/
def ADCCAL_MON_DIV : Nat := 0x84
/-- ADCCAL.MON_HI_MAP (R206): Bit i: MON[i] above its high limit. -/
def ADCCAL_MON_HI_MAP : Nat := 0x88
/-- ADCCAL.MON_LO_MAP (R206): Bit i: MON[i] below its low limit. -/
def ADCCAL_MON_LO_MAP : Nat := 0x8C
/-- EPE.CFG (R278): Period, bus voltage input. -/
def EPE_CFG : Nat := 0x2C
/-- EPE.WEIGHTS (R278): Cost weights. -/
def EPE_WEIGHTS : Nat := 0x30
/-- EPE.POLICY (R278): Reserve k, battery floor. -/
def EPE_POLICY : Nat := 0x34
/-- EPE.STBY_CFG (R278): Standby enable and loads. -/
def EPE_STBY_CFG : Nat := 0x38
/-- EPE.STBY_TIME (R278): Minimum on and off times. -/
def EPE_STBY_TIME : Nat := 0x3C
/-- EPE.WAKE_DVDT (R278): Droop wake slope, 0.1 V/ms (2 V/ms). -/
def EPE_WAKE_DVDT : Nat := 0x40
/-- EPE.TRIM_CFG (R278): Trim gain, step, limit. -/
def EPE_TRIM_CFG : Nat := 0x44
/-- EPE.PMB_CMD (R278): PMBus bytes and codes. -/
def EPE_PMB_CMD : Nat := 0x48
/-- EPE.COMMIT (R278): Bit 0 SRC. -/
def EPE_COMMIT : Nat := 0x4C
/-- EPE.STATUS (R278): Last solve. -/
def EPE_STATUS : Nat := 0x50
/-- EPE.DEMAND (R278): [19:0] d_load + d_chg, 10 mA. -/
def EPE_DEMAND : Nat := 0x54
/-- EPE.ICAP (R278): [19:0] icap, 10 mA; 0xF_FFFF no cap. -/
def EPE_ICAP : Nat := 0x58
/-- EPE.VBUS (R278): [15:0] V_bus, mV. -/
def EPE_VBUS : Nat := 0x5C
/-- EPE.LEVEL (R278): [20:0] water level of the last pass. -/
def EPE_LEVEL : Nat := 0x60
/-- EPE.SOLVE_CNT (R278): Committed solves since reset, saturating. -/
def EPE_SOLVE_CNT : Nat := 0x64
/-- CAP.LOCAL_CAP_H (R280): Local cap [31:16], W. -/
def CAP_LOCAL_CAP_H : Nat := 0x20
/-- CAP.LOCAL_CAP_L (R280): Local cap [15:0], W; 16,777,215 none. -/
def CAP_LOCAL_CAP_L : Nat := 0x24
/-- CAP.CAP_EFF (R280): Conversion efficiency, Q0.16 (0.96). -/
def CAP_CAP_EFF : Nat := 0x28
/-- CAP.EST_CFG (R280): Estimate source and channels. -/
def CAP_EST_CFG : Nat := 0x2C
/-- CAP.BUS_ISCALE (R280): Current channel full scale, 0.1 A. -/
def CAP_BUS_ISCALE : Nat := 0x30
/-- CAP.QUAL (R280): Qualification, hysteresis, hold. -/
def CAP_QUAL : Nat := 0x34
/-- CAP.CAP_CFG0 (R280): Level and load group of CAP_n[i]. -/
def CAP_CAP_CFG0 : Nat := 0x38
/-- CAP.CAP_CFG1 (R280): Level and load group of CAP_n[i]. -/
def CAP_CAP_CFG1 : Nat := 0x3C
/-- CAP.CAP_CFG2 (R280): Level and load group of CAP_n[i]. -/
def CAP_CAP_CFG2 : Nat := 0x40
/-- CAP.CAP_CFG3 (R280): Level and load group of CAP_n[i]. -/
def CAP_CAP_CFG3 : Nat := 0x44
/-- CAP.CAP_CFG4 (R280): Level and load group of CAP_n[i]. -/
def CAP_CAP_CFG4 : Nat := 0x48
/-- CAP.CAP_CFG5 (R280): Level and load group of CAP_n[i]. -/
def CAP_CAP_CFG5 : Nat := 0x4C
/-- CAP.CAP_CFG6 (R280): Level and load group of CAP_n[i]. -/
def CAP_CAP_CFG6 : Nat := 0x50
/-- CAP.CAP_CFG7 (R280): Level and load group of CAP_n[i]. -/
def CAP_CAP_CFG7 : Nat := 0x54
/-- CAP.ASSIST_CFG (R280): Assist enable and limit. -/
def CAP_ASSIST_CFG : Nat := 0x58
/-- CAP.HL_CFG (R280): Hard limit. -/
def CAP_HL_CFG : Nat := 0x5C
/-- CAP.SUSTAIN (R280): [15:0] ms (50 ms). -/
def CAP_SUSTAIN : Nat := 0x60
/-- CAP.IN_FORCE (R280): [23:0] C, W. -/
def CAP_IN_FORCE : Nat := 0x64
/-- CAP.PIN (R280): [23:0] last estimate, W. -/
def CAP_PIN : Nat := 0x68
/-- CAP.PIN_MAX (R280): [23:0] highest estimate since reset, W. -/
def CAP_PIN_MAX : Nat := 0x6C
/-- CAP.STATUS (R280): Outputs and modes. -/
def CAP_STATUS : Nat := 0x70
/-- CAP.ASSIST (R280): [19:0] A, 10 mA. -/
def CAP_ASSIST : Nat := 0x74
/-- CAP.EXCESS_CNT (R280): Qualified excesses since reset, saturating. -/
def CAP_EXCESS_CNT : Nat := 0x78
/-- GROVE.CFG (R282): Class, canopy, rise delay. -/
def GROVE_CFG : Nat := 0x2C
/-- GROVE.FLOOR_W_H (R282): FLOOR_W, W. -/
def GROVE_FLOOR_W_H : Nat := 0x30
/-- GROVE.FLOOR_W_L (R282): FLOOR_W, W. -/
def GROVE_FLOOR_W_L : Nat := 0x34
/-- GROVE.MAX_W_H (R282): MAX_W, W. -/
def GROVE_MAX_W_H : Nat := 0x38
/-- GROVE.MAX_W_L (R282): MAX_W, W. -/
def GROVE_MAX_W_L : Nat := 0x3C
/-- GROVE.GCAP_H (R282): Grove cap without canopy, W. -/
def GROVE_GCAP_H : Nat := 0x40
/-- GROVE.GCAP_L (R282): Grove cap without canopy, W. -/
def GROVE_GCAP_L : Nat := 0x44
/-- GROVE.CCAP_H (R282): Canopy cap, W. -/
def GROVE_CCAP_H : Nat := 0x48
/-- GROVE.CCAP_L (R282): Canopy cap, W. -/
def GROVE_CCAP_L : Nat := 0x4C
/-- GROVE.GMAX_H (R282): Declared grove maximum, W. -/
def GROVE_GMAX_H : Nat := 0x50
/-- GROVE.GMAX_L (R282): Declared grove maximum, W. -/
def GROVE_GMAX_L : Nat := 0x54
/-- GROVE.SHARE_W (R282): [23:0] own share, W. -/
def GROVE_SHARE_W : Nat := 0x58
/-- GROVE.GCAP_NOW (R282): [23:0] grove cap in force, W. -/
def GROVE_GCAP_NOW : Nat := 0x5C
/-- GROVE.STATUS (R282): Counts and state. -/
def GROVE_STATUS : Nat := 0x60
/-- GROVE.MISS_CNT (R282): Missed reports since reset, saturating. -/
def GROVE_MISS_CNT : Nat := 0x64
/-- GROVE.LAST_SEND (R282): [15:0] own last SEND_OFS. -/
def GROVE_LAST_SEND : Nat := 0x68
/-- FEED.CFG (R312): Mode, degraded policy. -/
def FEED_CFG : Nat := 0x20
/-- FEED.VIN_UV (R312): Under-voltage, 10 mV (40.00 V). -/
def FEED_VIN_UV : Nat := 0x24
/-- FEED.VIN_OV (R312): Over-voltage, 10 mV (60.00 V). -/
def FEED_VIN_OV : Nat := 0x28
/-- FEED.VIN_HYS (R312): [7:0] hysteresis, 10 mV (0.50 V). -/
def FEED_VIN_HYS : Nat := 0x2C
/-- FEED.INS_DELAY (R312): [13:0] ms, from 10 to 10,000 (100 ms). -/
def FEED_INS_DELAY : Nat := 0x30
/-- FEED.ILIM (R312): Limit, shunt voltage in 0.1 mV, from 50 to 1,000 (25.0 mV). -/
def FEED_ILIM : Nat := 0x34
/-- FEED.I2T (R312): Trip energy, limit current squared × ms (10). -/
def FEED_I2T : Nat := 0x38
/-- FEED.RSENSE (R312): [19:0] shunt, µΩ. -/
def FEED_RSENSE : Nat := 0x3C
/-- FEED.GATE_CFG (R312): Ramp and timeouts. -/
def FEED_GATE_CFG : Nat := 0x40
/-- FEED.FET_CFG (R312): Drain-source checks. -/
def FEED_FET_CFG : Nat := 0x44
/-- FEED.RETRY_GAP (R312): [15:0] 10 ms steps, from 1 to 6,000 (1 s). -/
def FEED_RETRY_GAP : Nat := 0x48
/-- FEED.FWD_ON (R312): [7:0] mV, from 5 to 100 (20 mV). -/
def FEED_FWD_ON : Nat := 0x4C
/-- FEED.COMMIT (R312): Bit 0 WIN, bit 1 TRIP. -/
def FEED_COMMIT : Nat := 0x50
/-- FEED.STATUS (R312): State and flags. -/
def FEED_STATUS : Nat := 0x54
/-- FEED.VMEAS (R312): [15:0] FD_VIN, [31:16] FD_VOUT, 10 mV. -/
def FEED_VMEAS : Nat := 0x58
/-- FEED.IMEAS (R312): [15:0] current, signed, 0.1 A; [31:16] FD_GATE − FD_SRC, signed, 10 mV. -/
def FEED_IMEAS : Nat := 0x5C
/-- FEED.I2T_NOW (R312): [15:0] E, per cent of I2T. -/
def FEED_I2T_NOW : Nat := 0x60
/-- FEED.TRIP_CNT (R312): [15:0] fast trips, [31:16] I²t trips, each saturating. -/
def FEED_TRIP_CNT : Nat := 0x64
/-- FEED.REV_CNT (R312): Reverse turn-offs since reset, saturating. -/
def FEED_REV_CNT : Nat := 0x68
/-- FEED.LAST (R312): [3:0] cause: 1 fast, 2 I²t, 3 UV, 4 OV, 5 DAMAGED, 6 NO_CONDUCT, 7 DEGRADED; [31:16] `SCHED.MFRAME` [15:0]. -/
def FEED_LAST : Nat := 0x6C
/-- XING.DET (R310): Detectors, masks, filters. -/
def XING_DET : Nat := 0x20
/-- XING.SLOPE_THR (R310): Slope threshold, 0.1 V/ms (5 V/ms). -/
def XING_SLOPE_THR : Nat := 0x24
/-- XING.SLOPE_CFG (R310): Qualifying samples, arming level. -/
def XING_SLOPE_CFG : Nat := 0x28
/-- XING.RET_CFG (R310): Return sources and options. -/
def XING_RET_CFG : Nat := 0x2C
/-- XING.RETURN_QUAL (R310): [15:0] 10 ms steps, from 1 to 60,000 (5 s). -/
def XING_RETURN_QUAL : Nat := 0x30
/-- XING.RETURN_SLEW (R310): [7:0] per cent of load per second, from 1 to 100. -/
def XING_RETURN_SLEW : Nat := 0x34
/-- XING.RET_WIN (R310): Failed-return window (3 in 10 min). -/
def XING_RET_WIN : Nat := 0x38
/-- XING.BUS_REF (R310): Bus loop reference, mV; 0 the voltage at detection. -/
def XING_BUS_REF : Nat := 0x3C
/-- XING.BUS_KP (R310): 10 mA per mV / 256 (100 A/V). -/
def XING_BUS_KP : Nat := 0x40
/-- XING.BUS_KI (R310): 10 mA per mV / 65,536 per sample. -/
def XING_BUS_KI : Nat := 0x44
/-- XING.COMMIT (R310): Bit 0 BUS. -/
def XING_COMMIT : Nat := 0x48
/-- XING.STATUS (R310): State and flags. -/
def XING_STATUS : Nat := 0x4C
/-- XING.QUAL_LEFT (R310): [15:0] qualification time remaining, 10 ms. -/
def XING_QUAL_LEFT : Nat := 0x50
/-- XING.XING_CNT (R310): Detections since reset, saturating. -/
def XING_XING_CNT : Nat := 0x54
/-- XING.LAST_FRAME (R310): `SCHED.MFRAME` at the last detection. -/
def XING_LAST_FRAME : Nat := 0x58
/-- XING.LAST_CYC (R310): CORE cycle in the major frame at the last detection. -/
def XING_LAST_CYC : Nat := 0x5C
/-- XING.DROOP (R310): Lowest V_bus and t_x of the last Crossing. -/
def XING_DROOP : Nat := 0x60
/-- XING.BUS_DI (R310): [15:0] bus loop output di, signed, 0.1 A. -/
def XING_BUS_DI : Nat := 0x64
/-- SEQ.CFG (R340): Auto-on, down lead, retries. -/
def SEQ_CFG : Nat := 0x2C
/-- SEQ.REQ (R340): Bit 0 ON, bit 1 OFF. -/
def SEQ_REQ : Nat := 0x30
/-- SEQ.MIN_OFF (R340): [15:0] ms (100 ms). -/
def SEQ_MIN_OFF : Nat := 0x34
/-- SEQ.GATE (R340): [7:0] gates for WAIT_COND. -/
def SEQ_GATE : Nat := 0x38
/-- SEQ.STATUS (R340): State, step, cause. -/
def SEQ_STATUS : Nat := 0x3C
/-- SEQ.EN_MAP0 (R340): Enabled identities 0 to 31, 32 to 43. -/
def SEQ_EN_MAP0 : Nat := 0x40
/-- SEQ.EN_MAP1 (R340): Enabled identities 0 to 31, 32 to 43. -/
def SEQ_EN_MAP1 : Nat := 0x44
/-- SEQ.PG_MAP0 (R340): Good. -/
def SEQ_PG_MAP0 : Nat := 0x48
/-- SEQ.PG_MAP1 (R340): Good. -/
def SEQ_PG_MAP1 : Nat := 0x4C
/-- SEQ.TMR_MAP0 (R340): Fault timer running. -/
def SEQ_TMR_MAP0 : Nat := 0x50
/-- SEQ.TMR_MAP1 (R340): Fault timer running. -/
def SEQ_TMR_MAP1 : Nat := 0x54
/-- SEQ.FAIL_MAP0 (R340): FAILED. -/
def SEQ_FAIL_MAP0 : Nat := 0x58
/-- SEQ.FAIL_MAP1 (R340): FAILED. -/
def SEQ_FAIL_MAP1 : Nat := 0x5C
/-- SEQ.UNST_MAP0 (R340): UNSTABLE. -/
def SEQ_UNST_MAP0 : Nat := 0x60
/-- SEQ.UNST_MAP1 (R340): UNSTABLE. -/
def SEQ_UNST_MAP1 : Nat := 0x64
/-- SEQ.GRP0_M0 (R340): GRPg_M0 at 0x68 + 8g, GRPg_M1 at 0x6C + 8g. -/
def SEQ_GRP0_M0 : Nat := 0x68
/-- SEQ.GRP0_M1 (R340): GRPg_M0 at 0x68 + 8g, GRPg_M1 at 0x6C + 8g. -/
def SEQ_GRP0_M1 : Nat := 0x6C
/-- SEQ.GRP1_M0 (R340): GRPg_M0 at 0x68 + 8g, GRPg_M1 at 0x6C + 8g. -/
def SEQ_GRP1_M0 : Nat := 0x70
/-- SEQ.GRP1_M1 (R340): GRPg_M0 at 0x68 + 8g, GRPg_M1 at 0x6C + 8g. -/
def SEQ_GRP1_M1 : Nat := 0x74
/-- SEQ.GRP2_M0 (R340): GRPg_M0 at 0x68 + 8g, GRPg_M1 at 0x6C + 8g. -/
def SEQ_GRP2_M0 : Nat := 0x78
/-- SEQ.GRP2_M1 (R340): GRPg_M0 at 0x68 + 8g, GRPg_M1 at 0x6C + 8g. -/
def SEQ_GRP2_M1 : Nat := 0x7C
/-- SEQ.GRP3_M0 (R340): GRPg_M0 at 0x68 + 8g, GRPg_M1 at 0x6C + 8g. -/
def SEQ_GRP3_M0 : Nat := 0x80
/-- SEQ.GRP3_M1 (R340): GRPg_M0 at 0x68 + 8g, GRPg_M1 at 0x6C + 8g. -/
def SEQ_GRP3_M1 : Nat := 0x84
/-- SEQ.GRP4_M0 (R340): GRPg_M0 at 0x68 + 8g, GRPg_M1 at 0x6C + 8g. -/
def SEQ_GRP4_M0 : Nat := 0x88
/-- SEQ.GRP4_M1 (R340): GRPg_M0 at 0x68 + 8g, GRPg_M1 at 0x6C + 8g. -/
def SEQ_GRP4_M1 : Nat := 0x8C
/-- SEQ.GRP5_M0 (R340): GRPg_M0 at 0x68 + 8g, GRPg_M1 at 0x6C + 8g. -/
def SEQ_GRP5_M0 : Nat := 0x90
/-- SEQ.GRP5_M1 (R340): GRPg_M0 at 0x68 + 8g, GRPg_M1 at 0x6C + 8g. -/
def SEQ_GRP5_M1 : Nat := 0x94
/-- SEQ.GRP6_M0 (R340): GRPg_M0 at 0x68 + 8g, GRPg_M1 at 0x6C + 8g. -/
def SEQ_GRP6_M0 : Nat := 0x98
/-- SEQ.GRP6_M1 (R340): GRPg_M0 at 0x68 + 8g, GRPg_M1 at 0x6C + 8g. -/
def SEQ_GRP6_M1 : Nat := 0x9C
/-- SEQ.GRP7_M0 (R340): GRPg_M0 at 0x68 + 8g, GRPg_M1 at 0x6C + 8g. -/
def SEQ_GRP7_M0 : Nat := 0xA0
/-- SEQ.GRP7_M1 (R340): GRPg_M0 at 0x68 + 8g, GRPg_M1 at 0x6C + 8g. -/
def SEQ_GRP7_M1 : Nat := 0xA4
/-- SEQ.PG_OUT (R340): Bit g: group g asserted. -/
def SEQ_PG_OUT : Nat := 0xA8
/-- SEQ.STEP_LAST (R340): Last step failure. -/
def SEQ_STEP_LAST : Nat := 0xAC
/-- SEQ.EDGE_CNT (R340): Good edges outside sequences, saturating. -/
def SEQ_EDGE_CNT : Nat := 0xB0
/-- SEQTBL.COMMIT (R342): Bit 0 UP, bit 1 DOWN. -/
def SEQTBL_COMMIT : Nat := 0x2C
/-- SEQTBL.STATUS (R342): Check result and table lengths. -/
def SEQTBL_STATUS : Nat := 0x30
/-- WDOG.CFG (R344): Action, source, early policy, resume count, pulse width. -/
def WDOG_CFG : Nat := 0x20
/-- WDOG.WIN (R344): Window. -/
def WDOG_WIN : Nat := 0x24
/-- WDOG.BOOT_WIN (R344): [15:0] ms, from 1 to 60,000 (5 s). -/
def WDOG_BOOT_WIN : Nat := 0x28
/-- WDOG.KICK (R344): 0xA5A5_5A5A kicks. -/
def WDOG_KICK : Nat := 0x2C
/-- WDOG.STATUS (R344): State. -/
def WDOG_STATUS : Nat := 0x30
/-- WDOG.EXP_CNT (R344): [15:0] expiries, [31:16] early or bad kicks, each saturating. -/
def WDOG_EXP_CNT : Nat := 0x34
/-- WDOG.LAST (R344): Last expiry. -/
def WDOG_LAST : Nat := 0x38
/-- BATT.CFG (R369): Rail, temperature, presence, charge enable. -/
def BATT_CFG : Nat := 0x2C
/-- BATT.CAP_NP (R369): Nameplate capacity, 0.1 A·h. -/
def BATT_CAP_NP : Nat := 0x30
/-- BATT.R_NP (R369): Nameplate resistance, 10 µΩ. -/
def BATT_R_NP : Nat := 0x34
/-- BATT.OCV_T (R369): Row temperatures. -/
def BATT_OCV_T : Nat := 0x38
/-- BATT.CHG_I (R369): Charge current, 0.1 A. -/
def BATT_CHG_I : Nat := 0x3C
/-- BATT.V_CHG (R369): Charge voltage, mV. -/
def BATT_V_CHG : Nat := 0x40
/-- BATT.CHG_TERM (R369): Termination and recharge. -/
def BATT_CHG_TERM : Nat := 0x44
/-- BATT.CHG_TEMP (R369): Charge window. -/
def BATT_CHG_TEMP : Nat := 0x48
/-- BATT.SOC_LVL (R369): LOW and VERY_LOW SoC. -/
def BATT_SOC_LVL : Nat := 0x4C
/-- BATT.SOC_CUT (R369): CUTOFF SoC, 0.01 % (3.00 %). -/
def BATT_SOC_CUT : Nat := 0x50
/-- BATT.V_LOW (R369): mV; 0 off. -/
def BATT_V_LOW : Nat := 0x54
/-- BATT.V_VLOW (R369): mV; 0 off. -/
def BATT_V_VLOW : Nat := 0x58
/-- BATT.V_CUT (R369): mV. -/
def BATT_V_CUT : Nat := 0x5C
/-- BATT.LVL_CFG (R369): Qualification time and hysteresis. -/
def BATT_LVL_CFG : Nat := 0x60
/-- BATT.REST_CFG (R369): Rest current and time. -/
def BATT_REST_CFG : Nat := 0x64
/-- BATT.IMP_CFG (R369): Impedance enable and period. -/
def BATT_IMP_CFG : Nat := 0x68
/-- BATT.LRN_CAP (R369): Capacity, 0.1 A·h. -/
def BATT_LRN_CAP : Nat := 0x6C
/-- BATT.LRN_R (R369): Resistance, 10 µΩ. -/
def BATT_LRN_R : Nat := 0x70
/-- BATT.LRN_CYC (R369): Equivalent full cycles. -/
def BATT_LRN_CYC : Nat := 0x74
/-- BATT.LRN_SOH (R369): Health, 0.01 %. -/
def BATT_LRN_SOH : Nat := 0x78
/-- BATT.ID_EXPECT (R369): [4:0] identity of a restore. -/
def BATT_ID_EXPECT : Nat := 0x7C
/-- BATT.COMMIT (R369): Bit 0 OCV, bit 1 CHG, bit 2 LVL, bit 3 LEARN. -/
def BATT_COMMIT : Nat := 0x80
/-- BATT.CMD (R369): Bit 0 ACCEPT, bit 1 IMP_GO. -/
def BATT_CMD : Nat := 0x84
/-- BATT.STATUS (R369): State and flags. -/
def BATT_STATUS : Nat := 0x88
/-- BATT.SOC (R369): [15:0] SOC_C, [31:16] SOC_V, 0.01 %. -/
def BATT_SOC : Nat := 0x8C
/-- BATT.VI (R369): [15:0] V, mV; [31:16] I, signed, 0.1 A. -/
def BATT_VI : Nat := 0x90
/-- BATT.Q_RAW (R369): Counted charge, mC, signed, wrapping. -/
def BATT_Q_RAW : Nat := 0x94
/-- BATT.CHG_REQ (R369): [15:0] I_req, 0.1 A. -/
def BATT_CHG_REQ : Nat := 0x98
/-- BATT.LRN_SEQ (R369): [15:0] learned-value changes, wrapping. -/
def BATT_LRN_SEQ : Nat := 0x9C
/-- BATT.Q_OVER (R369): [15:0] charge past counted empty, 0.01 A·h, saturating. -/
def BATT_Q_OVER : Nat := 0xA0
/-- BATT.ID (R369): Identity. -/
def BATT_ID : Nat := 0xA4
/-- THERM.CFG (R383): Lid input. -/
def THERM_CFG : Nat := 0x2C
/-- THERM.XCHK (R383): Cross-check deviation and time. -/
def THERM_XCHK : Nat := 0x30
/-- THERM.RR_CFG (R383): Rate window and horizon. -/
def THERM_RR_CFG : Nat := 0x34
/-- THERM.DIE_LIM (R383): Die warning and hot limits. -/
def THERM_DIE_LIM : Nat := 0x38
/-- THERM.CMD (R383): Bit 0 CAL. -/
def THERM_CMD : Nat := 0x3C
/-- THERM.DIE (R383): T_J and its source. -/
def THERM_DIE : Nat := 0x40
/-- THERM.PKG (R383): [15:0] package diode, 0.1 °C, signed. -/
def THERM_PKG : Nat := 0x44
/-- THERM.RING_INC (R383): [15:0] bit s: sensor s included. -/
def THERM_RING_INC : Nat := 0x48
/-- THERM.CAL_STAT (R383): Calibration reference and count. -/
def THERM_CAL_STAT : Nat := 0x4C
/-- THERM.WARN_MAP (R383): [15:0] inputs, [16] die. -/
def THERM_WARN_MAP : Nat := 0x50
/-- THERM.HOT_MAP (R383): [15:0] inputs, [16] die. -/
def THERM_HOT_MAP : Nat := 0x54
/-- THERM.RISE_MAP (R383): [15:0] rate warning, [31:16] cap request in force. -/
def THERM_RISE_MAP : Nat := 0x58
/-- THERM.RANGE (R383): Forbidden ranges in force. -/
def THERM_RANGE : Nat := 0x5C
/-- NET.CFG (R410): Speed, negotiation, polarity, swing. -/
def NET_CFG : Nat := 0x20
/-- NET.STATUS (R410): Link state. -/
def NET_STATUS : Nat := 0x24
/-- NET.RX_FRAMES (R410): Frames accepted, wrapping. -/
def NET_RX_FRAMES : Nat := 0x28
/-- NET.TX_FRAMES (R410): Frames sent, wrapping. -/
def NET_TX_FRAMES : Nat := 0x2C
/-- NET.FCS_ERR (R410): Frames with a bad FCS, saturating. -/
def NET_FCS_ERR : Nat := 0x30
/-- NET.CODE_ERR (R410): Invalid code groups and disparity errors, saturating. -/
def NET_CODE_ERR : Nat := 0x34
/-- NET.RX_DROP (R410): [15:0] queue overflow and rebuild drops, [31:16] filtered and oversize, each saturating. -/
def NET_RX_DROP : Nat := 0x38
/-- NET.DUP_CNT (R410): Duplicates discarded that arrived on this port, saturating. -/
def NET_DUP_CNT : Nat := 0x3C
/-- NET.LAN_CNT (R410): [15:0] WRONG_LAN, [31:16] NO_TRAILER, each saturating. -/
def NET_LAN_CNT : Nat := 0x40
/-- NET.ABORT_CNT (R410): Frames aborted at switch-over, saturating. -/
def NET_ABORT_CNT : Nat := 0x44
/-- NET.LINK_CNT (R410): Changes to DOWN since reset, saturating. -/
def NET_LINK_CNT : Nat := 0x48
/-- NETPAIR.CFG (R412): Supervision, forget time, auto-repair. -/
def NETPAIR_CFG : Nat := 0x2C
/-- NETPAIR.CMD (R412): Bit 0 SWITCH; bit 1 REPAIR; bit 8 engine for REPAIR. -/
def NETPAIR_CMD : Nat := 0x30
/-- NETPAIR.STATUS (R412): Engine states. -/
def NETPAIR_STATUS : Nat := 0x34
/-- NETPAIR.SWITCH_CNT (R412): [15:0] switch-overs, [31:16] of which forced, each saturating. -/
def NETPAIR_SWITCH_CNT : Nat := 0x38
/-- NETPAIR.SWITCH_LAST (R412): Last switch-over. -/
def NETPAIR_SWITCH_LAST : Nat := 0x3C
/-- NETPAIR.MISMATCH_CNT (R412): [15:0] comparison failures, [31:16] UNRESOLVED, each saturating. -/
def NETPAIR_MISMATCH_CNT : Nat := 0x40
/-- NETPAIR.REPAIR_CNT (R412): [15:0] repairs completed, [31:16] RESTARTS, each saturating. -/
def NETPAIR_REPAIR_CNT : Nat := 0x44
/-- NETPAIR.EVICT_CNT (R412): [15:0] evictions, [31:16] RESTART sequences, each saturating. -/
def NETPAIR_EVICT_CNT : Nat := 0x48
/-- NETPAIR.MERGE_GAP (R412): Entries lost in the merge unit (R395), saturating. -/
def NETPAIR_MERGE_GAP : Nat := 0x4C
/-- NETPAIR.TX_SEQ (R412): [15:0] next trailer sequence. -/
def NETPAIR_TX_SEQ : Nat := 0x50
/-- NETPAIR.SUP_RX (R412): Supervision frames received, saturating. -/
def NETPAIR_SUP_RX : Nat := 0x54
/-- PTP.CFG (R443): Domain, delay mechanism, role, ports, intervals. -/
def PTP_CFG : Nat := 0x20
/-- PTP.PRIO (R443): priority1, priority2. -/
def PTP_PRIO : Nat := 0x24
/-- PTP.LOCK_CFG (R443): Lock and loss thresholds. -/
def PTP_LOCK_CFG : Nat := 0x28
/-- PTP.LAT_A (R443): Port A timestamp corrections. -/
def PTP_LAT_A : Nat := 0x2C
/-- PTP.LAT_B (R443): Port B timestamp corrections. -/
def PTP_LAT_B : Nat := 0x30
/-- PTP.PPS_CFG (R443): PPS_OUT. -/
def PTP_PPS_CFG : Nat := 0x34
/-- PTP.STATUS (R443): Lock, port, port states. -/
def PTP_STATUS : Nat := 0x38
/-- PTP.OFFSET (R443): Offset from master, ns, signed, saturating. -/
def PTP_OFFSET : Nat := 0x3C
/-- PTP.DELAY_A (R443): Mean path delay on port A, ns. -/
def PTP_DELAY_A : Nat := 0x40
/-- PTP.DELAY_B (R443): Mean path delay on port B, ns. -/
def PTP_DELAY_B : Nat := 0x44
/-- PTP.GM_ID_H (R443): Grandmaster clockIdentity [63:32]. -/
def PTP_GM_ID_H : Nat := 0x48
/-- PTP.GM_ID_L (R443): Grandmaster clockIdentity [31:0]. -/
def PTP_GM_ID_L : Nat := 0x4C
/-- PTP.LOCK_CNT (R443): [15:0] locks, [31:16] losses, each saturating. -/
def PTP_LOCK_CNT : Nat := 0x50
/-- PTP.TAI_S (R443): Timebase seconds [31:0]; a read latches `TAI_NS`. -/
def PTP_TAI_S : Nat := 0x54
/-- PTP.TAI_NS (R443): Nanoseconds at the `TAI_S` read. -/
def PTP_TAI_NS : Nat := 0x58
/-- BENUF.CFG (R445): EtherType, VLAN, authentication. -/
def BENUF_CFG : Nat := 0x2C
/-- BENUF.VLAN (R445): [11:0] VID. -/
def BENUF_VLAN : Nat := 0x30
/-- BENUF.SHELF (R445): [11:0] shelf number. -/
def BENUF_SHELF : Nat := 0x34
/-- BENUF.HELLO_CFG (R445): HELLO interval, join and drop times. -/
def BENUF_HELLO_CFG : Nat := 0x38
/-- BENUF.HEALTH_CFG (R445): [7:0] HEALTH_INT, 10 ms steps (100 ms), from 1 to 255. -/
def BENUF_HEALTH_CFG : Nat := 0x3C
/-- BENUF.AUTH_SET (R445): Bit t: TYPE t needs authentication. -/
def BENUF_AUTH_SET : Nat := 0x40
/-- BENUF.REC_DEST_H (R445): REC_STREAM address [47:16]. -/
def BENUF_REC_DEST_H : Nat := 0x44
/-- BENUF.REC_DEST_L (R445): [31:16] address [15:0]. -/
def BENUF_REC_DEST_L : Nat := 0x48
/-- BENUF.CMD (R445): Bit 0 FORGET, [13:8] member; bit 16 HELLO_NOW. -/
def BENUF_CMD : Nat := 0x4C
/-- BENUF.STATUS (R445): Grove state. -/
def BENUF_STATUS : Nat := 0x50
/-- BENUF.RX_OK (R445): Frames handled, wrapping. -/
def BENUF_RX_OK : Nat := 0x54
/-- BENUF.RX_BAD0 (R445): [15:0] HDR, [31:16] CRC, each saturating. -/
def BENUF_RX_BAD0 : Nat := 0x58
/-- BENUF.RX_BAD1 (R445): [15:0] AUTH, [31:16] PAIR. -/
def BENUF_RX_BAD1 : Nat := 0x5C
/-- BENUF.RX_BAD2 (R445): [15:0] NOT_MINE and ECHO, [31:16] NOT_ADMITTED. -/
def BENUF_RX_BAD2 : Nat := 0x60
/-- BENUF.TX_DROP (R445): Frames dropped at release (R421), saturating. -/
def BENUF_TX_DROP : Nat := 0x64
/-- BENUF.MGMT_CNT (R445): [15:0] requests, [31:16] BUSY answers, each saturating. -/
def BENUF_MGMT_CNT : Nat := 0x68
/-- BENUF.CAPSET_LAST (R445): Last CAPSET. -/
def BENUF_CAPSET_LAST : Nat := 0x6C
/-- BENUF.CONFLICT (R445): Last conflict. -/
def BENUF_CONFLICT : Nat := 0x70
/-- TWT.CFG (R471): Filters, timeout, PEC, stretch limit. -/
def TWT_CFG : Nat := 0x20
/-- TWT.STATUS (R471): Address and state. -/
def TWT_STATUS : Nat := 0x24
/-- TWT.POINTER (R471): [15:0] pointer in force. -/
def TWT_POINTER : Nat := 0x28
/-- TWT.TXN_CNT (R471): [15:0] committed writes, [31:16] read transactions, each wrapping. -/
def TWT_TXN_CNT : Nat := 0x2C
/-- TWT.ERR_CNT (R471): [7:0] refused, [15:8] timeouts, [23:16] PEC errors, [31:24] stretch limits, each saturating. -/
def TWT_ERR_CNT : Nat := 0x30
/-- TWT.LAST_ERR (R471): Last error. -/
def TWT_LAST_ERR : Nat := 0x34
/-- TWC.CFG (R473): Speed, pull-ups, filter, retries, alert, zone. -/
def TWC_CFG : Nat := 0x2C
/-- TWC.POLL_CFG (R473): Round interval, stale count, stretch timeout. -/
def TWC_POLL_CFG : Nat := 0x30
/-- TWC.COMMIT (R473): Bit 0 POLL. -/
def TWC_COMMIT : Nat := 0x34
/-- TWC.STATUS (R473): State and counts. -/
def TWC_STATUS : Nat := 0x38
/-- TWC.ARB_LAST (R473): Last arbitration loss. -/
def TWC_ARB_LAST : Nat := 0x3C
/-- TWC.ERR_CNT (R473): [7:0] address not acknowledged, [15:8] data not acknowledged, [23:16] PEC, [31:24] timeouts and unknown alerts, each saturating. -/
def TWC_ERR_CNT : Nat := 0x40
/-- TWC.ARB_CNT (R473): [15:0] losses, [31:16] given up, each saturating. -/
def TWC_ARB_CNT : Nat := 0x44
/-- TWC.ROUND_CNT (R473): [15:0] rounds, [31:16] late rounds, each wrapping. -/
def TWC_ROUND_CNT : Nat := 0x48
/-- MEM.SCRUB_CFG (R498): MRAM scrub period. -/
def MEM_SCRUB_CFG : Nat := 0x2C
/-- MEM.SCRUB_STAT (R498): [15:0] SRAM passes, [31:16] MRAM passes, each wrapping. -/
def MEM_SCRUB_STAT : Nat := 0x30
/-- MEM.CORR_CNT (R498): [15:0] SRAM, [31:16] MRAM corrections, each saturating. -/
def MEM_CORR_CNT : Nat := 0x34
/-- MEM.POISON_CNT (R498): Words poisoned since reset, saturating. -/
def MEM_POISON_CNT : Nat := 0x38
/-- MEM.LAST_CORR (R498): Internal address of the last correction. -/
def MEM_LAST_CORR : Nat := 0x3C
/-- MEM.LAST_POISON (R498): Internal address of the last poisoned word. -/
def MEM_LAST_POISON : Nat := 0x40
/-- MEM.EXCL_MAP (R498): Bit b: scratchpad bank b excluded. -/
def MEM_EXCL_MAP : Nat := 0x44
/-- MEM.GUARD_CNT (R498): Guard grants (R480), saturating. -/
def MEM_GUARD_CNT : Nat := 0x48
/-- MEM.DENY_CNT (R498): Refused MRAM writes (R487), saturating. -/
def MEM_DENY_CNT : Nat := 0x4C
/-- HEART.ACL (R500): Access list (R491). -/
def HEART_ACL : Nat := 0x20
/-- HEART.TAMPER_CFG (R500): Tamper inputs. -/
def HEART_TAMPER_CFG : Nat := 0x24
/-- HEART.WIPE_CMD (R500): 0x5A5A_A5A5 starts a wipe. -/
def HEART_WIPE_CMD : Nat := 0x28
/-- HEART.STATUS (R500): Wipe and tamper state. -/
def HEART_STATUS : Nat := 0x2C
/-- HEART.WIPE_CNT (R500): Wipes since manufacture, from module state, saturating. -/
def HEART_WIPE_CNT : Nat := 0x30
/-- HEART.WIPE_LAST (R500): Last wipe. -/
def HEART_WIPE_LAST : Nat := 0x34
/-- HEART.DENY_LAST (R500): [31:28] master ID, [15:0] address [15:0] of the last denied access. -/
def HEART_DENY_LAST : Nat := 0x38
/-- MBOX.DOORBELL0 (R515): Ring (R506). -/
def MBOX_DOORBELL0 : Nat := 0x2C
/-- MBOX.DOORBELL1 (R515): Ring (R506). -/
def MBOX_DOORBELL1 : Nat := 0x38
/-- MBOX.DOORBELL2 (R515): Ring (R506). -/
def MBOX_DOORBELL2 : Nat := 0x44
/-- MBOX.DOORBELL3 (R515): Ring (R506). -/
def MBOX_DOORBELL3 : Nat := 0x50
/-- MBOX.DOORBELL4 (R515): Ring (R506). -/
def MBOX_DOORBELL4 : Nat := 0x5C
/-- MBOX.DOORBELL5 (R515): Ring (R506). -/
def MBOX_DOORBELL5 : Nat := 0x68
/-- MBOX.DOORBELL6 (R515): Ring (R506). -/
def MBOX_DOORBELL6 : Nat := 0x74
/-- MBOX.DOORBELL7 (R515): Ring (R506). -/
def MBOX_DOORBELL7 : Nat := 0x80
/-- MBOX.ACK_H0 (R515): Return code. -/
def MBOX_ACK_H0 : Nat := 0x30
/-- MBOX.ACK_H1 (R515): Return code. -/
def MBOX_ACK_H1 : Nat := 0x3C
/-- MBOX.ACK_H2 (R515): Return code. -/
def MBOX_ACK_H2 : Nat := 0x48
/-- MBOX.ACK_H3 (R515): Return code. -/
def MBOX_ACK_H3 : Nat := 0x54
/-- MBOX.ACK_H4 (R515): Return code. -/
def MBOX_ACK_H4 : Nat := 0x60
/-- MBOX.ACK_H5 (R515): Return code. -/
def MBOX_ACK_H5 : Nat := 0x6C
/-- MBOX.ACK_H6 (R515): Return code. -/
def MBOX_ACK_H6 : Nat := 0x78
/-- MBOX.ACK_H7 (R515): Return code. -/
def MBOX_ACK_H7 : Nat := 0x84
/-- MBOX.ACK_L0 (R515): TAG and STATE. -/
def MBOX_ACK_L0 : Nat := 0x34
/-- MBOX.ACK_L1 (R515): TAG and STATE. -/
def MBOX_ACK_L1 : Nat := 0x40
/-- MBOX.ACK_L2 (R515): TAG and STATE. -/
def MBOX_ACK_L2 : Nat := 0x4C
/-- MBOX.ACK_L3 (R515): TAG and STATE. -/
def MBOX_ACK_L3 : Nat := 0x58
/-- MBOX.ACK_L4 (R515): TAG and STATE. -/
def MBOX_ACK_L4 : Nat := 0x64
/-- MBOX.ACK_L5 (R515): TAG and STATE. -/
def MBOX_ACK_L5 : Nat := 0x70
/-- MBOX.ACK_L6 (R515): TAG and STATE. -/
def MBOX_ACK_L6 : Nat := 0x7C
/-- MBOX.ACK_L7 (R515): TAG and STATE. -/
def MBOX_ACK_L7 : Nat := 0x88
/-- MBOX.FULL_MAP (R515): [7:0] bit k: channel occupied. -/
def MBOX_FULL_MAP : Nat := 0x8C
/-- MBOX.DENY_CNT (R515): [15:0] DENIED, [31:16] RING_BUSY, each saturating. -/
def MBOX_DENY_CNT : Nat := 0x90
/-- REC.CFG (R537): Anchor interval, stream. -/
def REC_CFG : Nat := 0x2C
/-- REC.RD_SEQ_H (R537): [15:0] SEQ [47:32]. -/
def REC_RD_SEQ_H : Nat := 0x30
/-- REC.RD_SEQ_L (R537): SEQ [31:0]; the write places the master's position. -/
def REC_RD_SEQ_L : Nat := 0x34
/-- REC.RD_DATA (R537): Data port (R531). -/
def REC_RD_DATA : Nat := 0x38
/-- REC.SUBMIT (R537): Data port (R535). -/
def REC_SUBMIT : Nat := 0x3C
/-- REC.NEWEST_H (R537): Newest SEQ, [15:0] and [31:0]. -/
def REC_NEWEST_H : Nat := 0x40
/-- REC.NEWEST_L (R537): Newest SEQ, [15:0] and [31:0]. -/
def REC_NEWEST_L : Nat := 0x44
/-- REC.OLDEST_H (R537): Oldest SEQ in the Ring log. -/
def REC_OLDEST_H : Nat := 0x48
/-- REC.OLDEST_L (R537): Oldest SEQ in the Ring log. -/
def REC_OLDEST_L : Nat := 0x4C
/-- REC.ROOT_USED (R537): [9:0] Root slots written. -/
def REC_ROOT_USED : Nat := 0x50
/-- REC.STAGE (R537): [10:0] occupancy, [26:16] highest since reset. -/
def REC_STAGE : Nat := 0x54
/-- REC.LOST_CNT (R537): Records dropped since reset, saturating. -/
def REC_LOST_CNT : Nat := 0x58
/-- REC.STREAM_NEXT_H (R537): Next SEQ to stream. -/
def REC_STREAM_NEXT_H : Nat := 0x5C
/-- REC.STREAM_NEXT_L (R537): Next SEQ to stream. -/
def REC_STREAM_NEXT_L : Nat := 0x60
/-- REC.OPTIME_H (R537): [9:0] operating time [41:32]; a read latches `OPTIME_L`. -/
def REC_OPTIME_H : Nat := 0x64
/-- REC.OPTIME_L (R537): Operating time [31:0] at the `OPTIME_H` read. -/
def REC_OPTIME_L : Nat := 0x68
/-- REC.PCC (R537): [23:0] count, [31] saturated. -/
def REC_PCC : Nat := 0x6C
/-- REC.STATUS (R537): Recorder state. -/
def REC_STATUS : Nat := 0x70
/-- BIST.SUMMARY (R562): Verdict of the last self-test. -/
def BIST_SUMMARY : Nat := 0x20
/-- BIST.COMPAT (R562): FH7210 view (R545). -/
def BIST_COMPAT : Nat := 0x24
/-- BIST.CLUSTERS (R562): Start-up and in-service results. -/
def BIST_CLUSTERS : Nat := 0x28
/-- BIST.BANK_FAIL (R562): Bit b: scratchpad bank b failed. -/
def BIST_BANK_FAIL : Nat := 0x2C
/-- BIST.CONV_FAIL0 (R562): Bit c: converter channel c failed. -/
def BIST_CONV_FAIL0 : Nat := 0x30
/-- BIST.CONV_FAIL1 (R562): Bit c: channel 32 + c failed. -/
def BIST_CONV_FAIL1 : Nat := 0x34
/-- BIST.PHASE_FAIL0 (R562): Bit n: phase n failed. -/
def BIST_PHASE_FAIL0 : Nat := 0x38
/-- BIST.PHASE_FAIL1 (R562): [15:0] phases 32 to 47; [27:16] bit r: rail r VSNS failed. -/
def BIST_PHASE_FAIL1 : Nat := 0x3C
/-- BIST.MISC (R562): Other units. -/
def BIST_MISC : Nat := 0x40
/-- BIST.IS_LAST (R562): Last in-service test. -/
def BIST_IS_LAST : Nat := 0x44
/-- LIFE.STATE (R564): State and last refusal. -/
def LIFE_STATE : Nat := 0x20
/-- LIFE.CMD (R564): ARM and COMMIT (R555); reads 0x0000_FFFF. -/
def LIFE_CMD : Nat := 0x24
/-- LIFE.ARM_LEFT (R564): [9:0] ms left for COMMIT; 0 none armed. -/
def LIFE_ARM_LEFT : Nat := 0x28
/-- LIFE.LAST (R564): Last transition. -/
def LIFE_LAST : Nat := 0x2C
/-- UPDATE.CFG (R591): Automatic activation. -/
def UPDATE_CFG : Nat := 0x2C
/-- UPDATE.CMD (R591): Command; reads 0x0000_FFFF. -/
def UPDATE_CMD : Nat := 0x30
/-- UPDATE.BLK_OFS (R591): [19:0] offset of the next TWT block (R571). -/
def UPDATE_BLK_OFS : Nat := 0x34
/-- UPDATE.BLK_DATA (R591): Data port (R452, R571). -/
def UPDATE_BLK_DATA : Nat := 0x38
/-- UPDATE.STATUS (R591): State, owner, flags. -/
def UPDATE_STATUS : Nat := 0x3C
/-- UPDATE.REFUSE (R591): Last refusal. -/
def UPDATE_REFUSE : Nat := 0x40
/-- UPDATE.STAGED_VER (R591): VERSION of the header of the current download. -/
def UPDATE_STAGED_VER : Nat := 0x44
/-- UPDATE.HIGH_VER (R591): Highest accepted version. -/
def UPDATE_HIGH_VER : Nat := 0x48
/-- UPDATE.EPOCH (R591): [7:0] OTP epoch. -/
def UPDATE_EPOCH : Nat := 0x4C
/-- UPDATE.PROGRESS (R591): Granules received and needed. -/
def UPDATE_PROGRESS : Nat := 0x50
/-- UPDATE.PLAN_STAT (R591): Plan in force. -/
def UPDATE_PLAN_STAT : Nat := 0x54

/-! ### Fields -/

/-- SYS.STATUS [2:0] (R559). -/
def SYS_STATUS_PHASE : Fld := ⟨0x2C, 0, 3⟩
/-- SYS.STATUS [4] (R559). -/
def SYS_STATUS_HOLD_OK : Fld := ⟨0x2C, 4, 1⟩
/-- SYS.STATUS [5] (R559). -/
def SYS_STATUS_BROWN : Fld := ⟨0x2C, 5, 1⟩
/-- SYS.STATUS [6] (R559). -/
def SYS_STATUS_VAUX_A_OK : Fld := ⟨0x2C, 6, 1⟩
/-- SYS.STATUS [7] (R559). -/
def SYS_STATUS_VAUX_B_OK : Fld := ⟨0x2C, 7, 1⟩
/-- SYS.STATUS [8] (R559). -/
def SYS_STATUS_RESTART_PEND : Fld := ⟨0x2C, 8, 1⟩
/-- SYS.STATUS [9] (R559). -/
def SYS_STATUS_FW_LOST : Fld := ⟨0x2C, 9, 1⟩
/-- SYS.STATUS [10] (R559). -/
def SYS_STATUS_DEGRADED : Fld := ⟨0x2C, 10, 1⟩
/-- SYS.STATUS [11] (R559). -/
def SYS_STATUS_MAC_DERIVED : Fld := ⟨0x2C, 11, 1⟩
/-- SYS.STATUS [12] (R559). -/
def SYS_STATUS_OTP_BAD : Fld := ⟨0x2C, 12, 1⟩
/-- SYS.STATUS [18:16] (R559). -/
def SYS_STATUS_LIFE : Fld := ⟨0x2C, 16, 3⟩
/-- SYS.RESET_CAUSE [3:0] (R559). -/
def SYS_RESET_CAUSE_CAUSE : Fld := ⟨0x34, 0, 4⟩
/-- SYS.RESET_CAUSE [11:8] (R559). -/
def SYS_RESET_CAUSE_CLK : Fld := ⟨0x34, 8, 4⟩
/-- SYS.RESET_CAUSE [13:12] (R559). -/
def SYS_RESET_CAUSE_CMD : Fld := ⟨0x34, 12, 2⟩
/-- SYS.RESET_CAUSE [19:16] (R559). -/
def SYS_RESET_CAUSE_ST_RUN : Fld := ⟨0x34, 16, 4⟩
/-- SYS.RESET_CAUSE [31:24] (R559). -/
def SYS_RESET_CAUSE_UNIT : Fld := ⟨0x34, 24, 8⟩
/-- SYS.RESTART [3:0] (R559). -/
def SYS_RESTART_CAUSE : Fld := ⟨0x38, 0, 4⟩
/-- SYS.RESTART [4] (R559). -/
def SYS_RESTART_MERGED : Fld := ⟨0x38, 4, 1⟩
/-- SYS.RESTART [31:16] (R559). -/
def SYS_RESTART_COUNT : Fld := ⟨0x38, 16, 16⟩
/-- CLK.SYNC_CFG [0] (R23). -/
def CLK_SYNC_CFG_EN : Fld := ⟨0x20, 0, 1⟩
/-- CLK.SYNC_CFG [1] (R23). -/
def CLK_SYNC_CFG_EDGE : Fld := ⟨0x20, 1, 1⟩
/-- CLK.SYNC_CFG [31:16] (R23). -/
def CLK_SYNC_CFG_FREQ_KHZ : Fld := ⟨0x20, 16, 16⟩
/-- CLK.SYNC_STAT [0] (R23). -/
def CLK_SYNC_STAT_PRESENT : Fld := ⟨0x24, 0, 1⟩
/-- CLK.SYNC_STAT [1] (R23). -/
def CLK_SYNC_STAT_LOCKED : Fld := ⟨0x24, 1, 1⟩
/-- CLK.SYNC_STAT [31:16] (R23). -/
def CLK_SYNC_STAT_FERR : Fld := ⟨0x24, 16, 16⟩
/-- CLK.CLK_STAT [7:0] (R23). -/
def CLK_CLK_STAT_PRESENT : Fld := ⟨0x28, 0, 8⟩
/-- CLK.LOSS_LAST [3:0] (R23). -/
def CLK_LOSS_LAST_CLOCK : Fld := ⟨0x30, 0, 4⟩
/-- CLK.LOSS_LAST [31:16] (R23). -/
def CLK_LOSS_LAST_FRAME : Fld := ⟨0x30, 16, 16⟩
/-- SCHED.TB_CFG [0] (R140). -/
def SCHED_TB_CFG_PTP_DISC : Fld := ⟨0x2C, 0, 1⟩
/-- SCHED.TB_CFG [1] (R140). -/
def SCHED_TB_CFG_STEP_EN : Fld := ⟨0x2C, 1, 1⟩
/-- SCHED.TB_STAT [1:0] (R140). -/
def SCHED_TB_STAT_SRC : Fld := ⟨0x30, 0, 2⟩
/-- SCHED.TB_STAT [2] (R140). -/
def SCHED_TB_STAT_SLEWING : Fld := ⟨0x30, 2, 1⟩
/-- SCHED.TB_STAT [31:16] (R140). -/
def SCHED_TB_STAT_STEPS : Fld := ⟨0x30, 16, 16⟩
/-- SCHED.DROP_LAST [31:24] (R140). -/
def SCHED_DROP_LAST_TASK : Fld := ⟨0x3C, 24, 8⟩
/-- SCHED.DROP_LAST [23:16] (R140). -/
def SCHED_DROP_LAST_REASON : Fld := ⟨0x3C, 16, 8⟩
/-- SCHED.DROP_LAST [15:0] (R140). -/
def SCHED_DROP_LAST_PERIOD : Fld := ⟨0x3C, 0, 16⟩
/-- PLACE.CFG [0] (R143). -/
def PLACE_CFG_LEAN : Fld := ⟨0x2C, 0, 1⟩
/-- PLACE.CFG [15:8] (R143). -/
def PLACE_CFG_ROT_TEST : Fld := ⟨0x2C, 8, 8⟩
/-- PLACE.BIST_REQ [1:0] (R143). -/
def PLACE_BIST_REQ_CLUSTER : Fld := ⟨0x30, 0, 2⟩
/-- PLACE.BIST_REQ [8] (R143). -/
def PLACE_BIST_REQ_GO : Fld := ⟨0x30, 8, 1⟩
/-- PLACE.PLAN_STAT [7:0] (R143). -/
def PLACE_PLAN_STAT_N1_LOAD : Fld := ⟨0x3C, 0, 8⟩
/-- PLACE.PLAN_STAT [8] (R143). -/
def PLACE_PLAN_STAT_N1_OK : Fld := ⟨0x3C, 8, 1⟩
/-- PLACE.PLAN_STAT [19:16] (R143). -/
def PLACE_PLAN_STAT_REFUSE : Fld := ⟨0x3C, 16, 4⟩
/-- PLACE.POINTS [31:16] (R143). -/
def PLACE_POINTS_DECLARED : Fld := ⟨0x40, 16, 16⟩
/-- PLACE.POINTS [15:0] (R143). -/
def PLACE_POINTS_NUMBERED : Fld := ⟨0x40, 0, 16⟩
/-- PLACE.SLOT_LAST [31:24] (R143). -/
def PLACE_SLOT_LAST_RAIL : Fld := ⟨0x44, 24, 8⟩
/-- PLACE.SLOT_LAST [7:0] (R143). -/
def PLACE_SLOT_LAST_REASON : Fld := ⟨0x44, 0, 8⟩
/-- PHASE.CFG [5:0] (R203). -/
def PHASE_CFG_RAIL : Fld := ⟨0x20, 0, 6⟩
/-- PHASE.CFG [9:8] (R203). -/
def PHASE_CFG_ROLE : Fld := ⟨0x20, 8, 2⟩
/-- PHASE.CFG [12] (R203). -/
def PHASE_CFG_CBC_POL : Fld := ⟨0x20, 12, 1⟩
/-- PHASE.CFG [13] (R203). -/
def PHASE_CFG_EN_HOLD : Fld := ⟨0x20, 13, 1⟩
/-- PHASE.CFG [17:16] (R203). -/
def PHASE_CFG_ISNS_GAIN : Fld := ⟨0x20, 16, 2⟩
/-- PHASE.CFG [20] (R203). -/
def PHASE_CFG_ISNS_INV : Fld := ⟨0x20, 20, 1⟩
/-- PHASE.MODEL [15:0] (R203). -/
def PHASE_MODEL_L : Fld := ⟨0x34, 0, 16⟩
/-- PHASE.MODEL [31:16] (R203). -/
def PHASE_MODEL_R_PATH : Fld := ⟨0x34, 16, 16⟩
/-- PHASE.STATUS [3:0] (R203). -/
def PHASE_STATUS_STATE : Fld := ⟨0x38, 0, 4⟩
/-- PHASE.STATUS [8] (R203). -/
def PHASE_STATUS_IN_CBC : Fld := ⟨0x38, 8, 1⟩
/-- PHASE.STATUS [9] (R203). -/
def PHASE_STATUS_TRUNC : Fld := ⟨0x38, 9, 1⟩
/-- PHASE.STATUS [10] (R203). -/
def PHASE_STATUS_OBS : Fld := ⟨0x38, 10, 1⟩
/-- PHASE.STATUS [11] (R203). -/
def PHASE_STATUS_SPARE_IN : Fld := ⟨0x38, 11, 1⟩
/-- PHASE.STATUS [21:16] (R203). -/
def PHASE_STATUS_POS : Fld := ⟨0x38, 16, 6⟩
/-- PHASE.STATUS [29:24] (R203). -/
def PHASE_STATUS_RANK : Fld := ⟨0x38, 24, 6⟩
/-- PHASE.IPH [15:0] (R203). -/
def PHASE_IPH_I_USED : Fld := ⟨0x3C, 0, 16⟩
/-- PHASE.IPH [31:16] (R203). -/
def PHASE_IPH_I_OBS : Fld := ⟨0x3C, 16, 16⟩
/-- PHASE.DUTY [15:0] (R203). -/
def PHASE_DUTY_D : Fld := ⟨0x40, 0, 16⟩
/-- PHASE.DUTY [31:16] (R203). -/
def PHASE_DUTY_D_CEIL : Fld := ⟨0x40, 16, 16⟩
/-- PHASE.PROBE [1:0] (R203). -/
def PHASE_PROBE_RESULT : Fld := ⟨0x48, 0, 2⟩
/-- PHASE.PROBE [7:4] (R203). -/
def PHASE_PROBE_GROUND : Fld := ⟨0x48, 4, 4⟩
/-- PHASE.PROBE [15:8] (R203). -/
def PHASE_PROBE_TRIES : Fld := ⟨0x48, 8, 8⟩
/-- PHASE.PROBE [31:16] (R203). -/
def PHASE_PROBE_RESP : Fld := ⟨0x48, 16, 16⟩
/-- RAIL.CFG [0] (R205). -/
def RAIL_CFG_KIND : Fld := ⟨0x2C, 0, 1⟩
/-- RAIL.CFG [1] (R205). -/
def RAIL_CFG_VMODE : Fld := ⟨0x2C, 1, 1⟩
/-- RAIL.CFG [2] (R205). -/
def RAIL_CFG_OVS_ACT : Fld := ⟨0x2C, 2, 1⟩
/-- RAIL.CFG [3] (R205). -/
def RAIL_CFG_UV_POL : Fld := ⟨0x2C, 3, 1⟩
/-- RAIL.CFG [6:4] (R205). -/
def RAIL_CFG_DECIM : Fld := ⟨0x2C, 4, 3⟩
/-- RAIL.CFG [15:8] (R205). -/
def RAIL_CFG_LEB : Fld := ⟨0x2C, 8, 8⟩
/-- RAIL.CFG [27:16] (R205). -/
def RAIL_CFG_FSW_KHZ : Fld := ⟨0x2C, 16, 12⟩
/-- RAIL.CFG [31:28] (R205). -/
def RAIL_CFG_VIN_SRC : Fld := ⟨0x2C, 28, 4⟩
/-- RAIL.OVS [31:24] (R205). -/
def RAIL_OVS_OVS_THR : Fld := ⟨0x3C, 24, 8⟩
/-- RAIL.OVS [23:16] (R205). -/
def RAIL_OVS_OVS_HYS : Fld := ⟨0x3C, 16, 8⟩
/-- RAIL.SHED_CFG [0] (R205). -/
def RAIL_SHED_CFG_EN : Fld := ⟨0x5C, 0, 1⟩
/-- RAIL.SHED_CFG [13:8] (R205). -/
def RAIL_SHED_CFG_MIN_PH : Fld := ⟨0x5C, 8, 6⟩
/-- RAIL.SHED_CFG [31:16] (R205). -/
def RAIL_SHED_CFG_DWELL : Fld := ⟨0x5C, 16, 16⟩
/-- RAIL.DT [9:0] (R205). -/
def RAIL_DT_DT_RISE : Fld := ⟨0x60, 0, 10⟩
/-- RAIL.DT [25:16] (R205). -/
def RAIL_DT_DT_FALL : Fld := ⟨0x60, 16, 10⟩
/-- RAIL.DT [31] (R205). -/
def RAIL_DT_ADAPT : Fld := ⟨0x60, 31, 1⟩
/-- RAIL.DT_LIM [9:0] (R205). -/
def RAIL_DT_LIM_MIN : Fld := ⟨0x64, 0, 10⟩
/-- RAIL.DT_LIM [25:16] (R205). -/
def RAIL_DT_LIM_MAX : Fld := ⟨0x64, 16, 10⟩
/-- RAIL.SS_CFG [15:0] (R205). -/
def RAIL_SS_CFG_SS_STALL : Fld := ⟨0x68, 0, 16⟩
/-- RAIL.SS_CFG [31:16] (R205). -/
def RAIL_SS_CFG_RETRY_GAP : Fld := ⟨0x68, 16, 16⟩
/-- RAIL.PROBE_CFG [7:0] (R205). -/
def RAIL_PROBE_CFG_PROBE_DUTY : Fld := ⟨0x74, 0, 8⟩
/-- RAIL.PROBE_CFG [15:8] (R205). -/
def RAIL_PROBE_CFG_OPEN_T : Fld := ⟨0x74, 8, 8⟩
/-- RAIL.PROBE_CFG [31:16] (R205). -/
def RAIL_PROBE_CFG_PROBE_THR : Fld := ⟨0x74, 16, 16⟩
/-- RAIL.OBS_CFG [7:0] (R205). -/
def RAIL_OBS_CFG_TOL : Fld := ⟨0x78, 0, 8⟩
/-- RAIL.OBS_CFG [15:8] (R205). -/
def RAIL_OBS_CFG_T : Fld := ⟨0x78, 8, 8⟩
/-- RAIL.OBS_CFG [23:16] (R205). -/
def RAIL_OBS_CFG_DCEIL : Fld := ⟨0x78, 16, 8⟩
/-- RAIL.OBS_CFG [31:24] (R205). -/
def RAIL_OBS_CFG_DERATE : Fld := ⟨0x78, 24, 8⟩
/-- RAIL.STATUS [3:0] (R205). -/
def RAIL_STATUS_STATE : Fld := ⟨0x80, 0, 4⟩
/-- RAIL.STATUS [13:8] (R205). -/
def RAIL_STATUS_N_ACTIVE : Fld := ⟨0x80, 8, 6⟩
/-- RAIL.STATUS [21:16] (R205). -/
def RAIL_STATUS_N_AVAIL : Fld := ⟨0x80, 16, 6⟩
/-- RAIL.STATUS [24] (R205). -/
def RAIL_STATUS_UV : Fld := ⟨0x80, 24, 1⟩
/-- RAIL.STATUS [25] (R205). -/
def RAIL_STATUS_TRUNC : Fld := ⟨0x80, 25, 1⟩
/-- RAIL.STATUS [26] (R205). -/
def RAIL_STATUS_AT_MAX : Fld := ⟨0x80, 26, 1⟩
/-- RAIL.STATUS [27] (R205). -/
def RAIL_STATUS_DROP_READY : Fld := ⟨0x80, 27, 1⟩
/-- RAIL.VMEAS [15:0] (R205). -/
def RAIL_VMEAS_V : Fld := ⟨0x84, 0, 16⟩
/-- RAIL.VMEAS [31:16] (R205). -/
def RAIL_VMEAS_REF : Fld := ⟨0x84, 16, 16⟩
/-- RAIL.IMEAS [15:0] (R205). -/
def RAIL_IMEAS_I : Fld := ⟨0x88, 0, 16⟩
/-- RAIL.IMEAS [31:16] (R205). -/
def RAIL_IMEAS_C : Fld := ⟨0x88, 16, 16⟩
/-- RAIL.CAPACITY [15:0] (R205). -/
def RAIL_CAPACITY_C : Fld := ⟨0x9C, 0, 16⟩
/-- RAIL.CAPACITY [21:16] (R205). -/
def RAIL_CAPACITY_SHED_BAD : Fld := ⟨0x9C, 16, 6⟩
/-- CLE.LANE_USEk [15:0] (R239). -/
def CLE_LANE_USE_CYCLES : Fld := ⟨0x34, 0, 16⟩
/-- CLE.LANE_USEk [21:16] (R239). -/
def CLE_LANE_USE_SLOTS : Fld := ⟨0x34, 16, 6⟩
/-- CLE.LANE_USEk [31] (R239). -/
def CLE_LANE_USE_FAILED : Fld := ⟨0x34, 31, 1⟩
/-- CLE.LAST [31:28] (R239). -/
def CLE_LAST_KIND : Fld := ⟨0x44, 28, 4⟩
/-- CLE.LAST [27:24] (R239). -/
def CLE_LAST_RAIL : Fld := ⟨0x44, 24, 4⟩
/-- CLE.LAST [23:16] (R239). -/
def CLE_LAST_TABLE : Fld := ⟨0x44, 16, 8⟩
/-- CLE.LAST [7:0] (R239). -/
def CLE_LAST_WORD : Fld := ⟨0x44, 0, 8⟩
/-- TRACE.CFG [3:0] (R241). -/
def TRACE_CFG_SRC_RAIL : Fld := ⟨0x2C, 0, 4⟩
/-- TRACE.CFG [10:8] (R241). -/
def TRACE_CFG_DIV : Fld := ⟨0x2C, 8, 3⟩
/-- TRACE.CFG [16] (R241). -/
def TRACE_CFG_AUTO : Fld := ⟨0x2C, 16, 1⟩
/-- TRACE.TRIG [2:0] (R241). -/
def TRACE_TRIG_KIND : Fld := ⟨0x40, 0, 3⟩
/-- TRACE.TRIG [3] (R241). -/
def TRACE_TRIG_POL : Fld := ⟨0x40, 3, 1⟩
/-- TRACE.TRIG [6:4] (R241). -/
def TRACE_TRIG_NODE : Fld := ⟨0x40, 4, 3⟩
/-- TRACE.TRIG_SRC [5:0] (R241). -/
def TRACE_TRIG_SRC_FAULTS : Fld := ⟨0x48, 0, 6⟩
/-- TRACE.TRIG_SRC [11:8] (R241). -/
def TRACE_TRIG_SRC_UNITS : Fld := ⟨0x48, 8, 4⟩
/-- TRACE.TRIG_SRC [23:16] (R241). -/
def TRACE_TRIG_SRC_GIN : Fld := ⟨0x48, 16, 8⟩
/-- TRACE.STATUS [2:0] (R241). -/
def TRACE_STATUS_STATE : Fld := ⟨0x54, 0, 3⟩
/-- TRACE.STATUS [8] (R241). -/
def TRACE_STATUS_GAP : Fld := ⟨0x54, 8, 1⟩
/-- TRACE.STATUS [9] (R241). -/
def TRACE_STATUS_SRC_OFF : Fld := ⟨0x54, 9, 1⟩
/-- TRACE.STATUS [27:16] (R241). -/
def TRACE_STATUS_TRIG_POS : Fld := ⟨0x54, 16, 12⟩
/-- ADCCAL.CFG [0] (R207). -/
def ADCCAL_CFG_ROLL_EN : Fld := ⟨0x2C, 0, 1⟩
/-- ADCCAL.CFG [15:8] (R207). -/
def ADCCAL_CFG_SPAN_MIN : Fld := ⟨0x2C, 8, 8⟩
/-- ADCCAL.CAL_REQ [5:0] (R207). -/
def ADCCAL_CAL_REQ_CH : Fld := ⟨0x30, 0, 6⟩
/-- ADCCAL.CAL_REQ [8] (R207). -/
def ADCCAL_CAL_REQ_GO : Fld := ⟨0x30, 8, 1⟩
/-- ADCCAL.SPARE_STAT [1:0] (R207). -/
def ADCCAL_SPARE_STAT_MODE : Fld := ⟨0x34, 0, 2⟩
/-- ADCCAL.SPARE_STAT [13:8] (R207). -/
def ADCCAL_SPARE_STAT_CH : Fld := ⟨0x34, 8, 6⟩
/-- ADCCAL.GIN_CFGi [1:0] (R207). -/
def ADCCAL_GIN_CFG_GAIN : Fld := ⟨0x44, 0, 2⟩
/-- ADCCAL.GIN_CFGi [2] (R207). -/
def ADCCAL_GIN_CFG_VMODE : Fld := ⟨0x44, 2, 1⟩
/-- ADCCAL.GIN_CFGi [6:4] (R207). -/
def ADCCAL_GIN_CFG_DECIM : Fld := ⟨0x44, 4, 3⟩
/-- ADCCAL.MON_CFG [0] (R207). -/
def ADCCAL_MON_CFG_EN_A : Fld := ⟨0x7C, 0, 1⟩
/-- ADCCAL.MON_CFG [1] (R207). -/
def ADCCAL_MON_CFG_EN_B : Fld := ⟨0x7C, 1, 1⟩
/-- ADCCAL.MON_CFG [5:4] (R207). -/
def ADCCAL_MON_CFG_AVG : Fld := ⟨0x7C, 4, 2⟩
/-- EPE.CFG [4:0] (R279). -/
def EPE_CFG_PERIOD : Fld := ⟨0x2C, 0, 5⟩
/-- EPE.CFG [11:8] (R279). -/
def EPE_CFG_VBUS_SRC : Fld := ⟨0x2C, 8, 4⟩
/-- EPE.WEIGHTS [3:0] (R279). -/
def EPE_WEIGHTS_WL : Fld := ⟨0x30, 0, 4⟩
/-- EPE.WEIGHTS [11:8] (R279). -/
def EPE_WEIGHTS_WW : Fld := ⟨0x30, 8, 4⟩
/-- EPE.WEIGHTS [19:16] (R279). -/
def EPE_WEIGHTS_WT : Fld := ⟨0x30, 16, 4⟩
/-- EPE.POLICY [2:0] (R279). -/
def EPE_POLICY_K : Fld := ⟨0x34, 0, 3⟩
/-- EPE.POLICY [15:8] (R279). -/
def EPE_POLICY_FLOOR : Fld := ⟨0x34, 8, 8⟩
/-- EPE.STBY_CFG [0] (R279). -/
def EPE_STBY_CFG_EN : Fld := ⟨0x38, 0, 1⟩
/-- EPE.STBY_CFG [15:8] (R279). -/
def EPE_STBY_CFG_STBY_LOAD : Fld := ⟨0x38, 8, 8⟩
/-- EPE.STBY_CFG [23:16] (R279). -/
def EPE_STBY_CFG_WAKE_LOAD : Fld := ⟨0x38, 16, 8⟩
/-- EPE.STBY_TIME [15:0] (R279). -/
def EPE_STBY_TIME_MIN_ON : Fld := ⟨0x3C, 0, 16⟩
/-- EPE.STBY_TIME [31:16] (R279). -/
def EPE_STBY_TIME_MIN_OFF : Fld := ⟨0x3C, 16, 16⟩
/-- EPE.TRIM_CFG [7:0] (R279). -/
def EPE_TRIM_CFG_TRIM_KP : Fld := ⟨0x44, 0, 8⟩
/-- EPE.TRIM_CFG [15:8] (R279). -/
def EPE_TRIM_CFG_TRIM_STEP : Fld := ⟨0x44, 8, 8⟩
/-- EPE.TRIM_CFG [31:16] (R279). -/
def EPE_TRIM_CFG_TRIM_MAX : Fld := ⟨0x44, 16, 16⟩
/-- EPE.PMB_CMD [7:0] (R279). -/
def EPE_PMB_CMD_STBY_OP : Fld := ⟨0x48, 0, 8⟩
/-- EPE.PMB_CMD [15:8] (R279). -/
def EPE_PMB_CMD_ON_OP : Fld := ⟨0x48, 8, 8⟩
/-- EPE.PMB_CMD [23:16] (R279). -/
def EPE_PMB_CMD_TRIM_CODE : Fld := ⟨0x48, 16, 8⟩
/-- EPE.PMB_CMD [31:24] (R279). -/
def EPE_PMB_CMD_HL_CODE : Fld := ⟨0x48, 24, 8⟩
/-- EPE.STATUS [0] (R279). -/
def EPE_STATUS_BOUND : Fld := ⟨0x50, 0, 1⟩
/-- EPE.STATUS [1] (R279). -/
def EPE_STATUS_DEFICIT : Fld := ⟨0x50, 1, 1⟩
/-- EPE.STATUS [2] (R279). -/
def EPE_STATUS_RESERVE_SHORT : Fld := ⟨0x50, 2, 1⟩
/-- EPE.STATUS [3] (R279). -/
def EPE_STATUS_XSHORT : Fld := ⟨0x50, 3, 1⟩
/-- EPE.STATUS [4] (R279). -/
def EPE_STATUS_VBUS_BAD : Fld := ⟨0x50, 4, 1⟩
/-- EPE.STATUS [13:8] (R279). -/
def EPE_STATUS_ITER : Fld := ⟨0x50, 8, 6⟩
/-- EPE.STATUS [21:16] (R279). -/
def EPE_STATUS_BAD_SRC : Fld := ⟨0x50, 16, 6⟩
/-- CAP.EST_CFG [1:0] (R281). -/
def CAP_EST_CFG_SRC : Fld := ⟨0x2C, 0, 2⟩
/-- CAP.EST_CFG [5:4] (R281). -/
def CAP_EST_CFG_VCH : Fld := ⟨0x2C, 4, 2⟩
/-- CAP.EST_CFG [9:8] (R281). -/
def CAP_EST_CFG_ICH : Fld := ⟨0x2C, 8, 2⟩
/-- CAP.QUAL [1:0] (R281). -/
def CAP_QUAL_QUAL : Fld := ⟨0x34, 0, 2⟩
/-- CAP.QUAL [15:8] (R281). -/
def CAP_QUAL_HYS : Fld := ⟨0x34, 8, 8⟩
/-- CAP.QUAL [31:16] (R281). -/
def CAP_QUAL_HOLD : Fld := ⟨0x34, 16, 16⟩
/-- CAP.CAP_CFGi [7:0] (R281). -/
def CAP_CAP_CFG_LVL : Fld := ⟨0x38, 0, 8⟩
/-- CAP.CAP_CFGi [11:8] (R281). -/
def CAP_CAP_CFG_GROUP : Fld := ⟨0x38, 8, 4⟩
/-- CAP.CAP_CFGi [16] (R281). -/
def CAP_CAP_CFG_VLOW : Fld := ⟨0x38, 16, 1⟩
/-- CAP.ASSIST_CFG [0] (R281). -/
def CAP_ASSIST_CFG_EN : Fld := ⟨0x58, 0, 1⟩
/-- CAP.ASSIST_CFG [31:16] (R281). -/
def CAP_ASSIST_CFG_MAX : Fld := ⟨0x58, 16, 16⟩
/-- CAP.HL_CFG [0] (R281). -/
def CAP_HL_CFG_EN : Fld := ⟨0x5C, 0, 1⟩
/-- CAP.HL_CFG [15:8] (R281). -/
def CAP_HL_CFG_MARGIN : Fld := ⟨0x5C, 8, 8⟩
/-- CAP.HL_CFG [31:16] (R281). -/
def CAP_HL_CFG_RELEASE : Fld := ⟨0x5C, 16, 16⟩
/-- CAP.STATUS [7:0] (R281). -/
def CAP_STATUS_CAP_ASSERTED : Fld := ⟨0x70, 0, 8⟩
/-- CAP.STATUS [8] (R281). -/
def CAP_STATUS_ASSIST_ON : Fld := ⟨0x70, 8, 1⟩
/-- CAP.STATUS [9] (R281). -/
def CAP_STATUS_HL_ON : Fld := ⟨0x70, 9, 1⟩
/-- CAP.STATUS [13:12] (R281). -/
def CAP_STATUS_C_SRC : Fld := ⟨0x70, 12, 2⟩
/-- GROVE.CFG [2:0] (R283). -/
def GROVE_CFG_PRIO : Fld := ⟨0x2C, 0, 3⟩
/-- GROVE.CFG [8] (R283). -/
def GROVE_CFG_CANOPY_EN : Fld := ⟨0x2C, 8, 1⟩
/-- GROVE.CFG [23:16] (R283). -/
def GROVE_CFG_RISE_DELAY : Fld := ⟨0x2C, 16, 8⟩
/-- GROVE.STATUS [6:0] (R283). -/
def GROVE_STATUS_COUNTED : Fld := ⟨0x60, 0, 7⟩
/-- GROVE.STATUS [14:8] (R283). -/
def GROVE_STATUS_MISSED : Fld := ⟨0x60, 8, 7⟩
/-- GROVE.STATUS [16] (R283). -/
def GROVE_STATUS_LOCAL : Fld := ⟨0x60, 16, 1⟩
/-- GROVE.STATUS [19:17] (R283). -/
def GROVE_STATUS_REFUSE : Fld := ⟨0x60, 17, 3⟩
/-- FEED.CFG [1:0] (R313). -/
def FEED_CFG_MODE : Fld := ⟨0x20, 0, 2⟩
/-- FEED.CFG [4] (R313). -/
def FEED_CFG_DEG_POL : Fld := ⟨0x20, 4, 1⟩
/-- FEED.GATE_CFG [6:0] (R313). -/
def FEED_GATE_CFG_RAMP : Fld := ⟨0x40, 0, 7⟩
/-- FEED.GATE_CFG [15:8] (R313). -/
def FEED_GATE_CFG_GATE_TMO : Fld := ⟨0x40, 8, 8⟩
/-- FEED.GATE_CFG [23:16] (R313). -/
def FEED_GATE_CFG_VDS_TMO : Fld := ⟨0x40, 16, 8⟩
/-- FEED.FET_CFG [7:0] (R313). -/
def FEED_FET_CFG_VDS_ON : Fld := ⟨0x44, 0, 8⟩
/-- FEED.FET_CFG [15:8] (R313). -/
def FEED_FET_CFG_VDS_HI : Fld := ⟨0x44, 8, 8⟩
/-- FEED.FET_CFG [23:16] (R313). -/
def FEED_FET_CFG_LOW_I : Fld := ⟨0x44, 16, 8⟩
/-- FEED.STATUS [3:0] (R313). -/
def FEED_STATUS_STATE : Fld := ⟨0x54, 0, 4⟩
/-- FEED.STATUS [8] (R313). -/
def FEED_STATUS_IN_WIN : Fld := ⟨0x54, 8, 1⟩
/-- FEED.STATUS [9] (R313). -/
def FEED_STATUS_PG : Fld := ⟨0x54, 9, 1⟩
/-- FEED.STATUS [10] (R313). -/
def FEED_STATUS_REVERSE : Fld := ⟨0x54, 10, 1⟩
/-- FEED.STATUS [11] (R313). -/
def FEED_STATUS_PAIRED_ODD : Fld := ⟨0x54, 11, 1⟩
/-- XING.DET [0] (R311). -/
def XING_DET_FEED_EN : Fld := ⟨0x20, 0, 1⟩
/-- XING.DET [1] (R311). -/
def XING_DET_SLOPE_EN : Fld := ⟨0x20, 1, 1⟩
/-- XING.DET [2] (R311). -/
def XING_DET_ACOK_EN : Fld := ⟨0x20, 2, 1⟩
/-- XING.DET [4] (R311). -/
def XING_DET_FEED_ALL : Fld := ⟨0x20, 4, 1⟩
/-- XING.DET [5] (R311). -/
def XING_DET_ACOK_ALL : Fld := ⟨0x20, 5, 1⟩
/-- XING.DET [15:8] (R311). -/
def XING_DET_FEED_MASK : Fld := ⟨0x20, 8, 8⟩
/-- XING.DET [23:16] (R311). -/
def XING_DET_ACOK_MASK : Fld := ⟨0x20, 16, 8⟩
/-- XING.DET [27:24] (R311). -/
def XING_DET_FEED_FILT : Fld := ⟨0x20, 24, 4⟩
/-- XING.DET [31:28] (R311). -/
def XING_DET_ACOK_FILT : Fld := ⟨0x20, 28, 4⟩
/-- XING.SLOPE_CFG [3:0] (R311). -/
def XING_SLOPE_CFG_N : Fld := ⟨0x28, 0, 4⟩
/-- XING.SLOPE_CFG [31:16] (R311). -/
def XING_SLOPE_CFG_VBUS_ARM : Fld := ⟨0x28, 16, 16⟩
/-- XING.RET_CFG [0] (R311). -/
def XING_RET_CFG_RS_FEED : Fld := ⟨0x2C, 0, 1⟩
/-- XING.RET_CFG [1] (R311). -/
def XING_RET_CFG_RS_ACOK : Fld := ⟨0x2C, 1, 1⟩
/-- XING.RET_CFG [2] (R311). -/
def XING_RET_CFG_RS_POLL : Fld := ⟨0x2C, 2, 1⟩
/-- XING.RET_CFG [8] (R311). -/
def XING_RET_CFG_NO_UP : Fld := ⟨0x2C, 8, 1⟩
/-- XING.RET_CFG [9] (R311). -/
def XING_RET_CFG_CUT_SEQ : Fld := ⟨0x2C, 9, 1⟩
/-- XING.RET_CFG [10] (R311). -/
def XING_RET_CFG_AUTO_ON : Fld := ⟨0x2C, 10, 1⟩
/-- XING.STATUS [2:0] (R311). -/
def XING_STATUS_STATE : Fld := ⟨0x4C, 0, 3⟩
/-- XING.STATUS [10:8] (R311). -/
def XING_STATUS_DET : Fld := ⟨0x4C, 8, 3⟩
/-- XING.STATUS [16] (R311). -/
def XING_STATUS_IN_GOOD : Fld := ⟨0x4C, 16, 1⟩
/-- XING.STATUS [17] (R311). -/
def XING_STATUS_VLOW : Fld := ⟨0x4C, 17, 1⟩
/-- XING.STATUS [18] (R311). -/
def XING_STATUS_UNSTABLE : Fld := ⟨0x4C, 18, 1⟩
/-- XING.STATUS [31:24] (R311). -/
def XING_STATUS_WALK : Fld := ⟨0x4C, 24, 8⟩
/-- XING.DROOP [15:0] (R311). -/
def XING_DROOP_VMIN : Fld := ⟨0x60, 0, 16⟩
/-- XING.DROOP [31:16] (R311). -/
def XING_DROOP_TX : Fld := ⟨0x60, 16, 16⟩
/-- SEQ.CFG [0] (R341). -/
def SEQ_CFG_AUTO_ON : Fld := ⟨0x2C, 0, 1⟩
/-- SEQ.CFG [15:8] (R341). -/
def SEQ_CFG_DOWN_LEAD : Fld := ⟨0x2C, 8, 8⟩
/-- SEQ.CFG [19:16] (R341). -/
def SEQ_CFG_RETRIES : Fld := ⟨0x2C, 16, 4⟩
/-- SEQ.CFG [31:24] (R341). -/
def SEQ_CFG_RETRY_GAP : Fld := ⟨0x2C, 24, 8⟩
/-- SEQ.STATUS [2:0] (R341). -/
def SEQ_STATUS_STATE : Fld := ⟨0x3C, 0, 3⟩
/-- SEQ.STATUS [13:8] (R341). -/
def SEQ_STATUS_STEP : Fld := ⟨0x3C, 8, 6⟩
/-- SEQ.STATUS [16] (R341). -/
def SEQ_STATUS_PEND_ON : Fld := ⟨0x3C, 16, 1⟩
/-- SEQ.STATUS [27:24] (R341). -/
def SEQ_STATUS_CAUSE : Fld := ⟨0x3C, 24, 4⟩
/-- SEQ.STEP_LAST [5:0] (R341). -/
def SEQ_STEP_LAST_STEP : Fld := ⟨0xAC, 0, 6⟩
/-- SEQ.STEP_LAST [8] (R341). -/
def SEQ_STEP_LAST_TABLE : Fld := ⟨0xAC, 8, 1⟩
/-- SEQ.STEP_LAST [13:12] (R341). -/
def SEQ_STEP_LAST_REASON : Fld := ⟨0xAC, 12, 2⟩
/-- SEQ.STEP_LAST [31:16] (R341). -/
def SEQ_STEP_LAST_FRAME : Fld := ⟨0xAC, 16, 16⟩
/-- SEQTBL.STATUS [5:0] (R343). -/
def SEQTBL_STATUS_BAD_STEP : Fld := ⟨0x30, 0, 6⟩
/-- SEQTBL.STATUS [8] (R343). -/
def SEQTBL_STATUS_BAD_TABLE : Fld := ⟨0x30, 8, 1⟩
/-- SEQTBL.STATUS [15:12] (R343). -/
def SEQTBL_STATUS_REASON : Fld := ⟨0x30, 12, 4⟩
/-- SEQTBL.STATUS [21:16] (R343). -/
def SEQTBL_STATUS_UP_LEN : Fld := ⟨0x30, 16, 6⟩
/-- SEQTBL.STATUS [29:24] (R343). -/
def SEQTBL_STATUS_DOWN_LEN : Fld := ⟨0x30, 24, 6⟩
/-- WDOG.CFG [1:0] (R345). -/
def WDOG_CFG_ACT : Fld := ⟨0x20, 0, 2⟩
/-- WDOG.CFG [5:4] (R345). -/
def WDOG_CFG_SRC : Fld := ⟨0x20, 4, 2⟩
/-- WDOG.CFG [8] (R345). -/
def WDOG_CFG_EARLY : Fld := ⟨0x20, 8, 1⟩
/-- WDOG.CFG [15:12] (R345). -/
def WDOG_CFG_RESUME_N : Fld := ⟨0x20, 12, 4⟩
/-- WDOG.CFG [23:16] (R345). -/
def WDOG_CFG_RST_W : Fld := ⟨0x20, 16, 8⟩
/-- WDOG.WIN [15:0] (R345). -/
def WDOG_WIN_WIN_MAX : Fld := ⟨0x24, 0, 16⟩
/-- WDOG.WIN [31:16] (R345). -/
def WDOG_WIN_WIN_MIN : Fld := ⟨0x24, 16, 16⟩
/-- WDOG.STATUS [2:0] (R345). -/
def WDOG_STATUS_STATE : Fld := ⟨0x30, 0, 3⟩
/-- WDOG.STATUS [8] (R345). -/
def WDOG_STATUS_AUTONOMOUS : Fld := ⟨0x30, 8, 1⟩
/-- WDOG.STATUS [15:12] (R345). -/
def WDOG_STATUS_RESUMES : Fld := ⟨0x30, 12, 4⟩
/-- WDOG.LAST [1:0] (R345). -/
def WDOG_LAST_CAUSE : Fld := ⟨0x38, 0, 2⟩
/-- WDOG.LAST [31:16] (R345). -/
def WDOG_LAST_FRAME : Fld := ⟨0x38, 16, 16⟩
/-- BATT.CFG [3:0] (R370). -/
def BATT_CFG_RAIL : Fld := ⟨0x2C, 0, 4⟩
/-- BATT.CFG [11:8] (R370). -/
def BATT_CFG_TS : Fld := ⟨0x2C, 8, 4⟩
/-- BATT.CFG [12] (R370). -/
def BATT_CFG_TS_EN : Fld := ⟨0x2C, 12, 1⟩
/-- BATT.CFG [13] (R370). -/
def BATT_CFG_TEMP_POLL : Fld := ⟨0x2C, 13, 1⟩
/-- BATT.CFG [17:16] (R370). -/
def BATT_CFG_PRES_SRC : Fld := ⟨0x2C, 16, 2⟩
/-- BATT.CFG [20] (R370). -/
def BATT_CFG_CHG_EN : Fld := ⟨0x2C, 20, 1⟩
/-- BATT.OCV_T [7:0], [15:8], [23:16] (R370). -/
def BATT_OCV_T_T_A : Fld := ⟨0x38, 0, 8⟩
/-- BATT.OCV_T [7:0], [15:8], [23:16] (R370). -/
def BATT_OCV_T_T_B : Fld := ⟨0x38, 8, 8⟩
/-- BATT.OCV_T [7:0], [15:8], [23:16] (R370). -/
def BATT_OCV_T_T_C : Fld := ⟨0x38, 16, 8⟩
/-- BATT.CHG_TERM [15:0] (R370). -/
def BATT_CHG_TERM_CHG_TERM : Fld := ⟨0x44, 0, 16⟩
/-- BATT.CHG_TERM [31:16] (R370). -/
def BATT_CHG_TERM_RECHG : Fld := ⟨0x44, 16, 16⟩
/-- BATT.CHG_TEMP [31:24] (R370). -/
def BATT_CHG_TEMP_CHG_TMIN : Fld := ⟨0x48, 24, 8⟩
/-- BATT.CHG_TEMP [23:16] (R370). -/
def BATT_CHG_TEMP_CHG_TMAX : Fld := ⟨0x48, 16, 8⟩
/-- BATT.SOC_LVL [31:24] (R370). -/
def BATT_SOC_LVL_LOW : Fld := ⟨0x4C, 24, 8⟩
/-- BATT.SOC_LVL [23:16] (R370). -/
def BATT_SOC_LVL_VLOW : Fld := ⟨0x4C, 16, 8⟩
/-- BATT.LVL_CFG [15:0] (R370). -/
def BATT_LVL_CFG_LVL_T : Fld := ⟨0x60, 0, 16⟩
/-- BATT.LVL_CFG [31:16] (R370). -/
def BATT_LVL_CFG_V_HYS : Fld := ⟨0x60, 16, 16⟩
/-- BATT.REST_CFG [15:0] (R370). -/
def BATT_REST_CFG_REST_I : Fld := ⟨0x64, 0, 16⟩
/-- BATT.REST_CFG [31:16] (R370). -/
def BATT_REST_CFG_REST_T : Fld := ⟨0x64, 16, 16⟩
/-- BATT.IMP_CFG [0] (R370). -/
def BATT_IMP_CFG_EN : Fld := ⟨0x68, 0, 1⟩
/-- BATT.IMP_CFG [15:8] (R370). -/
def BATT_IMP_CFG_IMP_PERIOD : Fld := ⟨0x68, 8, 8⟩
/-- BATT.STATUS [1:0] (R370). -/
def BATT_STATUS_PRES : Fld := ⟨0x88, 0, 2⟩
/-- BATT.STATUS [4] (R370). -/
def BATT_STATUS_SWAPPED : Fld := ⟨0x88, 4, 1⟩
/-- BATT.STATUS [5] (R370). -/
def BATT_STATUS_UNLEARNED : Fld := ⟨0x88, 5, 1⟩
/-- BATT.STATUS [6] (R370). -/
def BATT_STATUS_CAP_SUSPECT : Fld := ⟨0x88, 6, 1⟩
/-- BATT.STATUS [7] (R370). -/
def BATT_STATUS_CHG_TEMP : Fld := ⟨0x88, 7, 1⟩
/-- BATT.STATUS [9:8] (R370). -/
def BATT_STATUS_LEVEL : Fld := ⟨0x88, 8, 2⟩
/-- BATT.STATUS [12] (R370). -/
def BATT_STATUS_CHARGING : Fld := ⟨0x88, 12, 1⟩
/-- BATT.STATUS [13] (R370). -/
def BATT_STATUS_FULL : Fld := ⟨0x88, 13, 1⟩
/-- BATT.STATUS [14] (R370). -/
def BATT_STATUS_AT_REST : Fld := ⟨0x88, 14, 1⟩
/-- BATT.STATUS [15] (R370). -/
def BATT_STATUS_IMP_RUN : Fld := ⟨0x88, 15, 1⟩
/-- BATT.STATUS [17:16] (R370). -/
def BATT_STATUS_UPD : Fld := ⟨0x88, 16, 2⟩
/-- BATT.STATUS [31:24] (R370). -/
def BATT_STATUS_TEMP : Fld := ⟨0x88, 24, 8⟩
/-- BATT.ID [4:0] (R370). -/
def BATT_ID_CODE : Fld := ⟨0xA4, 0, 5⟩
/-- BATT.ID [31:16] (R370). -/
def BATT_ID_R_ID : Fld := ⟨0xA4, 16, 16⟩
/-- THERM.CFG [3:0] (R384). -/
def THERM_CFG_LID : Fld := ⟨0x2C, 0, 4⟩
/-- THERM.CFG [4] (R384). -/
def THERM_CFG_LID_EN : Fld := ⟨0x2C, 4, 1⟩
/-- THERM.XCHK [7:0] (R384). -/
def THERM_XCHK_DEV : Fld := ⟨0x30, 0, 8⟩
/-- THERM.XCHK [15:8] (R384). -/
def THERM_XCHK_T : Fld := ⟨0x30, 8, 8⟩
/-- THERM.RR_CFG [15:0] (R384). -/
def THERM_RR_CFG_RR_WIN : Fld := ⟨0x34, 0, 16⟩
/-- THERM.RR_CFG [31:16] (R384). -/
def THERM_RR_CFG_RR_HOR : Fld := ⟨0x34, 16, 16⟩
/-- THERM.DIE_LIM [31:24] (R384). -/
def THERM_DIE_LIM_WARN : Fld := ⟨0x38, 24, 8⟩
/-- THERM.DIE_LIM [23:16] (R384). -/
def THERM_DIE_LIM_HOT : Fld := ⟨0x38, 16, 8⟩
/-- THERM.DIE [15:0] (R384). -/
def THERM_DIE_T_J : Fld := ⟨0x40, 0, 16⟩
/-- THERM.DIE [19:16] (R384). -/
def THERM_DIE_HOTTEST : Fld := ⟨0x40, 16, 4⟩
/-- THERM.DIE [29:28] (R384). -/
def THERM_DIE_SRC : Fld := ⟨0x40, 28, 2⟩
/-- THERM.CAL_STAT [1:0] (R384). -/
def THERM_CAL_STAT_SRC : Fld := ⟨0x4C, 0, 2⟩
/-- THERM.CAL_STAT [8] (R384). -/
def THERM_CAL_STAT_SUSPECT : Fld := ⟨0x4C, 8, 1⟩
/-- THERM.CAL_STAT [31:16] (R384). -/
def THERM_CAL_STAT_COUNT : Fld := ⟨0x4C, 16, 16⟩
/-- THERM.RANGE [0] (R384). -/
def THERM_RANGE_MRAM_HOLD : Fld := ⟨0x5C, 0, 1⟩
/-- THERM.RANGE [1] (R384). -/
def THERM_RANGE_UPD_BLOCK : Fld := ⟨0x5C, 1, 1⟩
/-- NET.CFG [1:0] (R411). -/
def NET_CFG_SPEED : Fld := ⟨0x20, 0, 2⟩
/-- NET.CFG [4] (R411). -/
def NET_CFG_AN : Fld := ⟨0x20, 4, 1⟩
/-- NET.CFG [8] (R411). -/
def NET_CFG_TX_INV : Fld := ⟨0x20, 8, 1⟩
/-- NET.CFG [9] (R411). -/
def NET_CFG_RX_INV : Fld := ⟨0x20, 9, 1⟩
/-- NET.CFG [13:12] (R411). -/
def NET_CFG_TX_SWING : Fld := ⟨0x20, 12, 2⟩
/-- NET.CFG [17:16] (R411). -/
def NET_CFG_RX_EQ : Fld := ⟨0x20, 16, 2⟩
/-- NET.STATUS [0] (R411). -/
def NET_STATUS_UP : Fld := ⟨0x24, 0, 1⟩
/-- NET.STATUS [1] (R411). -/
def NET_STATUS_SYNC : Fld := ⟨0x24, 1, 1⟩
/-- NET.STATUS [2] (R411). -/
def NET_STATUS_AN_DONE : Fld := ⟨0x24, 2, 1⟩
/-- NET.STATUS [3] (R411). -/
def NET_STATUS_LP_FD : Fld := ⟨0x24, 3, 1⟩
/-- NET.STATUS [5:4] (R411). -/
def NET_STATUS_SPEED_NOW : Fld := ⟨0x24, 4, 2⟩
/-- NET.STATUS [17:16] (R411). -/
def NET_STATUS_EQ_NOW : Fld := ⟨0x24, 16, 2⟩
/-- NETPAIR.CFG [7:0] (R413). -/
def NETPAIR_CFG_LIFE_CHECK : Fld := ⟨0x2C, 0, 8⟩
/-- NETPAIR.CFG [23:16] (R413). -/
def NETPAIR_CFG_ENTRY_FORGET : Fld := ⟨0x2C, 16, 8⟩
/-- NETPAIR.CFG [24] (R413). -/
def NETPAIR_CFG_AUTO_REPAIR : Fld := ⟨0x2C, 24, 1⟩
/-- NETPAIR.STATUS [0] (R413). -/
def NETPAIR_STATUS_ACTIVE : Fld := ⟨0x34, 0, 1⟩
/-- NETPAIR.STATUS [10:8] (R413). -/
def NETPAIR_STATUS_STATE0 : Fld := ⟨0x34, 8, 3⟩
/-- NETPAIR.STATUS [14:12] (R413). -/
def NETPAIR_STATUS_STATE1 : Fld := ⟨0x34, 12, 3⟩
/-- NETPAIR.STATUS [16] (R413). -/
def NETPAIR_STATUS_SIMPLEX : Fld := ⟨0x34, 16, 1⟩
/-- NETPAIR.STATUS [28:20] (R413). -/
def NETPAIR_STATUS_ENTRIES : Fld := ⟨0x34, 20, 9⟩
/-- NETPAIR.SWITCH_LAST [3:0] (R413). -/
def NETPAIR_SWITCH_LAST_REASON : Fld := ⟨0x3C, 0, 4⟩
/-- NETPAIR.SWITCH_LAST [8] (R413). -/
def NETPAIR_SWITCH_LAST_FROM : Fld := ⟨0x3C, 8, 1⟩
/-- NETPAIR.SWITCH_LAST [31:16] (R413). -/
def NETPAIR_SWITCH_LAST_FRAME : Fld := ⟨0x3C, 16, 16⟩
/-- PTP.CFG [7:0] (R444). -/
def PTP_CFG_DOMAIN : Fld := ⟨0x20, 0, 8⟩
/-- PTP.CFG [8] (R444). -/
def PTP_CFG_DELAY : Fld := ⟨0x20, 8, 1⟩
/-- PTP.CFG [9] (R444). -/
def PTP_CFG_SLAVE_ONLY : Fld := ⟨0x20, 9, 1⟩
/-- PTP.CFG [11:10] (R444). -/
def PTP_CFG_PORTS : Fld := ⟨0x20, 10, 2⟩
/-- PTP.CFG [19:16] (R444). -/
def PTP_CFG_LOG_SYNC : Fld := ⟨0x20, 16, 4⟩
/-- PTP.CFG [23:20] (R444). -/
def PTP_CFG_LOG_ANN : Fld := ⟨0x20, 20, 4⟩
/-- PTP.CFG [27:24] (R444). -/
def PTP_CFG_ANN_TMO : Fld := ⟨0x20, 24, 4⟩
/-- PTP.PRIO [7:0] (R444). -/
def PTP_PRIO_PRIORITY1 : Fld := ⟨0x24, 0, 8⟩
/-- PTP.PRIO [15:8] (R444). -/
def PTP_PRIO_PRIORITY2 : Fld := ⟨0x24, 8, 8⟩
/-- PTP.LOCK_CFG [15:0] (R444). -/
def PTP_LOCK_CFG_LOCK_THR : Fld := ⟨0x28, 0, 16⟩
/-- PTP.LOCK_CFG [23:16] (R444). -/
def PTP_LOCK_CFG_LOCK_N : Fld := ⟨0x28, 16, 8⟩
/-- PTP.LOCK_CFG [31:24] (R444). -/
def PTP_LOCK_CFG_UNLOCK_THR : Fld := ⟨0x28, 24, 8⟩
/-- PTP.LAT_x [15:0] (R444). -/
def PTP_LAT_INGRESS : Fld := ⟨0x2C, 0, 16⟩
/-- PTP.LAT_x [31:16] (R444). -/
def PTP_LAT_EGRESS : Fld := ⟨0x2C, 16, 16⟩
/-- PTP.PPS_CFG [0] (R444). -/
def PTP_PPS_CFG_EN : Fld := ⟨0x34, 0, 1⟩
/-- PTP.PPS_CFG [1] (R444). -/
def PTP_PPS_CFG_FREE : Fld := ⟨0x34, 1, 1⟩
/-- PTP.PPS_CFG [31:16] (R444). -/
def PTP_PPS_CFG_W : Fld := ⟨0x34, 16, 16⟩
/-- PTP.STATUS [0] (R444). -/
def PTP_STATUS_LOCKED : Fld := ⟨0x38, 0, 1⟩
/-- PTP.STATUS [1] (R444). -/
def PTP_STATUS_SEL : Fld := ⟨0x38, 1, 1⟩
/-- PTP.STATUS [7:4] (R444). -/
def PTP_STATUS_STATE_A : Fld := ⟨0x38, 4, 4⟩
/-- PTP.STATUS [11:8] (R444). -/
def PTP_STATUS_STATE_B : Fld := ⟨0x38, 8, 4⟩
/-- BENUF.CFG [0] (R446). -/
def BENUF_CFG_VLAN_EN : Fld := ⟨0x2C, 0, 1⟩
/-- BENUF.CFG [1] (R446). -/
def BENUF_CFG_AUTH : Fld := ⟨0x2C, 1, 1⟩
/-- BENUF.CFG [31:16] (R446). -/
def BENUF_CFG_ETYPE : Fld := ⟨0x2C, 16, 16⟩
/-- BENUF.HELLO_CFG [7:0] (R446). -/
def BENUF_HELLO_CFG_HELLO_INT : Fld := ⟨0x38, 0, 8⟩
/-- BENUF.HELLO_CFG [15:8] (R446). -/
def BENUF_HELLO_CFG_JOIN_T : Fld := ⟨0x38, 8, 8⟩
/-- BENUF.HELLO_CFG [31:16] (R446). -/
def BENUF_HELLO_CFG_DROP_T : Fld := ⟨0x38, 16, 16⟩
/-- BENUF.STATUS [1:0] (R446). -/
def BENUF_STATUS_STATE : Fld := ⟨0x50, 0, 2⟩
/-- BENUF.STATUS [4] (R446). -/
def BENUF_STATUS_DUP : Fld := ⟨0x50, 4, 1⟩
/-- BENUF.STATUS [14:8] (R446). -/
def BENUF_STATUS_ADMITTED : Fld := ⟨0x50, 8, 7⟩
/-- BENUF.CAPSET_LAST [0] (R446). -/
def BENUF_CAPSET_LAST_TARGET : Fld := ⟨0x6C, 0, 1⟩
/-- BENUF.CAPSET_LAST [4] (R446). -/
def BENUF_CAPSET_LAST_LATE : Fld := ⟨0x6C, 4, 1⟩
/-- BENUF.CAPSET_LAST [5] (R446). -/
def BENUF_CAPSET_LAST_REFUSED : Fld := ⟨0x6C, 5, 1⟩
/-- BENUF.CAPSET_LAST [31:16] (R446). -/
def BENUF_CAPSET_LAST_PERIOD : Fld := ⟨0x6C, 16, 16⟩
/-- BENUF.CONFLICT [11:0] (R446). -/
def BENUF_CONFLICT_SHELF : Fld := ⟨0x70, 0, 12⟩
/-- BENUF.CONFLICT [15] (R446). -/
def BENUF_CONFLICT_OWN : Fld := ⟨0x70, 15, 1⟩
/-- TWT.CFG [4:0] (R472). -/
def TWT_CFG_FILT_SCL : Fld := ⟨0x20, 0, 5⟩
/-- TWT.CFG [12:8] (R472). -/
def TWT_CFG_FILT_SDA : Fld := ⟨0x20, 8, 5⟩
/-- TWT.CFG [16] (R472). -/
def TWT_CFG_SMB_TMO : Fld := ⟨0x20, 16, 1⟩
/-- TWT.CFG [17] (R472). -/
def TWT_CFG_PEC_EN : Fld := ⟨0x20, 17, 1⟩
/-- TWT.CFG [31:20] (R472). -/
def TWT_CFG_STRETCH_MAX : Fld := ⟨0x20, 20, 12⟩
/-- TWT.STATUS [6:0] (R472). -/
def TWT_STATUS_ADDR : Fld := ⟨0x24, 0, 7⟩
/-- TWT.STATUS [8] (R472). -/
def TWT_STATUS_BUSY : Fld := ⟨0x24, 8, 1⟩
/-- TWT.STATUS [9] (R472). -/
def TWT_STATUS_BROWN : Fld := ⟨0x24, 9, 1⟩
/-- TWT.STATUS [10] (R472). -/
def TWT_STATUS_COMMITTING : Fld := ⟨0x24, 10, 1⟩
/-- TWT.LAST_ERR [3:0] (R472). -/
def TWT_LAST_ERR_KIND : Fld := ⟨0x34, 0, 4⟩
/-- TWT.LAST_ERR [31:16] (R472). -/
def TWT_LAST_ERR_ADDR : Fld := ⟨0x34, 16, 16⟩
/-- TWC.CFG [1:0] (R474). -/
def TWC_CFG_SPEED : Fld := ⟨0x2C, 0, 2⟩
/-- TWC.CFG [5:4] (R474). -/
def TWC_CFG_PU : Fld := ⟨0x2C, 4, 2⟩
/-- TWC.CFG [12:8] (R474). -/
def TWC_CFG_FILT : Fld := ⟨0x2C, 8, 5⟩
/-- TWC.CFG [19:16] (R474). -/
def TWC_CFG_ARB_RETRIES : Fld := ⟨0x2C, 16, 4⟩
/-- TWC.CFG [20] (R474). -/
def TWC_CFG_ALERT_EN : Fld := ⟨0x2C, 20, 1⟩
/-- TWC.CFG [31:24] (R474). -/
def TWC_CFG_ZONE_WAKE : Fld := ⟨0x2C, 24, 8⟩
/-- TWC.POLL_CFG [7:0] (R474). -/
def TWC_POLL_CFG_POLL_INT : Fld := ⟨0x30, 0, 8⟩
/-- TWC.POLL_CFG [11:8] (R474). -/
def TWC_POLL_CFG_STALE_N : Fld := ⟨0x30, 8, 4⟩
/-- TWC.POLL_CFG [23:16] (R474). -/
def TWC_POLL_CFG_STRETCH_TMO : Fld := ⟨0x30, 16, 8⟩
/-- TWC.STATUS [0] (R474). -/
def TWC_STATUS_BUSY : Fld := ⟨0x38, 0, 1⟩
/-- TWC.STATUS [1] (R474). -/
def TWC_STATUS_DROOP : Fld := ⟨0x38, 1, 1⟩
/-- TWC.STATUS [12:8] (R474). -/
def TWC_STATUS_ENTRIES : Fld := ⟨0x38, 8, 5⟩
/-- TWC.STATUS [23:16] (R474). -/
def TWC_STATUS_DECLARED : Fld := ⟨0x38, 16, 8⟩
/-- TWC.ARB_LAST [7:0] (R474). -/
def TWC_ARB_LAST_POS : Fld := ⟨0x3C, 0, 8⟩
/-- TWC.ARB_LAST [14:8] (R474). -/
def TWC_ARB_LAST_ADDR : Fld := ⟨0x3C, 8, 7⟩
/-- MEM.SCRUB_CFG [7:0] (R499). -/
def MEM_SCRUB_CFG_MRAM_DAYS : Fld := ⟨0x2C, 0, 8⟩
/-- HEART.ACL [15:0] (R501). -/
def HEART_ACL_RD : Fld := ⟨0x20, 0, 16⟩
/-- HEART.ACL [31:16] (R501). -/
def HEART_ACL_WR : Fld := ⟨0x20, 16, 16⟩
/-- HEART.TAMPER_CFG [1:0] (R501). -/
def HEART_TAMPER_CFG_EN : Fld := ⟨0x24, 0, 2⟩
/-- HEART.TAMPER_CFG [9:8] (R501). -/
def HEART_TAMPER_CFG_PULSE : Fld := ⟨0x24, 8, 2⟩
/-- HEART.STATUS [0] (R501). -/
def HEART_STATUS_EMPTY : Fld := ⟨0x2C, 0, 1⟩
/-- HEART.STATUS [1] (R501). -/
def HEART_STATUS_WIPING : Fld := ⟨0x2C, 1, 1⟩
/-- HEART.STATUS [3:2] (R501). -/
def HEART_STATUS_PIN : Fld := ⟨0x2C, 2, 2⟩
/-- HEART.WIPE_LAST [3:0] (R501). -/
def HEART_WIPE_LAST_CAUSE : Fld := ⟨0x34, 0, 4⟩
/-- HEART.WIPE_LAST [31:16] (R501). -/
def HEART_WIPE_LAST_FRAME : Fld := ⟨0x34, 16, 16⟩
/-- MBOX.DOORBELLk [22:16] (R516). -/
def MBOX_DOORBELL_LEN : Fld := ⟨0x2C, 16, 7⟩
/-- MBOX.DOORBELLk [31:24] (R516). -/
def MBOX_DOORBELL_TAG : Fld := ⟨0x2C, 24, 8⟩
/-- MBOX.ACK_Hk [31:16] (R516). -/
def MBOX_ACK_H_CODE : Fld := ⟨0x30, 16, 16⟩
/-- MBOX.ACK_Lk [19:16] (R516). -/
def MBOX_ACK_L_STATE : Fld := ⟨0x34, 16, 4⟩
/-- MBOX.ACK_Lk [31:24] (R516). -/
def MBOX_ACK_L_TAG : Fld := ⟨0x34, 24, 8⟩
/-- REC.CFG [7:0] (R538). -/
def REC_CFG_ANCHOR_INT : Fld := ⟨0x2C, 0, 8⟩
/-- REC.CFG [8] (R538). -/
def REC_CFG_STREAM_EN : Fld := ⟨0x2C, 8, 1⟩
/-- REC.CFG [20:16] (R538). -/
def REC_CFG_BATCH : Fld := ⟨0x2C, 16, 5⟩
/-- REC.CFG [31:24] (R538). -/
def REC_CFG_STREAM_T : Fld := ⟨0x2C, 24, 8⟩
/-- REC.STATUS [0] (R538). -/
def REC_STATUS_SCANNED : Fld := ⟨0x70, 0, 1⟩
/-- REC.STATUS [1] (R538). -/
def REC_STATUS_HOLD : Fld := ⟨0x70, 1, 1⟩
/-- REC.STATUS [2] (R538). -/
def REC_STATUS_STREAM : Fld := ⟨0x70, 2, 1⟩
/-- REC.STATUS [3] (R538). -/
def REC_STATUS_ROOT_FULL : Fld := ⟨0x70, 3, 1⟩
/-- REC.STATUS [4] (R538). -/
def REC_STATUS_DRAINING : Fld := ⟨0x70, 4, 1⟩
/-- REC.STATUS [31:16] (R538). -/
def REC_STATUS_BAD_SLOTS : Fld := ⟨0x70, 16, 16⟩
/-- BIST.SUMMARY [0] (R563). -/
def BIST_SUMMARY_DONE : Fld := ⟨0x20, 0, 1⟩
/-- BIST.SUMMARY [1] (R563). -/
def BIST_SUMMARY_PASS : Fld := ⟨0x20, 1, 1⟩
/-- BIST.SUMMARY [2] (R563). -/
def BIST_SUMMARY_DEGRADED : Fld := ⟨0x20, 2, 1⟩
/-- BIST.SUMMARY [3] (R563). -/
def BIST_SUMMARY_ESSENTIAL : Fld := ⟨0x20, 3, 1⟩
/-- BIST.SUMMARY [15:8] (R563). -/
def BIST_SUMMARY_FAILED : Fld := ⟨0x20, 8, 8⟩
/-- BIST.SUMMARY [23:16] (R563). -/
def BIST_SUMMARY_ESS_CODE : Fld := ⟨0x20, 16, 8⟩
/-- BIST.COMPAT [31:16] (R563). -/
def BIST_COMPAT_COVERAGE : Fld := ⟨0x24, 16, 16⟩
/-- BIST.COMPAT [15:0] (R563). -/
def BIST_COMPAT_DURATION : Fld := ⟨0x24, 0, 16⟩
/-- BIST.CLUSTERS [3:0] (R563). -/
def BIST_CLUSTERS_START_FAIL : Fld := ⟨0x28, 0, 4⟩
/-- BIST.CLUSTERS [11:8] (R563). -/
def BIST_CLUSTERS_IS_FAIL : Fld := ⟨0x28, 8, 4⟩
/-- BIST.CLUSTERS [19:16] (R563). -/
def BIST_CLUSTERS_IS_PASS : Fld := ⟨0x28, 16, 4⟩
/-- BIST.MISC [0] (R563). -/
def BIST_MISC_SPARE : Fld := ⟨0x40, 0, 1⟩
/-- BIST.MISC [7:4] (R563). -/
def BIST_MISC_LANES : Fld := ⟨0x40, 4, 4⟩
/-- BIST.MISC [8] (R563). -/
def BIST_MISC_SOLVER : Fld := ⟨0x40, 8, 1⟩
/-- BIST.MISC [10:9] (R563). -/
def BIST_MISC_ENGINES : Fld := ⟨0x40, 9, 2⟩
/-- BIST.MISC [11] (R563). -/
def BIST_MISC_SHADOW : Fld := ⟨0x40, 11, 1⟩
/-- BIST.MISC [12] (R563). -/
def BIST_MISC_MRAM : Fld := ⟨0x40, 12, 1⟩
/-- BIST.MISC [13] (R563). -/
def BIST_MISC_MRAM_RO : Fld := ⟨0x40, 13, 1⟩
/-- BIST.MISC [23:16] (R563). -/
def BIST_MISC_FEEDS : Fld := ⟨0x40, 16, 8⟩
/-- BIST.IS_LAST [1:0] (R563). -/
def BIST_IS_LAST_CLUSTER : Fld := ⟨0x44, 0, 2⟩
/-- BIST.IS_LAST [8] (R563). -/
def BIST_IS_LAST_PASS : Fld := ⟨0x44, 8, 1⟩
/-- BIST.IS_LAST [31:16] (R563). -/
def BIST_IS_LAST_FRAME : Fld := ⟨0x44, 16, 16⟩
/-- LIFE.STATE [2:0] (R565). -/
def LIFE_STATE_STATE : Fld := ⟨0x20, 0, 3⟩
/-- LIFE.STATE [8] (R565). -/
def LIFE_STATE_BUSY : Fld := ⟨0x20, 8, 1⟩
/-- LIFE.STATE [15:12] (R565). -/
def LIFE_STATE_REFUSE : Fld := ⟨0x20, 12, 4⟩
/-- LIFE.CMD [31:28] (R565). -/
def LIFE_CMD_OP : Fld := ⟨0x24, 28, 4⟩
/-- LIFE.CMD [18:16] (R565). -/
def LIFE_CMD_TARGET : Fld := ⟨0x24, 16, 3⟩
/-- LIFE.LAST [2:0] (R565). -/
def LIFE_LAST_FROM : Fld := ⟨0x2C, 0, 3⟩
/-- LIFE.LAST [6:4] (R565). -/
def LIFE_LAST_TO : Fld := ⟨0x2C, 4, 3⟩
/-- LIFE.LAST [31:16] (R565). -/
def LIFE_LAST_FRAME : Fld := ⟨0x2C, 16, 16⟩
/-- UPDATE.CFG [0] (R592). -/
def UPDATE_CFG_AUTO_ACT : Fld := ⟨0x2C, 0, 1⟩
/-- UPDATE.CMD [31:16] (R592). -/
def UPDATE_CMD_OP : Fld := ⟨0x30, 16, 16⟩
/-- UPDATE.STATUS [2:0] (R592). -/
def UPDATE_STATUS_STATE : Fld := ⟨0x3C, 0, 3⟩
/-- UPDATE.STATUS [4] (R592). -/
def UPDATE_STATUS_TARGET : Fld := ⟨0x3C, 4, 1⟩
/-- UPDATE.STATUS [11:8] (R592). -/
def UPDATE_STATUS_OWNER : Fld := ⟨0x3C, 8, 4⟩
/-- UPDATE.STATUS [12] (R592). -/
def UPDATE_STATUS_MARK : Fld := ⟨0x3C, 12, 1⟩
/-- UPDATE.STATUS [13] (R592). -/
def UPDATE_STATUS_SAPLING : Fld := ⟨0x3C, 13, 1⟩
/-- UPDATE.STATUS [14] (R592). -/
def UPDATE_STATUS_PLAN_OLD : Fld := ⟨0x3C, 14, 1⟩
/-- UPDATE.STATUS [15] (R592). -/
def UPDATE_STATUS_FMT_DIFF : Fld := ⟨0x3C, 15, 1⟩
/-- UPDATE.REFUSE [4:0] (R592). -/
def UPDATE_REFUSE_REASON : Fld := ⟨0x40, 0, 5⟩
/-- UPDATE.REFUSE [31:12] (R592). -/
def UPDATE_REFUSE_OFFSET : Fld := ⟨0x40, 12, 20⟩
/-- UPDATE.PROGRESS [12:0] (R592). -/
def UPDATE_PROGRESS_RECEIVED : Fld := ⟨0x50, 0, 13⟩
/-- UPDATE.PROGRESS [28:16] (R592). -/
def UPDATE_PROGRESS_NEEDED : Fld := ⟨0x50, 16, 13⟩
/-- UPDATE.PLAN_STAT [0] (R592). -/
def UPDATE_PLAN_STAT_COPY : Fld := ⟨0x54, 0, 1⟩
/-- UPDATE.PLAN_STAT [1] (R592). -/
def UPDATE_PLAN_STAT_VALID : Fld := ⟨0x54, 1, 1⟩
/-- UPDATE.PLAN_STAT [2] (R592). -/
def UPDATE_PLAN_STAT_LIMP_ONLY : Fld := ⟨0x54, 2, 1⟩
/-- UPDATE.PLAN_STAT [15:8] (R592). -/
def UPDATE_PLAN_STAT_GEN : Fld := ⟨0x54, 8, 8⟩
/-- UPDATE.PLAN_STAT [31:16] (R592). -/
def UPDATE_PLAN_STAT_FMT : Fld := ⟨0x54, 16, 16⟩

/-! ### Events (R78) and faults (R79) -/

/-- Bit of every page (R78, R79). -/
def EV_CFG_REFUSED : Nat := 0
/-- Bit of every page (R78, R79). -/
def EV_PAIR_REFUSED : Nat := 1
/-- Bit of every page (R78, R79). -/
def EV_PAIR_USE : Nat := 2
/-- Bit of every page (R78, R79). -/
def EV_FAULT_LASTING : Nat := 3
/-- Bit of every page (R78, R79). -/
def EV_TBL_RANGE : Nat := 4
/-- Bit of every page (R78, R79). -/
def FLT_PAIR : Nat := 0
/-- Bit of every page (R78, R79). -/
def FLT_POISON : Nat := 1
/-- CLK event SYNC_LOCK. -/
def CLK_EV_SYNC_LOCK : Nat := 8
/-- CLK event SYNC_LOST. -/
def CLK_EV_SYNC_LOST : Nat := 9
/-- CLK event CLK_LOST. -/
def CLK_EV_CLK_LOST : Nat := 10
/-- CLK fault SYNC_LOST. -/
def CLK_FLT_SYNC_LOST : Nat := 8
/-- CLK fault CLK_LOST. -/
def CLK_FLT_CLK_LOST : Nat := 9
/-- SCHED event DROP. -/
def SCHED_EV_DROP : Nat := 8
/-- SCHED event FALLBACK. -/
def SCHED_EV_FALLBACK : Nat := 9
/-- SCHED event STEP. -/
def SCHED_EV_STEP : Nat := 10
/-- PLACE event MOVED. -/
def PLACE_EV_MOVED : Nat := 8
/-- PLACE event N1_FAIL. -/
def PLACE_EV_N1_FAIL : Nat := 9
/-- PLACE event OVER75. -/
def PLACE_EV_OVER75 : Nat := 10
/-- PLACE event POINTS_FULL. -/
def PLACE_EV_POINTS_FULL : Nat := 11
/-- PLACE event SLOT_REFUSED. -/
def PLACE_EV_SLOT_REFUSED : Nat := 12
/-- PLACE event BIST_REFUSED. -/
def PLACE_EV_BIST_REFUSED : Nat := 13
/-- PLACE event BIST_DONE. -/
def PLACE_EV_BIST_DONE : Nat := 14
/-- PLACE STAT bit N1_FAIL. -/
def PLACE_ST_N1_FAIL : Nat := 8
/-- PLACE STAT bit OVER75. -/
def PLACE_ST_OVER75 : Nat := 9
/-- PLACE STAT bit POINTS_FULL. -/
def PLACE_ST_POINTS_FULL : Nat := 10
/-- PLACE STAT bit LEAN_ACTIVE. -/
def PLACE_ST_LEAN_ACTIVE : Nat := 11
/-- PHASE event CBC_LASTING. -/
def PHASE_EV_CBC_LASTING : Nat := 8
/-- PHASE event SUSPECT. -/
def PHASE_EV_SUSPECT : Nat := 9
/-- PHASE event OPEN. -/
def PHASE_EV_OPEN : Nat := 10
/-- PHASE event SENSE_FAIL. -/
def PHASE_EV_SENSE_FAIL : Nat := 11
/-- PHASE event PROBE_DONE. -/
def PHASE_EV_PROBE_DONE : Nat := 12
/-- PHASE fault CBC. -/
def PHASE_FLT_CBC : Nat := 8
/-- PHASE fault OPEN. -/
def PHASE_FLT_OPEN : Nat := 9
/-- PHASE fault SENSE. -/
def PHASE_FLT_SENSE : Nat := 10
/-- RAIL event SS_DONE. -/
def RAIL_EV_SS_DONE : Nat := 8
/-- RAIL event TRUNC. -/
def RAIL_EV_TRUNC : Nat := 9
/-- RAIL event UV. -/
def RAIL_EV_UV : Nat := 10
/-- RAIL event SHORT. -/
def RAIL_EV_SHORT : Nat := 11
/-- RAIL event OV. -/
def RAIL_EV_OV : Nat := 12
/-- RAIL event PHASE_ADDED. -/
def RAIL_EV_PHASE_ADDED : Nat := 13
/-- RAIL event PHASE_DROPPED. -/
def RAIL_EV_PHASE_DROPPED : Nat := 14
/-- RAIL event SHED_REFUSED. -/
def RAIL_EV_SHED_REFUSED : Nat := 15
/-- RAIL event CAPACITY. -/
def RAIL_EV_CAPACITY : Nat := 16
/-- RAIL event NO_PHASE. -/
def RAIL_EV_NO_PHASE : Nat := 17
/-- RAIL fault UV. -/
def RAIL_FLT_UV : Nat := 8
/-- RAIL fault SHORT. -/
def RAIL_FLT_SHORT : Nat := 9
/-- RAIL fault OV. -/
def RAIL_FLT_OV : Nat := 10
/-- ADCCAL event CAL_LIMIT. -/
def ADCCAL_EV_CAL_LIMIT : Nat := 8
/-- ADCCAL event CONV_FAIL. -/
def ADCCAL_EV_CONV_FAIL : Nat := 9
/-- ADCCAL event SPARE_FAIL. -/
def ADCCAL_EV_SPARE_FAIL : Nat := 10
/-- ADCCAL event MON_HI. -/
def ADCCAL_EV_MON_HI : Nat := 20
/-- ADCCAL event MON_LO. -/
def ADCCAL_EV_MON_LO : Nat := 21
/-- ADCCAL fault CONV_FAIL. -/
def ADCCAL_FLT_CONV_FAIL : Nat := 8
/-- ADCCAL fault SPARE_FAIL. -/
def ADCCAL_FLT_SPARE_FAIL : Nat := 9
/-- CLE event COEF_ZERO. -/
def CLE_EV_COEF_ZERO : Nat := 8
/-- CLE event STATE_POISON. -/
def CLE_EV_STATE_POISON : Nat := 9
/-- CLE event LANE_FAIL. -/
def CLE_EV_LANE_FAIL : Nat := 10
/-- CLE fault LANE_FAIL. -/
def CLE_FLT_LANE_FAIL : Nat := 8
/-- TRACE event TRIGGERED. -/
def TRACE_EV_TRIGGERED : Nat := 8
/-- TRACE event DONE. -/
def TRACE_EV_DONE : Nat := 9
/-- TRACE event GAP. -/
def TRACE_EV_GAP : Nat := 10
/-- EPE event BOUND. -/
def EPE_EV_BOUND : Nat := 8
/-- EPE event DEFICIT. -/
def EPE_EV_DEFICIT : Nat := 9
/-- EPE event RESERVE_SHORT. -/
def EPE_EV_RESERVE_SHORT : Nat := 10
/-- EPE event TABLE_BAD. -/
def EPE_EV_TABLE_BAD : Nat := 11
/-- EPE event STANDBY. -/
def EPE_EV_STANDBY : Nat := 12
/-- EPE event WAKE. -/
def EPE_EV_WAKE : Nat := 13
/-- EPE event DISCARDED. -/
def EPE_EV_DISCARDED : Nat := 14
/-- EPE event VBUS_BAD. -/
def EPE_EV_VBUS_BAD : Nat := 15
/-- EPE fault DEFICIT. -/
def EPE_FLT_DEFICIT : Nat := 8
/-- CAP event EXCESS. -/
def CAP_EV_EXCESS : Nat := 8
/-- CAP event ASSIST. -/
def CAP_EV_ASSIST : Nat := 9
/-- CAP event HARD_LIMIT. -/
def CAP_EV_HARD_LIMIT : Nat := 10
/-- CAP event RELEASED. -/
def CAP_EV_RELEASED : Nat := 11
/-- CAP event CAP_CHANGED. -/
def CAP_EV_CAP_CHANGED : Nat := 12
/-- CAP fault SUSTAINED. -/
def CAP_FLT_SUSTAINED : Nat := 8
/-- GROVE event MISSED. -/
def GROVE_EV_MISSED : Nat := 8
/-- GROVE event LOCAL. -/
def GROVE_EV_LOCAL : Nat := 9
/-- GROVE event SHARING. -/
def GROVE_EV_SHARING : Nat := 10
/-- GROVE event LATE_SEND. -/
def GROVE_EV_LATE_SEND : Nat := 11
/-- GROVE event START_REFUSED. -/
def GROVE_EV_START_REFUSED : Nat := 12
/-- GROVE fault LATE_SEND. -/
def GROVE_FLT_LATE_SEND : Nat := 8
/-- XING event DETECTED. -/
def XING_EV_DETECTED : Nat := 8
/-- XING event FULL. -/
def XING_EV_FULL : Nat := 9
/-- XING event QUALIFYING. -/
def XING_EV_QUALIFYING : Nat := 10
/-- XING event RETURNING. -/
def XING_EV_RETURNING : Nat := 11
/-- XING event RETURN_DONE. -/
def XING_EV_RETURN_DONE : Nat := 12
/-- XING event RETURN_FAIL. -/
def XING_EV_RETURN_FAIL : Nat := 13
/-- XING event VLOW. -/
def XING_EV_VLOW : Nat := 14
/-- XING event CUTOFF. -/
def XING_EV_CUTOFF : Nat := 15
/-- XING event START_REFUSED. -/
def XING_EV_START_REFUSED : Nat := 16
/-- XING fault INPUT_UNSTABLE. -/
def XING_FLT_INPUT_UNSTABLE : Nat := 8
/-- XING fault XSHORT. -/
def XING_FLT_XSHORT : Nat := 9
/-- FEED event ON. -/
def FEED_EV_ON : Nat := 8
/-- FEED event FAST_TRIP. -/
def FEED_EV_FAST_TRIP : Nat := 9
/-- FEED event I2T_TRIP. -/
def FEED_EV_I2T_TRIP : Nat := 10
/-- FEED event REVERSE. -/
def FEED_EV_REVERSE : Nat := 11
/-- FEED event UV_EXC. -/
def FEED_EV_UV_EXC : Nat := 12
/-- FEED event OV_EXC. -/
def FEED_EV_OV_EXC : Nat := 13
/-- FEED event DAMAGED. -/
def FEED_EV_DAMAGED : Nat := 14
/-- FEED event NO_CONDUCT. -/
def FEED_EV_NO_CONDUCT : Nat := 15
/-- FEED event DEGRADED. -/
def FEED_EV_DEGRADED : Nat := 16
/-- FEED event START_REFUSED. -/
def FEED_EV_START_REFUSED : Nat := 17
/-- FEED fault TRIP. -/
def FEED_FLT_TRIP : Nat := 8
/-- FEED fault DAMAGED. -/
def FEED_FLT_DAMAGED : Nat := 9
/-- FEED fault NO_CONDUCT. -/
def FEED_FLT_NO_CONDUCT : Nat := 10
/-- FEED fault DEGRADED. -/
def FEED_FLT_DEGRADED : Nat := 11
/-- SEQ event UP_DONE. -/
def SEQ_EV_UP_DONE : Nat := 8
/-- SEQ event DOWN_DONE. -/
def SEQ_EV_DOWN_DONE : Nat := 9
/-- SEQ event STEP_FAULT. -/
def SEQ_EV_STEP_FAULT : Nat := 10
/-- SEQ event ABORTED. -/
def SEQ_EV_ABORTED : Nat := 11
/-- SEQ event HALTED. -/
def SEQ_EV_HALTED : Nat := 12
/-- SEQ event CHATTER. -/
def SEQ_EV_CHATTER : Nat := 13
/-- SEQ event RAIL_FAIL. -/
def SEQ_EV_RAIL_FAIL : Nat := 14
/-- SEQ event REQ_IGNORED. -/
def SEQ_EV_REQ_IGNORED : Nat := 15
/-- SEQ fault CHATTER. -/
def SEQ_FLT_CHATTER : Nat := 8
/-- SEQ fault RAIL_FAIL. -/
def SEQ_FLT_RAIL_FAIL : Nat := 9
/-- SEQ fault HALT. -/
def SEQ_FLT_HALT : Nat := 10
/-- SEQTBL: event TABLE_BAD. -/
def SEQTBL_EV_TABLE_BAD : Nat := 8
/-- WDOG event EXPIRED. -/
def WDOG_EV_EXPIRED : Nat := 8
/-- WDOG event EARLY. -/
def WDOG_EV_EARLY : Nat := 9
/-- WDOG event AUTONOMOUS. -/
def WDOG_EV_AUTONOMOUS : Nat := 10
/-- WDOG event RESUMED. -/
def WDOG_EV_RESUMED : Nat := 11
/-- WDOG fault EXPIRED. -/
def WDOG_FLT_EXPIRED : Nat := 8
/-- BATT event PRESENT. -/
def BATT_EV_PRESENT : Nat := 8
/-- BATT event SWAPPED. -/
def BATT_EV_SWAPPED : Nat := 9
/-- BATT event LOW. -/
def BATT_EV_LOW : Nat := 10
/-- BATT event VERY_LOW. -/
def BATT_EV_VERY_LOW : Nat := 11
/-- BATT event CUTOFF. -/
def BATT_EV_CUTOFF : Nat := 12
/-- BATT event LEVEL_CLEAR. -/
def BATT_EV_LEVEL_CLEAR : Nat := 13
/-- BATT event REST_CORR. -/
def BATT_EV_REST_CORR : Nat := 14
/-- BATT event LEARN_OK. -/
def BATT_EV_LEARN_OK : Nat := 15
/-- BATT event LEARN_REFUSED. -/
def BATT_EV_LEARN_REFUSED : Nat := 16
/-- BATT event TABLE_BAD. -/
def BATT_EV_TABLE_BAD : Nat := 17
/-- BATT event CAP_SUSPECT. -/
def BATT_EV_CAP_SUSPECT : Nat := 18
/-- BATT event CHG_TEMP. -/
def BATT_EV_CHG_TEMP : Nat := 19
/-- BATT event IMP_DONE. -/
def BATT_EV_IMP_DONE : Nat := 20
/-- BATT event START_REFUSED. -/
def BATT_EV_START_REFUSED : Nat := 21
/-- BATT fault ID_BAD. -/
def BATT_FLT_ID_BAD : Nat := 8
/-- BATT fault TS_FAIL. -/
def BATT_FLT_TS_FAIL : Nat := 9
/-- THERM event WARN. -/
def THERM_EV_WARN : Nat := 8
/-- THERM event HOT. -/
def THERM_EV_HOT : Nat := 9
/-- THERM event RISE. -/
def THERM_EV_RISE : Nat := 10
/-- THERM event RISE_REQ. -/
def THERM_EV_RISE_REQ : Nat := 11
/-- THERM event EXCLUDED. -/
def THERM_EV_EXCLUDED : Nat := 12
/-- THERM event INPUT_FAULT. -/
def THERM_EV_INPUT_FAULT : Nat := 13
/-- THERM event CAL_DONE. -/
def THERM_EV_CAL_DONE : Nat := 14
/-- THERM event CAL_SUSPECT. -/
def THERM_EV_CAL_SUSPECT : Nat := 15
/-- THERM event MRAM_HOLD. -/
def THERM_EV_MRAM_HOLD : Nat := 16
/-- THERM event UPD_BLOCK. -/
def THERM_EV_UPD_BLOCK : Nat := 17
/-- THERM fault RING_EXCL. -/
def THERM_FLT_RING_EXCL : Nat := 8
/-- THERM fault HOT. -/
def THERM_FLT_HOT : Nat := 9
/-- THERM fault INPUT_FAULT. -/
def THERM_FLT_INPUT_FAULT : Nat := 10
/-- NET event LINK_UP. -/
def NET_EV_LINK_UP : Nat := 8
/-- NET event LINK_DOWN. -/
def NET_EV_LINK_DOWN : Nat := 9
/-- NET event RX_OVF. -/
def NET_EV_RX_OVF : Nat := 10
/-- NET event WRONG_LAN. -/
def NET_EV_WRONG_LAN : Nat := 11
/-- NET fault LINK. -/
def NET_FLT_LINK : Nat := 8
/-- NETPAIR event SWITCHED. -/
def NETPAIR_EV_SWITCHED : Nat := 8
/-- NETPAIR event MISMATCH. -/
def NETPAIR_EV_MISMATCH : Nat := 9
/-- NETPAIR event REPAIRED. -/
def NETPAIR_EV_REPAIRED : Nat := 10
/-- NETPAIR event REPLAY_OVF. -/
def NETPAIR_EV_REPLAY_OVF : Nat := 11
/-- NETPAIR event SIMPLEX. -/
def NETPAIR_EV_SIMPLEX : Nat := 12
/-- NETPAIR event DOUBLE_FAULT. -/
def NETPAIR_EV_DOUBLE_FAULT : Nat := 13
/-- NETPAIR event EVICT. -/
def NETPAIR_EV_EVICT : Nat := 14
/-- NETPAIR event SWITCH_REFUSED. -/
def NETPAIR_EV_SWITCH_REFUSED : Nat := 15
/-- NETPAIR fault ENG0. -/
def NETPAIR_FLT_ENG0 : Nat := 8
/-- NETPAIR fault ENG1. -/
def NETPAIR_FLT_ENG1 : Nat := 9
/-- NETPAIR fault DOUBLE. -/
def NETPAIR_FLT_DOUBLE : Nat := 10
/-- PTP event LOCKED. -/
def PTP_EV_LOCKED : Nat := 8
/-- PTP event LOST. -/
def PTP_EV_LOST : Nat := 9
/-- PTP event PORT_SWITCH. -/
def PTP_EV_PORT_SWITCH : Nat := 10
/-- PTP event GM_CHANGE. -/
def PTP_EV_GM_CHANGE : Nat := 11
/-- PTP fault LOST. -/
def PTP_FLT_LOST : Nat := 8
/-- BENUF event ADMITTED. -/
def BENUF_EV_ADMITTED : Nat := 8
/-- BENUF event LEFT. -/
def BENUF_EV_LEFT : Nat := 9
/-- BENUF event CONFLICT. -/
def BENUF_EV_CONFLICT : Nat := 10
/-- BENUF event CFG_MISMATCH. -/
def BENUF_EV_CFG_MISMATCH : Nat := 11
/-- BENUF event TX_OVF. -/
def BENUF_EV_TX_OVF : Nat := 12
/-- BENUF event CAPSET. -/
def BENUF_EV_CAPSET : Nat := 13
/-- BENUF event CAPSET_LATE. -/
def BENUF_EV_CAPSET_LATE : Nat := 14
/-- BENUF event AUTH_FAIL. -/
def BENUF_EV_AUTH_FAIL : Nat := 15
/-- BENUF event JOIN_DONE. -/
def BENUF_EV_JOIN_DONE : Nat := 16
/-- BENUF fault DUP_SHELF. -/
def BENUF_FLT_DUP_SHELF : Nat := 8
/-- TWT event REFUSED. -/
def TWT_EV_REFUSED : Nat := 8
/-- TWT event TIMEOUT. -/
def TWT_EV_TIMEOUT : Nat := 9
/-- TWT event PEC_ERR. -/
def TWT_EV_PEC_ERR : Nat := 10
/-- TWT event STRETCH_LIMIT. -/
def TWT_EV_STRETCH_LIMIT : Nat := 11
/-- TWT event STAGE_OVF. -/
def TWT_EV_STAGE_OVF : Nat := 12
/-- TWT event RD_POISON. -/
def TWT_EV_RD_POISON : Nat := 13
/-- TWC event ARB_LOST. -/
def TWC_EV_ARB_LOST : Nat := 8
/-- TWC event NACK. -/
def TWC_EV_NACK : Nat := 9
/-- TWC event PEC_ERR. -/
def TWC_EV_PEC_ERR : Nat := 10
/-- TWC event BUS_STUCK. -/
def TWC_EV_BUS_STUCK : Nat := 11
/-- TWC event STALE. -/
def TWC_EV_STALE : Nat := 12
/-- TWC event TABLE_FULL. -/
def TWC_EV_TABLE_FULL : Nat := 13
/-- TWC event ALERT. -/
def TWC_EV_ALERT : Nat := 14
/-- TWC event ROUND_LATE. -/
def TWC_EV_ROUND_LATE : Nat := 15
/-- TWC event FORMAT_BAD. -/
def TWC_EV_FORMAT_BAD : Nat := 16
/-- TWC fault BUS_STUCK. -/
def TWC_FLT_BUS_STUCK : Nat := 8
/-- MEM event CORRECTED. -/
def MEM_EV_CORRECTED : Nat := 8
/-- MEM event RETIRED. -/
def MEM_EV_RETIRED : Nat := 9
/-- MEM event POISONED. -/
def MEM_EV_POISONED : Nat := 10
/-- MEM event SPARES_OUT. -/
def MEM_EV_SPARES_OUT : Nat := 11
/-- MEM event SCRUB_DONE. -/
def MEM_EV_SCRUB_DONE : Nat := 12
/-- MEM fault SPARES_OUT. -/
def MEM_FLT_SPARES_OUT : Nat := 8
/-- MEM fault SHADOW_POISON. -/
def MEM_FLT_SHADOW_POISON : Nat := 9
/-- HEART event WIPED. -/
def HEART_EV_WIPED : Nat := 8
/-- HEART event TAMPER. -/
def HEART_EV_TAMPER : Nat := 9
/-- HEART event GLITCH. -/
def HEART_EV_GLITCH : Nat := 10
/-- HEART event DENIED. -/
def HEART_EV_DENIED : Nat := 11
/-- HEART fault TAMPER. -/
def HEART_FLT_TAMPER : Nat := 8
/-- HEART fault GLITCH. -/
def HEART_FLT_GLITCH : Nat := 9
/-- MBOX event DENIED. -/
def MBOX_EV_DENIED : Nat := 24
/-- MBOX event RING_BUSY. -/
def MBOX_EV_RING_BUSY : Nat := 25
/-- REC event LOST. -/
def REC_EV_LOST : Nat := 8
/-- REC event STREAM_GAP. -/
def REC_EV_STREAM_GAP : Nat := 9
/-- REC event ROOT_FULL. -/
def REC_EV_ROOT_FULL : Nat := 10
/-- REC event MISSED_LB. -/
def REC_EV_MISSED_LB : Nat := 11
/-- REC event SUBMIT_REFUSED. -/
def REC_EV_SUBMIT_REFUSED : Nat := 12
/-- REC fault SLOT_BAD. -/
def REC_FLT_SLOT_BAD : Nat := 8
/-- SYS event VAUX_A_LOST. -/
def SYS_EV_VAUX_A_LOST : Nat := 8
/-- SYS event VAUX_B_LOST. -/
def SYS_EV_VAUX_B_LOST : Nat := 9
/-- SYS event FW_LOST. -/
def SYS_EV_FW_LOST : Nat := 10
/-- SYS event OUT_FAIL. -/
def SYS_EV_OUT_FAIL : Nat := 11
/-- SYS event RESTARTED. -/
def SYS_EV_RESTARTED : Nat := 12
/-- SYS event OTP_BAD. -/
def SYS_EV_OTP_BAD : Nat := 13
/-- SYS fault FW_LOST. -/
def SYS_FLT_FW_LOST : Nat := 8
/-- SYS fault OTP_BAD. -/
def SYS_FLT_OTP_BAD : Nat := 9
/-- BIST event DONE. -/
def BIST_EV_DONE : Nat := 8
/-- BIST event UNIT_FAIL. -/
def BIST_EV_UNIT_FAIL : Nat := 9
/-- BIST event IS_DONE. -/
def BIST_EV_IS_DONE : Nat := 10
/-- BIST fault UNIT. -/
def BIST_FLT_UNIT : Nat := 8
/-- LIFE event CHANGED. -/
def LIFE_EV_CHANGED : Nat := 8
/-- LIFE event REFUSED. -/
def LIFE_EV_REFUSED : Nat := 9
/-- UPDATE event OPENED. -/
def UPDATE_EV_OPENED : Nat := 8
/-- UPDATE event VERIFIED. -/
def UPDATE_EV_VERIFIED : Nat := 9
/-- UPDATE event FAILED. -/
def UPDATE_EV_FAILED : Nat := 10
/-- UPDATE event ACTIVATED. -/
def UPDATE_EV_ACTIVATED : Nat := 11
/-- UPDATE event ABORTED. -/
def UPDATE_EV_ABORTED : Nat := 12
/-- UPDATE event REFUSED. -/
def UPDATE_EV_REFUSED : Nat := 13
/-- UPDATE event PLAN_OLD. -/
def UPDATE_EV_PLAN_OLD : Nat := 14
/-- UPDATE fault BROKEN. -/
def UPDATE_FLT_BROKEN : Nat := 8
/-- INTEG fault PAIR_WRITE (R106). -/
def INTEG_FLT_PAIR_WRITE : Nat := 8

/-! ### The register tables -/

/-- Registers of HDR. -/
def rowsHdr : List RegRow :=
  [⟨0x00, .ro, .now, 0x00000000, 0xFFFFFFFF⟩,
   ⟨0x04, .rw, .now, 0x00000000, 0xFFFFFFFF⟩,
   ⟨0x08, .ro, .now, 0x00000000, 0xFFFFFFFF⟩,
   ⟨0x0C, .w1c, .now, 0x00000000, 0xFFFFFFFF⟩,
   ⟨0x10, .rw, .now, 0x00000008, 0xFFFFFFFF⟩,
   ⟨0x14, .w1c, .now, 0x00000000, 0xFFFFFFFF⟩,
   ⟨0x18, .rwp, .live, 0x00000000, 0xFFFFFFFF⟩,
   ⟨0x1C, .w1s, .now, 0x00000000, 0xFFFFFFFF⟩]

/-- Registers of SYS. -/
def rowsSysA : List RegRow :=
  [⟨0x20, .rw, .now, 0x00000000, 0xFFFFFFFF⟩,
   ⟨0x24, .rw, .now, 0x00000000, 0xFFFFFFFF⟩,
   ⟨0x28, .ro, .now, 0x00000000, 0xFFFFFFFF⟩,
   ⟨0x2C, .ro, .now, 0x00000000, 0xFFFFFFFF⟩,
   ⟨0x30, .rw, .live, 0x00000000, 0x00000003⟩,
   ⟨0x34, .ro, .now, 0x00000000, 0xFFFFFFFF⟩,
   ⟨0x38, .ro, .now, 0x00000000, 0xFFFFFFFF⟩,
   ⟨0x3C, .wo, .now, 0x00000000, 0xFFFFFFFF⟩,
   ⟨0x40, .ro, .now, 0x00000000, 0xFFFFFFFF⟩,
   ⟨0x44, .ro, .now, 0x00000000, 0xFFFFFFFF⟩,
   ⟨0x48, .ro, .now, 0x00000000, 0xFFFFFFFF⟩,
   ⟨0x4C, .ro, .now, 0x00000000, 0xFFFFFFFF⟩,
   ⟨0x50, .ro, .now, 0x00000000, 0xFFFFFFFF⟩,
   ⟨0x54, .ro, .now, 0x00000000, 0xFFFFFFFF⟩]

/-- Registers of SYS. -/
def rowsSysB : List RegRow :=
  [⟨0x58, .ro, .now, 0x00000000, 0xFFFFFFFF⟩]

/-- Registers of SYS. -/
def rowsSys : List RegRow := rowsSysA ++ rowsSysB

/-- Registers of CLK. -/
def rowsClk : List RegRow :=
  [⟨0x20, .rw, .live, 0x27100000, 0xFFFF0003⟩,
   ⟨0x24, .ro, .now, 0x00000000, 0xFFFFFFFF⟩,
   ⟨0x28, .ro, .now, 0x000000FF, 0xFFFFFFFF⟩,
   ⟨0x2C, .ro, .now, 0x00000000, 0xFFFFFFFF⟩,
   ⟨0x30, .ro, .now, 0x00000000, 0xFFFFFFFF⟩,
   ⟨0x34, .ro, .now, 0x00000000, 0xFFFFFFFF⟩]

/-- Registers of INTEG. -/
def rowsIntegA : List RegRow :=
  [⟨0x20, .rw, .now, 0x00000000, 0xFFFFFFFF⟩,
   ⟨0x24, .rw, .now, 0x00000000, 0xFFFFFFFF⟩,
   ⟨0x28, .ro, .now, 0x00000000, 0xFFFFFFFF⟩,
   ⟨0x2C, .rwp, .live, 0x0430FBCF, 0xFFFFFFFF⟩,
   ⟨0x30, .ro, .now, 0x00000000, 0xFFFFFFFF⟩,
   ⟨0x34, .ro, .now, 0x00000000, 0xFFFFFFFF⟩,
   ⟨0x38, .ro, .now, 0x00000000, 0xFFFFFFFF⟩,
   ⟨0x3C, .ro, .now, 0x00000000, 0xFFFFFFFF⟩,
   ⟨0x40, .ro, .now, 0x00000000, 0xFFFFFFFF⟩,
   ⟨0x44, .ro, .now, 0x00000000, 0xFFFFFFFF⟩,
   ⟨0x48, .ro, .now, 0x00000000, 0xFFFFFFFF⟩,
   ⟨0x4C, .ro, .now, 0x00000000, 0xFFFFFFFF⟩,
   ⟨0x50, .ro, .now, 0x00000000, 0xFFFFFFFF⟩,
   ⟨0x54, .ro, .now, 0x00000000, 0xFFFFFFFF⟩]

/-- Registers of INTEG. -/
def rowsIntegB : List RegRow :=
  [⟨0x58, .ro, .now, 0x00000000, 0xFFFFFFFF⟩,
   ⟨0x5C, .ro, .now, 0x00000000, 0xFFFFFFFF⟩]

/-- Registers of INTEG. -/
def rowsInteg : List RegRow := rowsIntegA ++ rowsIntegB

/-- Registers of SCHED. -/
def rowsSched : List RegRow :=
  [⟨0x20, .rw, .now, 0x00000000, 0xFFFFFFFF⟩,
   ⟨0x24, .rw, .now, 0x00000000, 0xFFFFFFFF⟩,
   ⟨0x28, .ro, .now, 0x00000000, 0xFFFFFFFF⟩,
   ⟨0x2C, .rw, .stop, 0x00000003, 0x00000003⟩,
   ⟨0x30, .ro, .now, 0x00000000, 0xFFFFFFFF⟩,
   ⟨0x34, .ro, .now, 0x00000000, 0xFFFFFFFF⟩,
   ⟨0x38, .ro, .now, 0x00000000, 0xFFFFFFFF⟩,
   ⟨0x3C, .ro, .now, 0x00000000, 0xFFFFFFFF⟩,
   ⟨0x40, .ro, .now, 0x00000000, 0xFFFFFFFF⟩]

/-- Registers of SCHED1. -/
def rowsSched1 : List RegRow :=
  [⟨0x20, .ro, .now, 0x00000000, 0xFFFFFFFF⟩,
   ⟨0x24, .ro, .now, 0x00000000, 0xFFFFFFFF⟩,
   ⟨0x28, .ro, .now, 0x00000000, 0xFFFFFFFF⟩,
   ⟨0x2C, .ro, .now, 0x00000000, 0xFFFFFFFF⟩,
   ⟨0x30, .ro, .now, 0x00000000, 0xFFFFFFFF⟩,
   ⟨0x34, .ro, .now, 0x00000000, 0xFFFFFFFF⟩,
   ⟨0x38, .ro, .now, 0x00000000, 0xFFFFFFFF⟩,
   ⟨0x3C, .ro, .now, 0x00000000, 0xFFFFFFFF⟩,
   ⟨0x40, .ro, .now, 0x00000000, 0xFFFFFFFF⟩,
   ⟨0x44, .ro, .now, 0x00000000, 0xFFFFFFFF⟩,
   ⟨0x48, .ro, .now, 0x00000000, 0xFFFFFFFF⟩,
   ⟨0x4C, .ro, .now, 0x00000000, 0xFFFFFFFF⟩]

/-- Registers of PLACE. -/
def rowsPlace : List RegRow :=
  [⟨0x20, .rw, .now, 0x00000000, 0xFFFFFFFF⟩,
   ⟨0x24, .rw, .now, 0x00000000, 0xFFFFFFFF⟩,
   ⟨0x28, .ro, .now, 0x00000000, 0xFFFFFFFF⟩,
   ⟨0x2C, .rw, .live, 0x00000000, 0x0000FF01⟩,
   ⟨0x30, .wo, .now, 0x00000000, 0x00000103⟩,
   ⟨0x34, .ro, .now, 0x00000000, 0xFFFFFFFF⟩,
   ⟨0x38, .ro, .now, 0x00000000, 0xFFFFFFFF⟩,
   ⟨0x3C, .ro, .now, 0x00000000, 0xFFFFFFFF⟩,
   ⟨0x40, .ro, .now, 0x00000000, 0xFFFFFFFF⟩,
   ⟨0x44, .ro, .now, 0x00000000, 0xFFFFFFFF⟩,
   ⟨0x48, .ro, .now, 0x00000000, 0xFFFFFFFF⟩]

/-- Registers of PHASE. -/
def rowsPhase : List RegRow :=
  [⟨0x20, .rw, .stop, 0x0001203F, 0x0013333F⟩,
   ⟨0x24, .rwp, .stop, 0x0000FFFF, 0xFFFFFFFF⟩,
   ⟨0x28, .rwp, .live, 0x0000FFFF, 0xFFFFFFFF⟩,
   ⟨0x2C, .rwp, .live, 0x0000FFFF, 0xFFFFFFFF⟩,
   ⟨0x30, .rwp, .live, 0x000AFFF5, 0xFFFFFFFF⟩,
   ⟨0x34, .rw, .stop, 0x00000000, 0xFFFFFFFF⟩,
   ⟨0x38, .ro, .now, 0x00000000, 0xFFFFFFFF⟩,
   ⟨0x3C, .ro, .now, 0x00000000, 0xFFFFFFFF⟩,
   ⟨0x40, .ro, .now, 0x00000000, 0xFFFFFFFF⟩,
   ⟨0x44, .ro, .now, 0x00000000, 0xFFFFFFFF⟩,
   ⟨0x48, .ro, .now, 0x00000000, 0xFFFFFFFF⟩]

/-- Registers of RAIL. -/
def rowsRailA : List RegRow :=
  [⟨0x20, .rw, .now, 0x00000000, 0xFFFFFFFF⟩,
   ⟨0x24, .rw, .now, 0x00000000, 0xFFFFFFFF⟩,
   ⟨0x28, .rwp, (.group 2), 0x00000000, 0xFFFFFFFF⟩,
   ⟨0x2C, .rw, .stop, 0x02581010, 0xFFFFFF7F⟩,
   ⟨0x30, .rwp, (.group 0), 0x0000FFFF, 0xFFFFFFFF⟩,
   ⟨0x34, .rwp, (.group 0), 0x000AFFF5, 0xFFFFFFFF⟩,
   ⟨0x38, .rwp, (.group 0), 0x0064FF9B, 0xFFFFFFFF⟩,
   ⟨0x3C, .rwp, (.group 1), 0x2008DFF7, 0xFFFF0000⟩,
   ⟨0x40, .rwp, (.group 1), 0x0032FFCD, 0xFFFFFFFF⟩,
   ⟨0x44, .rwp, (.group 1), 0x0000FFFF, 0xFFFFFFFF⟩,
   ⟨0x48, .rw, (.group 1), 0x00000064, 0x0001FFFF⟩,
   ⟨0x4C, .rwp, (.group 1), 0x0000FFFF, 0xFFFFFFFF⟩,
   ⟨0x50, .rwp, .stop, 0x0000FFFF, 0xFFFFFFFF⟩,
   ⟨0x54, .rwp, (.group 1), 0x73338CCC, 0xFFFFFFFF⟩]

/-- Registers of RAIL. -/
def rowsRailB : List RegRow :=
  [⟨0x58, .rwp, .live, 0x0666F999, 0xFFFFFFFF⟩,
   ⟨0x5C, .rw, (.group 2), 0x00320101, 0xFFFF3F01⟩,
   ⟨0x60, .rw, .live, 0x00000000, 0x83FF03FF⟩,
   ⟨0x64, .rw, .live, 0x02800000, 0x03FF03FF⟩,
   ⟨0x68, .rw, .live, 0x006400C8, 0xFFFFFFFF⟩,
   ⟨0x6C, .rwp, .live, 0x0430FBCF, 0xFFFFFFFF⟩,
   ⟨0x70, .rw, .live, 0x0000000A, 0x0000FFFF⟩,
   ⟨0x74, .rw, .live, 0x00140208, 0xFFFFFFFF⟩,
   ⟨0x78, .rw, .live, 0x46080519, 0xFFFFFFFF⟩,
   ⟨0x7C, .wo, .now, 0x00000000, 0xFFFFFFFF⟩,
   ⟨0x80, .ro, .now, 0x00000000, 0xFFFFFFFF⟩,
   ⟨0x84, .ro, .now, 0x00000000, 0xFFFFFFFF⟩,
   ⟨0x88, .ro, .now, 0x00000000, 0xFFFFFFFF⟩,
   ⟨0x8C, .ro, .now, 0x00005355, 0xFFFFFFFF⟩]

/-- Registers of RAIL. -/
def rowsRailC : List RegRow :=
  [⟨0x90, .ro, .now, 0x00000000, 0xFFFFFFFF⟩,
   ⟨0x94, .ro, .now, 0x00000000, 0xFFFFFFFF⟩,
   ⟨0x98, .ro, .now, 0x00000000, 0xFFFFFFFF⟩,
   ⟨0x9C, .ro, .now, 0x00000000, 0xFFFFFFFF⟩]

/-- Registers of RAIL. -/
def rowsRail : List RegRow := rowsRailA ++ rowsRailB ++ rowsRailC

/-- Registers of CLE. -/
def rowsCle : List RegRow :=
  [⟨0x20, .rw, .now, 0x00000000, 0xFFFFFFFF⟩,
   ⟨0x24, .rw, .now, 0x00000000, 0xFFFFFFFF⟩,
   ⟨0x28, .rwp, .now, 0x00000000, 0xFFFFFFFF⟩,
   ⟨0x2C, .wo, .now, 0x00000000, 0xFFFFFFFF⟩,
   ⟨0x30, .ro, .now, 0x00000000, 0xFFFFFFFF⟩,
   ⟨0x34, .ro, .now, 0x00000000, 0xFFFFFFFF⟩,
   ⟨0x38, .ro, .now, 0x00000000, 0xFFFFFFFF⟩,
   ⟨0x3C, .ro, .now, 0x00000000, 0xFFFFFFFF⟩,
   ⟨0x40, .ro, .now, 0x00000000, 0xFFFFFFFF⟩,
   ⟨0x44, .ro, .now, 0x00000000, 0xFFFFFFFF⟩,
   ⟨0x48, .ro, .now, 0x00000000, 0xFFFFFFFF⟩,
   ⟨0x4C, .ro, .now, 0x00000000, 0xFFFFFFFF⟩]

/-- Registers of TRACE. -/
def rowsTraceA : List RegRow :=
  [⟨0x20, .rw, .now, 0x00000000, 0xFFFFFFFF⟩,
   ⟨0x24, .rw, .now, 0x00000000, 0xFFFFFFFF⟩,
   ⟨0x28, .ro, .now, 0x00000000, 0xFFFFFFFF⟩,
   ⟨0x2C, .rw, .stop, 0x00000000, 0x0001070F⟩,
   ⟨0x30, .rw, .stop, 0x00000000, 0xF03FF03F⟩,
   ⟨0x34, .rw, .stop, 0x00000000, 0xF03FF03F⟩,
   ⟨0x38, .rw, .stop, 0x00000000, 0xF03FF03F⟩,
   ⟨0x3C, .rw, .stop, 0x00000000, 0xF03FF03F⟩,
   ⟨0x40, .rw, .stop, 0x00000000, 0x0000007F⟩,
   ⟨0x44, .rw, .stop, 0x00000000, 0x0000FFFF⟩,
   ⟨0x48, .rw, .stop, 0x00000000, 0x00FF0F3F⟩,
   ⟨0x4C, .rw, .stop, 0x00000800, 0x00000FFF⟩,
   ⟨0x50, .wo, .now, 0x00000000, 0xFFFFFFFF⟩,
   ⟨0x54, .ro, .now, 0x00000000, 0xFFFFFFFF⟩]

/-- Registers of TRACE. -/
def rowsTraceB : List RegRow :=
  [⟨0x58, .ro, .now, 0x00000000, 0xFFFFFFFF⟩,
   ⟨0x5C, .ro, .now, 0x00000000, 0xFFFFFFFF⟩]

/-- Registers of TRACE. -/
def rowsTrace : List RegRow := rowsTraceA ++ rowsTraceB

/-- Registers of ADCCAL. -/
def rowsAdccalA : List RegRow :=
  [⟨0x20, .rw, .now, 0x00000000, 0xFFFFFFFF⟩,
   ⟨0x24, .rw, .now, 0x00000000, 0xFFFFFFFF⟩,
   ⟨0x28, .ro, .now, 0x00000000, 0xFFFFFFFF⟩,
   ⟨0x2C, .rw, .live, 0x00000A01, 0x0000FF01⟩,
   ⟨0x30, .wo, .now, 0x00000000, 0x0000013F⟩,
   ⟨0x34, .ro, .now, 0x00000000, 0xFFFFFFFF⟩,
   ⟨0x38, .ro, .now, 0x00000000, 0xFFFFFFFF⟩,
   ⟨0x3C, .ro, .now, 0x00000000, 0xFFFFFFFF⟩,
   ⟨0x40, .ro, .now, 0x00000000, 0xFFFFFFFF⟩,
   ⟨0x44, .rw, .live, 0x00000011, 0x00000077⟩,
   ⟨0x48, .rw, .live, 0x00000011, 0x00000077⟩,
   ⟨0x4C, .rw, .live, 0x00000011, 0x00000077⟩,
   ⟨0x50, .rw, .live, 0x00000011, 0x00000077⟩,
   ⟨0x54, .rwp, .live, 0x7FFF8000, 0xFFFFFFFF⟩]

/-- Registers of ADCCAL. -/
def rowsAdccalB : List RegRow :=
  [⟨0x58, .rwp, .live, 0x7FFF8000, 0xFFFFFFFF⟩,
   ⟨0x5C, .rwp, .live, 0x7FFF8000, 0xFFFFFFFF⟩,
   ⟨0x60, .rwp, .live, 0x7FFF8000, 0xFFFFFFFF⟩,
   ⟨0x64, .rwp, .live, 0x80007FFF, 0xFFFFFFFF⟩,
   ⟨0x68, .rwp, .live, 0x80007FFF, 0xFFFFFFFF⟩,
   ⟨0x6C, .rwp, .live, 0x80007FFF, 0xFFFFFFFF⟩,
   ⟨0x70, .rwp, .live, 0x80007FFF, 0xFFFFFFFF⟩,
   ⟨0x74, .rw, .live, 0x00000000, 0x00FFFFFF⟩,
   ⟨0x78, .rw, .live, 0x00000000, 0x00FFFFFF⟩,
   ⟨0x7C, .rw, .live, 0x00000003, 0x00000033⟩,
   ⟨0x80, .rw, .live, 0x00000000, 0xFFFFFFFF⟩,
   ⟨0x84, .rw, .live, 0xFFFFFFFF, 0xFFFFFFFF⟩,
   ⟨0x88, .ro, .now, 0x00000000, 0xFFFFFFFF⟩,
   ⟨0x8C, .ro, .now, 0x00000000, 0xFFFFFFFF⟩]

/-- Registers of ADCCAL. -/
def rowsAdccal : List RegRow := rowsAdccalA ++ rowsAdccalB

/-- Registers of EPE. -/
def rowsEpeA : List RegRow :=
  [⟨0x20, .rw, .now, 0x00000000, 0xFFFFFFFF⟩,
   ⟨0x24, .rw, .now, 0x00000000, 0xFFFFFFFF⟩,
   ⟨0x28, .rw, (.group 0), 0x00000000, 0xFFFFFFFF⟩,
   ⟨0x2C, .rw, .stop, 0x00000006, 0x00000F1F⟩,
   ⟨0x30, .rw, (.group 0), 0x00020204, 0x000F0F0F⟩,
   ⟨0x34, .rw, (.group 0), 0x00003201, 0x0000FF07⟩,
   ⟨0x38, .rw, .live, 0x00501E01, 0x00FFFF01⟩,
   ⟨0x3C, .rw, .live, 0x001E003C, 0xFFFFFFFF⟩,
   ⟨0x40, .rwp, .live, 0x0014FFEB, 0xFFFFFFFF⟩,
   ⟨0x44, .rw, .live, 0x01F43232, 0xFFFFFFFF⟩,
   ⟨0x48, .rw, .stop, 0x31228000, 0xFFFFFFFF⟩,
   ⟨0x4C, .wo, .now, 0x00000000, 0xFFFFFFFF⟩,
   ⟨0x50, .ro, .now, 0x00000000, 0xFFFFFFFF⟩,
   ⟨0x54, .ro, .now, 0x00000000, 0xFFFFFFFF⟩]

/-- Registers of EPE. -/
def rowsEpeB : List RegRow :=
  [⟨0x58, .ro, .now, 0x00000000, 0xFFFFFFFF⟩,
   ⟨0x5C, .ro, .now, 0x00000000, 0xFFFFFFFF⟩,
   ⟨0x60, .ro, .now, 0x00000000, 0xFFFFFFFF⟩,
   ⟨0x64, .ro, .now, 0x00000000, 0xFFFFFFFF⟩]

/-- Registers of EPE. -/
def rowsEpe : List RegRow := rowsEpeA ++ rowsEpeB

/-- Registers of CAP. -/
def rowsCapA : List RegRow :=
  [⟨0x20, .rwp, .live, 0x00FFFF00, 0xFFFFFFFF⟩,
   ⟨0x24, .rwp, .live, 0xFFFF0000, 0xFFFFFFFF⟩,
   ⟨0x28, .rwp, .live, 0xF5C30A3C, 0xFFFFFFFF⟩,
   ⟨0x2C, .rw, .stop, 0x00000100, 0x00000333⟩,
   ⟨0x30, .rwp, .stop, 0x0000FFFF, 0xFFFFFFFF⟩,
   ⟨0x34, .rw, .live, 0x03E80802, 0xFFFFFF03⟩,
   ⟨0x38, .rw, .live, 0x00000000, 0x00010FFF⟩,
   ⟨0x3C, .rw, .live, 0x00000000, 0x00010FFF⟩,
   ⟨0x40, .rw, .live, 0x00000000, 0x00010FFF⟩,
   ⟨0x44, .rw, .live, 0x00000000, 0x00010FFF⟩,
   ⟨0x48, .rw, .live, 0x00000000, 0x00010FFF⟩,
   ⟨0x4C, .rw, .live, 0x00000000, 0x00010FFF⟩,
   ⟨0x50, .rw, .live, 0x00000000, 0x00010FFF⟩,
   ⟨0x54, .rw, .live, 0x00000000, 0x00010FFF⟩]

/-- Registers of CAP. -/
def rowsCapB : List RegRow :=
  [⟨0x58, .rw, .live, 0x00000001, 0xFFFF0001⟩,
   ⟨0x5C, .rw, .live, 0x03E80501, 0xFFFFFF01⟩,
   ⟨0x60, .rw, .live, 0x00000032, 0x0000FFFF⟩,
   ⟨0x64, .ro, .now, 0x00FFFFFF, 0xFFFFFFFF⟩,
   ⟨0x68, .ro, .now, 0x00000000, 0xFFFFFFFF⟩,
   ⟨0x6C, .ro, .now, 0x00000000, 0xFFFFFFFF⟩,
   ⟨0x70, .ro, .now, 0x00000000, 0xFFFFFFFF⟩,
   ⟨0x74, .ro, .now, 0x00000000, 0xFFFFFFFF⟩,
   ⟨0x78, .ro, .now, 0x00000000, 0xFFFFFFFF⟩]

/-- Registers of CAP. -/
def rowsCap : List RegRow := rowsCapA ++ rowsCapB

/-- Registers of GROVE. -/
def rowsGroveA : List RegRow :=
  [⟨0x20, .rw, .now, 0x00000000, 0xFFFFFFFF⟩,
   ⟨0x24, .rw, .now, 0x00000000, 0xFFFFFFFF⟩,
   ⟨0x28, .ro, .now, 0x00000000, 0xFFFFFFFF⟩,
   ⟨0x2C, .rw, .stop, 0x000A0004, 0x00FF0107⟩,
   ⟨0x30, .rwp, .live, 0x0000FFFF, 0xFFFFFFFF⟩,
   ⟨0x34, .rwp, .live, 0x0000FFFF, 0xFFFFFFFF⟩,
   ⟨0x38, .rwp, .live, 0x0000FFFF, 0xFFFFFFFF⟩,
   ⟨0x3C, .rwp, .live, 0x0000FFFF, 0xFFFFFFFF⟩,
   ⟨0x40, .rwp, .live, 0x0000FFFF, 0xFFFFFFFF⟩,
   ⟨0x44, .rwp, .live, 0x0000FFFF, 0xFFFFFFFF⟩,
   ⟨0x48, .rwp, .live, 0x0000FFFF, 0xFFFFFFFF⟩,
   ⟨0x4C, .rwp, .live, 0x0000FFFF, 0xFFFFFFFF⟩,
   ⟨0x50, .rwp, .live, 0x0000FFFF, 0xFFFFFFFF⟩,
   ⟨0x54, .rwp, .live, 0x0000FFFF, 0xFFFFFFFF⟩]

/-- Registers of GROVE. -/
def rowsGroveB : List RegRow :=
  [⟨0x58, .ro, .now, 0x00000000, 0xFFFFFFFF⟩,
   ⟨0x5C, .ro, .now, 0x00000000, 0xFFFFFFFF⟩,
   ⟨0x60, .ro, .now, 0x00000000, 0xFFFFFFFF⟩,
   ⟨0x64, .ro, .now, 0x00000000, 0xFFFFFFFF⟩,
   ⟨0x68, .ro, .now, 0x00000000, 0xFFFFFFFF⟩]

/-- Registers of GROVE. -/
def rowsGrove : List RegRow := rowsGroveA ++ rowsGroveB

/-- Registers of FEED. -/
def rowsFeedA : List RegRow :=
  [⟨0x20, .rw, .stop, 0x00000000, 0x00000013⟩,
   ⟨0x24, .rwp, (.group 0), 0x0FA0F05F, 0xFFFFFFFF⟩,
   ⟨0x28, .rwp, (.group 0), 0x1770E88F, 0xFFFFFFFF⟩,
   ⟨0x2C, .rw, (.group 0), 0x00000032, 0x000000FF⟩,
   ⟨0x30, .rw, .live, 0x00000064, 0x00003FFF⟩,
   ⟨0x34, .rwp, (.group 1), 0x00FAFF05, 0xFFFFFFFF⟩,
   ⟨0x38, .rwp, (.group 1), 0x000AFFF5, 0xFFFFFFFF⟩,
   ⟨0x3C, .rw, .stop, 0x00000000, 0x000FFFFF⟩,
   ⟨0x40, .rw, .stop, 0x00321414, 0x00FFFF7F⟩,
   ⟨0x44, .rw, .live, 0x000A1432, 0x00FFFFFF⟩,
   ⟨0x48, .rw, .live, 0x00000064, 0x0000FFFF⟩,
   ⟨0x4C, .rw, .live, 0x00000014, 0x000000FF⟩,
   ⟨0x50, .wo, .now, 0x00000000, 0xFFFFFFFF⟩,
   ⟨0x54, .ro, .now, 0x00000000, 0xFFFFFFFF⟩]

/-- Registers of FEED. -/
def rowsFeedB : List RegRow :=
  [⟨0x58, .ro, .now, 0x00000000, 0xFFFFFFFF⟩,
   ⟨0x5C, .ro, .now, 0x00000000, 0xFFFFFFFF⟩,
   ⟨0x60, .ro, .now, 0x00000000, 0xFFFFFFFF⟩,
   ⟨0x64, .ro, .now, 0x00000000, 0xFFFFFFFF⟩,
   ⟨0x68, .ro, .now, 0x00000000, 0xFFFFFFFF⟩,
   ⟨0x6C, .ro, .now, 0x00000000, 0xFFFFFFFF⟩]

/-- Registers of FEED. -/
def rowsFeed : List RegRow := rowsFeedA ++ rowsFeedB

/-- Registers of XING. -/
def rowsXingA : List RegRow :=
  [⟨0x20, .rw, .stop, 0x28000030, 0xFFFFFF37⟩,
   ⟨0x24, .rwp, .live, 0x0032FFCD, 0xFFFFFFFF⟩,
   ⟨0x28, .rw, .live, 0xFFFF0004, 0xFFFF000F⟩,
   ⟨0x2C, .rw, .live, 0x00000603, 0x00000707⟩,
   ⟨0x30, .rw, .live, 0x000001F4, 0x0000FFFF⟩,
   ⟨0x34, .rw, .live, 0x0000000A, 0x000000FF⟩,
   ⟨0x38, .rwp, .live, 0x0359FCA6, 0xFFFFFFFF⟩,
   ⟨0x3C, .rwp, (.group 0), 0x0000FFFF, 0xFFFFFFFF⟩,
   ⟨0x40, .rwp, (.group 0), 0x0A00F5FF, 0xFFFFFFFF⟩,
   ⟨0x44, .rwp, (.group 0), 0x0400FBFF, 0xFFFFFFFF⟩,
   ⟨0x48, .wo, .now, 0x00000000, 0xFFFFFFFF⟩,
   ⟨0x4C, .ro, .now, 0x00000000, 0xFFFFFFFF⟩,
   ⟨0x50, .ro, .now, 0x00000000, 0xFFFFFFFF⟩,
   ⟨0x54, .ro, .now, 0x00000000, 0xFFFFFFFF⟩]

/-- Registers of XING. -/
def rowsXingB : List RegRow :=
  [⟨0x58, .ro, .now, 0x00000000, 0xFFFFFFFF⟩,
   ⟨0x5C, .ro, .now, 0x00000000, 0xFFFFFFFF⟩,
   ⟨0x60, .ro, .now, 0x00000000, 0xFFFFFFFF⟩,
   ⟨0x64, .ro, .now, 0x00000000, 0xFFFFFFFF⟩]

/-- Registers of XING. -/
def rowsXing : List RegRow := rowsXingA ++ rowsXingB

/-- Registers of SEQ. -/
def rowsSeqA : List RegRow :=
  [⟨0x20, .rw, .now, 0x00000000, 0xFFFFFFFF⟩,
   ⟨0x24, .rw, .now, 0x00000000, 0xFFFFFFFF⟩,
   ⟨0x28, .rw, .stop, 0x020A000A, 0xFFFFFFFF⟩,
   ⟨0x2C, .rw, .stop, 0x0A020A00, 0xFF0FFF01⟩,
   ⟨0x30, .wo, .now, 0x00000000, 0xFFFFFFFF⟩,
   ⟨0x34, .rw, .live, 0x00000064, 0x0000FFFF⟩,
   ⟨0x38, .rw, .live, 0x00000000, 0x000000FF⟩,
   ⟨0x3C, .ro, .now, 0x00000000, 0xFFFFFFFF⟩,
   ⟨0x40, .ro, .now, 0x00000000, 0xFFFFFFFF⟩,
   ⟨0x44, .ro, .now, 0x00000000, 0xFFFFFFFF⟩,
   ⟨0x48, .ro, .now, 0x00000000, 0xFFFFFFFF⟩,
   ⟨0x4C, .ro, .now, 0x00000000, 0xFFFFFFFF⟩,
   ⟨0x50, .ro, .now, 0x00000000, 0xFFFFFFFF⟩,
   ⟨0x54, .ro, .now, 0x00000000, 0xFFFFFFFF⟩]

/-- Registers of SEQ. -/
def rowsSeqB : List RegRow :=
  [⟨0x58, .ro, .now, 0x00000000, 0xFFFFFFFF⟩,
   ⟨0x5C, .ro, .now, 0x00000000, 0xFFFFFFFF⟩,
   ⟨0x60, .ro, .now, 0x00000000, 0xFFFFFFFF⟩,
   ⟨0x64, .ro, .now, 0x00000000, 0xFFFFFFFF⟩,
   ⟨0x68, .rw, .stop, 0x00000000, 0xFFFFFFFF⟩,
   ⟨0x6C, .rw, .stop, 0x00000000, 0x00000FFF⟩,
   ⟨0x70, .rw, .stop, 0x00000000, 0xFFFFFFFF⟩,
   ⟨0x74, .rw, .stop, 0x00000000, 0x00000FFF⟩,
   ⟨0x78, .rw, .stop, 0x00000000, 0xFFFFFFFF⟩,
   ⟨0x7C, .rw, .stop, 0x00000000, 0x00000FFF⟩,
   ⟨0x80, .rw, .stop, 0x00000000, 0xFFFFFFFF⟩,
   ⟨0x84, .rw, .stop, 0x00000000, 0x00000FFF⟩,
   ⟨0x88, .rw, .stop, 0x00000000, 0xFFFFFFFF⟩,
   ⟨0x8C, .rw, .stop, 0x00000000, 0x00000FFF⟩]

/-- Registers of SEQ. -/
def rowsSeqC : List RegRow :=
  [⟨0x90, .rw, .stop, 0x00000000, 0xFFFFFFFF⟩,
   ⟨0x94, .rw, .stop, 0x00000000, 0x00000FFF⟩,
   ⟨0x98, .rw, .stop, 0x00000000, 0xFFFFFFFF⟩,
   ⟨0x9C, .rw, .stop, 0x00000000, 0x00000FFF⟩,
   ⟨0xA0, .rw, .stop, 0x00000000, 0xFFFFFFFF⟩,
   ⟨0xA4, .rw, .stop, 0x00000000, 0x00000FFF⟩,
   ⟨0xA8, .ro, .now, 0x00000000, 0xFFFFFFFF⟩,
   ⟨0xAC, .ro, .now, 0x00000000, 0xFFFFFFFF⟩,
   ⟨0xB0, .ro, .now, 0x00000000, 0xFFFFFFFF⟩]

/-- Registers of SEQ. -/
def rowsSeq : List RegRow := rowsSeqA ++ rowsSeqB ++ rowsSeqC

/-- Registers of SEQTBL. -/
def rowsSeqtbl : List RegRow :=
  [⟨0x20, .rw, .now, 0x00000000, 0xFFFFFFFF⟩,
   ⟨0x24, .rw, .now, 0x00000000, 0xFFFFFFFF⟩,
   ⟨0x28, .rwp, (.group 0), 0x0000FFFF, 0xFFFFFFFF⟩,
   ⟨0x2C, .wo, .now, 0x00000000, 0xFFFFFFFF⟩,
   ⟨0x30, .ro, .now, 0x00000000, 0xFFFFFFFF⟩]

/-- Registers of WDOG. -/
def rowsWdog : List RegRow :=
  [⟨0x20, .rw, .stop, 0x000A2000, 0x00FFF133⟩,
   ⟨0x24, .rw, .stop, 0x000003E8, 0xFFFFFFFF⟩,
   ⟨0x28, .rw, .stop, 0x00001388, 0x0000FFFF⟩,
   ⟨0x2C, .wo, .now, 0x00000000, 0xFFFFFFFF⟩,
   ⟨0x30, .ro, .now, 0x00000000, 0xFFFFFFFF⟩,
   ⟨0x34, .ro, .now, 0x00000000, 0xFFFFFFFF⟩,
   ⟨0x38, .ro, .now, 0x00000000, 0xFFFFFFFF⟩]

/-- Registers of BATT. -/
def rowsBattA : List RegRow :=
  [⟨0x20, .rw, .now, 0x00000000, 0xFFFFFFFF⟩,
   ⟨0x24, .rw, .now, 0x00000000, 0xFFFFFFFF⟩,
   ⟨0x28, .rwp, (.group 0), 0x0000FFFF, 0xFFFFFFFF⟩,
   ⟨0x2C, .rw, .stop, 0x0010000F, 0x00133F0F⟩,
   ⟨0x30, .rwp, .stop, 0x0000FFFF, 0xFFFFFFFF⟩,
   ⟨0x34, .rwp, .stop, 0x0000FFFF, 0xFFFFFFFF⟩,
   ⟨0x38, .rw, (.group 0), 0x002D1900, 0x00FFFFFF⟩,
   ⟨0x3C, .rwp, (.group 1), 0x0000FFFF, 0xFFFFFFFF⟩,
   ⟨0x40, .rwp, (.group 1), 0x0000FFFF, 0xFFFFFFFF⟩,
   ⟨0x44, .rw, (.group 1), 0x251C0014, 0xFFFFFFFF⟩,
   ⟨0x48, .rwp, (.group 1), 0x002DFFD2, 0xFFFF0000⟩,
   ⟨0x4C, .rwp, (.group 2), 0x2814D7EB, 0xFFFF0000⟩,
   ⟨0x50, .rwp, (.group 2), 0x012CFED3, 0xFFFFFFFF⟩,
   ⟨0x54, .rwp, (.group 2), 0x0000FFFF, 0xFFFFFFFF⟩]

/-- Registers of BATT. -/
def rowsBattB : List RegRow :=
  [⟨0x58, .rwp, (.group 2), 0x0000FFFF, 0xFFFFFFFF⟩,
   ⟨0x5C, .rwp, (.group 2), 0x0000FFFF, 0xFFFFFFFF⟩,
   ⟨0x60, .rw, (.group 2), 0x01F40064, 0xFFFFFFFF⟩,
   ⟨0x64, .rw, .live, 0x001E0014, 0xFFFFFFFF⟩,
   ⟨0x68, .rw, .live, 0x00001800, 0x0000FF01⟩,
   ⟨0x6C, .rwp, (.group 3), 0x0000FFFF, 0xFFFFFFFF⟩,
   ⟨0x70, .rwp, (.group 3), 0x0000FFFF, 0xFFFFFFFF⟩,
   ⟨0x74, .rwp, (.group 3), 0x0000FFFF, 0xFFFFFFFF⟩,
   ⟨0x78, .rwp, (.group 3), 0x0000FFFF, 0xFFFFFFFF⟩,
   ⟨0x7C, .rw, (.group 3), 0x00000000, 0x0000001F⟩,
   ⟨0x80, .wo, .now, 0x00000000, 0xFFFFFFFF⟩,
   ⟨0x84, .wo, .now, 0x00000000, 0xFFFFFFFF⟩,
   ⟨0x88, .ro, .now, 0x00000000, 0xFFFFFFFF⟩,
   ⟨0x8C, .ro, .now, 0x00000000, 0xFFFFFFFF⟩]

/-- Registers of BATT. -/
def rowsBattC : List RegRow :=
  [⟨0x90, .ro, .now, 0x00000000, 0xFFFFFFFF⟩,
   ⟨0x94, .ro, .now, 0x00000000, 0xFFFFFFFF⟩,
   ⟨0x98, .ro, .now, 0x00000000, 0xFFFFFFFF⟩,
   ⟨0x9C, .ro, .now, 0x00000000, 0xFFFFFFFF⟩,
   ⟨0xA0, .ro, .now, 0x00000000, 0xFFFFFFFF⟩,
   ⟨0xA4, .ro, .now, 0x00000000, 0xFFFFFFFF⟩]

/-- Registers of BATT. -/
def rowsBatt : List RegRow := rowsBattA ++ rowsBattB ++ rowsBattC

/-- Registers of THERM. -/
def rowsThermA : List RegRow :=
  [⟨0x20, .rw, .now, 0x00000000, 0xFFFFFFFF⟩,
   ⟨0x24, .rw, .now, 0x00000000, 0xFFFFFFFF⟩,
   ⟨0x28, .rw, .now, 0x00000000, 0xFFFFFFFF⟩,
   ⟨0x2C, .rw, .stop, 0x00000000, 0x0000001F⟩,
   ⟨0x30, .rw, .live, 0x00000A08, 0x0000FFFF⟩,
   ⟨0x34, .rw, .live, 0x003C000A, 0xFFFFFFFF⟩,
   ⟨0x38, .rwp, .live, 0x737D8C82, 0xFFFF0000⟩,
   ⟨0x3C, .wo, .now, 0x00000000, 0xFFFFFFFF⟩,
   ⟨0x40, .ro, .now, 0x00000000, 0xFFFFFFFF⟩,
   ⟨0x44, .ro, .now, 0x00000000, 0xFFFFFFFF⟩,
   ⟨0x48, .ro, .now, 0x0000FFFF, 0xFFFFFFFF⟩,
   ⟨0x4C, .ro, .now, 0x00000000, 0xFFFFFFFF⟩,
   ⟨0x50, .ro, .now, 0x00000000, 0xFFFFFFFF⟩,
   ⟨0x54, .ro, .now, 0x00000000, 0xFFFFFFFF⟩]

/-- Registers of THERM. -/
def rowsThermB : List RegRow :=
  [⟨0x58, .ro, .now, 0x00000000, 0xFFFFFFFF⟩,
   ⟨0x5C, .ro, .now, 0x00000000, 0xFFFFFFFF⟩]

/-- Registers of THERM. -/
def rowsTherm : List RegRow := rowsThermA ++ rowsThermB

/-- Registers of NET. -/
def rowsNet : List RegRow :=
  [⟨0x20, .rw, .stop, 0x00001011, 0x00033313⟩,
   ⟨0x24, .ro, .now, 0x00000000, 0xFFFFFFFF⟩,
   ⟨0x28, .ro, .now, 0x00000000, 0xFFFFFFFF⟩,
   ⟨0x2C, .ro, .now, 0x00000000, 0xFFFFFFFF⟩,
   ⟨0x30, .ro, .now, 0x00000000, 0xFFFFFFFF⟩,
   ⟨0x34, .ro, .now, 0x00000000, 0xFFFFFFFF⟩,
   ⟨0x38, .ro, .now, 0x00000000, 0xFFFFFFFF⟩,
   ⟨0x3C, .ro, .now, 0x00000000, 0xFFFFFFFF⟩,
   ⟨0x40, .ro, .now, 0x00000000, 0xFFFFFFFF⟩,
   ⟨0x44, .ro, .now, 0x00000000, 0xFFFFFFFF⟩,
   ⟨0x48, .ro, .now, 0x00000000, 0xFFFFFFFF⟩]

/-- Registers of NETPAIR. -/
def rowsNetpair : List RegRow :=
  [⟨0x20, .rw, .now, 0x00000000, 0xFFFFFFFF⟩,
   ⟨0x24, .rw, .now, 0x00000000, 0xFFFFFFFF⟩,
   ⟨0x28, .ro, .now, 0x00000000, 0xFFFFFFFF⟩,
   ⟨0x2C, .rw, .live, 0x01280014, 0x01FF00FF⟩,
   ⟨0x30, .wo, .now, 0x00000000, 0xFFFFFFFF⟩,
   ⟨0x34, .ro, .now, 0x00000000, 0xFFFFFFFF⟩,
   ⟨0x38, .ro, .now, 0x00000000, 0xFFFFFFFF⟩,
   ⟨0x3C, .ro, .now, 0x00000000, 0xFFFFFFFF⟩,
   ⟨0x40, .ro, .now, 0x00000000, 0xFFFFFFFF⟩,
   ⟨0x44, .ro, .now, 0x00000000, 0xFFFFFFFF⟩,
   ⟨0x48, .ro, .now, 0x00000000, 0xFFFFFFFF⟩,
   ⟨0x4C, .ro, .now, 0x00000000, 0xFFFFFFFF⟩,
   ⟨0x50, .ro, .now, 0x00000000, 0xFFFFFFFF⟩,
   ⟨0x54, .ro, .now, 0x00000000, 0xFFFFFFFF⟩]

/-- Registers of PTP. -/
def rowsPtpA : List RegRow :=
  [⟨0x20, .rw, .stop, 0x031D0E00, 0x0FFF0FFF⟩,
   ⟨0x24, .rw, .stop, 0x00008080, 0x0000FFFF⟩,
   ⟨0x28, .rw, .live, 0x141000FA, 0xFFFFFFFF⟩,
   ⟨0x2C, .rw, .stop, 0x00000000, 0xFFFFFFFF⟩,
   ⟨0x30, .rw, .stop, 0x00000000, 0xFFFFFFFF⟩,
   ⟨0x34, .rw, .live, 0x00640000, 0xFFFF0003⟩,
   ⟨0x38, .ro, .now, 0x00000000, 0xFFFFFFFF⟩,
   ⟨0x3C, .ro, .now, 0x00000000, 0xFFFFFFFF⟩,
   ⟨0x40, .ro, .now, 0x00000000, 0xFFFFFFFF⟩,
   ⟨0x44, .ro, .now, 0x00000000, 0xFFFFFFFF⟩,
   ⟨0x48, .ro, .now, 0x00000000, 0xFFFFFFFF⟩,
   ⟨0x4C, .ro, .now, 0x00000000, 0xFFFFFFFF⟩,
   ⟨0x50, .ro, .now, 0x00000000, 0xFFFFFFFF⟩,
   ⟨0x54, .ro, .now, 0x00000000, 0xFFFFFFFF⟩]

/-- Registers of PTP. -/
def rowsPtpB : List RegRow :=
  [⟨0x58, .ro, .now, 0x00000000, 0xFFFFFFFF⟩]

/-- Registers of PTP. -/
def rowsPtp : List RegRow := rowsPtpA ++ rowsPtpB

/-- Registers of BENUF. -/
def rowsBenufA : List RegRow :=
  [⟨0x20, .rw, .now, 0x00000000, 0xFFFFFFFF⟩,
   ⟨0x24, .rw, .now, 0x00000000, 0xFFFFFFFF⟩,
   ⟨0x28, .ro, .now, 0x00000000, 0xFFFFFFFF⟩,
   ⟨0x2C, .rw, .stop, 0x88B50000, 0xFFFF0003⟩,
   ⟨0x30, .rw, .stop, 0x00000001, 0x00000FFF⟩,
   ⟨0x34, .rw, .stop, 0x00000FFF, 0x00000FFF⟩,
   ⟨0x38, .rw, .live, 0x00001E0A, 0xFFFFFFFF⟩,
   ⟨0x3C, .rw, .live, 0x0000000A, 0x000000FF⟩,
   ⟨0x40, .rw, .stop, 0x000002B0, 0xFFFFFFFF⟩,
   ⟨0x44, .rw, .live, 0x00000000, 0xFFFFFFFF⟩,
   ⟨0x48, .rw, .live, 0x00000000, 0xFFFF0000⟩,
   ⟨0x4C, .wo, .now, 0x00000000, 0xFFFFFFFF⟩,
   ⟨0x50, .ro, .now, 0x00000000, 0xFFFFFFFF⟩,
   ⟨0x54, .ro, .now, 0x00000000, 0xFFFFFFFF⟩]

/-- Registers of BENUF. -/
def rowsBenufB : List RegRow :=
  [⟨0x58, .ro, .now, 0x00000000, 0xFFFFFFFF⟩,
   ⟨0x5C, .ro, .now, 0x00000000, 0xFFFFFFFF⟩,
   ⟨0x60, .ro, .now, 0x00000000, 0xFFFFFFFF⟩,
   ⟨0x64, .ro, .now, 0x00000000, 0xFFFFFFFF⟩,
   ⟨0x68, .ro, .now, 0x00000000, 0xFFFFFFFF⟩,
   ⟨0x6C, .ro, .now, 0x00000000, 0xFFFFFFFF⟩,
   ⟨0x70, .ro, .now, 0x00000000, 0xFFFFFFFF⟩]

/-- Registers of BENUF. -/
def rowsBenuf : List RegRow := rowsBenufA ++ rowsBenufB

/-- Registers of TWT. -/
def rowsTwt : List RegRow :=
  [⟨0x20, .rw, .live, 0x06410303, 0xFFF31F1F⟩,
   ⟨0x24, .ro, .now, 0x00000000, 0xFFFFFFFF⟩,
   ⟨0x28, .ro, .now, 0x00000000, 0xFFFFFFFF⟩,
   ⟨0x2C, .ro, .now, 0x00000000, 0xFFFFFFFF⟩,
   ⟨0x30, .ro, .now, 0x00000000, 0xFFFFFFFF⟩,
   ⟨0x34, .ro, .now, 0x00000000, 0xFFFFFFFF⟩]

/-- Registers of TWC. -/
def rowsTwc : List RegRow :=
  [⟨0x20, .rw, .now, 0x00000000, 0xFFFFFFFF⟩,
   ⟨0x24, .rw, .now, 0x00000000, 0xFFFFFFFF⟩,
   ⟨0x28, .rw, (.group 0), 0x00000000, 0xFFFFFFFF⟩,
   ⟨0x2C, .rw, .stop, 0x00180102, 0xFF1F1F33⟩,
   ⟨0x30, .rw, (.group 0), 0x0019030A, 0x00FF0FFF⟩,
   ⟨0x34, .wo, .now, 0x00000000, 0xFFFFFFFF⟩,
   ⟨0x38, .ro, .now, 0x00000000, 0xFFFFFFFF⟩,
   ⟨0x3C, .ro, .now, 0x00000000, 0xFFFFFFFF⟩,
   ⟨0x40, .ro, .now, 0x00000000, 0xFFFFFFFF⟩,
   ⟨0x44, .ro, .now, 0x00000000, 0xFFFFFFFF⟩,
   ⟨0x48, .ro, .now, 0x00000000, 0xFFFFFFFF⟩]

/-- Registers of MEM. -/
def rowsMem : List RegRow :=
  [⟨0x20, .rw, .now, 0x00000000, 0xFFFFFFFF⟩,
   ⟨0x24, .rw, .now, 0x00000000, 0xFFFFFFFF⟩,
   ⟨0x28, .ro, .now, 0x00000000, 0xFFFFFFFF⟩,
   ⟨0x2C, .rw, .live, 0x00000007, 0x000000FF⟩,
   ⟨0x30, .ro, .now, 0x00000000, 0xFFFFFFFF⟩,
   ⟨0x34, .ro, .now, 0x00000000, 0xFFFFFFFF⟩,
   ⟨0x38, .ro, .now, 0x00000000, 0xFFFFFFFF⟩,
   ⟨0x3C, .ro, .now, 0x00000000, 0xFFFFFFFF⟩,
   ⟨0x40, .ro, .now, 0x00000000, 0xFFFFFFFF⟩,
   ⟨0x44, .ro, .now, 0x00000000, 0xFFFFFFFF⟩,
   ⟨0x48, .ro, .now, 0x00000000, 0xFFFFFFFF⟩,
   ⟨0x4C, .ro, .now, 0x00000000, 0xFFFFFFFF⟩]

/-- Registers of HEART. -/
def rowsHeart : List RegRow :=
  [⟨0x20, .rw, .now, 0x01000100, 0xFFFFFFFF⟩,
   ⟨0x24, .rw, .now, 0x00000303, 0x00000303⟩,
   ⟨0x28, .wo, .now, 0x00000000, 0xFFFFFFFF⟩,
   ⟨0x2C, .ro, .now, 0x00000000, 0xFFFFFFFF⟩,
   ⟨0x30, .ro, .now, 0x00000000, 0xFFFFFFFF⟩,
   ⟨0x34, .ro, .now, 0x00000000, 0xFFFFFFFF⟩,
   ⟨0x38, .ro, .now, 0x00000000, 0xFFFFFFFF⟩]

/-- Registers of MBOX. -/
def rowsMboxA : List RegRow :=
  [⟨0x20, .rw, .now, 0x00000000, 0xFFFFFFFF⟩,
   ⟨0x24, .rw, .now, 0x00000000, 0xFFFFFFFF⟩,
   ⟨0x28, .rw, .now, 0x00000000, 0xFFFFFFFF⟩,
   ⟨0x2C, .rwp, .now, 0x0000FFFF, 0xFF7F0000⟩,
   ⟨0x38, .rwp, .now, 0x0000FFFF, 0xFF7F0000⟩,
   ⟨0x44, .rwp, .now, 0x0000FFFF, 0xFF7F0000⟩,
   ⟨0x50, .rwp, .now, 0x0000FFFF, 0xFF7F0000⟩,
   ⟨0x5C, .rwp, .now, 0x0000FFFF, 0xFF7F0000⟩,
   ⟨0x68, .rwp, .now, 0x0000FFFF, 0xFF7F0000⟩,
   ⟨0x74, .rwp, .now, 0x0000FFFF, 0xFF7F0000⟩,
   ⟨0x80, .rwp, .now, 0x0000FFFF, 0xFF7F0000⟩,
   ⟨0x30, .rwp, .now, 0x0000FFFF, 0xFFFF0000⟩,
   ⟨0x3C, .rwp, .now, 0x0000FFFF, 0xFFFF0000⟩,
   ⟨0x48, .rwp, .now, 0x0000FFFF, 0xFFFF0000⟩]

/-- Registers of MBOX. -/
def rowsMboxB : List RegRow :=
  [⟨0x54, .rwp, .now, 0x0000FFFF, 0xFFFF0000⟩,
   ⟨0x60, .rwp, .now, 0x0000FFFF, 0xFFFF0000⟩,
   ⟨0x6C, .rwp, .now, 0x0000FFFF, 0xFFFF0000⟩,
   ⟨0x78, .rwp, .now, 0x0000FFFF, 0xFFFF0000⟩,
   ⟨0x84, .rwp, .now, 0x0000FFFF, 0xFFFF0000⟩,
   ⟨0x34, .rwp, .now, 0x0000FFFF, 0xFF0F0000⟩,
   ⟨0x40, .rwp, .now, 0x0000FFFF, 0xFF0F0000⟩,
   ⟨0x4C, .rwp, .now, 0x0000FFFF, 0xFF0F0000⟩,
   ⟨0x58, .rwp, .now, 0x0000FFFF, 0xFF0F0000⟩,
   ⟨0x64, .rwp, .now, 0x0000FFFF, 0xFF0F0000⟩,
   ⟨0x70, .rwp, .now, 0x0000FFFF, 0xFF0F0000⟩,
   ⟨0x7C, .rwp, .now, 0x0000FFFF, 0xFF0F0000⟩,
   ⟨0x88, .rwp, .now, 0x0000FFFF, 0xFF0F0000⟩,
   ⟨0x8C, .ro, .now, 0x00000000, 0xFFFFFFFF⟩]

/-- Registers of MBOX. -/
def rowsMboxC : List RegRow :=
  [⟨0x90, .ro, .now, 0x00000000, 0xFFFFFFFF⟩]

/-- Registers of MBOX. -/
def rowsMbox : List RegRow := rowsMboxA ++ rowsMboxB ++ rowsMboxC

/-- Registers of REC. -/
def rowsRecA : List RegRow :=
  [⟨0x20, .rw, .now, 0x00000000, 0xFFFFFFFF⟩,
   ⟨0x24, .rw, .now, 0x00000000, 0xFFFFFFFF⟩,
   ⟨0x28, .ro, .now, 0x00000000, 0xFFFFFFFF⟩,
   ⟨0x2C, .rw, .live, 0x64100006, 0xFF1F01FF⟩,
   ⟨0x30, .rw, .now, 0x00000000, 0x0000FFFF⟩,
   ⟨0x34, .rw, .now, 0x00000000, 0xFFFFFFFF⟩,
   ⟨0x38, .ro, .now, 0x00000000, 0xFFFFFFFF⟩,
   ⟨0x3C, .wo, .now, 0x00000000, 0xFFFFFFFF⟩,
   ⟨0x40, .ro, .now, 0x00000000, 0xFFFFFFFF⟩,
   ⟨0x44, .ro, .now, 0x00000000, 0xFFFFFFFF⟩,
   ⟨0x48, .ro, .now, 0x00000000, 0xFFFFFFFF⟩,
   ⟨0x4C, .ro, .now, 0x00000000, 0xFFFFFFFF⟩,
   ⟨0x50, .ro, .now, 0x00000000, 0xFFFFFFFF⟩,
   ⟨0x54, .ro, .now, 0x00000000, 0xFFFFFFFF⟩]

/-- Registers of REC. -/
def rowsRecB : List RegRow :=
  [⟨0x58, .ro, .now, 0x00000000, 0xFFFFFFFF⟩,
   ⟨0x5C, .rw, .live, 0x00000000, 0x0000FFFF⟩,
   ⟨0x60, .rw, .live, 0x00000000, 0xFFFFFFFF⟩,
   ⟨0x64, .ro, .now, 0x00000000, 0xFFFFFFFF⟩,
   ⟨0x68, .ro, .now, 0x00000000, 0xFFFFFFFF⟩,
   ⟨0x6C, .ro, .now, 0x00000000, 0xFFFFFFFF⟩,
   ⟨0x70, .ro, .now, 0x00000000, 0xFFFFFFFF⟩]

/-- Registers of REC. -/
def rowsRec : List RegRow := rowsRecA ++ rowsRecB

/-- Registers of BIST. -/
def rowsBist : List RegRow :=
  [⟨0x20, .ro, .now, 0x00000000, 0xFFFFFFFF⟩,
   ⟨0x24, .ro, .now, 0x00000000, 0xFFFFFFFF⟩,
   ⟨0x28, .ro, .now, 0x00000000, 0xFFFFFFFF⟩,
   ⟨0x2C, .ro, .now, 0x00000000, 0xFFFFFFFF⟩,
   ⟨0x30, .ro, .now, 0x00000000, 0xFFFFFFFF⟩,
   ⟨0x34, .ro, .now, 0x00000000, 0xFFFFFFFF⟩,
   ⟨0x38, .ro, .now, 0x00000000, 0xFFFFFFFF⟩,
   ⟨0x3C, .ro, .now, 0x00000000, 0xFFFFFFFF⟩,
   ⟨0x40, .ro, .now, 0x00000000, 0xFFFFFFFF⟩,
   ⟨0x44, .ro, .now, 0x00000000, 0xFFFFFFFF⟩]

/-- Registers of LIFE. -/
def rowsLife : List RegRow :=
  [⟨0x20, .ro, .now, 0x00000000, 0xFFFFFFFF⟩,
   ⟨0x24, .rwp, .now, 0x0000FFFF, 0xF0070000⟩,
   ⟨0x28, .ro, .now, 0x00000000, 0xFFFFFFFF⟩,
   ⟨0x2C, .ro, .now, 0x00000000, 0xFFFFFFFF⟩]

/-- Registers of UPDATE. -/
def rowsUpdate : List RegRow :=
  [⟨0x20, .rw, .now, 0x00000000, 0xFFFFFFFF⟩,
   ⟨0x24, .rw, .now, 0x00000000, 0xFFFFFFFF⟩,
   ⟨0x28, .ro, .now, 0x00000000, 0xFFFFFFFF⟩,
   ⟨0x2C, .rw, .live, 0x00000000, 0x00000001⟩,
   ⟨0x30, .rwp, .now, 0x0000FFFF, 0xFFFF0000⟩,
   ⟨0x34, .rw, .now, 0x00000000, 0x000FFFFF⟩,
   ⟨0x38, .wo, .now, 0x00000000, 0xFFFFFFFF⟩,
   ⟨0x3C, .ro, .now, 0x00000F00, 0xFFFFFFFF⟩,
   ⟨0x40, .ro, .now, 0x00000000, 0xFFFFFFFF⟩,
   ⟨0x44, .ro, .now, 0x00000000, 0xFFFFFFFF⟩,
   ⟨0x48, .ro, .now, 0x00000000, 0xFFFFFFFF⟩,
   ⟨0x4C, .ro, .now, 0x00000000, 0xFFFFFFFF⟩,
   ⟨0x50, .ro, .now, 0x00000000, 0xFFFFFFFF⟩,
   ⟨0x54, .ro, .now, 0x00000000, 0xFFFFFFFF⟩]

/-- The registers of a block from offset 0x20. -/
def blkRows : Blk → List RegRow
  | .hdr => rowsHdr
  | .sys => rowsSys
  | .clk => rowsClk
  | .integ => rowsInteg
  | .sched => rowsSched
  | .sched1 => rowsSched1
  | .place => rowsPlace
  | .phase => rowsPhase
  | .rail => rowsRail
  | .cle => rowsCle
  | .trace => rowsTrace
  | .adccal => rowsAdccal
  | .epe => rowsEpe
  | .cap => rowsCap
  | .grove => rowsGrove
  | .feed => rowsFeed
  | .xing => rowsXing
  | .seq => rowsSeq
  | .seqtbl => rowsSeqtbl
  | .wdog => rowsWdog
  | .batt => rowsBatt
  | .therm => rowsTherm
  | .net => rowsNet
  | .netpair => rowsNetpair
  | .ptp => rowsPtp
  | .benuf => rowsBenuf
  | .twt => rowsTwt
  | .twc => rowsTwc
  | .mem => rowsMem
  | .heart => rowsHeart
  | .mbox => rowsMbox
  | .recd => rowsRec
  | .bist => rowsBist
  | .life => rowsLife
  | .update => rowsUpdate

/-- The block of a page, with the instance or the page's index within the block (R72). -/
def blkOf (p : Nat) : Option (Blk × Nat) :=
  if p = 0x00 then some (.sys, p - 0x00)
  else if p = 0x01 then some (.clk, p - 0x01)
  else if p = 0x02 then some (.integ, p - 0x02)
  else if p = 0x04 then some (.sched, p - 0x04)
  else if p = 0x05 then some (.sched1, 1)
  else if p = 0x06 then some (.place, p - 0x06)
  else if 0x10 ≤ p ∧ p < 0x40 then some (.phase, p - 0x10)
  else if 0x40 ≤ p ∧ p < 0x4C then some (.rail, p - 0x40)
  else if p = 0x50 then some (.cle, p - 0x50)
  else if 0x51 ≤ p ∧ p < 0x55 then some (.trace, p - 0x51)
  else if p = 0x58 then some (.adccal, p - 0x58)
  else if p = 0x60 then some (.epe, p - 0x60)
  else if p = 0x61 then some (.cap, p - 0x61)
  else if p = 0x62 then some (.grove, p - 0x62)
  else if 0x68 ≤ p ∧ p < 0x70 then some (.feed, p - 0x68)
  else if p = 0x70 then some (.xing, p - 0x70)
  else if p = 0x78 then some (.seq, p - 0x78)
  else if p = 0x79 then some (.seqtbl, p - 0x79)
  else if p = 0x7A then some (.wdog, p - 0x7A)
  else if 0x80 ≤ p ∧ p < 0x88 then some (.batt, p - 0x80)
  else if p = 0x88 then some (.therm, p - 0x88)
  else if 0x90 ≤ p ∧ p < 0x92 then some (.net, p - 0x90)
  else if p = 0x92 then some (.netpair, p - 0x92)
  else if p = 0x93 then some (.ptp, p - 0x93)
  else if p = 0x94 then some (.benuf, p - 0x94)
  else if p = 0xA0 then some (.twt, p - 0xA0)
  else if 0xA1 ≤ p ∧ p < 0xA5 then some (.twc, p - 0xA1)
  else if p = 0xB0 then some (.mem, p - 0xB0)
  else if p = 0xB1 then some (.heart, p - 0xB1)
  else if 0xB8 ≤ p ∧ p < 0xBC then some (.mbox, p - 0xB8)
  else if p = 0xC0 then some (.recd, p - 0xC0)
  else if p = 0xC8 then some (.bist, p - 0xC8)
  else if p = 0xC9 then some (.life, p - 0xC9)
  else if p = 0xD0 then some (.update, p - 0xD0)
  else none

/-- The TYPE field of PAGE_ID (R72, R75). -/
def blkType : Blk → Nat
  | .hdr => 0
  | .sys => 0x01
  | .clk => 0x02
  | .integ => 0x03
  | .sched => 0x04
  | .sched1 => 0x04
  | .place => 0x05
  | .phase => 0x10
  | .rail => 0x11
  | .cle => 0x12
  | .trace => 0x13
  | .adccal => 0x14
  | .epe => 0x20
  | .cap => 0x21
  | .grove => 0x22
  | .feed => 0x28
  | .xing => 0x29
  | .seq => 0x30
  | .seqtbl => 0x31
  | .wdog => 0x32
  | .batt => 0x38
  | .therm => 0x39
  | .net => 0x40
  | .netpair => 0x42
  | .ptp => 0x43
  | .benuf => 0x44
  | .twt => 0x48
  | .twc => 0x49
  | .mem => 0x50
  | .heart => 0x51
  | .mbox => 0x52
  | .recd => 0x58
  | .bist => 0x60
  | .life => 0x61
  | .update => 0x68

/-- The PAGES field of PAGE_ID (R72, R75). -/
def blkPages : Blk → Nat
  | .sched => 2
  | .sched1 => 2
  | .mbox => 4
  | _ => 1

/-- The register at an offset of a block's page: of the header below 0x20, else of the block. -/
def rowOf (b : Blk) (off : Nat) : Option RegRow :=
  (blkRows (if off < 0x20 then .hdr else b)).find? (fun r => r.off = off)

/-- The blocks whose EN reads 1 and ignores writes (R76). -/
def alwaysOn : Blk → Bool
  | .sys | .clk | .integ | .mem | .heart | .netpair | .twt | .mbox | .recd | .bist | .life | .update => true
  | _ => false

/-- The reset value of FLT_WIN of each page (R104). -/
def fltWinReset (p : Nat) : Nat :=
  if p = 0xB0 then 0x0383FC7C
  else if p = 0x02 then 0x0430FBCF
  else if p = 0x04 then 0x0820F7DF
  else if 0x10 ≤ p ∧ p < 0x40 then 0x1010EFEF
  else if p = 0x78 then 0x0514FAEB
  else if 0x68 ≤ p ∧ p < 0x70 then 0x0350FCAF
  else if p = 0x92 then 0x0240FDBF
  else 0x0130FECF

end Sys2Proof.Machine
end

