-- ==== Sys2Proof/Machine/State.lean ====
section
/-! DEFINITION. The state of the block, as plain data: every register (`regs`, with the values in
force in `live`), the hidden state of each unit, the queues and memories, and the queue of the
commands that wait. Default values are the values at reset. -/

namespace Sys2Proof.Machine

/-- Why the block stops. The spec gives every command an effect, so no command raises a fault:
the type has no constructor. Safe. -/
inductive Fault where
  deriving DecidableEq, Repr

/-- Why a command is refused by the model. -/
inductive Refusal where
  /-- Raised by an arm of `exec` whose command has no meaning yet. Safe: the model stops. -/
  | notModelled (mnemonic : String)
  deriving DecidableEq, Repr

/-! ### Supply, resets and firmware restart -/

/-- The state of the supply and of the module reset (R32, R48, R49, R58). -/
inductive Power where
  /-- In module reset, VAUX absent or below the power-on threshold. -/
  | off
  /-- In module reset by RESET_n (R58). -/
  | pinReset
  /-- Out of reset, VAUX present. -/
  | run
  /-- Within 2 ms of a collapse, from the hold-up store (R49). -/
  | ride
  /-- In last-breath mode (R49). -/
  | lastBreath
  deriving DecidableEq, Repr

/-- The firmware restart in progress, if any (R25 to R31). -/
inductive Restart where
  | none
  /-- Requested, waits for the major frame (R25). -/
  | pending (cause : Nat)
  /-- The clusters are halted; ms since T1. -/
  | halted (cause ms : Nat)
  /-- The clusters run again, allocations still frozen; ms since T1 (R28). -/
  | frozen (cause ms : Nat)
  deriving DecidableEq, Repr

/-- The module as a whole: supply, start-up, firmware restart (R19 to R61, R539 to R561). -/
structure SysSt where
  pwr : Power := .off
  /-- VAUX_A and VAUX_B as last known, mV, and at the last collapse (R530). -/
  va : Nat := 0
  vb : Nat := 0
  colVa : Nat := 0
  colVb : Nat := 0
  /-- The store holds its full charge (R50). -/
  hold : Bool := false
  /-- Consecutive SELFTEST resets, held in AON (R550). -/
  stRun : Nat := 0
  /-- TWT_ADDR straps sampled at ROM start (R447). -/
  strap : Nat := 0
  /-- A recovery request for this start (R540). -/
  sapReq : Bool := false
  /-- Start-up: VAUX was newly applied; self-test and scan done; the verdict of step 5 is in, or Sapling
  entered (R541); steps 5 and 6 done; the adopt window is open (R539). -/
  fresh : Bool := false
  selfDone : Bool := false
  scanDone : Bool := false
  verdict : Bool := false
  loaded : Bool := false
  window : Bool := false
  /-- Writes of the plan that are withheld until step 11, and the pages that limp records have written in
  Sapling (R546, R587). -/
  withheld : List RegWr := []
  limp : List Nat := []
  /-- The firmware restart in progress (R24 to R31). -/
  restart : Restart := .none
  /-- Firmware runs on the clusters (R24). -/
  fwRun : Bool := false
  /-- Outputs have been released (R547). -/
  released : Bool := false
  /-- Every download is refused: the third SELFTEST reset found the condition again (R550). -/
  noLoad : Bool := false
  /-- A module reset that a transaction has asked for, with its cause and CMD (R561); start-up that a
  command continues at step 5 (R589). Both happen at the end of that command. -/
  resetDue : Option (Nat × Nat) := none
  goOn : Bool := false
  /-- The version that the START record carries (R541). -/
  startVer : Nat := 0
  /-- Length of step 4 in ms (R545) and of start-up so far. -/
  stMs : Nat := 0
  /-- Life-cycle state in force (R554). -/
  life : Nat := 0
  /-- The part: its PART word (R551), for the resources of R3 and R4. -/
  part : Nat := 0x9640
  deriving DecidableEq, Repr

/-- A life-cycle transition (R555, R556): the target that is armed, the one in progress, and whether its wipe
is done. -/
structure LifeSt where
  arm : Option Nat := none
  target : Option Nat := none
  wiped : Bool := false
  deriving DecidableEq, Repr

/-- The clocks (R13 to R23). -/
structure ClkSt where
  /-- Clocks present, by bit of CLK_STAT, as the supervisor sees them. -/
  lost : List Nat := []
  /-- Lost clocks found present again by a restart try, waiting their 10 ms (R21). -/
  back : List Nat := []
  deriving DecidableEq, Repr

/-! ### Fault windows and records -/

/-- A counter block (R100 to R105): its source (page, fault bit, instance of the source within the
page), the byte address of its window register, the eight buckets, newest first, how many
bucket boundaries have passed since the source's last transient record, none when there is none
to remember (R103), and how many since its last fault; counts stop at 9, a whole window. -/
structure Ctr where
  page : Nat
  fbit : Nat
  sub : Nat
  win : Nat
  buckets : List Nat
  since : Option Nat
  quiet : Nat := 0
  deriving DecidableEq, Repr

/-- A record of the recorder (R517), without its CHECK, which `recBytes` computes. `mark` asks for
the Root log (R524). -/
structure Rec where
  seq : Nat
  optime : Nat
  flags : Nat
  pcc : Nat
  len : Nat
  typ : Nat
  src : Nat
  payload : List Byte
  mark : Bool
  deriving DecidableEq, Repr

/-- The recorder (R517 to R538). -/
structure RecSt where
  /-- The RAM stage, oldest first (R523). -/
  stage : List Rec := []
  /-- Records that arose before START and wait for it (R541), oldest first. -/
  early : List Rec := []
  /-- START has been made, so records take their numbers at once (R541). -/
  started : Bool := false
  /-- The next sequence number (R526). -/
  next : Nat := 1
  /-- The sequence reservation that is stored in MRAM (R526). -/
  reserve : Nat := 0
  /-- Records dropped since the last LOST record, and how many of them critical (R523). -/
  lost : Nat := 0
  lostCrit : Nat := 0
  /-- The operating time in ms (R519) and the power-cycle count (R520). -/
  optime : Nat := 0
  pcc : Nat := 0
  /-- Kinds (block type, fault bit) whose first lasting fault has a mark (R103). -/
  marks : List (Nat × Nat) := []
  /-- The first TIME_ANCHOR since DEPLOYED has its mark (R524). -/
  anchorMarked : Bool := false
  /-- Root records written, for the room of R103. -/
  rootUsed : Nat := 0
  /-- The read position of each master: sequence number and word (R531). -/
  rdPos : List (Nat × Nat) := List.replicate 16 (0, 0)
  /-- An MRAM hold has been in force while the records of the stage were made (R525). -/
  heldUpTo : Nat := 0
  /-- Bytes 0 to 11 of the LAST_BREATH record, as they stood at the collapse (R530). -/
  col : List Byte := []
  /-- A LAST_BREATH record waits for a wipe to finish: µs from the collapse to its entry (R530). -/
  breath : Option (Nat × Bool) := none
  deriving DecidableEq, Repr

/-- What the last command returned to its sender: the data of a read, a bus error (R70, R99), the
bytes sent on the two-wire bus. -/
structure Reply where
  err : Bool := false
  words : List W32 := []
  bytes : List Byte := []
  dword : Option W64 := none
  /-- The CORE cycle in the major frame at which the command came, where it tells it (R236). -/
  cyc : Option Nat := none
  deriving DecidableEq, Repr

/-! ### Periods and placement -/

/-- An entry of a commit buffer (R113, R114): a write to a word of the scratchpad or of the register space, at
its internal address, of `size` bytes. -/
structure Staged where
  addr : Nat
  size : Nat
  val : Nat
  deriving DecidableEq, Repr

/-- A firmware task (R113 to R126). -/
structure Task where
  /-- The commit buffer, oldest first (R113). -/
  buf : List Staged := []
  /-- A period is in progress (R113). -/
  started : Bool := false
  /-- The owner cluster, 0xFF none; the owner it moves to, and whether the major frame of the
  repack has passed (R126). -/
  owner : Nat := 0xFF
  next : Option Nat := none
  armed : Bool := false
  /-- Placed by the drop policy (R118, R124); watched after it; its fallback is in force. -/
  pinned : Bool := false
  watched : Bool := false
  fallback : Bool := false
  /-- A watched task has dropped: its fallback is to begin (R118). -/
  fallDue : Bool := false
  /-- A policy move waits for the major frame (R118). -/
  moveDue : Bool := false
  /-- Bucket boundaries of SCHED.FLT_WIN since the last period that was not committed, or policy move; 9 of
  them hold a whole window; and whether a period has been committed since (R118, R119). -/
  clean : Nat := 9
  cmts : Bool := false
  /-- High-water time: the longest run, in CORE cycles, of each 1.25 s bucket, newest first (R121). -/
  hw : List Nat := List.replicate 8 0
  /-- Declared cost in force, µs (R121). -/
  decl : Nat := 0
  /-- A period has been committed since the last restart of the clusters (R28). -/
  first : Bool := false
  deriving DecidableEq, Repr

/-- The period timebase, the tasks and the clusters (R108 to R137). -/
structure SchedSt where
  tasks : List Task := List.replicate 12 {}
  /-- Tasks run: EN in force (R120). -/
  run : Bool := false
  /-- EN was written 0, which takes effect at the next major frame (R120). -/
  stopDue : Bool := false
  /-- The timebase counts: the first major frame after outputs were released has come (R110). -/
  tb : Bool := false
  /-- ms on the timebase (R110). -/
  frame : Nat := 0
  /-- EPE period number (R110), and whether a period of this major frame has begun. -/
  epeK : Nat := 0
  epeSub : Bool := false
  /-- A step of the timebase to this TAI ms at the next major frame (R111). -/
  stepTo : Option Nat := none
  /-- PTP lock has been lost since the reset: without lock and SYNC_IN the timebase holds over (R112). -/
  hold : Bool := false
  /-- ns that are left to slew (R111). -/
  slew : Int := 0
  /-- ms within the current 1.25 s bucket of the high-water times (R121). -/
  hwMs : Nat := 0
  /-- Condition of each cluster (R143): 0 in service, 2 GATED, 3 TEST, 4 FAILED, 6 VACATING. -/
  clu : List Nat := List.replicate 4 0
  /-- Cluster under test, and whether it is isolated; whether it was GATED (R128). -/
  bist : Option Nat := none
  bistOn : Bool := false
  bistGated : Bool := false
  /-- Clusters woken and not yet ready (R127). -/
  waking : List Nat := []
  /-- Rotating test: next cluster; clusters whose refused request waits to be tried again (R130). -/
  rotNext : Nat := 0
  rotWait : List Nat := []
  /-- The timebase is to be compared with TAI at the next Sync, since `PTP_DISC` was set while locked (R110). -/
  tbAsk : Bool := false
  /-- The declared points: register addresses, in order of declaration (R132, R580). -/
  points : List Nat := []
  /-- Points and trace buffers: banks excluded whose content still moves (R134). -/
  bankMove : List Nat := []
  /-- A repack waits for the end of the firmware restart, which freezes the placement (R131). -/
  packDue : Bool := false
  deriving DecidableEq, Repr

/-! ### Phases, rails and converters -/

/-- The level of an output pin (R56, R60): high-impedance, low, high, released (open drain). -/
inductive Lvl where
  | z
  | low
  | high
  deriving DecidableEq, Repr

/-- What PH_PWM does (R147): high-impedance, adopted low, tri-state, switching, or held off while it
truncates or skips (low or tri-state). -/
inductive Pwm where
  | z
  | low
  | tri
  | switching
  | skipLow
  | skipTri
  deriving DecidableEq, Repr

/-- A phase beyond its registers (R144 to R203). -/
structure Phase where
  /-- PH_EN and PH_PWM (R147). -/
  phEn : Lvl := .z
  phPwm : Pwm := .z
  /-- The first pulse after the phase became ACTIVE is still to come (R177, R221). -/
  fresh : Bool := false
  /-- A removal as OPEN waits for the rail's period boundary (R194). -/
  openDue : Bool := false
  /-- A drop waits for the rail's period boundary (R179); EN has gone to 0, so that the phase then goes
  OFF (R200). -/
  dropDue : Bool := false
  dropOff : Bool := false
  /-- A move to SENSE_SHED waits for the rail's period boundary (R195). -/
  shedDue : Bool := false
  /-- Cut by its limit in the current switching period (R169, R224). -/
  cut : Bool := false
  /-- Negative-limit interval until the next pulse start (R171). -/
  negTri : Bool := false
  /-- Truncated: no pulse since, until the next pulse start after the truncation (R166). -/
  held : Bool := false
  /-- Consecutive SENSE_CHK periods in which the conditions of R188 held. -/
  suspN : Nat := 0
  /-- INCONCLUSIVE probes of the current suspicion (R190). -/
  inconcl : Nat := 0
  /-- A probe may run at the next pulse start (R189, R191). -/
  probeDue : Bool := false
  /-- The switching period of the probe in progress, from 1 (R189). -/
  probeN : Nat := 0
  /-- Sibling current of the samples in the probe's periods 3 to 10 and 13 to 20: sum, 0.1 A / 32,768, and
  samples (R189). -/
  prSumA : Int := 0
  prCntA : Nat := 0
  prSumB : Int := 0
  prCntB : Nat := 0
  /-- Samples at full scale in a row, and conversions for which sense and observer have disagreed (R192). -/
  fullN : Nat := 0
  disN : Nat := 0
  /-- Grounds of R192 that SENSE_CHK found in its last period. -/
  ground : Nat := 0
  /-- Sense current in Q1.15 of ISNS_SCALE, as sampled (R216). -/
  code : Int := 0
  /-- Observer estimate, µA, and whether it is valid (R193). -/
  obs : Int := 0
  obsOk : Bool := false
  /-- Balance integrator and proportional term, Q10.30; last output; direction of its last saturation (R220,
  R223). -/
  bState : Int := 0
  bTerm : Int := 0
  db : Int := 0
  bSat : Int := 0
  /-- Duty word of the last sample, duty word released to PWM, and duty in force, which the next pulse start
  takes from it (R149, R211). -/
  dNext : Int := 0
  dRel : Int := 0
  d : Int := 0
  /-- On-time in taps of the pulses (R149) and offset in the period (R150). -/
  onTaps : Nat := 0
  offset : Nat := 0
  deriving DecidableEq, Repr

/-- A rail beyond its registers (R144 to R205, R208 to R232). -/
structure Rail where
  /-- EN as the rail's state machine sees it (R186). -/
  enIn : Bool := false
  /-- Lane and sample phase of the placement (R209, R210). -/
  place : Option (Nat × Nat) := none
  /-- The loop reference and its nominal ramp R(t), in 6.25 µV; the ramp runs; the first sample of
  a start is still to come (R181, R228). -/
  ref : Int := 0
  ramp : Int := 0
  ramping : Bool := false
  first : Bool := false
  /-- VSNS of the last sample, Q1.15 (R155), and its V_IN in mV when valid (R250). -/
  y : Int := 0
  vin : Option Nat := none
  /-- Voltage loop: integrator and derivative states, Q10.30, last error, saturation, output, terms
  (R217, R223). -/
  vInt : Int := 0
  vDer : Int := 0
  ePrev : Int := 0
  vSat : Int := 0
  u : Int := 0
  pTerm : Int := 0
  /-- BIDI current loop (R218): integrator, proportional term, saturation, slewed set point, reference, duty;
  the set point in force, Q1.15 of I_FS. -/
  cInt : Int := 0
  cTerm : Int := 0
  cSat : Int := 0
  iSlew : Int := 0
  iRef : Int := 0
  iset : Int := 0
  dRail : Int := 0
  /-- Crossing current and duty that the next sample takes (R219). -/
  cross : Option (Int × Int) := none
  /-- Rail current at the last sample, 0.1 A / 32,768. -/
  cur : Int := 0
  /-- Truncation in force; ended, pulses not resumed yet (R166, R167). -/
  trunc : Bool := false
  resume : Bool := false
  /-- Overshoot level and exit level, 6.25 µV (R165). -/
  ovLvl : Int := 0
  ovExit : Int := 0
  /-- VSNS comparator B is low (R173). -/
  uvLow : Bool := false
  /-- The stall condition (a) of R184 holds. -/
  stall : Bool := false
  /-- The dwell timer runs (R179). -/
  dwell : Bool := false
  /-- The last added phase; the next add waits for its first pulse (R177). -/
  addWait : Option Nat := none
  /-- Shedding is off although EN is 1: the check at start failed (R176). -/
  shedOff : Bool := false
  /-- Duty words wait to be released (R211). -/
  duties : Bool := false
  /-- Dead-time adaptation (R152): direction, which of the two moves next, mean duty before. -/
  dtUp : Bool := true
  dtFall : Bool := false
  dtMean : Option Nat := none
  /-- String rail: shedding is held off after a Crossing detection (R286). -/
  noShed : Bool := false
  deriving DecidableEq, Repr

/-- The converters (R153 to R164). -/
structure AdcSt where
  /-- GIN comparator A above its threshold, of each GIN channel (R158). -/
  ginHi : List Bool := List.replicate 4 false
  /-- The last decimated sample of each GIN channel, Q1.15 (R155). -/
  gin : List Int := List.replicate 4 0
  /-- The threshold codes of comparators A and B of each channel, 10 bits, signed (R156, R157). -/
  thr : List (Int × Int) := List.replicate 60 (0, 0) ++ List.replicate 4 (511, -512)
  /-- Rolling slot: the present channel index, 64 for the spare's own check (R159). -/
  slot : Nat := 0
  /-- Channels with a CAL_LIMIT in the last pass (R161). -/
  limited : List Nat := []
  /-- Reference calibrations asked for and not begun; the channel in calibration (R161). -/
  calReq : List Nat := []
  calOn : Option Nat := none
  /-- The channel that the spare carries for good (R162). -/
  carried : Option Nat := none
  /-- The spare has failed its own check (R162). -/
  spareBad : Bool := false
  /-- Consecutive monitor readings above the high and below the low limit, and inside them, by
  input (R164). -/
  monHi : List Nat := List.replicate 32 0
  monLo : List Nat := List.replicate 32 0
  monHiIn : List Nat := List.replicate 32 0
  monLoIn : List Nat := List.replicate 32 0
  deriving DecidableEq, Repr

/-- A lane slot in use (R208 to R212): index 32 × lane + slot, loop kind (1 voltage, 2 balance, 3
current), its instance (a phase for a balance loop, else the rail), and the rail of the placement. -/
structure LaneSlot where
  idx : Nat
  kind : Nat
  inst : Nat
  rail : Nat
  deriving DecidableEq, Repr

/-- The lanes (R208 to R212). -/
structure CleSt where
  /-- The slots in use. -/
  slots : List LaneSlot := []
  /-- Lanes that failed their self-test (R212). -/
  bad : List Nat := []
  deriving DecidableEq, Repr

/-- A trace unit (R233 to R237). -/
structure Trace where
  /-- The bank that holds its buffer (R135). -/
  bank : Option Nat := none
  /-- Samples recorded since the buffer restarted; the buffer itself lies in the words of the bank (R233). -/
  total : Nat := 0
  /-- Samples of the source rail since the last recorded one (R233). -/
  div : Nat := 0
  /-- Samples recorded in this state, and the trigger node's last value (R235). -/
  n : Nat := 0
  last : Option Int := none
  deriving DecidableEq, Repr

/-! ### Energy placement, cap and grove -/

/-- A source as a solve takes it (R243 to R245): its bounds, whether it is available, and available
once charging stops, its charge request, its measured current in 10 mA and temperature in °C, and
the length and cost of each segment. -/
structure EpeSrc where
  slot : Nat
  lo : Nat
  hi : Nat
  ok : Bool
  okDry : Bool
  chg : Nat
  i : Int
  t : Option Int
  stale : Bool
  segs : List (Nat × Nat)
  deriving DecidableEq, Repr

/-- The inputs of a solve (R247): `crossing` in CROSSING and QUALIFYING, demands in 10 mA, V_bus in
mV, icap in 10 mA and none without a cap (R248). -/
structure EpeReq where
  crossing : Bool
  dLoad : Nat
  dChg : Nat
  vbus : Nat
  icap : Option Nat
  srcs : List EpeSrc
  deriving DecidableEq, Repr

/-- The results of a solve, staged for the commit (R251, R252). -/
structure EpeRes where
  share : List (Nat × Nat)
  bound : Bool
  deficit : Bool
  iter : Nat
  level : Option Nat
  deriving DecidableEq, Repr

/-- The energy placement engine beyond its registers (R242 to R261). -/
structure Epe where
  /-- The solve requested, its results once complete, and their discard at the commit (R277). -/
  req : Option EpeReq := none
  res : Option EpeRes := none
  discard : Bool := false
  /-- hi of each source in the last committed solve; its d_load; Crossing current and hi of each
  string that a Crossing would use, 0 for the others, in 10 mA (R261). -/
  hi : List Nat := List.replicate 64 0
  dLoad : Nat := 0
  xb : List Nat := List.replicate 8 0
  xhi : List Nat := List.replicate 8 0
  /-- Last valid temperature of each source and of each phase's input, °C (R244, R260). -/
  lastT : List (Option Int) := List.replicate 64 none
  phT : List (Option Int) := List.replicate 48 none
  /-- Rectifiers: 0 in service, 2 in standby, 3 waking, 5 silent after a wake (R255, R256), and ms
  in service or in standby. -/
  mode : List Nat := List.replicate 32 0
  onMs : List Nat := List.replicate 32 0
  /-- Total trim of each rectifier, µV (R258). -/
  trim : List Int := List.replicate 32 0
  /-- Wear of each phase, 0.1 A·s (R260). -/
  wear : List Nat := List.replicate 48 0
  /-- RESERVE_SHORT has been raised and the rule has not held since (R254). -/
  rsSaid : Bool := false
  deriving DecidableEq, Repr

/-- The cap fast path beyond its registers (R262 to R268). -/
structure Cap where
  /-- Each output: its excess estimates in a row, whether R264 asserts it, and µs since then. -/
  cnt : List Nat := List.replicate 8 0
  on : List Bool := List.replicate 8 false
  us : List Nat := List.replicate 8 0
  /-- Estimates above C in a row; the excess is qualified; assist runs; the current it adds, 10 mA. -/
  above : Nat := 0
  qual : Bool := false
  assist : Bool := false
  a : Nat := 0
  /-- The qualified excess has been met by a capped solve: it starts no assist any more (R267). -/
  spent : Bool := false
  deriving DecidableEq, Repr

/-- A member's report or a grove's summary counted in a period (R271, R275). -/
structure Counted where
  who : Nat
  d : Nat
  f : Nat
  mx : Nat
  prio : Nat
  src : Nat
  deriving DecidableEq, Repr

/-- The grove unit beyond its registers (R269 to R276). -/
structure Grove where
  /-- The exchange has started (R269). -/
  run : Bool := false
  /-- Grove share in force, none before the first; the share that applies at the next period start;
  a rise that waits (R274). -/
  share : Option Nat := none
  next : Option Nat := none
  rise : Option Nat := none
  /-- Own allocation of this period, to be committed at the deadline. -/
  own : Option Nat := none
  /-- Reports of this period, and summaries of this 10 ms period. -/
  reports : List Counted := []
  sums : List Counted := []
  /-- Groves of the canopy: those whose SUMMARY has been counted since the start (R276). -/
  groves : List Nat := []
  /-- Grove cap from the canopy: in force, at the next 10 ms boundary, waiting rise (R276). -/
  gcap : Option Nat := none
  gnext : Option Nat := none
  grise : Option Nat := none
  deriving DecidableEq, Repr

/-! ### Crossing and feed channels -/

/-- The Crossing logic beyond its registers (R284 to R296). -/
structure Xing where
  /-- The detectors run: EN was written 1 and not refused (R291). -/
  run : Bool := false
  /-- V_bus of the last valid sample, and the bus loop's reference of this Crossing, mV (R289). -/
  vbus : Nat := 0
  vref : Nat := 0
  /-- The full current is not yet commanded (R288). -/
  fullWait : Bool := false
  /-- Bus loop integrator, 10 mA; a solve has been committed since the detection (R289). -/
  istate : Int := 0
  solved : Bool := false
  /-- ms since the qualification timer started (R292); its expiry is held by a firmware restart. -/
  qualMs : Nat := 0
  held : Bool := false
  /-- The walk: set point of each string's rail at the start of RETURNING, and ms since (R293). -/
  sb0 : List Int := List.replicate 8 0
  walkMs : Nat := 0
  deriving DecidableEq, Repr

/-- What FD_GATE does (R60, R302). -/
inductive Gate where
  | z
  | down
  | ramp
  | hold
  deriving DecidableEq, Repr

/-- A feed channel beyond its registers (R297 to R309). -/
structure Feed where
  /-- FD_GATE. -/
  gate : Gate := .z
  /-- Last sample: FD_VIN and FD_VOUT in mV, shunt voltage in µV, FD_GATE − FD_SRC in mV (R297). -/
  vin : Nat := 0
  vout : Nat := 0
  vs : Int := 0
  vgs : Int := 0
  /-- The I²t accumulator (R303). -/
  e : Nat := 0
  /-- FD_GATE − FD_SRC has reached 3.0 V since the drive came on (R308). -/
  vgsOn : Bool := false
  /-- Adopted on at the release, until its EN is judged (R309). -/
  adopted : Bool := false
  deriving DecidableEq, Repr

/-! ### Sequencer and output pins -/

/-- The sequencer beyond its registers (R314 to R333). The maps of enabled, good, timed, FAILED and
UNSTABLE identities are its registers. -/
structure Seq where
  /-- RAIL_PG[i] after the deglitch is high (R331). -/
  pg : List Bool := List.replicate 32 false
  /-- Armed identities (R329). -/
  armed : List Nat := []
  /-- Requests since the last tick: on or off, and cause (R326). -/
  reqs : List (Bool × Nat) := []
  /-- The step in progress, 64 past the last. -/
  step : Nat := 0
  /-- The step in progress waits; its level has been seen; retries made; TARGET is off for
  RETRY_GAP (R320, R324). -/
  waiting : Bool := false
  seen : Bool := false
  retries : Nat := 0
  gap : Bool := false
  /-- Identities that SKIP_RAIL failed in this up-sequence (R324). -/
  skip : List Nat := []
  /-- Identities that were enabled on entry to DOWN; DOWN_LEAD runs (R325, R327). -/
  base : List Nat := []
  lead : Bool := false
  /-- MIN_OFF since the last DOWN_DONE has not elapsed (R327). -/
  rest : Bool := false
  /-- The levels of AC_OK_n that the last tick sampled (R317, R321). -/
  acok : Nat := 0
  deriving DecidableEq, Repr

/-- Output pins that no other structure holds (R56). An open-drain pin that is released is `z`. -/
structure Pins where
  railEn : List Lvl := List.replicate 32 .z
  sysPg : Lvl := .z
  hostRst : Lvl := .z
  pps : Lvl := .z
  deriving DecidableEq, Repr

/-! ### Battery strings -/

/-- A battery string beyond its registers (R346 to R369). -/
structure Batt where
  /-- The string runs: EN was written 1 and not refused (R346); it has run since the reset (R369). -/
  run : Bool := false
  first : Bool := false
  /-- Charge not yet counted in `Q_RAW`, in 0.1 A / 32,768 × 62.5 ns (R352). -/
  qAcc : Int := 0
  /-- Consecutive presence reads that pass and fail, reads of code 31, and reads of a valid code that
  differs from the one held; the last code read; ID has been taken (R349, R350). -/
  good : Nat := 0
  bad : Nat := 0
  bad31 : Nat := 0
  diff : Nat := 0
  code : Nat := 0
  taken : Bool := false
  /-- `Q_RAW` at the last update; charge in mC that SOC_C does not show yet; charge drawn past counted
  empty, mC; SOC_C has been set once (R353). -/
  qLast : W32 := 0
  qRem : Int := 0
  qOver : Nat := 0
  primed : Bool := false
  /-- Mean voltage of the last 1 ms, mV (R366); ms since the last update (R353). -/
  mv : Nat := 0
  updMs : Nat := 0
  /-- ms with the current below `REST_I`; rest corrections of this rest, by their time (R355). -/
  restMs : Nat := 0
  restN : Nat := 0
  /-- SOC at the last rest correction since ACCEPT or reset, and the charge since, mC (R356). -/
  restSoc : Option Nat := none
  restQ : Int := 0
  /-- Discharge toward the next equivalent cycle, mC (R356). -/
  thru : Nat := 0
  /-- Levels in force, by bit 0 LOW, 1 VERY_LOW, 2 CUTOFF; the state-of-charge conditions of the last
  update to enter and to leave; the voltage conditions that have held for `LVL_T` (R365, R366). -/
  lvl : List Bool := [false, false, false]
  socIn : List Bool := [false, false, false]
  socOut : List Bool := [true, true, true]
  vIn : List Bool := [false, false, false]
  vOut : List Bool := [true, true, true]
  /-- Impedance: a measurement runs, its frequency and samples since it began; one is asked for; the
  real part at 1 Hz, 10 µΩ (R360). -/
  imp : Bool := false
  impF : Nat := 0
  impK : Nat := 0
  impReq : Bool := false
  zReal : Int := 0
  /-- A restore has been accepted and waits for the update (R357). -/
  restore : Bool := false
  deriving DecidableEq, Repr

/-! ### Temperatures -/

/-- The temperature unit beyond its registers (R371 to R384). -/
structure Therm where
  /-- Consecutive bad and good readings of each input (R372). -/
  bad : List Nat := List.replicate 16 0
  good : List Nat := List.replicate 16 0
  /-- Consecutive readings above, and 2 °C below, the warning and the hot limit: inputs, then the die
  (R378). -/
  warnUp : List Nat := List.replicate 17 0
  warnDn : List Nat := List.replicate 17 0
  hotUp : List Nat := List.replicate 17 0
  hotDn : List Nat := List.replicate 17 0
  /-- Rate-of-rise: 10 ms periods for which the rate of a requesting input has stayed low (R379). -/
  low : List Nat := List.replicate 16 0
  /-- The package diode reads (R371); its latest consecutive readings, at most 16, the newest first
  (R375). -/
  pkgOk : Bool := false
  pkgs : List Int := []
  /-- Last counts of the ring sensors (R373). -/
  count : List Nat := List.replicate 16 0
  /-- The ring has been calibrated since reset; sensors further than `XCHK.DEV` from their reference;
  sensors that wait for their calibration to be re-admitted (R375 to R377). -/
  calOnce : Bool := false
  beyond : List Nat := []
  readmit : List Nat := []
  /-- A calibration is in progress (R375). -/
  cal : Bool := false
  deriving DecidableEq, Repr

/-! ### Network -/

/-- A frame that the path engines release (R389, R414, R421): class, Benuf type, destination address
and shelf, flags, period, SEQ, trailer sequence, payload, and whether it is authenticated. -/
structure TxFrame where
  cls : Nat
  typ : Nat
  da : Nat
  dst : Nat
  flags : Nat
  period : Nat
  seq : Nat
  trailer : Nat
  payload : List Byte
  auth : Bool
  /-- PATH at its release (R415). -/
  path : Nat
  deriving DecidableEq, Repr

/-- An entry of the duplicate table (R392, R413). `heard` orders the entries by when they were heard
last. -/
structure DupEnt where
  slot : Nat
  mac : Nat
  h : Nat
  w : W32
  age : Nat
  seenA : Bool
  seenB : Bool
  heard : Nat
  deriving DecidableEq, Repr

/-- The ports and the path engines beyond their registers (R385 to R413). -/
structure Net where
  /-- Receive queues of ports A and B, oldest first: each frame from its destination address to the
  byte before its FCS (R388). -/
  rxq : List (List (List Byte)) := [[], []]
  /-- The duplicate table of the engines, by entry (R392), and the order stamp of its entries. -/
  dup : List DupEnt := []
  stamp : Nat := 0
  /-- Frames released and not yet sent, in order of release; the frame that the ports send (R421,
  R400). -/
  txq : List TxFrame := []
  fly : Option TxFrame := none
  /-- The merge tag of the last entry (R395). -/
  tag : Nat := 0
  /-- Frames of the stream since the snapshot of a repair (R404). -/
  replay : Nat := 0
  /-- Both engines are down and transmission is stopped (R408). -/
  rebuild : Bool := false
  deriving DecidableEq, Repr

/-- A request of master 0x2 that is kept for its repeats (R436), with its response and its age in
ms. -/
structure KeptReq where
  mac : Nat
  seq : Nat
  rsp : List Byte
  auth : Bool
  age : Nat
  deriving DecidableEq, Repr

/-- Benuf beyond its registers and its tables (R414 to R437). -/
structure Benuf where
  /-- ms since JOINING began (R423). -/
  joinMs : Nat := 0
  /-- HELLOs with LEAVING that are still to be sent (R431). -/
  leave : Nat := 0
  /-- Members that are admitted at the next EPE period start, with their MAX_W (R428). -/
  joins : List (Nat × Nat) := []
  /-- A frame with the module's own number has come from another MAC (R429). -/
  dupHeard : Bool := false
  /-- The last 32 requests, newest first (R436). -/
  kept : List KeptReq := []
  /-- CAPSETs that wait for their period (R433). -/
  capsets : List Capset := []
  /-- Source address of the last MBOX frame accepted from master 0x2 (R510). -/
  mboxMac : Option Nat := none
  deriving DecidableEq, Repr

/-- The PTP block beyond its registers (R438 to R444). -/
structure Ptp where
  /-- Consecutive Sync intervals within `LOCK_THR`, and beyond `UNLOCK_THR` (R440). -/
  good : Nat := 0
  bad : Nat := 0
  /-- Each port has a master, and the offset last measured on it, ns (R439). -/
  master : List Bool := [false, false]
  ofs : List Int := [0, 0]
  deriving DecidableEq, Repr

/-! ### Two-wire ports -/

/-- A write that a controller port has to send (R465): its place in the order (1 droop wake,
2 OPERATION and zone set-up, 3 hard limit, 4 trim), the entry, 16 for the write zone, the PMBus
command, and the data. -/
structure TwcWork where
  cls : Nat
  entry : Nat
  cmd : Nat
  data : Int
  deriving DecidableEq, Repr

/-- A transaction of a controller port (R465). -/
inductive TwcJob where
  | work (w : TwcWork)
  /-- Reading of an entry: bit of READS, 7 for VOUT_MODE (R463). -/
  | read (entry bit : Nat)
  /-- The status read of an alert (R467). -/
  | alert (entry : Nat)
  deriving DecidableEq, Repr

/-- A controller port beyond its registers (R461 to R474). -/
structure Twc where
  /-- Writes that wait, in the order of their arrival. -/
  work : List TwcWork := []
  /-- Writes that failed, for the next round (R465). -/
  again : List TwcWork := []
  /-- Entries whose alert waits to be read; alerts handled in this round (R467). -/
  alerts : List Nat := []
  alertN : Nat := 0
  /-- Readings that are left of the round in progress (R463); a round waits for it to finish. -/
  round : List (Nat × Nat) := []
  due : Bool := false
  /-- Entries with a failed reading in this round. -/
  failed : List Nat := []
  /-- The transaction in progress; it waits for its back-off after a lost arbitration; losses in a
  row; the back-off drawn (R469). -/
  cur : Option TwcJob := none
  wait : Bool := false
  losses : Nat := 0
  backoff : Nat := 0
  /-- A line is stuck (R468). -/
  stuck : Bool := false
  /-- Entries whose write zone has been set (R466). -/
  zoned : List Nat := []
  deriving DecidableEq, Repr

/-! ### Memories, Heartwood and updates -/

/-- A write of module state that waits while MRAM writes are held (R19, R381): phase wear, operating time, a
row that a spare has taken (unit, spare, row). -/
inductive NvWr where
  | wear (l : List Nat)
  | optime (ms : Nat)
  | remap (u sp row : Nat)
  deriving DecidableEq, Repr

/-- The memories beyond their registers (R475 to R490). A word is known by its memory unit (R499) and
its index in the unit: 8,192 × unit + index. -/
structure Mem where
  /-- SRAM words that are not 0, and the poisoned ones (R99). -/
  sram : List (Nat × W64) := []
  poison : List Nat := []
  /-- The cluster that a bank of the scratchpad or the code shadow served last (R479, R483); on the
  smaller parts the master (R481). -/
  last : List (Nat × Nat) := []
  /-- The next words of the SRAM scrub and of the MRAM scrub (R490). -/
  scrubS : Nat := 0
  scrubM : Nat := 64 * 8192
  /-- An update write window has been opened since the code shadow was loaded (R484). -/
  opened : Bool := false
  /-- Rows that are being copied to a spare (R98). -/
  copy : List (Nat × Nat) := []
  /-- Entries of the tracking table in use, the oldest first correction first (R98). -/
  order : List Nat := []
  /-- MRAM writes held by temperature or by a lost clock, in order (R381, R19). -/
  held : List (Nat × W64) := []
  heldNv : List NvWr := []
  deriving DecidableEq, Repr

/-- A key of Heartwood (R492, R513). -/
structure Key where
  slot : Nat
  kind : Nat
  bytes : List Byte
  deriving DecidableEq, Repr

/-- Heartwood beyond its registers (R491 to R496). -/
structure Heart where
  /-- Working copies of the keys. -/
  keys : List Key := []
  /-- The cause of the wipe in progress (R495). -/
  wipe : Option Nat := none
  /-- Each tamper input has passed its last check (R493). -/
  passed : List Bool := [true, true]
  deriving DecidableEq, Repr

/-- A download beyond its registers (R569 to R577): bytes of the image or plan, 0 before its header;
the settings copy that a plan goes to; SET_FMT of the running image. The granule map and the staged
header are the page's tables. -/
structure Upd where
  len : Nat := 0
  copy : Nat := 0
  setFmt : Nat := 0
  deriving DecidableEq, Repr

/-! ### Non-volatile -/

/-- OTP: identity, life-cycle fuses and factory values (R551 to R554, R568, R443). -/
structure Otp where
  /-- SYS table 0, words 0 to 16, as stored (R551). -/
  ident : List W32 := List.replicate 16 0x0000FFFF ++ [0x964069BF]
  /-- The life-cycle state whose fuse groups are fully blown (R554). -/
  life : Nat := 0
  /-- The target of a half-blown step (R556). -/
  half : Option Nat := none
  /-- The epoch (R568). -/
  epoch : Nat := 0
  /-- PTP.LAT_A and LAT_B, factory (R443). -/
  latA : W32 := 0
  latB : W32 := 0
  /-- Factory offsets of the ring sensors, 0.01 °C (R374, R375). -/
  ringOfs : List Int := List.replicate 16 0
  deriving DecidableEq, Repr

/-- A Ring or Root slot: the record, and whether its CHECK is good (R518). -/
structure Slot where
  r : Rec
  good : Bool
  deriving DecidableEq, Repr

/-- The volatile module: registers and the hidden state of every unit. -/
structure Module where
  /-- Supply, start-up, restart, life cycle in force. -/
  sys : SysSt := {}
  /-- A life-cycle transition. -/
  lc : LifeSt := {}
  /-- Clock losses. -/
  clk : ClkSt := {}
  /-- MODEL'S OWN: how many free values the module has drawn; the next one is `Config.free` of its place and this number. -/
  nfree : Nat := 0
  /-- Registers and table words that hold something else than their reset value's entry: what a read returns, the shadow of R83. -/
  regs : List (Nat × W32) := []
  /-- The values in force (R83, R85). -/
  live : List (Nat × W32) := []
  /-- The last good value of each pair at use (R94). -/
  good : List (Nat × W32) := []
  /-- Committed snapshots that wait for their block's boundary (R85). -/
  snap : List (Nat × W32) := []
  /-- Keys of Live writes that wait for their block's boundary (R83). -/
  pend : List Nat := []
  /-- Keys of fields of COMMIT groups written but not committed (R85). -/
  unc : List Nat := []
  /-- Keys of overridden registers and table words (R36). -/
  ovr : List Nat := []
  /-- Profile defaults of Stop fields that wait for the block's next EN 0 to 1 (R37). -/
  defer : List (Nat × W32) := []
  /-- Window registers whose new value waits for the bucket boundary (R104). -/
  winWait : List (Nat × W32) := []
  /-- The counter blocks (R100). -/
  ctrs : List Ctr := []
  /-- Bucket boundaries since the last CFG_REFUSED record (R84), none when none has been made. -/
  cfgRec : Option Nat := none
  /-- TBL_SEL of each page and master, by 16 × page + master (R81). -/
  sel : List (Nat × Nat) := []
  /-- TBL_IDX of each page and master, by 16 × page + master (R81). -/
  idx : List (Nat × Nat) := []
  /-- Words latched for a master by a read that latches (R443, R537), by 65,536 × master + address. -/
  latch : List (Nat × W32) := []
  /-- The recorder. -/
  rc : RecSt := {}
  /-- What the last command returned. -/
  out : Reply := {}
  /-- Timebase, tasks, clusters. -/
  sched : SchedSt := {}
  /-- The phases. -/
  ph : List Phase := List.replicate 48 {}
  /-- The rails. -/
  rl : List Rail := List.replicate 12 {}
  /-- The converters. -/
  adc : AdcSt := {}
  /-- The lanes. -/
  cle : CleSt := {}
  /-- The trace units. -/
  tr : List Trace := List.replicate 4 {}
  /-- The energy placement engine. -/
  ep : Epe := {}
  /-- The cap fast path. -/
  cp : Cap := {}
  /-- The grove unit. -/
  gr : Grove := {}
  /-- The Crossing logic. -/
  xg : Xing := {}
  /-- The feed channels. -/
  fd : List Feed := List.replicate 8 {}
  /-- The sequencer. -/
  sq : Seq := {}
  /-- Output pins. -/
  pin : Pins := {}
  /-- The battery strings. -/
  bt : List Batt := List.replicate 8 {}
  /-- Temperatures. -/
  th : Therm := {}
  /-- Ports and path engines. -/
  net : Net := {}
  /-- Benuf. -/
  bn : Benuf := {}
  /-- PTP. -/
  pt : Ptp := {}
  /-- The pointer of the two-wire target (R448). -/
  twtPtr : Nat := 0
  /-- The controller ports. -/
  twc : List Twc := List.replicate 4 {}
  /-- Memories. -/
  mem : Mem := {}
  /-- Rings to clusters that a firmware restart holds: channel and doorbell (R29, R514). -/
  rings : List (Nat × W32) := []
  /-- Heartwood. -/
  hw : Heart := {}
  /-- The download. -/
  up : Upd := {}
  deriving DecidableEq, Repr

/-- What survives a module reset and the loss of VAUX (R33): MRAM and OTP. -/
structure NonVol where
  /-- Phase wear as last saved, 0.1 A·s (R260). -/
  wear : List Nat := List.replicate 48 0
  /-- Heartwood NV: the keys installed (R492). -/
  keys : List Key := []
  /-- MRAM words that are not 0, by word: the image, the loader, the settings copies, the limp subset, Heartwood NV (R486). -/
  mram : List (Nat × W64) := []
  /-- Poisoned MRAM words (R99). -/
  mpoison : List Nat := []
  /-- Retired rows: unit, spare, row (R488). -/
  remap : List (Nat × Nat × Nat) := []
  /-- The wipe-pending flag (R495). -/
  wipePending : Bool := false
  /-- Wipes since manufacture (R500). -/
  wipeCnt : Nat := 0
  /-- One-time programmable fuses. -/
  otp : Otp := {}
  /-- The Ring log: slot (SEQ mod 16,384) to record, slots rising (R522). -/
  ring : List (Nat × Slot) := []
  /-- The Root log, from slot 0 on (R524). -/
  root : List Slot := []
  /-- Stored operating time, ms (R519). -/
  optime : Nat := 0
  /-- Stored power-cycle count (R520). -/
  pcc : Nat := 0
  /-- Stored sequence reservation (R526). -/
  reserve : Nat := 0
  /-- Kinds whose first lasting fault is in the Root log since DEPLOYED (R103). -/
  marks : List (Nat × Nat) := []
  /-- The first TIME_ANCHOR since DEPLOYED is in the Root log (R524). -/
  anchorMarked : Bool := false
  /-- The highest accepted version (R567). -/
  highVer : Nat := 0
  /-- The mark of an open update write window (R575). -/
  mark : Bool := false
  deriving DecidableEq, Repr

/-- The state of the block: the commands that wait, the non-volatile part and the module. -/
structure State where
  pending : List Instr := []
  nv : NonVol := {}
  m : Module := {}
  deriving DecidableEq, Repr

/-- The machine right after reset (R33): in module reset with VAUX absent, every register at its
reset value, every output in its default state, nothing listed in memory. -/
def State.reset : State := {}

end Sys2Proof.Machine
end

