-- ==== Sys2Proof/Machine/Tables.lean ====
section
/-! DEFINITION. The tables behind the table windows (R80): their sizes on the FH9640, the access,
effect and reset value of each word, the resources of each part (R3, R4) and the presence of
pages and table words (R2). -/

namespace Sys2Proof.Machine

/-! ### Resources of a part (R3, R4) -/

def nClusters (part : Nat) : Nat := if part = 0x9640 then 4 else 2
def nPhases (part : Nat) : Nat := if part = 0x9640 then 48 else if part = 0x9624 then 24 else 12
def nRails (part : Nat) : Nat := if part = 0x9640 then 12 else if part = 0x9624 then 6 else 4
def nBanks (part : Nat) : Nat := if part = 0x9640 then 32 else if part = 0x9624 then 16 else 8
def nFeeds (part : Nat) : Nat := if part = 0x9640 then 8 else 4
def nLanes (part : Nat) : Nat := if part = 0x9640 then 4 else 2
def nStrings (part : Nat) : Nat := if part = 0x9640 then 8 else if part = 0x9624 then 4 else 2
def nGin (part : Nat) : Nat := if part = 0x9640 then 4 else if part = 0x9624 then 2 else 0
def nIds (part : Nat) : Nat := 32 + nRails part

/-- Converter channel `c` is present on the part (R153). -/
def chanPresent (part c : Nat) : Bool :=
  c < nPhases part || (48 ≤ c && c < 48 + nRails part) || (60 ≤ c && c < 60 + nGin part)

/-- A register that belongs to an absent resource of a present page (R2): the GIN registers of
absent channels. -/
def regAbsent (part : Nat) (b : Blk) (off : Nat) : Bool :=
  match b with
  | .adccal => (0x44 ≤ off && off < 0x74 && decide (nGin part ≤ (off - 0x44) / 4 % 4))
      || (off = 0x74 && decide (nGin part = 0)) || (off = 0x78 && decide (nGin part ≤ 2))
  | _ => false

/-- The bits of a register's fields that the part has (R2): of a present register, those of absent rails,
GIN channels and feed channels read 0 and ignore writes. -/
def partBits (part : Nat) (b : Blk) (off : Nat) : Nat :=
  match b with
  | .adccal =>
    if off = 0x74 || off = 0x78 then
      let i := (off - 0x74) / 4 * 2
      (if i < nGin part then 2 ^ nRails part - 1 else 0)
        + (if i + 1 < nGin part then (2 ^ nRails part - 1) * 2 ^ 12 else 0)
    else if off = 0x10 then
      0xFFF00FFF + (2 ^ nGin part - 1) * 2 ^ 12 + (2 ^ nGin part - 1) * 2 ^ 16
    else 0xFFFFFFFF
  | .seq => if 0x68 ≤ off && off < 0xA8 && off % 8 = 4 then 2 ^ nRails part - 1 else 0xFFFFFFFF
  | .xing => if off = 0x20 then 0xFFFF00FF + (2 ^ nFeeds part - 1) * 2 ^ 8 else 0xFFFFFFFF
  | .cap => if off = 0x2C && part = 0x9612 then 0xFFFFFFFC else 0xFFFFFFFF
  | _ => 0xFFFFFFFF

/-- Bits that the part fixes at 1: on the FH9612 SRC of CAP.EST_CFG reads 1 and ignores writes (R281). -/
def partFixed (part : Nat) (b : Blk) (off : Nat) : Nat :=
  if part = 0x9612 && b = .cap && off = 0x2C then 1 else 0

/-- The page exists on the part (R2, R3, R4). -/
def pagePresent (part p : Nat) : Bool :=
  match blkOf p with
  | none => false
  | some (.phase, n) => decide (n < nPhases part)
  | some (.rail, r) => decide (r < nRails part)
  | some (.feed, c) => decide (c < nFeeds part)
  | some (.batt, b) => decide (b < nStrings part)
  | some _ => true

/-- A word of a table: its access, effect, reset value and the bits that a write reaches. -/
structure TRow where
  acc : Acc
  eff : Eff
  rst : Nat
  mask : Nat := 0xFFFFFFFF
  deriving DecidableEq, Repr

/-- A read-only table word that resets to 0. -/
def roWord : TRow := ⟨.ro, .now, 0, 0⟩

/-- An RWP table word with a reset value, in a COMMIT group. -/
def pairWord (e : Eff) (x : Nat) : TRow := ⟨.rwp, e, x * 0x10000 + (0xFFFF - x), 0xFFFFFFFF⟩

/-- An RWP table word that resets to 0 and of whose value half only the bits of `mask` exist. -/
def pairBits (e : Eff) (mask : Nat) : TRow := ⟨.rwp, e, 0xFFFF, mask * 0x10000⟩

/-- Fixed bindings of the privileged channels (R504): word k of MBOX table 8. -/
def bindReset (c : Nat) : Nat :=
  let x := if c = 0 then 0x81 else if c = 1 then 0x82 else if c = 2 then 0x18
    else if c = 3 then 0x28 else 0xFF
  x * 0x10000 + (0xFFFF - x)

/-- The tasks' periods (R108) and fallback codes (R117, R140) by task ID: word 0 of the task
table. -/
def taskWord0 (t : Nat) : Nat :=
  0xFF000000 + [0x060000, 0x060100, 0x060200, 0x060300, 0x060300, 0x060400, 0x090300, 0x090300,
    0x090500, 0x090600, 0x090100, 0x090700].getD t 0

/-- The words of each table: the row of word `i` of table `t`, none beyond the table's size on
the FH9640 (R80). `n` is the page's instance. -/
def tblRow (b : Blk) (n t i : Nat) : Option TRow :=
  match b, t with
  | .sys, 0 => if i < 17 then some roWord else none
  | .integ, 0 => if i < 256 then some roWord else none
  | .sched, 0 => if i < 24 then some ⟨.ro, .now, if i % 2 = 0 then taskWord0 (i / 2) else 0, 0⟩ else none
  | .place, 0 => if i < 4096 then some roWord else none
  | .place, 1 => if i < 65536 then some roWord else none
  | .place, 2 => if i < 65536 then some roWord else none
  | .place, 3 => if i < 128 then some roWord else none
  | .rail, 0 => if i = 0 then some roWord else if i < 48 then some (pairWord (.group 2) 0) else none
  | .rail, 1 => if i = 0 then some roWord else if i < 48 then some (pairWord (.group 2) 0) else none
  | .rail, 2 => if i < 48 then some roWord else none
  | .cle, 0 =>
    if 96 ≤ i then none
    else if i % 8 = 7 then some roWord
    else if i % 8 = 4 then some (pairBits (.group (i / 8)) 0x0777)
    else some (pairWord (.group (i / 8)) (if i % 8 = 5 then 0x7FFF else 0))
  | .cle, 1 =>
    if 48 ≤ i then none
    else if i % 4 = 2 then some (pairBits (.group (i / 4)) 0x0077)
    else some (pairWord (.group (i / 4)) (if i % 4 = 3 then 0x0333 else 0))
  | .cle, 2 =>
    if 96 ≤ i then none
    else if 6 ≤ i % 8 then some roWord
    else if i % 8 = 2 then some (pairBits (.group (i / 8)) 0x0077)
    else some (pairWord (.group (i / 8)) (if i % 8 = 3 then 0x7333 else 0))
  | .cle, 3 => if i < 512 then some roWord else none
  | .trace, 0 => if i < 16384 then some roWord else none
  | .adccal, 0 => if i < 65 then some roWord else none
  | .adccal, 1 => if i < 32 then some roWord else none
  | .adccal, 2 =>
    if i < 64 then some (pairWord .live (if i % 2 = 0 then 0xFFFF else 0)) else none
  | .epe, 0 =>
    if 1024 ≤ i then none
    else if i % 16 = 0 then some ⟨.rw, .group 0, 0x0000FF00, 0x0F3FFF03⟩
    else if i % 16 = 3 then some (pairWord (.group 0) 0xFFFF)
    else if i % 16 = 4 then some (pairWord (.group 0) 0x7F00)
    else if i % 16 < 6 then some (pairWord (.group 0) 0)
    else if i % 16 < 14 then some ⟨.rw, .group 0, 0xFFFFFFFF, 0xFFFFFFFF⟩
    else some roWord
  | .epe, 1 =>
    if 96 ≤ i then none
    else if i % 2 = 0 then some ⟨.rw, .group 0, 0, 0x8F⟩ else some roWord
  | .epe, 2 => if i < 8 then some roWord else none
  | .grove, 0 => if i < 256 then some roWord else none
  | .grove, 1 => if i < 256 then some roWord else none
  | .seq, 0 =>
    if i < 32 then some ⟨.rw, .stop, 0x020A000A, 0xF7FFFFFF⟩
    else if i < 44 then some ⟨.rw, .stop, 0x020A0000, 0x03FF0000⟩
    else none
  | .seqtbl, 0 =>
    if 256 ≤ i then none else if i % 4 = 3 then some roWord
    else if i % 4 = 0 then some (pairBits (.group 0) 0xFE3F) else some (pairWord (.group 0) 0)
  | .seqtbl, 1 =>
    if 256 ≤ i then none else if i % 4 = 3 then some roWord
    else if i % 4 = 0 then some (pairBits (.group 1) 0xFE3F) else some (pairWord (.group 1) 0)
  | .batt, 0 => if i < 96 then some (pairWord (.group 0) 0) else none
  | .batt, 1 => if i < 8 then some roWord else none
  | .therm, 0 =>
    if 64 ≤ i then none
    else if i % 4 = 0 then some ⟨.rw, .stop, 0, 0x3⟩
    else if i % 4 = 1 then some ⟨.rw, .stop, 0, 0xFFFFFFFF⟩
    else if i % 4 = 2 then some (pairWord .live 0x7F7F)
    else some ⟨.rw, .live, 0, 0xFFFFFFFF⟩
  | .therm, 1 => if i < 32 then some roWord else none
  | .therm, 2 => if i < 32 then some ⟨.ro, .now, if i % 2 = 1 then 1 else 0, 0⟩ else none
  | .netpair, 0 => if i < 1024 then some roWord else none
  | .benuf, 0 => if i < 256 then some roWord else none
  | .benuf, 1 => if i < 16 then some roWord else none
  | .twc, 0 =>
    if 64 ≤ i then none
    else if i % 4 = 0 then some ⟨.rw, .group 0, 0, 0x7F0F0FFF⟩
    else if i % 4 = 1 then some ⟨.rw, .group 0, 0, 0xFFFF⟩
    else some roWord
  | .twc, 1 => if i < 64 then some roWord else none
  | .mem, 0 => if i < 512 then some roWord else none
  | .mem, 1 => if i < 320 then some roWord else none
  | .mem, 2 => if i < 80 then some ⟨.ro, .now, 4, 0⟩ else none
  | .mbox, 8 => if i < 8 then some ⟨.rwp, .now, bindReset (8 * n + i), 0x00FF0000⟩ else none
  | .mbox, t => if t < 8 ∧ i < 16 then some ⟨.rw, .now, 0, 0xFFFFFFFF⟩ else none
  | .recd, 0 => if i < 8192 then some roWord else none
  | .recd, 1 => if i < 2048 then some roWord else none
  | .update, 0 => if i < 128 then some roWord else none
  | .update, 1 => if i < 64 then some roWord else none
  | _, _ => none

/-- The table word belongs to a resource that is absent from the part (R2, R80). -/
def tblAbsent (part : Nat) (b : Blk) (t i : Nat) : Bool :=
  match b, t with
  | .rail, _ => decide (nPhases part ≤ i)
  | .cle, 0 => decide (nRails part ≤ i / 8)
  | .cle, 1 => decide (nRails part ≤ i / 4)
  | .cle, 2 => decide (nRails part ≤ i / 8)
  | .cle, 3 => decide (nLanes part ≤ i / 128)
  | .place, 3 => decide (nLanes part ≤ i / 32)
  | .adccal, 0 => decide (i < 64) && !chanPresent part i
  | .epe, 0 => decide (32 ≤ i / 16 ∧ i / 16 < 40 ∧ 32 + nStrings part ≤ i / 16
      ∨ 40 ≤ i / 16 ∧ i / 16 < 52 ∧ 40 + nRails part ≤ i / 16)
  | .epe, 1 => decide (nPhases part ≤ i / 2)
  | .epe, 2 => decide (nStrings part ≤ i)
  | .seq, 0 => decide (nIds part ≤ i)
  | .mem, 1 => decide (nBanks part ≤ i / 4 ∧ i / 4 < 32 ∨ 48 + nClusters part ≤ i / 4 ∧ i / 4 < 52
      ∨ 53 ≤ i / 4 ∧ i / 4 < 64)
  | .mem, 2 => decide (nBanks part ≤ i ∧ i < 32 ∨ 48 + nClusters part ≤ i ∧ i < 52 ∨ 53 ≤ i ∧ i < 64)
  | _, _ => false

/-- The key of a register (R69). -/
def rkey (p off : Nat) : Nat := p * 256 + off

/-- The key of word `i` of table `t` of page `p`, above every register's key. -/
def tkey (p t i : Nat) : Nat := 65536 * (1 + 16 * p + t) + i

/-- The PAGE_ID of a page (R72, R75). -/
def pageId (p : Nat) : W32 :=
  match blkOf p with
  | some (b, n) => BitVec.ofNat 32 (blkType b * 2 ^ 24 + n * 2 ^ 16 + 0x100 + blkPages b)
  | none => 0

/-- The value of a register or table word after a module reset (R9). -/
def resetVal (k : Nat) : W32 :=
  if k < 65536 then
    if k % 256 = 0x18 then BitVec.ofNat 32 (fltWinReset (k / 256))
    else match blkOf (k / 256) with
      | some (b, _) =>
        match rowOf b (k % 256) with
        | some r => BitVec.ofNat 32 r.rst
        | none => 0
      | none => 0
  else
    match blkOf ((k / 65536 - 1) / 16) with
    | some (b, n) =>
      match tblRow b n ((k / 65536 - 1) % 16) (k % 65536) with
      | some r => BitVec.ofNat 32 r.rst
      | none => 0
    | none => 0

end Sys2Proof.Machine
end

