-- ==== Sys2Proof/Machine/Regs.lean ====
section
/-! DEFINITION. Reading and writing the register file of the module: shadow and in-force values,
fields, complement pairs, table words, and the view that a read returns (R6, R74 to R79). -/

namespace Sys2Proof.Machine

/-- The page of instance `n` of a block. -/
def pgOf (base n : Nat) : Nat := base + n

/-- The page `p` owns key `k`. -/
def pageOfKey (k : Nat) : Nat := if k < 65536 then k / 256 else (k / 65536 - 1) / 16

/-- The effect class of a key (R8). -/
def effOf (k : Nat) : Eff :=
  if k < 65536 then
    match blkOf (k / 256) with
    | some (b, _) => match rowOf b (k % 256) with | some r => r.eff | none => .now
    | none => .now
  else
    match blkOf (pageOfKey k) with
    | some (b, n) =>
      match tblRow b n ((k / 65536 - 1) % 16) (k % 65536) with | some r => r.eff | none => .now
    | none => .now

/-- Key `k` belongs to group `g` of page `p`. -/
def inGroup (p g k : Nat) : Bool := pageOfKey k = p && effOf k = .group g

namespace Module

/-! ### The shadow: what reads return -/

/-- Key `k` of the register file. -/
def key (m : Module) (k : Nat) : W32 := getK resetVal m.regs k

/-- The module with key `k` put to `v`, in the shadow only. -/
def setKey (m : Module) (k : Nat) (v : W32) : Module := { m with regs := putK m.regs k v }

/-- A register. -/
def reg (m : Module) (p off : Nat) : W32 := m.key (rkey p off)

/-- The module with a register put to `v`. -/
def setReg (m : Module) (p off : Nat) (v : W32) : Module := m.setKey (rkey p off) v

/-- A field of a register. -/
def get (m : Module) (p : Nat) (f : Fld) : Nat := bits (m.reg p f.off) f.lo f.w

/-- A field read as two's complement. -/
def getI (m : Module) (p : Nat) (f : Fld) : Int := sext f.w (m.get p f)

/-- The module with a field put to `x`. -/
def put (m : Module) (p : Nat) (f : Fld) (x : Nat) : Module :=
  m.setReg p f.off (setBits (m.reg p f.off) f.lo f.w x)

/-- The module with a field put to an integer, saturating. -/
def putI (m : Module) (p : Nat) (f : Fld) (x : Int) : Module := m.put p f (wrapInt f.w (satInt f.w x))

/-- A table word. -/
def tbl (m : Module) (p t i : Nat) : W32 := m.key (tkey p t i)

/-- The module with a table word put to `v`. -/
def setTbl (m : Module) (p t i : Nat) (v : W32) : Module := m.setKey (tkey p t i) v

/-- A field counted up by `n`, saturating. -/
def count (m : Module) (p : Nat) (f : Fld) (n : Nat) : Module := m.put p f (satAdd f.w (m.get p f) n)

/-- A whole 32-bit counter register counted up by `n`, saturating. -/
def countReg (m : Module) (p off n : Nat) : Module :=
  m.setReg p off (BitVec.ofNat 32 (satAdd 32 (m.reg p off).toNat n))

/-! ### The values in force (R83, R85) -/

/-- The value in force of a key. -/
def liveKey (m : Module) (k : Nat) : W32 := getK resetVal m.live k

/-- The value in force of a register. -/
def liveReg (m : Module) (p off : Nat) : W32 := m.liveKey (rkey p off)

/-- A field of a register in force. -/
def cfg (m : Module) (p : Nat) (f : Fld) : Nat := bits (m.liveReg p f.off) f.lo f.w

/-- A flag in force. -/
def flag (m : Module) (p : Nat) (f : Fld) : Bool := m.cfg p f ≠ 0

/-- The pair that a consumer uses: the one in force, or the last good one on a mismatch (R94). -/
def pairKey (m : Module) (k : Nat) : W32 :=
  if pairOk (m.liveKey k) then m.liveKey k else getK resetVal m.good k

/-- The 16-bit value of a pair register in use. -/
def val (m : Module) (p off : Nat) : Nat := bits (m.pairKey (rkey p off)) 16 16

/-- The 16-bit value of a pair register in use, signed. -/
def valI (m : Module) (p off : Nat) : Int := sext 16 (m.val p off)

/-- The 32-bit value of two adjacent pair registers in use (R90). -/
def val32 (m : Module) (p off : Nat) : Nat := m.val p off * 65536 + m.val p (off + 4)

/-- A field of a pair register in use, by its bits in the register. -/
def valF (m : Module) (p : Nat) (f : Fld) : Nat := bits (m.pairKey (rkey p f.off)) f.lo f.w

/-- The word in force of a table. -/
def tblLive (m : Module) (p t i : Nat) : W32 := m.liveKey (tkey p t i)

/-- The 16-bit value in use of a table word that is a pair. -/
def tblVal (m : Module) (p t i : Nat) : Nat := bits (m.pairKey (tkey p t i)) 16 16

/-- The same, signed. -/
def tblValI (m : Module) (p t i : Nat) : Int := sext 16 (m.tblVal p t i)

/-- A value goes into force. -/
def force (m : Module) (k : Nat) (v : W32) : Module := { m with live := putK m.live k v }

/-- A value goes into the shadow and into force at once. -/
def setBoth (m : Module) (k : Nat) (v : W32) : Module := (m.setKey k v).force k v

/-! ### Common header state -/

/-- CTRL.EN of a page in force (R76). -/
def en (m : Module) (p : Nat) : Bool :=
  match blkOf p with
  | some (b, _) => alwaysOn b || bit (m.reg p CTRL) 0
  | none => false

/-- The block runs (R77). A rail runs in every state but OFF; a string, the grove unit and the Crossing
logic once their start was not refused. -/
def running (m : Module) (p : Nat) : Bool :=
  match blkOf p with
  | some (.rail, _) => m.get p RAIL_STATUS_STATE ≠ 0
  | some (.batt, b) => match m.bt[b]? with | some x => x.run | none => false
  | some (.grove, _) => m.gr.run
  | some (.xing, _) => m.xg.run
  | some (.sched, _) => m.sched.run
  | some (.feed, _) => m.get p FEED_STATUS_STATE ≠ 0
  | _ => m.en p

/-- STAT (R77): the block's own bits from 8, RUN, PEND, CPEND and LOCKED. -/
def stat (m : Module) (p : Nat) : W32 :=
  BitVec.ofNat 32
    ((m.reg p STAT).toNat / 256 * 256
      + (if m.running p then 1 else 0)
      + (if m.unc.any (fun k => pageOfKey k = p) then 2 else 0)
      + (if m.pend.any (fun k => pageOfKey k = p) || m.snap.any (fun kv => pageOfKey kv.1 = p)
          || m.winWait.any (fun kv => pageOfKey kv.1 = p)
         then 4 else 0)
      + (if bit (m.reg p LOCK) 0 then 8 else 0))

end Module

end Sys2Proof.Machine
end

