-- ==== Sys2Proof/Machine/Views.lean ====
section
/-! DEFINITION. What reads return (R6, R74 to R79), with the registers that are views of the state:
interrupt summaries, cluster states and loads, task costs, waiting coefficient sets. -/

namespace Sys2Proof.Machine

/-! ### Periods and load (R108, R121) -/

/-- The period of a code in µs (R108). -/
def periodUs (c : Nat) : Nat :=
  [10, 20, 50, 100, 200, 500, 1000, 2000, 5000, 10000, 20000, 50000, 100000, 200000, 500000, 1000000,
    10000000].getD c 1000

namespace Module

/-- The task of an ID. -/
def task (m : Module) (t : Nat) : Task := nth {} m.sched.tasks t

/-- Period code of a task (R108, R117): the EPE period for tasks 0 and 1; MGMT runs at 10 ms in its
fallback SLOW. -/
def taskPer (m : Module) (t : Nat) : Nat :=
  if t < 2 then m.cfg pgEpe EPE_CFG_PERIOD
  else if t < 6 then if t = 5 && (m.task 5).fallback then 9 else 6
  else 9

/-- High-water time of a task in CORE cycles (R121). -/
def taskHw (m : Module) (t : Nat) : Nat := (m.task t).hw.foldl max 0

/-- Cost of a task in µs (R121): 400 CORE cycles make 1 µs. -/
def taskCost (m : Module) (t : Nat) : Nat := max (m.task t).decl (ceilDiv (5 * m.taskHw t) 1600)

/-- Utilisation of a task in units of 10^−7 (R121). -/
def taskUtil (m : Module) (t : Nat) : Nat := m.taskCost t * (10000000 / periodUs (m.taskPer t))

/-- Load of a cluster in units of 10^−7 (R121); a task that moves counts on both (R126). -/
def cluLoad (m : Module) (c : Nat) : Nat :=
  sumN (((List.range 12).filter (fun t => (m.task t).owner = c || (m.task t).next = some c)).map
    m.taskUtil)

/-- The cluster owns or receives a task. -/
def cluBusy (m : Module) (c : Nat) : Bool :=
  (List.range 12).any (fun t => (m.task t).owner = c || (m.task t).next = some c)

/-- State of a cluster as CLU_STAT reports it (R143). -/
def cluState (m : Module) (c : Nat) : Nat :=
  if nClusters m.sys.part ≤ c then 5
  else
    let x := nth 0 m.sched.clu c
    if x ≠ 0 then x else if m.cluBusy c then 0 else 1

/-- PLACE.CLU_STAT (R143). -/
def cluStat (m : Module) : W32 :=
  BitVec.ofNat 32 (sumN ((List.range 4).map (fun c => m.cluState c * 2 ^ (8 * c))))

/-- PLACE.CLU_LOAD (R143). -/
def cluLoads (m : Module) : W32 :=
  BitVec.ofNat 32 (sumN ((List.range 4).map (fun c => min 255 (m.cluLoad c / 100000) * 2 ^ (8 * c))))

/-- TASK_COST of a task (R141). The utilisation is rounded down and saturates, the high-water time is
rounded up to 1 µs: the spec states neither (DESIGN CHOICE, log entry 133). -/
def taskCostReg (m : Module) (t : Nat) : W32 :=
  BitVec.ofNat 32 (min 65535 (m.taskUtil t / 10000) * 65536 + min 65535 (ceilDiv (m.taskHw t) 400))

/-- State of a task as its table word reports it (R140). Where several hold the spec states no order: FALLBACK
comes first, then MOVING, WATCHED, RUNNING (DESIGN CHOICE, log entry 134). -/
def taskState (m : Module) (t : Nat) : Nat :=
  let x := m.task t
  if x.fallback then 4 else if x.next.isSome then 2 else if x.watched then 3
  else if x.started then 1 else 0

/-- Word `i` of the task table (R140). -/
def taskWord (m : Module) (i : Nat) : W32 :=
  let t := i / 2
  if i % 2 = 0 then
    BitVec.ofNat 32 ((m.task t).owner % 256 * 2 ^ 24 + m.taskPer t * 2 ^ 16
      + taskWord0 t % 65536 / 256 * 256 + m.taskState t)
  else
    BitVec.ofNat 32 (min 65535 (m.task t).decl * 65536
      + min 255 (match m.ctrs.find? (fun c => c.page = pgSched && c.fbit = 8 + t) with
        | some c => sumN c.buckets | none => 0))

/-! ### Reads -/

/-- A channel of the MBOX page whose receiver is the host over TWT is FULL (R510). -/
def hostFull (m : Module) (p : Nat) : Bool :=
  pgMbox ≤ p && p < pgMbox + 4 && (List.range 8).any (fun k =>
    bits (m.tbl p 8 k) 20 4 = 1 && m.get p ⟨MBOX_ACK_L0 + 12 * k, 16, 4⟩ = 1)

/-- The page asserts HOST_IRQ_n (R78, R510). -/
def pageIrq (m : Module) (p : Nat) : Bool :=
  pagePresent m.sys.part p && ((m.reg p EVT_RAW &&& m.reg p EVT_EN) ≠ 0 || m.hostFull p)

/-- The pages of R72, rising. -/
def pages : List Nat :=
  [0x00, 0x01, 0x02, 0x04, 0x05, 0x06] ++ (List.range 48).map (· + 0x10)
    ++ (List.range 12).map (· + 0x40) ++ [0x50, 0x51, 0x52, 0x53, 0x54, 0x58, 0x60, 0x61, 0x62]
    ++ (List.range 8).map (· + 0x68) ++ [0x70, 0x78, 0x79, 0x7A]
    ++ (List.range 8).map (· + 0x80) ++ [0x88, 0x90, 0x91, 0x92, 0x93, 0x94, 0xA0, 0xA1, 0xA2, 0xA3,
      0xA4, 0xB0, 0xB1, 0xB8, 0xB9, 0xBA, 0xBB, 0xC0, 0xC8, 0xC9, 0xD0]

/-- IRQ_SUM register `i` (R106). -/
def irqSum (m : Module) (i : Nat) : W32 :=
  BitVec.ofNat 32 (sumN ((pages.filter (fun p => p / 32 = i && m.pageIrq p)).map (fun p => 2 ^ (p % 32))))

/-- HOST_IRQ_n is asserted: in service by an event (R78), and in Sapling (R56). -/
def hostIrq (m : Module) : Bool :=
  (m.sys.pwr = .run || m.sys.pwr = .ride)
    && ((m.get pgSys SYS_STATUS_PHASE = 4 && pages.any m.pageIrq) || m.get pgSys SYS_STATUS_PHASE = 5)

/-- Rails with a committed coefficient set that waits (R238). -/
def clePend (m : Module) : W32 :=
  BitVec.ofNat 32 (sumN (((List.range 12).filter (fun r =>
    m.snap.any (fun kv => inGroup pgCle r kv.1))).map (2 ^ ·)))

/-- STATUS of a trace unit with SRC_OFF (R233). -/
def traceStat (m : Module) (p : Nat) : W32 :=
  let off := m.get (pgRail + m.cfg p TRACE_CFG_SRC_RAIL) RAIL_STATUS_STATE = 0
  if m.en p && off then setBit (m.reg p TRACE_STATUS) 9 else m.reg p TRACE_STATUS

/-- MRAM writes are held: by temperature (R381) or because the NVM clock is lost (R19). -/
def mramHeld (m : Module) : Bool := m.get pgTherm THERM_RANGE_MRAM_HOLD = 1 || m.clk.lost.contains 7

/-- REC.STATUS (R538): DRAINING while records wait in the stage and may be written. -/
def recStat (m : Module) : W32 :=
  let dest := (m.liveReg pgBenuf BENUF_REC_DEST_H).toNat + bits (m.liveReg pgBenuf BENUF_REC_DEST_L) 16 16
  let v := m.reg pgRec REC_STATUS
  let v := setBits v 0 1 (if m.sys.scanDone then 1 else 0)
  let v := setBits v 1 1 (if m.mramHeld then 1 else 0)
  let v := setBits v 2 1 (if m.flag pgRec REC_CFG_STREAM_EN && dest ≠ 0 then 1 else 0)
  setBits v 4 1 (if m.sys.scanDone && !m.mramHeld && !m.rc.stage.isEmpty then 1 else 0)

/-- What a read of a register returns, without the latches and pops of the ports that have them
(R6, R71, R529). -/
def peek (m : Module) (p off : Nat) : W32 :=
  if !pagePresent m.sys.part p then 0 else
  match blkOf p with
  | none => 0
  | some (b, _) =>
    match rowOf b off with
    | none => 0
    | some row =>
      if row.acc = .wo || regAbsent m.sys.part b off then 0
      else if off = PAGE_ID then pageId p
      else if off = CTRL then if alwaysOn b then m.reg p CTRL ||| 1 else m.reg p CTRL
      else if off = STAT then m.stat p
      else if p = pgCle ∧ off = CLE_CPEND then m.clePend
      else if b = .trace ∧ off = TRACE_STATUS then m.traceStat p
      else if p = pgPlace ∧ off = PLACE_CLU_STAT then m.cluStat
      else if p = pgPlace ∧ off = PLACE_CLU_LOAD then m.cluLoads
      else if b = .sched1 ∧ 0x20 ≤ off then m.taskCostReg ((off - 0x20) / 4)
      else if p = pgInteg ∧ INTEG_IRQ_SUM0 ≤ off then m.irqSum ((off - INTEG_IRQ_SUM0) / 4)
      else if p = pgRec ∧ off = REC_STATUS then m.recStat
      else if p = pgRec ∧ off = REC_OPTIME_H then BitVec.ofNat 32 (m.rc.optime / 2 ^ 32 % 1024)
      else m.reg p off

/-- The current value of the point with declaration index `i` (R133, R580). -/
def pointVal (m : Module) (i : Nat) : W32 :=
  match m.sched.points[i]? with
  | some a => m.peek (a / 256) (a % 256)
  | none => 0

end Module

end Sys2Proof.Machine
end

