-- ==== Sys2Proof/Machine/Ops.lean ====
section
/-! DEFINITION. The operations that every unit shares: raising events, making records, counting and
latching faults, pairs at the point of use, boundaries and COMMIT groups. -/

namespace Sys2Proof.Machine

/-! ### Records (R517 to R529) -/

/-- The 64 bytes of a record (R517). -/
def recBytes (r : Rec) : List Byte :=
  let body := toBytes 6 r.seq ++ toBytes 6 (r.optime * 64 + r.flags % 64) ++ toBytes 3 r.pcc
    ++ toBytes 1 r.len ++ toBytes 2 r.typ ++ toBytes 2 r.src
    ++ (r.payload ++ rep 40 0).take 40
  body ++ toBytes 4 (crc32c body)

/-- A critical record (R523). -/
def recCritical (typ : Nat) : Bool :=
  typ = 0x0101 || (2 ≤ typ && typ ≤ 5) || typ = 0x0300 || typ = 0x0301

/-- Whether a stage of `n` records accepts a record of a type (R523). -/
def recAccepts (n typ : Nat) : Bool := n < 1008 || (n < 1024 && recCritical typ)

/-- The offsets of the context words of a page (R529): its first seven RO registers from 0x20 on,
data ports left out. -/
def ctxOffsets (b : Blk) : List Nat :=
  (((blkRows b).filter (fun r => r.acc = .ro && 0x20 ≤ r.off
      && !(r.off = TBL_DATA && (tblRow b 0 0 0).isSome) && !(b = .recd && r.off = REC_RD_DATA))).map
    (·.off)).take 7

/-- A write of module state reaches the MRAM. -/
def nvApply (nv : NonVol) : NvWr → NonVol
  | .wear l => { nv with wear := l }
  | .optime t => { nv with optime := t }
  | .remap u sp row => { nv with remap := nv.remap ++ [(u, sp, row)] }

namespace Module

/-- A free value of place `k`, and the module after drawing it. -/
def draw (m : Module) (k : Nat) : Nat × Module :=
  (Config.free k m.nfree, { m with nfree := m.nfree + 1 })

/-- An event bit of a page is set (R78). -/
def raise (m : Module) (p b : Nat) : Module := m.setReg p EVT_RAW (setBit (m.reg p EVT_RAW) b)

/-! ### Boundaries (R83, R85) -/

/-- The waiting Live writes that `sel` picks go into force. -/
def applyPend (m : Module) (sel : Nat → Bool) : Module :=
  let ks := m.pend.filter sel
  let m' := ks.foldl (fun x k => x.force k (m.key k)) m
  { m' with pend := m.pend.filter (fun k => !sel k) }

/-- The committed snapshots that `sel` picks go into force. -/
def applySnap (m : Module) (sel : Nat → Bool) : Module :=
  let m' := (m.snap.filter (fun kv => sel kv.1)).foldl (fun x kv => x.force kv.1 kv.2) m
  { m' with snap := m.snap.filter (fun kv => !sel kv.1) }

/-- A boundary of page `p`: its waiting writes and snapshots apply. -/
def boundary (m : Module) (p : Nat) : Module :=
  let sel := fun k => decide (pageOfKey k = p)
  (m.applyPend sel).applySnap sel

/-! ### Records (R523) -/

/-- Records that the stage holds. -/
def staged (m : Module) : Nat := m.rc.stage.length + m.rc.early.length

/-- REC.STAGE follows the occupancy (R537). -/
def recStageReg (m : Module) : Module :=
  let m := m.put pgRec ⟨REC_STAGE, 0, 11⟩ m.staged
  m.put pgRec ⟨REC_STAGE, 16, 11⟩ (max (m.get pgRec ⟨REC_STAGE, 16, 11⟩) m.staged)

/-- The record with its header fields as the module stands. -/
def recHeader (m : Module) (typ src len flags : Nat) (payload : List Byte) (mark : Bool) : Rec :=
  { seq := m.rc.next, optime := m.rc.optime,
    flags := flags + (if m.rc.pcc = 0xFFFFFF then 2 else 0)
      + (if m.get pgPtp PTP_STATUS_LOCKED = 1 then 16 else 0),
    pcc := m.rc.pcc, len := len, typ := typ, src := src, payload := payload, mark := mark }

/-- A record takes its number and enters the stage (R523). -/
def recPush (m : Module) (r : Rec) : Module :=
  let m := { m with rc := { m.rc with stage := m.rc.stage ++ [{ r with seq := m.rc.next }],
                                      next := m.rc.next + 1 } }
  let m := m.setReg pgRec REC_NEWEST_H (BitVec.ofNat 32 ((m.rc.next - 1) / 2 ^ 32))
  (m.setReg pgRec REC_NEWEST_L (BitVec.ofNat 32 (m.rc.next - 1))).recStageReg

/-- A record is dropped and counted; LOST is raised once per burst (R523). -/
def recLost (m : Module) (typ : Nat) : Module :=
  let m := if m.rc.lost = 0 then m.raise pgRec REC_EV_LOST else m
  let m := m.countReg pgRec REC_LOST_CNT 1
  { m with rc := { m.rc with lost := m.rc.lost + 1,
                             lostCrit := m.rc.lostCrit + (if recCritical typ then 1 else 0) } }

/-- A record is made, and CFG of the recorder applies (R538): it enters the stage, waits for START, or is dropped (R523, R541). -/
def recMake (m : Module) (typ src len flags : Nat) (payload : List Byte) (mark : Bool) : Module :=
  let m := m.boundary pgRec
  if recAccepts m.staged typ then
    let r := m.recHeader typ src len flags payload mark
    if m.rc.started then m.recPush r
    else { m with rc := { m.rc with early := m.rc.early ++ [r] } }.recStageReg
  else m.recLost typ

/-- The context words of a page (R529). -/
def ctxWords (m : Module) (p : Nat) : List W32 :=
  match blkOf p with
  | some (b, _) => (ctxOffsets b).map (m.peek p)
  | none => []

/-- The counter block of a source, empty when it has counted nothing. -/
def ctr (m : Module) (p b sub win : Nat) : Ctr :=
  match m.ctrs.find? (fun c => c.page = p && c.fbit = b && c.sub = sub) with
  | some c => c
  | none => ⟨p, b, sub, win, rep 8 0, none, 9⟩

/-- Bytes 8 to 11 of a fault record: the count, THR and window code of its counter block (R529). -/
def ctrWord (m : Module) (p b sub : Nat) : W32 :=
  match m.ctrs.find? (fun c => c.page = p && c.fbit = b && c.sub = sub) with
  | some c =>
    BitVec.ofNat 32 (min 255 (sumN c.buckets) * 2 ^ 24
      + bits (getK resetVal m.live c.win) 24 8 * 2 ^ 16
      + bits (getK resetVal m.live c.win) 16 8 * 2 ^ 8)
  | none => 0

/-- A fault or event record of a page (R529): type, mask, counter word and context. -/
def recFault (m : Module) (typ p b sub : Nat) (mark : Bool) : Module :=
  let ctx := m.ctxWords p
  m.recMake typ (p * 256 + b) (12 + 4 * ctx.length) 0
    (wordBytes ([BitVec.ofNat 32 (2 ^ b), m.stat p,
      if typ = 0x0200 then 0 else m.ctrWord p b sub] ++ ctx)) mark

/-- An event that its chapter states is recorded (R528). -/
def raiseRec (m : Module) (p b : Nat) : Module := (m.raise p b).recFault 0x0200 p b 0 false

/-- The first lasting fault of a kind goes to the Root log while the module is DEPLOYED or
RETURNED and the log has room (R103, R554). -/
def firstLasting (m : Module) (kind : Nat × Nat) : Bool :=
  (m.sys.life = 2 || m.sys.life = 3) && m.rc.rootUsed < 512 && !m.rc.marks.contains kind

/-- A fault latches its bit and is recorded as lasting (R103); `FAULT_LASTING` is raised. -/
def latchBit (m : Module) (p b sub : Nat) : Module :=
  let kind := ((match blkOf p with | some (k, _) => blkType k | none => 0), b)
  let mark := m.firstLasting kind
  let m := m.setReg p FLT_STAT (setBit (m.reg p FLT_STAT) b)
  let m := m.raise p EV_FAULT_LASTING
  let m := if mark then { m with rc := { m.rc with marks := m.rc.marks ++ [kind] } } else m
  m.recFault 0x0101 p b sub mark

/-- The fault bit is latched. -/
def latched (m : Module) (p b : Nat) : Bool := bit (m.reg p FLT_STAT) b

/-- A fault that latches at once, without a window; a latched one does not act again (R103). -/
def latchNow (m : Module) (p b : Nat) : Module := if m.latched p b then m else m.latchBit p b 0

/-- The counter block is replaced, or entered when it is new. -/
def putCtr (m : Module) (c : Ctr) : Module :=
  if m.ctrs.any (fun x => x.page = c.page && x.fbit = c.fbit && x.sub = c.sub) then
    { m with ctrs := m.ctrs.map (fun x =>
        if x.page = c.page && x.fbit = c.fbit && x.sub = c.sub then c else x) }
  else { m with ctrs := m.ctrs ++ [c] }

/-- The count in the window of a source (R102). -/
def inWindow (m : Module) (p b sub : Nat) : Nat := sumN (m.ctr p b sub 0).buckets

/-- The threshold in force of a window register (R100). -/
def winThr (m : Module) (win : Nat) : Nat := bits (m.pairKey win) 24 8

/-- A source's next transient fault writes a record: it has none to remember, or nine bucket boundaries,
which hold a whole window, have passed since the last one (R103). -/
def recDue (c : Ctr) : Bool := match c.since with | none => true | some n => decide (9 ≤ n)

/-- A fault is counted (R103): below the threshold it is transient, at the threshold it is lasting
and latches; the answer's flag says that the policy acts. A fault that finds its bit latched and the count
below the threshold again is recorded as transient when a record is due (DEDUCED, log entry 120). -/
def countFault (m : Module) (p b sub win : Nat) : Module × Bool :=
  let c := m.ctr p b sub win
  let c := { c with buckets := upd c.buckets 0 (satAdd 8 1), quiet := 0 }
  if sumN c.buckets < m.winThr win then
    if recDue c then
      (((m.putCtr { c with since := some 0 }).recFault 0x0100 p b sub false), false)
    else (m.putCtr c, false)
  else
    let m := m.putCtr c
    if m.latched p b then (m, false) else (m.latchBit p b sub, true)

/-- The count of a source is at the threshold of its window (R103). -/
def atThr (m : Module) (p b sub win : Nat) : Bool := decide (m.winThr win ≤ m.inWindow p b sub)

/-! ### Pairs at the point of use (R94, R95) -/

/-- A mismatch at use of the register or table word at offset `off` of a page: PAIR_USE, the INTEG
counters, and the page's counter block; the flag says that mismatches became lasting (R95). -/
def pairMiss (m : Module) (p off : Nat) : Module × Bool :=
  let m := m.raise p EV_PAIR_USE
  let m := m.count pgInteg ⟨INTEG_PAIR_ERR, 0, 16⟩ 1
  let m := m.setReg pgInteg INTEG_PAIR_LAST (BitVec.ofNat 32 (0xF1000000 + p * 256 + off))
  let w := m.tbl pgInteg 0 p
  let m := m.setTbl pgInteg 0 p (setBits (setBits w 16 16 (satAdd 16 (bits w 16 16) 1)) 0 8 off)
  m.countFault p FLT_PAIR 0 (rkey pgInteg INTEG_PAIR_WIN)

/-- A pair in force has passed its check: it is the last good value (R94). -/
def passed (m : Module) (k : Nat) : Module :=
  if getK resetVal m.good k = m.liveKey k then m else { m with good := putK m.good k (m.liveKey k) }

/-- The counting of mismatches uses PAIR_WIN, and checks it first (R94). -/
def pairUse (m : Module) (p off : Nat) : Module × Bool :=
  let k := rkey pgInteg INTEG_PAIR_WIN
  let m := if pairOk (m.liveKey k) then m.passed k else (m.pairMiss pgInteg INTEG_PAIR_WIN).1
  m.pairMiss p off

/-- The consumer checks a pair that it uses, by its key and the offset to report (R94). -/
def useKey (m : Module) (k p off : Nat) : Module :=
  if pairOk (m.liveKey k) then m.passed k else (m.pairUse p off).1

/-- The consumer checks a pair register that it uses. -/
def usePair (m : Module) (p off : Nat) : Module := m.useKey (rkey p off) p off

/-- The consumer checks the pair registers that it uses. -/
def usePairs (m : Module) (p : Nat) (offs : List Nat) : Module :=
  offs.foldl (fun m off => m.usePair p off) m

/-- The consumer checks table words that it uses; the offset recorded is that of TBL_DATA. -/
def useWords (m : Module) (p t : Nat) (is : List Nat) : Module :=
  is.foldl (fun m i => m.useKey (tkey p t i) p TBL_DATA) m

/-- A fault is counted against a window register, which is a pair that the comparison uses (R94, R103). -/
def fault (m : Module) (p b sub win : Nat) : Module × Bool :=
  (m.usePair (win / 256) (win % 256)).countFault p b sub win

/-- The counter blocks of a fault bit are emptied and forget their last transient record (R79,
R103). -/
def clearCtr (m : Module) (p b : Nat) : Module :=
  { m with ctrs := m.ctrs.filter (fun c => !(c.page = p && c.fbit = b)) }

/-- All counter blocks of a page are emptied (R105). -/
def clearCtrs (m : Module) (p : Nat) : Module :=
  { m with ctrs := m.ctrs.filter (fun c => c.page ≠ p) }

/-! ### Boundaries and COMMIT groups (R83 to R85) -/

/-- The block runs towards a boundary at which key `k` applies (R83); a rail and its coefficient
sets only while the rail takes loop samples (R204, R225), a sequence table unless the sequencer is
OFF (R322). -/
def waits (m : Module) (k : Nat) : Bool :=
  match blkOf (pageOfKey k) with
  | some (.rail, r) => let st := m.get (pgRail + r) RAIL_STATUS_STATE; st = 1 || st = 2
  | some (.cle, _) =>
    match effOf k with
    | .group r => let st := m.get (pgRail + r) RAIL_STATUS_STATE; st = 1 || st = 2
    | _ => m.en (pageOfKey k)
  | some (.seqtbl, _) => m.get pgSeq SEQ_STATUS_STATE ≠ 0
  | _ => m.en (pageOfKey k)

/-- A COMMIT of the keys `ks` of page `p` (R85): each written and uncommitted key is snapshotted;
where no boundary comes the snapshot applies at once. -/
def commit (m : Module) (p : Nat) (ks : Nat → Bool) : Module :=
  let cs := m.unc.filter ks
  let m := { m with unc := m.unc.filter (fun k => !ks k) }
  let m := cs.foldl (fun x k => { x with snap := putK x.snap k (x.key k) }) m
  m.applySnap (fun k => decide (pageOfKey k = p) && !m.waits k)

/-- The outputs are driven as in service (R56). -/
def inSapling (m : Module) : Bool := m.get pgSys SYS_STATUS_PHASE = 5
def inService (m : Module) : Bool := m.get pgSys SYS_STATUS_PHASE = 4

/-- The pins of a page's resource are driven: in service, or by the limp subset once its outputs have
been released; with no limp subset that runs they stay Z (R56, R59). -/
def drives (m : Module) (p : Nat) : Bool :=
  m.inService || (m.sys.released && m.sys.limp.contains p)

/-- An accepted write of a field takes effect by its class (R83 to R85): a Stop field or one that
acts at once goes into force; a Live field waits for the boundary, or goes into force while EN is
0; a field of a group waits for its COMMIT. The write marks it overridden (R36). -/
def applyWrite (m : Module) (k : Nat) (v : W32) : Module :=
  let m := { m.setKey k v with ovr := insKey m.ovr k, defer := m.defer.filter (fun kv => kv.1 ≠ k) }
  match effOf k with
  | .now => m.force k v
  | .stop => m.force k v
  | .live =>
    if m.waits k then { m with pend := insKey m.pend k } else m.force k v
  | .group _ => { m with unc := insKey m.unc k }

/-- EN of a page goes from 1 to 0: what waits for the boundary applies (R83). -/
def applyOnStop (m : Module) (p : Nat) : Module := m.boundary p

/-! ### Module state (R19, R381, R486) -/

/-- A word of module state is written; while MRAM writes are held it waits in RAM. -/
def nvWrite (m : Module) (nv : NonVol) (w : NvWr) : NonVol × Module :=
  if m.mramHeld then (nv, { m with mem := { m.mem with heldNv := m.mem.heldNv ++ [w] } })
  else (nvApply nv w, m)

end Module

end Sys2Proof.Machine
end

