-- ==== Sys2Proof/Machine/Phase.lean ====
section
/-! DEFINITION. Phases and rails: availability (R145), pins (R147), positions and ranks (R150,
R178), corrections and comparator thresholds (R156 to R160), bus inputs (R249), pulse starts (R149),
capacity (R197), adding, dropping, opening and removing phases (R177 to R199). -/

namespace Sys2Proof.Machine

/-! ### Phase and rail states as numbered in their STATUS (R203, R205) -/

def psOff : Nat := 0
def psInactive : Nat := 1
def psActive : Nat := 2
def psSuspect : Nat := 3
def psProbing : Nat := 4
def psOpen : Nat := 5
def psDerated : Nat := 6
def psShed : Nat := 7
def psSpare : Nat := 8
def psRemoved : Nat := 9
def psFailed : Nat := 10
def rsOff : Nat := 0
def rsSoft : Nat := 1
def rsReg : Nat := 2
def rsRetry : Nat := 3
def rsLatched : Nat := 4

/-- A phase in this state switches (R147, R198). -/
def psSwitches (s : Nat) : Bool := s = psActive || s = psSuspect || s = psProbing || s = psDerated

namespace Module

def phase (m : Module) (n : Nat) : Phase := nth {} m.ph n
def rail (m : Module) (r : Nat) : Rail := nth {} m.rl r
def updPh (m : Module) (n : Nat) (f : Phase → Phase) : Module := { m with ph := upd m.ph n f }
def updRl (m : Module) (r : Nat) (f : Rail → Rail) : Module := { m with rl := upd m.rl r f }

/-- State of a phase (R198) and of a rail (R186). -/
def phSt (m : Module) (n : Nat) : Nat := m.get (pgPhase + n) PHASE_STATUS_STATE
def rlSt (m : Module) (r : Nat) : Nat := m.get (pgRail + r) RAIL_STATUS_STATE

/-- Soft start or REGULATING: the rail takes loop samples (R204). -/
def rlRuns (m : Module) (r : Nat) : Bool := m.rlSt r = rsSoft || m.rlSt r = rsReg

/-- The rail that a phase is assigned to, 0x3F none (R144). -/
def railOf (m : Module) (n : Nat) : Nat := m.cfg (pgPhase + n) PHASE_CFG_RAIL

/-- The phases that name a rail, rising. -/
def namedBy (m : Module) (r : Nat) : List Nat :=
  (List.range (nPhases m.sys.part)).filter (fun n => m.railOf n = r)

def isSpareRole (m : Module) (n : Nat) : Bool := m.cfg (pgPhase + n) PHASE_CFG_ROLE = 1

/-- The rail `r` has a balance slot for the phase (R136, R212). -/
def placedOn (m : Module) (n r : Nat) : Bool :=
  m.cle.slots.any (fun s => s.kind = 2 && s.inst = n && s.rail = r)

/-- A spare that serves as a member (R194). -/
def spareServes (m : Module) (n : Nat) : Bool := m.get (pgPhase + n) PHASE_STATUS_SPARE_IN = 1

/-- The rail kind BIDI (R146). -/
def bidi (m : Module) (r : Nat) : Bool := m.cfg (pgRail + r) RAIL_CFG_KIND = 1

/-- The phase is available to its rail (R145); not when the rail's VSNS has failed the self-test (R544). -/
def phAvail (m : Module) (n : Nat) : Bool :=
  m.en (pgPhase + n) && m.val (pgPhase + n) PHASE_ISNS_SCALE ≠ 0
    && m.val (pgPhase + n) PHASE_ILIM_POS ≠ 0
    && !bit (m.reg pgBist BIST_PHASE_FAIL1) (16 + m.railOf n)
    && m.phSt n ≠ psFailed && m.phSt n ≠ psOpen && m.phSt n ≠ psRemoved

/-- The active phases of a rail, rising (R150). -/
def actives (m : Module) (r : Nat) : List Nat := (m.namedBy r).filter (fun n => psSwitches (m.phSt n))

/-- A GIN comparator truncates the rail (R158). -/
def ginTrunc (m : Module) (r : Nat) : Bool :=
  (List.range (nGin m.sys.part)).any (fun i =>
    nth false m.adc.ginHi i
      && bit (m.liveReg pgAdccal (if i < 2 then ADCCAL_GIN_ACT0 else ADCCAL_GIN_ACT1)) (12 * (i % 2) + r))

/-- The rail truncates for its own overshoot or for a GIN channel. -/
def truncating (m : Module) (r : Nat) : Bool := (m.rail r).trunc || m.ginTrunc r

/-- The pins of a phase in a state (R147): a phase that switches skips while its rail truncates and until
its own next pulse start after that (R166), and is tri-state from a negative-limit trip to its next pulse
start (R171); Z where the module drives none (R56, R59). -/
def pinsFor (m : Module) (n s : Nat) : Lvl × Pwm :=
  let r := m.railOf n
  if s = psFailed || !m.drives (pgPhase + n) then (.z, .z)
  else if psSwitches s then
    (.high,
      if (m.phase n).negTri then .tri
      else if m.truncating r || (m.phase n).held then
        (if m.bidi r || m.flag (pgRail + r) RAIL_CFG_OVS_ACT then .skipTri else .skipLow)
      else .switching)
  else if s = psInactive || s = psSpare then
    (if m.flag (pgPhase + n) PHASE_CFG_EN_HOLD then .high else .low, .tri)
  else (.low, .tri)

/-- The pins of a phase follow its state (R147). -/
def phPins (m : Module) (n : Nat) : Module :=
  let (e, w) := m.pinsFor n (m.phSt n)
  m.updPh n (fun x => { x with phEn := e, phPwm := w })

/-- A phase that has left the switching states: its balance loop is cleared, its duty is 0, and what
waited for it is gone (R147, R203, R221). -/
def phaseRest (x : Phase) : Phase :=
  { x with bState := 0, bTerm := 0, db := 0, bSat := 0, fresh := false, d := 0, dRel := 0, dNext := 0,
           onTaps := 0, cut := false, negTri := false, held := false, probeDue := false, probeN := 0,
           dropDue := false, dropOff := false, shedDue := false, openDue := false }

/-- A phase that starts to switch: its balance loop waits for its first pulse (R221); while the rail
truncates it starts no pulse (R200). -/
def phaseBegin (trunc : Bool) (x : Phase) : Phase :=
  { x with bState := 0, bTerm := 0, db := 0, bSat := 0, fresh := true, held := trunc }

/-- A phase enters a state: STATUS, what the state keeps of its loop and duty, and its pins (R147,
R203, R221). -/
def setPh (m : Module) (n s : Nat) : Module :=
  let was := psSwitches (m.phSt n)
  let tr := m.truncating (m.railOf n)
  let m := m.put (pgPhase + n) PHASE_STATUS_STATE s
  let m :=
    if psSwitches s then
      if was then m
      else m.updPh n (phaseBegin tr)
    else
      let m := m.updPh n phaseRest
      let m := m.put (pgPhase + n) PHASE_STATUS_IN_CBC 0
      m.put (pgPhase + n) PHASE_DUTY_D 0
  m.phPins n

/-- The phases of a rail in the order of rank: by table 2 once a solve has written it, by phase
number before (R178). -/
def rankOrder (m : Module) (r : Nat) : List Nat :=
  if bit (m.tbl (pgRail + r) 2 0) 7 then
    ((List.range 48).filter (fun i => bit (m.tbl (pgRail + r) 2 i) 7)).map
      (fun i => bits (m.tbl (pgRail + r) 2 i) 0 6)
  else m.namedBy r

/-- Position of each active phase, number of active and available phases, ranks (R150, R203,
R205). -/
def refresh (m : Module) (r : Nat) : Module :=
  let act := m.actives r
  let av := (m.namedBy r).filter m.phAvail
  let m := m.put (pgRail + r) RAIL_STATUS_N_ACTIVE act.length
  let m := m.put (pgRail + r) RAIL_STATUS_N_AVAIL av.length
  let m := (m.namedBy r).foldl
    (fun m n => m.put (pgPhase + n) PHASE_STATUS_RANK ((m.rankOrder r).idxOf n)) m
  act.foldl (fun m n => m.put (pgPhase + n) PHASE_STATUS_POS (act.idxOf n)) m

/-- The offset in taps of position `p` of `n` (R150). -/
def offsetAt (m : Module) (r p n : Nat) : Nat :=
  (roundDiv ((p * m.get (pgRail + r) ⟨RAIL_PER_TAPS, 0, 20⟩ : Nat) : Int) n).toNat

/-- Every active phase takes its offset, at the rail's period boundary (R150). -/
def spaceOut (m : Module) (r : Nat) : Module :=
  let act := m.actives r
  act.foldl (fun m n =>
    m.updPh n (fun x => { x with offset := m.offsetAt r (act.idxOf n) act.length })) m

/-- PER_TAPS follows FSW_KHZ (R148). -/
def perTaps (m : Module) (r : Nat) : Module :=
  let f := m.cfg (pgRail + r) RAIL_CFG_FSW_KHZ
  m.put (pgRail + r) ⟨RAIL_PER_TAPS, 0, 20⟩ (roundDiv 12800000 f).toNat

/-! ### Units, corrections and thresholds (R154 to R160, R216) -/

/-- Rail current scale I_FS in 0.1 A (R216). -/
def iFs (m : Module) (r : Nat) : Nat :=
  let lim := m.val (pgRail + r) RAIL_ILIM_RAIL
  if lim ≠ 0 then 10 * lim
  else ((m.namedBy r).filter (fun n => !m.isSpareRole n)).length * m.val (pgRail + r) RAIL_PH_RATING

/-- VSNS range of a rail in 6.25 µV (R216). -/
def vFs (m : Module) (r : Nat) : Nat :=
  if m.cfg (pgRail + r) RAIL_CFG_VMODE = 1 then 10560000 else 320000

/-- The rail voltage unit in 6.25 µV (R154). -/
def vUnit (m : Module) (r : Nat) : Nat :=
  if m.cfg (pgRail + r) RAIL_CFG_VMODE = 1 then 160 else 8

/-- The reference in the loop's Q1.15 (R216). -/
def refCode (m : Module) (r : Nat) : Int := satInt 16 (roundDiv ((m.rail r).ref * 32768) (m.vFs r))

/-- Current in use of a phase in 0.1 A / 32,768: sense, or observer once the sense has failed
(R195, R220). -/
def curOf (m : Module) (n : Nat) : Int :=
  let scale := m.val (pgPhase + n) PHASE_ISNS_SCALE
  if m.get (pgPhase + n) PHASE_STATUS_OBS = 1 then roundDiv ((m.phase n).obs * 32768) 100000
  else (m.phase n).code * scale

/-- The calibration word of channel `c`: that of the spare, 64, while the spare carries it (R161, R162). -/
def calWord (m : Module) (c : Nat) : Nat :=
  if m.adc.calOn = some c || m.adc.carried = some c then 64 else c

/-- The corrections in force of a calibration word: offset in 1/16 code step, gain in 2^−20 (R207). -/
def calOff (m : Module) (c : Nat) : Int := sext 16 (bits (m.tbl pgAdccal 0 c) 16 16)
def calGain (m : Module) (c : Nat) : Int := sext 16 (bits (m.tbl pgAdccal 0 c) 0 16)

/-- A decimated sample of channel `c`, corrected (R160): the offset is added, then the gain applied
(DESIGN CHOICE, log entry 122). A code step is 4 in Q1.15. -/
def calApply (m : Module) (c : Nat) (y : Int) : Int :=
  let k := m.calWord c
  satInt 16 (roundDiv ((4 * y + m.calOff k) * (1048576 + m.calGain k)) 4194304)

/-- The comparator code of the level `num` / `den`, in Q1.15 of the range, on channel `c` (R157): the
code, of 10 bits across the range, of the input whose corrected value is the level, rounded up or down. -/
def thrCode (m : Module) (c : Nat) (num : Int) (den : Nat) (up : Bool) : Int :=
  let k := m.calWord c
  let g := 1048576 + m.calGain k
  let a := 4194304 * num - m.calOff k * den * g
  let b := 256 * (den : Int) * g
  clampInt (-512) 511 (if up then -(-a / b) else a / b)

/-- The codes of comparators A and B of channel `c` are set. -/
def setThr (m : Module) (c : Nat) (a b : Int) : Module :=
  { m with adc := { m.adc with thr := upd m.adc.thr c (fun _ => (a, b)) } }

/-- The threshold codes of comparators A and B of a channel in force. -/
def thrA (m : Module) (c : Nat) : Int := (nth (0, 0) m.adc.thr c).1
def thrB (m : Module) (c : Nat) : Int := (nth (0, 0) m.adc.thr c).2

/-- The input of a comparator, in Q1.15 of its range, is above or below a threshold code (R156). -/
def above (x code : Int) : Bool := decide (64 * code < x)
def below (x code : Int) : Bool := decide (x < 64 * code)

/-- The negative limit of a phase in 0.1 A: 0 for a BUCK rail in soft start and RETRY_WAIT (R171,
R182). -/
def negLimit (m : Module) (n : Nat) : Nat :=
  let r := m.railOf n
  if !m.bidi r && (m.rlSt r = rsSoft || m.rlSt r = rsRetry) then 0
  else m.val (pgPhase + n) PHASE_ILIM_NEG

/-- The comparators of a phase follow its limits and its channel's correction (R156, R157); both are
rounded down in magnitude. -/
def phaseThr (m : Module) (n : Nat) : Module :=
  let scale := m.val (pgPhase + n) PHASE_ISNS_SCALE
  m.setThr n (m.thrCode n (32768 * (m.val (pgPhase + n) PHASE_ILIM_POS : Int)) scale false)
    (m.thrCode n (-32768 * (m.negLimit n : Int)) scale true)

/-- The comparators of VSNS follow the overshoot level, or the exit level while the rail truncates, and
`UV_THR` (R156, R157, R166): down for the overshoot level, up for the under-voltage level. -/
def railThr (m : Module) (r : Nat) : Module :=
  let rl := m.rail r
  let lvl := if rl.trunc then rl.ovExit else rl.ovLvl
  let uv : Int := (m.val (pgRail + r) RAIL_UV_THR * m.vUnit r : Nat)
  m.setThr (48 + r) (m.thrCode (48 + r) (32768 * lvl) (m.vFs r) false)
    (m.thrCode (48 + r) (32768 * uv) (m.vFs r) true)

/-! ### GIN channels and bus inputs (R154, R156, R249, R250) -/

/-- The rails that GIN channel `i` truncates (R206). -/
def ginRails (m : Module) (i : Nat) : List Nat :=
  (List.range (nRails m.sys.part)).filter (fun r =>
    bit (m.liveReg pgAdccal (if i < 2 then ADCCAL_GIN_ACT0 else ADCCAL_GIN_ACT1)) (12 * (i % 2) + r))

/-- The settings of GIN channel `i` that wait go into force: those of the channel and the truncation
masks (R206). -/
def ginApply (m : Module) (i : Nat) : Module :=
  m.applyPend (fun k => k = rkey pgAdccal (ADCCAL_GIN_CFG0 + 4 * i) || k = rkey pgAdccal (ADCCAL_GIN_HI0 + 4 * i)
    || k = rkey pgAdccal (ADCCAL_GIN_LO0 + 4 * i) || k = rkey pgAdccal (if i < 2 then ADCCAL_GIN_ACT0 else ADCCAL_GIN_ACT1))

/-- Comparator thresholds of GIN channel `i` (R156, R157, R206). The safe side, which R157 names for the
other limits, is taken as the nearer one: the high threshold down, the low one up (DEDUCED, log entry
123). -/
def ginThr (m : Module) (i : Nat) : Module :=
  let hi := ADCCAL_GIN_HI0 + 4 * i
  let lo := ADCCAL_GIN_LO0 + 4 * i
  let m := m.usePairs pgAdccal [hi, lo]
  m.setThr (60 + i) (m.thrCode (60 + i) (m.valI pgAdccal hi) 1 false)
    (m.thrCode (60 + i) (m.valI pgAdccal lo) 1 true)

/-- The decimated samples of GIN0 onwards: what waits for them applies, and they are held corrected
(R155, R160, R206). -/
def ginTake (m : Module) (gin : List Int) : Module :=
  ((List.range (min 4 gin.length)).filter (fun i => i < nGin m.sys.part)).foldl (fun m i =>
    let m := (m.ginApply i).ginThr i
    let y := m.calApply (60 + i) (nth 0 gin i)
    { m with adc := { m.adc with gin := upd m.adc.gin i (fun _ => y) } }) m

/-- The GIN channel is in voltage mode (R206). -/
def ginVmode (m : Module) (i : Nat) : Bool := bits (m.liveReg pgAdccal (ADCCAL_GIN_CFG0 + 4 * i)) 2 1 = 1

/-- The input range of a GIN channel in mV (R154). -/
def ginRange (m : Module) (i : Nat) : Nat :=
  let w := m.liveReg pgAdccal (ADCCAL_GIN_CFG0 + 4 * i)
  if m.ginVmode i then 66000
  else if bits w 0 2 = 0 then 2000
  else if bits w 0 2 = 1 then 500 else 125

/-- The last sample of a GIN channel in mV, to the nearest. -/
def ginMv (m : Module) (i : Nat) : Int := roundDiv (nth 0 m.adc.gin i * m.ginRange i) 32768

/-- What the bus input of code `c` reads, in mV (R249): a GIN channel in voltage mode, or FD_VOUT of a
feed channel; none where there is no such input. -/
def busIn (m : Module) (c : Nat) : Option Nat :=
  if c < 4 then
    if c < nGin m.sys.part && m.ginVmode c then some (m.ginMv c).toNat else none
  else if 8 ≤ c && c < 16 && c - 8 < nFeeds m.sys.part then some (nth {} m.fd (c - 8)).vout
  else none

/-- The bus input of code `c` gives a valid value (R250). -/
def busValid (m : Module) (c : Nat) : Option Nat := (m.busIn c).filter (fun v => 1000 ≤ v)

/-! ### Shedding tables (R175) -/

/-- The add and drop points of R35 that the derived tables of a rail use, in per cent of `PH_RATING`: a
word of their own beside the page's registers, add point in [31:16]; 0 stands for BALANCED. It changes
with a profile, in the boundary of the group SHED (R37). -/
def pctKey (r : Nat) : Nat := rkey (pgRail + r) 0xFC
def pctOf (w : W32) (t : Nat) : Nat :=
  if w = 0 then (if t = 0 then 70 else 55) else bits w (if t = 0 then 16 else 0) 16

/-- Entry n in use of a shedding table (t = 0 UP, 1 DOWN): written, or derived from the rating (R175). -/
def shedEntry (m : Module) (r t n : Nat) : Nat :=
  let k := tkey (pgRail + r) t n
  if m.live.any (fun kv => kv.1 = k) then m.tblVal (pgRail + r) t n
  else m.val (pgRail + r) RAIL_PH_RATING * pctOf (m.liveKey (pctKey r)) t / 100

/-- What a read of the entry returns: the word written, or the derived pair (R175). -/
def shedWord (m : Module) (r t n : Nat) : W32 :=
  let k := tkey (pgRail + r) t n
  if m.regs.any (fun kv => kv.1 = k) then m.key k
  else mkPair (m.val (pgRail + r) RAIL_PH_RATING * pctOf (m.key (pctKey r)) t / 100)

/-- The first n from 1 to 47 at which a pair of tables misses the hysteresis of R176. -/
def shedBad (rating : Nat) (up down : Nat → Nat) : Option Nat :=
  ((List.range 47).map (· + 1)).find? (fun n => (up n * 20 : Nat) < down n * 20 + rating)

/-- Shedding is on (R177, R180, R286). -/
def shedOn (m : Module) (r : Nat) : Bool :=
  m.flag (pgRail + r) RAIL_SHED_CFG_EN && !(m.rail r).shedOff && !(m.rail r).noShed

/-! ### Capacity (R197) -/

/-- A member or spare in service that counts for the capacity, with healthy sense. -/
def healthy (m : Module) (n : Nat) : Bool :=
  m.phAvail n && m.phSt n ≠ psDerated && m.phSt n ≠ psShed && m.phSt n ≠ psSpare
    && !(m.isSpareRole n && m.get (pgPhase + n) PHASE_STATUS_SPARE_IN = 0)

/-- The rail's capacity in 1 A (R197); a phase with a lasting cycle-by-cycle fault and policy HOLD
counts at its limit (R172). -/
def capacity (m : Module) (r : Nat) : Nat :=
  let rating := m.val (pgRail + r) RAIL_PH_RATING
  let hs := (m.namedBy r).filter m.healthy
  let ds := (m.namedBy r).filter (fun n =>
    m.phAvail n && (m.phSt n = psDerated || m.phSt n = psShed))
  let one := fun n =>
    if m.latched (pgPhase + n) PHASE_FLT_CBC then min rating (m.val (pgPhase + n) PHASE_ILIM_POS)
    else rating
  let c := (sumN (hs.map one) * 100
    + ds.length * m.cfg (pgRail + r) RAIL_OBS_CFG_DERATE * rating) / 1000
  let lim := m.val (pgRail + r) RAIL_ILIM_RAIL
  min 65535 (if lim ≠ 0 then min c lim else c)

/-- The capacity is reported; a change raises CAPACITY (R197). -/
def capUpd (m : Module) (r : Nat) : Module :=
  let c := m.capacity r
  if c = m.get (pgRail + r) RAIL_CAPACITY_C then m
  else
    let m := m.put (pgRail + r) RAIL_CAPACITY_C c
    let m := m.put (pgRail + r) RAIL_IMEAS_C c
    m.raise (pgRail + r) RAIL_EV_CAPACITY

/-- What follows any change of a rail's set of phases. -/
def railUpd (m : Module) (r : Nat) : Module := (m.refresh r).capUpd r

/-! ### Probes (R189 to R191) -/

/-- A probe in progress on the rail is aborted: its phase is SUSPECT again (R191). -/
def probeAbort (m : Module) (r : Nat) : Module :=
  ((m.namedBy r).filter (fun n => m.phSt n = psProbing)).foldl
    (fun m n => (m.setPh n psSuspect).updPh n (fun x => { x with probeDue := false, probeN := 0 })) m

/-- Maximum duty in force. -/
def dutyMax (m : Module) (r : Nat) : Int := min 32767 (m.val (pgRail + r) RAIL_DUTY_MAX : Nat)

/-- The most that a phase's duty may be: `DUTY_MAX`, and its ceiling when one is in force (R149, R195). -/
def dutyCap (m : Module) (n : Nat) : Int :=
  let ceil := m.get (pgPhase + n) PHASE_DUTY_D_CEIL
  if ceil = 0 then m.dutyMax (m.railOf n) else min (m.dutyMax (m.railOf n)) ceil

/-- A phase that joins a running rail takes its new offset at once, in the current period; the others keep
theirs until the period boundary (R150). Until its own balance loop runs (R221), its duty is the rail's
(DEDUCED, log entry 129). -/
def joins (m : Module) (r n : Nat) : Module :=
  let act := m.actives r
  let d := clampInt 0 (m.dutyCap n) (m.rail r).dRail
  m.updPh n (fun x => { x with offset := m.offsetAt r (act.idxOf n) act.length, dNext := d, dRel := d })

/-- The duty that a probe adds in its period `k`, from 1 (R189). -/
def probeAdd (m : Module) (n k : Nat) : Int :=
  if m.phSt n ≠ psProbing then 0
  else
    let p := roundDiv (m.cfg (pgRail + m.railOf n) RAIL_PROBE_CFG_PROBE_DUTY * 32768 : Nat) 400
    if k ≤ 10 then p else -p

/-! ### Pulse starts (R149, R166, R171, R177, R189, R221) -/

/-- The pulse of a phase starts while its rail does not truncate: skipping ends. Pulses of the rail have
resumed with the first of them (DESIGN CHOICE, log entry 124). -/
def pulseResumes (m : Module) (n : Nat) : Module :=
  let r := m.railOf n
  if m.truncating r then m
  else
    (m.updPh n (fun x => { x with held := false, fresh := false })).updRl r (fun x => { x with resume := false })

/-- The pulse start of a phase that switches (R149): the duty word released last takes effect, with what a
probe adds in this period (R189), a negative-limit interval ends, and the phase switches again unless its
rail truncates. -/
def pulseStart (m : Module) (n : Nat) : Module :=
  if !psSwitches (m.phSt n) || nPhases m.sys.part ≤ n then m
  else
    let per := m.get (pgRail + m.railOf n) ⟨RAIL_PER_TAPS, 0, 20⟩
    let k := if m.phSt n = psProbing then (m.phase n).probeN + 1 else 0
    let d := clampInt 0 (m.dutyCap n) ((m.phase n).dRel + m.probeAdd n k)
    let m := m.updPh n (fun x => { x with
      negTri := false, d := d, onTaps := (roundDiv (d * per) 32768).toNat, probeN := k })
    let m := m.put (pgPhase + n) PHASE_DUTY_D (wrapInt 16 (m.phase n).d)
    (m.pulseResumes n).phPins n

/-- A command comes: the CORE cycle that it tells, and the pulses that have started before it. -/
def arrive (m : Module) (t : Instant) : Module :=
  let m := { m with out := { m.out with cyc := some t.cyc } }
  t.starts.foldl (fun m n => m.pulseStart n) m

/-- A command comes that tells its CORE cycle alone. -/
def arriveAt (m : Module) (cyc : Nat) : Module := { m with out := { m.out with cyc := some cyc } }

/-! ### Adding and dropping (R177 to R180) -/

/-- A phase becomes active on its running rail: a probe there is aborted, and it takes its offset (R150,
R191). -/
def activate (m : Module) (r n : Nat) : Module :=
  let m := ((m.probeAbort r).setPh n psActive).joins r n
  m.railUpd r

/-- The rail's available inactive members that have a slot, in order of number. -/
def idle (m : Module) (r : Nat) : List Nat :=
  (m.namedBy r).filter (fun n => m.phSt n = psInactive && m.phAvail n && m.placedOn n r)

/-- Every available member is active while shedding is off (R176, R180). -/
def allActive (m : Module) (r : Nat) : Module :=
  if m.rlSt r = rsReg && (!m.flag (pgRail + r) RAIL_SHED_CFG_EN || (m.rail r).shedOff) then
    (m.idle r).foldl (fun m n => m.activate r n) m
  else m

/-- The phase that the rail adds next: its highest-ranked inactive healthy member, else a
SENSE_SHED one (R178, R196). -/
def addPick (m : Module) (r : Nat) : Option (Nat × Nat) :=
  let ok := fun s n => decide (m.phSt n = s ∧ m.railOf n = r) && m.phAvail n && m.placedOn n r
  match (m.rankOrder r).find? (ok psInactive) with
  | some n => some (n, psActive)
  | none => ((m.rankOrder r).find? (ok psShed)).map (fun n => (n, psDerated))

/-- The rail adds a phase, or reports that none is left (R177, R178). -/
def addPhase (m : Module) (r : Nat) : Module :=
  match m.addPick r with
  | none => m.put (pgRail + r) RAIL_STATUS_AT_MAX 1
  | some (n, s) =>
    let m := ((m.probeAbort r).setPh n s).joins r n
    let m := m.updRl r (fun x => { x with addWait := some n, dwell := false })
    let m := m.put (pgRail + r) RAIL_STATUS_DROP_READY 0
    let m := m.count (pgRail + r) ⟨RAIL_SHED_CNT, 0, 16⟩ 1
    let m := m.raise (pgRail + r) RAIL_EV_PHASE_ADDED
    m.railUpd r

/-- The rail waits for the first pulse of the phase that it added last (R177). -/
def addWaits (m : Module) (r : Nat) : Bool :=
  match (m.rail r).addWait with
  | some n => psSwitches (m.phSt n) && (m.phase n).fresh
  | none => false

/-- The dwell condition of R179, with `cur` the rail current in 0.1 A / 32,768. -/
def dwellCond (m : Module) (r : Nat) (cur : Int) : Bool :=
  let n := (m.actives r).length
  2 ≤ n && m.rlSt r = rsReg && m.shedOn r
    && m.cfg (pgRail + r) RAIL_SHED_CFG_MIN_PH ≤ n - 1
    && decide (cur < ((m.shedEntry r 1 (n - 1) * (n - 1) * 32768 : Nat) : Int))

/-- The phase that the rail drops next: its lowest-ranked active healthy member (R178). -/
def dropPick (m : Module) (r : Nat) : Option Nat :=
  (m.rankOrder r).reverse.find? (fun n => m.phSt n = psActive && m.railOf n = r)

/-- A phase drops (R179): INACTIVE, or OFF where its EN has gone to 0 (R200); a probe on the rail is
aborted (R191). AT_MAX falls with the drop: the spec does not say when it does (DESIGN CHOICE, log entry
125). -/
def dropPhase (m : Module) (r n : Nat) : Module :=
  let off := (m.phase n).dropOff
  let m := if off then m.put (pgPhase + n) PHASE_STATUS_SPARE_IN 0 else m
  let m := (m.probeAbort r).setPh n (if off then psOff else psInactive)
  let m := m.put (pgRail + r) RAIL_STATUS_AT_MAX 0
  let m := m.count (pgRail + r) ⟨RAIL_SHED_CNT, 16, 16⟩ 1
  let m := m.raise (pgRail + r) RAIL_EV_PHASE_DROPPED
  m.railUpd r

/-- The lowest-numbered available idle spare of the rail enters service (R194). -/
def spareIn (m : Module) (r : Nat) : Module :=
  match (m.namedBy r).find? (fun n => m.phSt n = psSpare && m.phAvail n && m.placedOn n r) with
  | none => m
  | some n => (m.put (pgPhase + n) PHASE_STATUS_SPARE_IN 1).activate r n

/-- A phase goes OPEN: off, latched, a spare in its place (R194); a probe on the rail is aborted (R191). -/
def openPhase (m : Module) (r n : Nat) : Module :=
  let m := (m.probeAbort r).setPh n psOpen
  let m := if m.rlRuns r then m.spareIn r else m
  m.railUpd r

/-- The test of R195: the healthy available members carry the rail current without this phase. -/
def shedTest (m : Module) (r : Nat) : Bool :=
  let h := ((m.namedBy r).filter m.healthy).length
  h ≠ 0 && decide ((m.rail r).cur ≤ ((m.shedEntry r 0 h * h * 32768 : Nat) : Int))

/-- A phase runs on its observer (R195). -/
def onObserver (m : Module) (n : Nat) : Module :=
  (m.put (pgPhase + n) PHASE_STATUS_OBS 1).setPh n psDerated

/-- The sense of a phase has failed on a ground (R192, R195): it moves to its observer, SENSE
latches, and it stays in service derated or is shed at the next period boundary; a phase without
observer is handled as open (R193). -/
def senseFail (m : Module) (n ground : Nat) : Module :=
  let r := m.railOf n
  let m := m.put (pgPhase + n) PHASE_PROBE_GROUND ground
  let m := m.raise (pgPhase + n) PHASE_EV_SENSE_FAIL
  if (m.phase n).obsOk then
    let m := (m.onObserver n).latchNow (pgPhase + n) PHASE_FLT_SENSE
    let m := if m.shedTest r then m.updPh n (fun x => { x with shedDue := true }) else m
    m.railUpd r
  else
    let m := m.raise (pgPhase + n) PHASE_EV_OPEN
    let m := m.updPh n (fun x => { x with openDue := true })
    m.latchNow (pgPhase + n) PHASE_FLT_OPEN

/-- A phase is placed in service or idle on its running rail as its latches, role and rail state say
(R180, R194, R198): SPARE_IDLE, derated while its SENSE latch stands or OPEN where it has no observer
then (R193), ACTIVE where every available member is, else INACTIVE; OFF where it cannot serve. -/
def phaseEnter (m : Module) (n : Nat) : Module :=
  let r := m.railOf n
  if m.phSt n = psFailed || m.phSt n = psOpen || m.phSt n = psRemoved then m
  else if !m.rlRuns r || !m.placedOn n r || !m.phAvail n then m.setPh n psOff
  else if m.isSpareRole n && !m.spareServes n then m.setPh n psSpare
  else if m.latched (pgPhase + n) PHASE_FLT_SENSE then
    if (m.phase n).obsOk then ((m.probeAbort r).onObserver n).joins r n
    else ((m.raise (pgPhase + n) PHASE_EV_OPEN).setPh n psOpen).latchNow (pgPhase + n) PHASE_FLT_OPEN
  else if m.rlSt r = rsSoft || !m.shedOn r then m.activate r n
  else m.setPh n psInactive

end Module

end Sys2Proof.Machine
end

