-- ==== Sys2Proof/Machine/Trace.lean ====
section
/-! DEFINITION. The trace units (R233 to R237, R240). -/

namespace Sys2Proof.Machine

/-- Trace states as numbered in STATUS (R241). -/
def tsIdle : Nat := 0
def tsPre : Nat := 1
def tsArmed : Nat := 2
def tsPost : Nat := 3
def tsDone : Nat := 4

/-- Q1.15 of an accumulator value Q10.30, saturated (R215). -/
def q15 (x : Int) : Int := satInt 16 (roundDiv x 32768)

namespace Module

def trace (m : Module) (k : Nat) : Trace := nth {} m.tr k
def updTr (m : Module) (k : Nat) (f : Trace → Trace) : Module := { m with tr := upd m.tr k f }

/-- State of a trace unit. -/
def trSt (m : Module) (k : Nat) : Nat := m.get (pgTrace + k) TRACE_STATUS_STATE

/-- The value of a node by its code (R234): a BUCK rail has no current loop, so its nodes are 0. -/
def node (m : Module) (c : Nat) : Int :=
  let kind := c / 4096 % 16
  let i := c % 64
  let rl := m.rail i
  let ph := m.phase i
  let scale := m.val (pgPhase + i) PHASE_ISNS_SCALE
  let okRail := decide (i < nRails m.sys.part)
  let okPh := decide (i < nPhases m.sys.part)
  if 1 ≤ kind ∧ kind ≤ 8 ∨ 14 ≤ kind then
    if !okRail then 0
    else if kind = 1 then rl.y
    else if kind = 2 then m.refCode i
    else if kind = 3 then rl.ePrev
    else if kind = 4 then q15 rl.pTerm
    else if kind = 5 then q15 rl.vInt
    else if kind = 6 then q15 rl.vDer
    else if kind = 7 then rl.u
    else if kind = 8 then satInt 16 (roundDiv rl.cur (m.iFs i))
    else if !m.bidi i then 0
    else if kind = 14 then rl.iRef
    else rl.dRail
  else if kind = 13 then if i < nGin m.sys.part then nth 0 m.adc.gin i else 0
  else if 9 ≤ kind ∧ okPh then
    if kind = 9 then satInt 16 (roundDiv (m.curOf i) scale)
    else if kind = 10 then ph.dNext
    else if kind = 11 then ph.db
    else satInt 16 (roundDiv (ph.obs * 32768) (100000 * scale))
  else 0

/-- Code of node `j` of a unit (R240). -/
def nodeCode (m : Module) (k j : Nat) : Nat :=
  bits (m.liveReg (pgTrace + k) (TRACE_NODES0 + 4 * (j / 2))) (if j % 2 = 0 then 16 else 0) 16

/-- An ARMED unit triggers (R236): the position and time are latched and the units that listen to
it trigger too (R235). The CORE cycle in the major frame is the one that the command tells; it is a free
value where the command tells none. -/
def trTrigger (m : Module) (k : Nat) : Nat → Module
  | 0 => m
  | fuel + 1 =>
    if m.trSt k ≠ tsArmed then m
    else
      let (c, m) := match m.out.cyc with
        | some c => (c, m)
        | none => m.draw 1
      let m := m.put (pgTrace + k) TRACE_STATUS_STATE tsPost
      let m := m.put (pgTrace + k) TRACE_STATUS_TRIG_POS
        (m.cfg (pgTrace + k) ⟨TRACE_PRE, 0, 12⟩)
      let m := m.setReg (pgTrace + k) TRACE_TRIG_FRAME (m.reg pgSched SCHED_MFRAME)
      let m := m.setReg (pgTrace + k) TRACE_TRIG_CYC (BitVec.ofNat 32 (c % 400000))
      let m := m.updTr k (fun x => { x with n := 0 })
      let m := m.raise (pgTrace + k) TRACE_EV_TRIGGERED
      (List.range 4).foldl (fun m j =>
        if m.cfg (pgTrace + j) TRACE_TRIG_KIND = 4
          && (m.cfg (pgTrace + j) TRACE_TRIG_SRC_UNITS).testBit k
        then trTrigger m j fuel else m) m

/-- The recording of a POST unit that has its samples ends (R236). -/
def trEnd (m : Module) (k : Nat) : Module :=
  if m.trSt k = tsPost && 4096 - m.cfg (pgTrace + k) ⟨TRACE_PRE, 0, 12⟩ ≤ (m.trace k).n then
    (m.put (pgTrace + k) TRACE_STATUS_STATE tsDone).raise (pgTrace + k) TRACE_EV_DONE
  else m

/-- A unit in PRE_FILL that has its samples becomes ARMED (R236). -/
def trFill (m : Module) (k : Nat) : Module :=
  if m.trSt k = tsPre && m.cfg (pgTrace + k) ⟨TRACE_PRE, 0, 12⟩ ≤ (m.trace k).n then
    m.put (pgTrace + k) TRACE_STATUS_STATE tsArmed
  else m

/-- A fault event of a rail (bit `b` of TRIG_SRC.FAULTS) reaches the units with KIND FAULT whose
source rail it is (R235). -/
def trFault (m : Module) (r b : Nat) : Module :=
  (List.range 4).foldl (fun m k =>
    if m.cfg (pgTrace + k) TRACE_TRIG_KIND = 3 && m.cfg (pgTrace + k) TRACE_CFG_SRC_RAIL = r
      && (m.cfg (pgTrace + k) TRACE_TRIG_SRC_FAULTS).testBit b
    then m.trTrigger k 4 else m) m

/-- A Crossing reaches the units with KIND FAULT that select it (R235): it is an event of the module, taken
to occur on every rail (DESIGN CHOICE, log entry 126). -/
def trCrossing (m : Module) : Module :=
  (List.range (nRails m.sys.part)).foldl (fun m r => m.trFault r 5) m

/-- A GIN comparator event (bits 0 to 3 HI, 4 to 7 LO) reaches the units with KIND EXTERNAL that
select it (R235). -/
def trGin (m : Module) (b : Nat) : Module :=
  (List.range 4).foldl (fun m k =>
    if m.cfg (pgTrace + k) TRACE_TRIG_KIND = 4
      && (m.cfg (pgTrace + k) TRACE_TRIG_SRC_GIN).testBit b
    then m.trTrigger k 4 else m) m

/-- The trigger condition of the recorded sample: LEVEL or EDGE (R235). -/
def trCond (m : Module) (k : Nat) (last : Option Int) (v : Int) : Bool :=
  let lvl := sext 16 (m.cfg (pgTrace + k) ⟨TRACE_TRIG_LEVEL, 0, 16⟩)
  let neg := m.flag (pgTrace + k) TRACE_TRIG_POL
  if m.cfg (pgTrace + k) TRACE_TRIG_KIND = 1 then
    if neg then decide (v < lvl) else decide (lvl < v)
  else if m.cfg (pgTrace + k) TRACE_TRIG_KIND = 2 then
    match last with
    | none => false
    | some l => if neg then decide (lvl ≤ l ∧ v < lvl) else decide (l ≤ lvl ∧ lvl < v)
  else false

/-- Word `w` of a sample of 8 nodes (R236): node 2w in [31:16], node 2w + 1 in [15:0]. -/
def sampleWord (vs : List Int) (w : Nat) : Nat :=
  wrapInt 16 (nth 0 vs (2 * w)) * 65536 + wrapInt 16 (nth 0 vs (2 * w + 1))

/-- Sample `s` goes into the bank of the buffer (R233, R237): 16 bytes a sample, in a ring of 4,096, words
0 to 3 rising (DESIGN CHOICE, log entry 127). -/
def trStore (m : Module) (k s : Nat) (vs : List Int) : Module :=
  match (m.trace k).bank with
  | none => m
  | some b =>
    let at' := b * 8192 + 2 * (s % 4096)
    let w := fun i => BitVec.ofNat 64 (sampleWord vs (2 * i) + sampleWord vs (2 * i + 1) * 2 ^ 32)
    { m with mem := { m.mem with
        sram := setK zero64 (setK zero64 m.mem.sram at' (w 0)) (at' + 1) (w 1),
        poison := delKey (delKey m.mem.poison at') (at' + 1) } }

/-- A unit records a sample: PRE_FILL counts to `PRE`, ARMED judges its trigger, POST counts to
4,096 − `PRE` (R236). -/
def trRecord (m : Module) (k : Nat) : Module :=
  let vs := (List.range 8).map (fun j => m.node (m.nodeCode k j))
  let v := nth 0 vs (m.cfg (pgTrace + k) TRACE_TRIG_NODE)
  let last := (m.trace k).last
  let was := m.trSt k
  let m := if was = tsArmed && m.trCond k last v then m.trTrigger k 4 else m
  let m := m.trStore k (m.trace k).total vs
  let m := m.updTr k (fun x => { x with total := x.total + 1, n := x.n + 1, last := some v })
  if was = tsPre then m.trFill k else m.trEnd k

/-- The trace units of a rail at one of its loop samples (R233, R237). -/
def trSample (m : Module) (r : Nat) (full : List Nat) : Module :=
  (List.range 4).foldl (fun m k =>
    let st := m.trSt k
    if m.cfg (pgTrace + k) TRACE_CFG_SRC_RAIL = r && (st = tsPre || st = tsArmed || st = tsPost) then
      if (m.trace k).div + 1 < 2 ^ m.cfg (pgTrace + k) TRACE_CFG_DIV then
        m.updTr k (fun x => { x with div := x.div + 1 })
      else
        let m := m.updTr k (fun x => { x with div := 0 })
        if full.contains k then
          let m := m.put (pgTrace + k) TRACE_STATUS_GAP 1
          m.raise (pgTrace + k) TRACE_EV_GAP
        else m.trRecord k
    else m) m

/-- PRE_FILL begins with an empty buffer (R236). -/
def trStart (m : Module) (k : Nat) : Module :=
  let m := m.put (pgTrace + k) TRACE_STATUS_STATE tsPre
  let m := m.put (pgTrace + k) TRACE_STATUS_GAP 0
  let m := m.updTr k (fun x => { x with total := 0, div := 0, n := 0, last := none })
  m.trFill k

/-- The scratchpad banks in service, rising: not excluded and not failed in the self-test (R98, R544). -/
def banksOn (m : Module) : List Nat :=
  (List.range (nBanks m.sys.part)).filter (fun b =>
    !bit (m.reg pgMem MEM_EXCL_MAP) b && !bit (m.reg pgBist BIST_BANK_FAIL) b)

/-- The bank that a trace buffer takes (R135): the highest free one. The lowest bank in service holds the
task state (DESIGN CHOICE, log entry 51: the spec does not place it). -/
def traceBank (m : Module) : Option Nat :=
  (((m.banksOn).drop 1).filter (fun b => m.tr.all (fun x => x.bank ≠ some b))).getLast?

/-- The words of bank `b` copied to bank `t` (R134). -/
def bankCopy (m : Module) (b t : Nat) : Module :=
  let own := m.mem.sram.filter (fun x => x.1 / 8192 = b)
  let rest := m.mem.sram.filter (fun x => x.1 / 8192 ≠ t)
  { m with mem := { m.mem with
    sram := own.foldl (fun l x => setK zero64 l (t * 8192 + x.1 % 8192) x.2) rest } }

/-- A bank has been emptied (R134): the buffers and points that it held are in others. -/
def bankMoved (m : Module) (b : Nat) : Module :=
  let m := (List.range 4).foldl (fun m k =>
    if (m.trace k).bank = some b then
      let t := m.traceBank
      let m := match t with | some t => m.bankCopy b t | none => m
      m.updTr k (fun x => { x with bank := t })
    else m) m
  let bs := m.banksOn
  (m.regs.filter (fun kv => kv.1 / 65536 = 1 + 16 * pgPlace && bits kv.2 8 5 = b)).foldl (fun m kv =>
    m.setKey kv.1 (setBits kv.2 8 5 (nth 0 bs (kv.1 % 65536 % max 1 bs.length)))) m

/-- ARM written (R236): from IDLE or DONE; a unit without a bank stays as it is. -/
def trArm (m : Module) (k : Nat) : Module :=
  if m.en (pgTrace + k) && (m.trSt k = tsIdle || m.trSt k = tsDone) then m.trStart k else m

/-- STOP written, or EN 1 to 0 (R236). -/
def trStop (m : Module) (k : Nat) : Module := m.put (pgTrace + k) TRACE_STATUS_STATE tsIdle

/-- Word `i` of the buffer, readable in DONE only (R236). -/
def trWord (m : Module) (k i : Nat) : W32 :=
  match (m.trace k).bank with
  | none => 0
  | some b =>
    if m.trSt k ≠ tsDone then 0
    else
      let s := ((m.trace k).total + i / 4) % 4096
      let v := getK zero64 m.mem.sram (b * 8192 + 2 * s + i % 4 / 2)
      BitVec.ofNat 32 (v.toNat / 2 ^ (32 * (i % 2)))

/-- The buffer has been read to its last word: with AUTO the unit arms again (R236). -/
def trRead (m : Module) (k i : Nat) : Module :=
  if m.trSt k = tsDone && i = 16383 && m.flag (pgTrace + k) TRACE_CFG_AUTO then m.trStart k else m

end Module

end Sys2Proof.Machine
end

