-- ==== Sys2Proof/Machine/Rail.lean ====
section
/-! DEFINITION. Rails: placement of loops on lanes (R136, R137, R208 to R213), start and stop (R145,
R180 to R187), shorts and latches, and the rail commands of the table. -/

namespace Sys2Proof.Machine

/-! ### Placement (R208 to R212) -/

/-- Decimation D of a DECIM code (R155). -/
def decimOf (c : Nat) : Nat := 2 ^ (min c 4 + 2)

/-- Window of a rail group in CORE cycles: overhead, loops and 5 cycles of arrival (R208, R209). -/
def groupWindow (phases : Nat) (bidi : Bool) : Nat := 4 + 8 + 4 * phases + (if bidi then 6 else 0) + 5

/-- The starts, in CORE cycles, of the windows of a rail over the 1,600-cycle schedule (R209). -/
def windowStarts (d phi : Nat) : List Nat :=
  ((List.range 64).filter (fun t => t % d = phi % d)).map (· * 25)

/-- Two windows of the cyclic schedule overlap. -/
def windowsMeet (a wa b wb : Nat) : Bool :=
  (b + 1600 - a) % 1600 < wa || (a + 1600 - b) % 1600 < wb

/-- A rail with decimation `d`, phase `phi` and window `w` fits beside the rails of a lane, given as
(decimation, phase, window) (R210). -/
def laneFits (d phi w : Nat) (others : List (Nat × Nat × Nat)) : Bool :=
  w ≤ 140 && w ≤ 25 * d
    && others.all (fun o => (windowStarts d phi).all (fun a =>
        (windowStarts o.1 o.2.1).all (fun b => !windowsMeet a w b o.2.2)))

namespace Module

/-- Decimation, sample phase and window of each rail that lies on a lane. -/
def onLane (m : Module) (k : Nat) : List (Nat × Nat × Nat) :=
  ((List.range 12).filter (fun r => match (m.rail r).place with
      | some (l, _) => decide (l = k) | none => false)).map (fun r =>
    (decimOf (m.cfg (pgRail + r) RAIL_CFG_DECIM),
     (match (m.rail r).place with | some (_, f) => f | none => 0),
     groupWindow ((m.cle.slots.filter (fun s => s.kind = 2 && s.rail = r)).length)
        (m.cle.slots.any (fun s => s.kind = 3 && s.rail = r))))

/-- Free slots of a lane, rising (R210). -/
def freeSlots (m : Module) (k : Nat) : List Nat :=
  ((List.range 32).map (fun i => 32 * k + i)).filter (fun i => !m.cle.slots.any (fun s => s.idx = i))

/-- The first lane and sample phase that take a rail, lanes `ks` tried in order (R210). -/
def findPlace (m : Module) (r : Nat) (ks : List Nat) : Option (Nat × Nat) :=
  let np := (m.namedBy r).length
  let d := decimOf (m.cfg (pgRail + r) RAIL_CFG_DECIM)
  let w := groupWindow np (m.bidi r)
  let need := 1 + np + (if m.bidi r then 1 else 0)
  ks.findSome? (fun k =>
    if need ≤ (m.freeSlots k).length then
      ((List.range d).find? (fun phi => laneFits d phi w (m.onLane k))).map (fun phi => (k, phi))
    else none)

/-- Occupancy of each lane (R239) and the slot map of PLACE table 3 (R143). -/
def laneRegs (m : Module) : Module :=
  let m := (List.range (nLanes m.sys.part)).foldl (fun m k =>
    let cyc := sumN ((m.onLane k).map (fun o => 64 / o.1 * o.2.2))
    let n := (m.cle.slots.filter (fun s => s.idx / 32 = k)).length
    let off := CLE_LANE_USE0 + 4 * k
    let m := m.put pgCle ⟨off, 0, 16⟩ cyc
    m.put pgCle ⟨off, 16, 6⟩ n) m
  (List.range (32 * nLanes m.sys.part)).foldl (fun m i =>
    match m.cle.slots.find? (fun s => s.idx = i) with
    | some s => m.setTbl pgPlace 3 i (BitVec.ofNat 32 (2 ^ 31 + s.kind * 256 + s.inst))
    | none => m.setTbl pgPlace 3 i 0) m

/-- The rail's loops take the lowest free slots of the lane: voltage, balance in phase order,
current (R210). -/
def takeSlots (m : Module) (r k phi : Nat) : Module :=
  let loops := [(1, r)] ++ (m.namedBy r).map (fun n => (2, n)) ++ (if m.bidi r then [(3, r)] else [])
  let taken := ((m.freeSlots k).zip loops).map (fun x => ⟨x.1, x.2.1, x.2.2, r⟩)
  let m' := { m with cle := { m.cle with slots := m.cle.slots ++ taken } }
  (m'.updRl r (fun x => { x with place := some (k, phi) })).laneRegs

/-- The rail's slots are freed (R136). -/
def freeRail (m : Module) (r : Nat) : Module :=
  let m := { m with cle := { m.cle with slots := m.cle.slots.filter (fun s => s.rail ≠ r) } }
  (m.updRl r (fun x => { x with place := none })).laneRegs

/-! ### Truncation (R158, R166, R167) -/

/-- The TRUNC flags and the pins of a rail's phases follow the truncation. -/
def truncFlags (m : Module) (r : Nat) : Module :=
  let b := if m.truncating r then 1 else 0
  let m := m.put (pgRail + r) RAIL_STATUS_TRUNC b
  (m.namedBy r).foldl (fun m n =>
    let m := m.put (pgPhase + n) PHASE_STATUS_TRUNC b
    if psSwitches (m.phSt n) then m.phPins n else m) m

/-- A truncation of the rail begins (R166, R167, R191): its active phases end their pulses. -/
def truncBegin (m : Module) (r : Nat) : Module :=
  let m := m.countReg (pgRail + r) RAIL_TRUNC_CNT 1
  let m := m.raise (pgRail + r) RAIL_EV_TRUNC
  let m := m.probeAbort r
  let m := (m.actives r).foldl (fun m n => m.updPh n (fun x => { x with held := true })) m
  (m.truncFlags r).trFault r 0

/-- A truncation of the rail ends: pulses resume at the next pulse starts (R166). -/
def truncEnd (m : Module) (r : Nat) : Module :=
  (m.updRl r (fun x => { x with resume := true })).truncFlags r

/-- The rail's truncation begins or ends with what truncates it: its own level, a GIN comparator, or a
mask that has come into force (R158). -/
def truncSync (m : Module) (r : Nat) : Module :=
  if !m.rlRuns r then m
  else
    let was := m.get (pgRail + r) RAIL_STATUS_TRUNC = 1
    if m.truncating r && !was then m.truncBegin r
    else if !m.truncating r && was then m.truncEnd r
    else m

/-- The same for every rail, after a change of what the GIN channels truncate. -/
def truncSyncAll (m : Module) : Module := (List.range (nRails m.sys.part)).foldl (fun m r => m.truncSync r) m

/-- The decimated samples of the GIN channels that a command brings are taken, with what they change (R155,
R158). -/
def ginNow (m : Module) (gin : List Int) : Module := (m.ginTake gin).truncSyncAll

/-! ### Start, stop, latch (R180 to R187) -/

/-- The rail's latch bits UV, SHORT and OV (R187). -/
def railLatched (m : Module) (r : Nat) : Bool :=
  m.latched (pgRail + r) RAIL_FLT_UV || m.latched (pgRail + r) RAIL_FLT_SHORT
    || m.latched (pgRail + r) RAIL_FLT_OV

/-- The phases go off with their rail (R147, R186): a phase whose removal as OPEN waits is out of service
from now on (R194, R199). -/
def phasesOff (m : Module) (r : Nat) : Module :=
  ((m.namedBy r).filter (fun n =>
      m.phSt n ≠ psOpen && m.phSt n ≠ psRemoved && m.phSt n ≠ psFailed)).foldl
    (fun m n =>
      let m := if (m.phase n).dropOff then m.put (pgPhase + n) PHASE_STATUS_SPARE_IN 0 else m
      m.setPh n (if (m.phase n).openDue then psOpen else psOff)) m

/-- The loops' states and the rail's flags as at a start (R222). -/
def clearLoops (m : Module) (r : Nat) : Module :=
  m.updRl r (fun x => { x with
    vInt := 0, vDer := 0, ePrev := 0, vSat := 0, u := 0, pTerm := 0, cInt := 0, cTerm := 0, cSat := 0,
    iSlew := 0, iRef := 0, dRail := 0, cross := none, cur := 0, trunc := false, resume := false,
    stall := false, dwell := false, addWait := none, ramping := false, first := false,
    duties := false })

/-- The status flags of the rail and its phases fall (R203, R205). -/
def railFlags (m : Module) (r : Nat) : Module :=
  let m := m.put (pgRail + r) RAIL_STATUS_UV 0
  let m := m.put (pgRail + r) RAIL_STATUS_TRUNC 0
  let m := (m.namedBy r).foldl (fun m n => m.put (pgPhase + n) PHASE_STATUS_TRUNC 0) m
  let m := m.put (pgRail + r) RAIL_STATUS_AT_MAX 0
  m.put (pgRail + r) RAIL_STATUS_DROP_READY 0

/-- The dead time in force follows `DT` where it does not adapt (R151, R152). -/
def dtApply (m : Module) (r : Nat) : Module :=
  if m.flag (pgRail + r) RAIL_DT_ADAPT && m.rlSt r = rsReg then
    m.put (pgRail + r) ⟨RAIL_DT_NOW, 31, 1⟩ 1
  else m.setReg (pgRail + r) RAIL_DT_NOW (m.liveReg (pgRail + r) RAIL_DT)

/-- What waits for the rail's boundaries applies at once, since it takes no sample and runs no period from
now on (R83, R204). -/
def railBoundary (m : Module) (r : Nat) : Module :=
  ((m.namedBy r).foldl (fun m n => m.boundary (pgPhase + n)) (m.boundary (pgRail + r))).dtApply r

/-- The rail enters SOFT_START: every available member active, spares idle (R180, R181, R186), the other
phases at the pins of their state, since none keeps its adopted levels any longer (R147). The comparators
follow (R182). -/
def softStart (m : Module) (r : Nat) : Module :=
  let m := m.railBoundary r
  let m := (m.clearLoops r).railFlags r
  let m := m.put (pgRail + r) RAIL_STATUS_STATE rsSoft
  let m := m.updRl r (fun x => { x with first := true, ramping := true })
  let m := (m.namedBy r).foldl (fun m n => ((m.phaseEnter n).phaseThr n).phPins n) m
  (((m.railThr r).railUpd r).spaceOut r).truncSync r

/-- The start check of the shedding tables (R176). -/
def shedStart (m : Module) (r : Nat) : Module :=
  match shedBad (m.val (pgRail + r) RAIL_PH_RATING) (m.shedEntry r 0) (m.shedEntry r 1) with
  | none => m.updRl r (fun x => { x with shedOff := false })
  | some n =>
    let m := m.put (pgRail + r) RAIL_CAPACITY_SHED_BAD n
    (m.updRl r (fun x => { x with shedOff := true })).raise (pgRail + r) RAIL_EV_SHED_REFUSED

/-- Profile defaults of Stop fields that wait for this EN 0 to 1 (R37). -/
def applyDefer (m : Module) (p : Nat) : Module :=
  let ds := m.defer.filter (fun kv => pageOfKey kv.1 = p)
  let m := ds.foldl (fun m kv => m.setBoth kv.1 kv.2) m
  { m with defer := m.defer.filter (fun kv => pageOfKey kv.1 ≠ p) }

/-- An available member is there to run the rail, be it a spare that serves as one (R145, R194). -/
def hasMember (m : Module) (r : Nat) : Bool :=
  (m.namedBy r).any (fun n => m.phAvail n && (!m.isSpareRole n || m.spareServes n))

/-- KP and KI of the rail's voltage loop are both 0 (R213). -/
def coefZero (m : Module) (r : Nat) : Bool :=
  m.tblVal pgCle 0 (8 * r) = 0 && m.tblVal pgCle 0 (8 * r + 1) = 0

/-- The rail's start at EN 0 to 1, or at the clearing of its last latch bit (R136, R145, R186,
R187, R213, R238): what waits for its boundaries applies first. A rail whose loops fit no lane is refused: its EN stays 0 (R137). -/
def tryStart (m : Module) (r : Nat) : Module :=
  let m := m.railBoundary r
  if !m.en pgCle || m.railLatched r then m
  else if m.val (pgRail + r) RAIL_PH_RATING = 0 || !m.hasMember r then
    m.raise (pgRail + r) RAIL_EV_NO_PHASE
  else if m.coefZero r then
    let m := m.put pgCle CLE_LAST_KIND 1
    let m := m.put pgCle CLE_LAST_RAIL r
    m.raise pgCle CLE_EV_COEF_ZERO
  else
    let good := (List.range (nLanes m.sys.part)).filter (fun k => !m.cle.bad.contains k)
    match m.findPlace r good with
    | some (k, phi) => ((m.takeSlots r k phi).shedStart r).softStart r
    | none =>
      let would := m.cle.bad.any (fun k => k < nLanes m.sys.part && (m.findPlace r [k]).isSome)
      let m := m.put pgPlace PLACE_SLOT_LAST_RAIL r
      let m := m.put pgPlace PLACE_SLOT_LAST_REASON (if would then 2 else 1)
      let m := m.raise pgPlace PLACE_EV_SLOT_REFUSED
      (m.setReg (pgRail + r) CTRL (clrBit (m.reg (pgRail + r) CTRL) 0)).updRl r
        (fun x => { x with enIn := false })

/-- The rail goes OFF: phases off, loops cleared and slots freed, waiting values applied (R186,
R136, R83). -/
def railOff (m : Module) (r : Nat) : Module :=
  let m := m.put (pgRail + r) RAIL_STATUS_STATE rsOff
  let m := ((m.phasesOff r).clearLoops r).railFlags r
  let m := (m.freeRail r).railBoundary r
  (m.applySnap (inGroup pgCle r)).railUpd r

/-- The rail goes to RETRY_WAIT or LATCHED: its phases as in OFF, its loops still placed; what waits
applies, the coefficient sets too (R85, R186, R204, R225). -/
def railHalt (m : Module) (r : Nat) : Module :=
  let m := ((m.phasesOff r).clearLoops r).railFlags r
  let m := (m.railBoundary r).applySnap (inGroup pgCle r)
  ((m.namedBy r).foldl (fun m n => m.phaseThr n) m).railUpd r

/-- The rail latches off (R168, R174, R185): its phases as in OFF, its loops still placed. -/
def railLatch (m : Module) (r : Nat) : Module :=
  (m.put (pgRail + r) RAIL_STATUS_STATE rsLatched).railHalt r

/-- EN of a rail is set (R186). -/
def railEnable (m : Module) (r : Nat) : Module :=
  if bit (m.reg (pgRail + r) CTRL) 0 then m
  else
    let m := m.applyDefer (pgRail + r)
    let m := (m.perTaps r).setReg (pgRail + r) CTRL (setBit (m.reg (pgRail + r) CTRL) 0)
    (m.updRl r (fun x => { x with enIn := true })).tryStart r

/-- EN of a rail is cleared (R186). -/
def railDisable (m : Module) (r : Nat) : Module :=
  if !bit (m.reg (pgRail + r) CTRL) 0 then m
  else
    let m := m.setReg (pgRail + r) CTRL (clrBit (m.reg (pgRail + r) CTRL) 0)
    (m.updRl r (fun x => { x with enIn := false })).railOff r

/-- EN of a rail is written by the bus or by the sequencer. -/
def railEn (m : Module) (r : Nat) (on : Bool) : Module :=
  if on then m.railEnable r else m.railDisable r

/-- A rail's last latch bit has been cleared while EN is 1: it starts, from OFF with a new
placement, from LATCHED with its loops still placed (R187). -/
def railRelease (m : Module) (r : Nat) : Module :=
  if m.railLatched r || !bit (m.reg (pgRail + r) CTRL) 0 then m
  else if m.rlSt r = rsOff then m.tryStart r
  else if m.rlSt r = rsLatched then m.softStart r
  else m

/-- A short (R184, R185): the phases go off; below the threshold the rail waits for its retry, at
the threshold it latches. -/
def railShort (m : Module) (r : Nat) : Module :=
  let m := m.raise (pgRail + r) RAIL_EV_SHORT
  let (m, last) := m.fault (pgRail + r) RAIL_FLT_SHORT 0 (rkey (pgRail + r) RAIL_SHORT_WIN)
  if last then m.railLatch r
  else (m.put (pgRail + r) RAIL_STATUS_STATE rsRetry).railHalt r

/-! ### Phases in and out of service -/

/-- EN of a phase is written 1 (R145, R147): on a running rail with a slot for it, it takes its place; a
drop that waits for the period boundary is called off, and the phase goes on. Adopted levels end. -/
def phaseEnable (m : Module) (n : Nat) : Module :=
  if bit (m.reg (pgPhase + n) CTRL) 0 then m.phPins n
  else
    let m := m.setReg (pgPhase + n) CTRL (setBit (m.reg (pgPhase + n) CTRL) 0)
    let r := m.railOf n
    if (m.phase n).dropOff then
      (m.updPh n (fun x => { x with dropDue := false, dropOff := false })).railUpd r
    else ((m.phaseEnter n).railUpd r).phPins n

/-- A phase leaves service at once: its rail runs no period for it. -/
def phaseLeave (m : Module) (n : Nat) : Module :=
  if m.phSt n = psFailed then m
  else (m.put (pgPhase + n) PHASE_STATUS_SPARE_IN 0).setPh n psOff

/-- EN of a phase is written 0 (R198, R200): an active one drops at the rail's next period boundary; any
other goes OFF at once. Adopted levels end (R147). -/
def phaseDisable (m : Module) (n : Nat) : Module :=
  if !bit (m.reg (pgPhase + n) CTRL) 0 then m.phPins n
  else
    let r := m.railOf n
    let m := m.setReg (pgPhase + n) CTRL (clrBit (m.reg (pgPhase + n) CTRL) 0)
    let m :=
      if psSwitches (m.phSt n) && m.rlRuns r then m.updPh n (fun x => { x with dropDue := true, dropOff := true })
      else m.phaseLeave n
    ((m.applyOnStop (pgPhase + n)).railUpd r).phPins n

/-- `CFG` of a phase with EN 0 has been written: a drop that still waited is made, on the rail that the
phase had (R200). -/
def phaseMoved (m : Module) (n old : Nat) : Module :=
  let m := if (m.phase n).dropOff then m.dropPhase old n else m
  let m := m.put (pgPhase + n) PHASE_STATUS_TRUNC (m.get (pgRail + m.railOf n) RAIL_STATUS_TRUNC)
  (m.railUpd old).railUpd (m.railOf n)

/-- The availability of the rail's phases is judged again at its period boundary (R145): a change of
`ILIM_POS` to or from 0 takes a phase out of service or into it. -/
def phasesJudge (m : Module) (r : Nat) : Module :=
  ((m.namedBy r).filter (fun n => m.en (pgPhase + n) && m.placedOn n r)).foldl (fun m n =>
    if m.phSt n = psOff && m.phAvail n then m.phaseEnter n
    else if psSwitches (m.phSt n) && !m.phAvail n then m.updPh n (fun x => { x with dropDue := true, dropOff := true })
    else if !m.phAvail n && (m.phSt n = psInactive || m.phSt n = psShed || m.phSt n = psSpare) then m.setPh n psOff
    else m) m

/-- A latch bit of OPEN or CBC is released: the phase returns as INACTIVE, or SPARE_IDLE for a
spare not in service (R198, R199), active while shedding is off (R180). With SENSE released its sense
protects again, in whatever state it is. -/
def phaseRelease (m : Module) (n b : Nat) : Module :=
  let r := m.railOf n
  let st := m.phSt n
  let m :=
    if (b = PHASE_FLT_OPEN && st = psOpen) || (b = PHASE_FLT_CBC && st = psRemoved) then
      (m.setPh n psOff).phaseEnter n
    else if b = PHASE_FLT_SENSE then
      let m := m.put (pgPhase + n) PHASE_STATUS_OBS 0
      let m := m.put (pgPhase + n) PHASE_DUTY_D_CEIL 0
      let m := m.updPh n (fun x => { x with shedDue := false })
      if st = psDerated || st = psShed then (m.setPh n psOff).phaseEnter n else m
    else m
  m.railUpd r

end Module

end Sys2Proof.Machine
end

