-- ==== Sys2Proof/Machine/Loop.lean ====
section
/-! DEFINITION. The control loops of a rail at a sample (R165, R177, R181, R193, R214 to R232), and
the release of the duty words (R211). -/

namespace Sys2Proof.Machine

/-! ### Loop arithmetic (R214 to R223) -/

/-- An increment is blocked when the last output saturated in its direction (R223). -/
def blocked (sat inc : Int) : Bool := (0 < sat && 0 < inc) || (sat < 0 && inc < 0)

/-- An integrator takes an increment unless it is frozen or blocked, and stays within its clamps
(R217, R218, R220); `lo` and `hi` are in Q1.15. -/
def integrate (st inc sat lo hi : Int) (frozen : Bool) : Int :=
  if frozen || blocked sat inc then st else clampInt (lo * 32768) (hi * 32768) (satInt 40 (st + inc))

/-- The derivative state at the next sample (R217). -/
def derive (a b sh : Int) (st e ePrev : Int) : Int :=
  satInt 40 (roundDiv (a * st) 32768 + b * (e - ePrev) * 2 ^ sh.toNat)

/-- The direction in which a value left a range. -/
def satDir (lo hi x : Int) : Int := if hi < x then 1 else if x < lo then -1 else 0

/-- Rounding half to even from Q10.30 to Q1.15, before saturation (R215). -/
def rhe15 (x : Int) : Int := roundDiv x 32768

/-- The voltage loop (R217): the new integrator state, derivative state, proportional term and the
output before it is clamped. -/
def pid (kp ki a b shp shi shd lo hi e ePrev iSt dSt sat : Int) (frozen : Bool) :
    Int × Int × Int × Int :=
  let p := kp * e * 2 ^ shp.toNat
  let i := integrate iSt (ki * e * 2 ^ shi.toNat) sat lo hi frozen
  let d := derive a b shd dSt e ePrev
  (i, d, p, rhe15 (p + i + d))

/-- The observer's next estimate, µA (R193): `dec` the decimation, `l` in nH, `rp` in 0.1 mΩ, `d` in
Q1.15, `vin` in mV, `vout` in 6.25 µV. -/
def observe (dec l rp : Nat) (d : Int) (vin : Nat) (vout i : Int) : Int :=
  let v := d * vin * 10000000 - 25 * vout * 81920000 - rp * i * 32768
  clampInt (-3276800000) 3276700000 (i + roundDiv (dec * 125 * v) (2 * l * 327680000))

/-- The next value of a ramp towards `dst` by `step` (R181, R228). -/
def rampTo (x dst step : Int) : Int :=
  if x < dst then min dst (x + step) else max dst (x - step)

namespace Module

/-! ### References (R181, R183, R228, R229) -/

/-- VSET in force, in 6.25 µV. -/
def vset (m : Module) (r : Nat) : Int := (m.val (pgRail + r) RAIL_VSET * m.vUnit r : Nat)

/-- The VSNS sample in 6.25 µV. -/
def ySense (m : Module) (r : Nat) (y : Int) : Int := roundDiv (y * m.vFs r) 32768

/-- The string whose rail this is and which has started (R346). -/
def strOf (m : Module) (r : Nat) : Option Nat :=
  (List.range (nStrings m.sys.part)).find? (fun b =>
    (nth {} m.bt b).run && m.cfg (pgBatt + b) BATT_CFG_RAIL = r)

/-- The Live writes and COMMITs that a loop sample applies (R204, R225): those of the rail's page,
but for `DT` and `DT_LIM`, and the rail's coefficient sets. -/
def loopBoundary (m : Module) (r : Nat) : Module :=
  let sel := fun k => decide (pageOfKey k = pgRail + r) && k ≠ rkey (pgRail + r) RAIL_DT
    && k ≠ rkey (pgRail + r) RAIL_DT_LIM
  let m := (m.applyPend sel).applySnap (fun k => decide (pageOfKey k = pgRail + r))
  m.applySnap (fun k => inGroup pgCle r k)

/-- The pairs that the sample reads are checked (R94, R226); a mismatched coefficient is named in
`CLE.LAST`. -/
def loopPairs (m : Module) (r : Nat) : Module :=
  let m := m.usePairs (pgRail + r)
    [RAIL_VSET, RAIL_SLOPE, RAIL_RAMP_LEAD, RAIL_OVS, RAIL_OVS_MIN, RAIL_UV_THR, RAIL_ILIM_RAIL, RAIL_PH_RATING,
      RAIL_DUTY_MAX]
  let m := (m.actives r).foldl (fun m n => m.usePairs (pgPhase + n)
    [PHASE_ISNS_SCALE, PHASE_ILIM_POS, PHASE_ILIM_NEG, PHASE_OPEN_THR]) m
  let words := (List.range 7).map (fun w => (0, 8 * r + w))
    ++ (List.range 4).map (fun w => (1, 4 * r + w))
    ++ (if m.bidi r then (List.range 6).map (fun w => (2, 8 * r + w)) else [])
  words.foldl (fun m w =>
    if pairOk (m.liveKey (tkey pgCle w.1 w.2)) then m.passed (tkey pgCle w.1 w.2)
    else
      let m := (m.pairUse pgCle TBL_DATA).1
      m.setReg pgCle CLE_LAST (BitVec.ofNat 32 (2 * 2 ^ 28 + r * 2 ^ 24 + w.1 * 2 ^ 16 + w.2))) m

/-- The reference of the sample (R181, R228): V0 at a start, else one step of the ramp, clamped to
VSNS + `RAMP_LEAD` while the reference lies below the end point. -/
def loopRef (m : Module) (r : Nat) (yf vOld : Int) : Module :=
  let rl := m.rail r
  let dst := m.vset r
  if rl.first then m.updRl r (fun x => { x with ref := yf, ramp := yf })
  else if !rl.ramping then
    if dst = vOld then m
    else (m.probeAbort r).updRl r (fun x => { x with ref := yf, ramp := yf, ramping := true })
  else
    let step : Int := (m.val (pgRail + r) RAIL_SLOPE * decimOf (m.cfg (pgRail + r) RAIL_CFG_DECIM) : Nat)
    let lead : Int := (m.val (pgRail + r) RAIL_RAMP_LEAD * 160 : Nat)
    let nom := rampTo rl.ramp dst step
    let ref := if rl.ref < dst then min nom (yf + lead) else nom
    m.updRl r (fun x => { x with ref := ref, ramp := nom })

/-- The ramp ends when the reference equals VSET; in soft start the rail is then REGULATING
(R183, R186). -/
def loopRampEnd (m : Module) (r : Nat) : Module :=
  if (m.rail r).ref ≠ m.vset r then m
  else
    let m := m.updRl r (fun x => { x with ramping := false, stall := false })
    if m.rlSt r = rsSoft then
      let m := m.put (pgRail + r) RAIL_STATUS_STATE rsReg
      m.raise (pgRail + r) RAIL_EV_SS_DONE
    else m

/-- The overshoot level and its exit level (R165). -/
def loopLevels (m : Module) (r : Nat) : Module :=
  let ref := (m.rail r).ref
  let thr : Int := m.valF (pgRail + r) RAIL_OVS_OVS_THR
  let hys : Int := m.valF (pgRail + r) RAIL_OVS_OVS_HYS
  let add : Int := m.val (pgRail + r) RAIL_OVS_MIN
  let lvl := max (ref + ref * thr / 400) (ref + add * 160)
  m.updRl r (fun x => { x with ovLvl := lvl, ovExit := lvl - ref * hys / 400 })

/-! ### Sensing (R155, R193, R220) -/

/-- A sample at full scale, either way (R192): the average of the largest 14-bit codes (R154, R155). -/
def fullScale (y : Int) : Bool := decide (32764 ≤ y) || decide (y ≤ -32768)

/-- The members' samples, corrected, with the sense sign of each (R155, R160, R203), and the samples in a
row at full scale (R192). -/
def loopSense (m : Module) (r : Nat) (x : Sample) : Module :=
  (x.cur.filter (fun nc => (m.namedBy r).contains nc.1)).foldl (fun m nc =>
    let y := m.calApply nc.1 nc.2
    let c := if m.flag (pgPhase + nc.1) PHASE_CFG_ISNS_INV then -y else y
    m.updPh nc.1 (fun p => { p with
      code := satInt 16 c, fullN := if fullScale nc.2 then min 16 (p.fullN + 1) else 0 })) m

/-- The observers of a rail's phases (R193): none where MODEL is 0, or where the bus input named by
`VIN_SRC` gives no valid value. With an inductance of 0 beside a resistance, the spec states no estimate: a
free value. -/
def loopObserve (m : Module) (r : Nat) (yf : Int) : Module :=
  let dec := decimOf (m.cfg (pgRail + r) RAIL_CFG_DECIM)
  (m.namedBy r).foldl (fun m n =>
    let ok : Bool := m.liveReg (pgPhase + n) PHASE_MODEL ≠ 0
    match ok, (m.rail r).vin with
    | true, some v =>
      let l := m.cfg (pgPhase + n) PHASE_MODEL_L
      let (m, i) :=
        if l = 0 then let (z, m) := m.draw 2; (m, sext 32 z)
        else (m, observe dec l (m.cfg (pgPhase + n) PHASE_MODEL_R_PATH) (m.phase n).d v yf (m.phase n).obs)
      let m := m.updPh n (fun p => { p with obs := i, obsOk := true })
      m.putI (pgPhase + n) PHASE_IPH_I_OBS (roundDiv i 100000)
    | _, _ => m.updPh n (fun p => { p with obsOk := false })) m

/-- The conversions for which sense and observer of each phase have disagreed, with the sensed current at
or above `OPEN_THR` (R192). -/
def loopDiffer (m : Module) (r : Nat) : Module :=
  let dec := decimOf (m.cfg (pgRail + r) RAIL_CFG_DECIM)
  let tol : Int := (m.cfg (pgRail + r) RAIL_OBS_CFG_TOL * m.val (pgRail + r) RAIL_PH_RATING * 32768 : Nat)
  (m.namedBy r).foldl (fun m n =>
    let ph := m.phase n
    let i := ph.code * m.val (pgPhase + n) PHASE_ISNS_SCALE
    let o := roundDiv (ph.obs * 32768) 100000
    let far := ph.obsOk && decide ((m.val (pgPhase + n) PHASE_OPEN_THR * 32768 : Nat) ≤ i)
      && (decide (tol < 100 * (i - o)) || decide (100 * (i - o) < -tol))
    m.updPh n (fun x => { x with disN := if far then min 8388608 (x.disN + dec) else 0 })) m

/-- The sibling current of a probe in periods 3 to 10 and 13 to 20 (R189), taken at the loop samples that
fall in them (DESIGN CHOICE, log entry 128). -/
def loopProbe (m : Module) (r : Nat) : Module :=
  ((m.namedBy r).filter (fun n => m.phSt n = psProbing)).foldl (fun m n =>
    let k := (m.phase n).probeN
    let i := sumI (((m.actives r).filter (fun j => j ≠ n)).map m.curOf)
    if 3 ≤ k ∧ k ≤ 10 then m.updPh n (fun x => { x with prSumA := x.prSumA + i, prCntA := x.prCntA + 1 })
    else if 13 ≤ k ∧ k ≤ 20 then m.updPh n (fun x => { x with prSumB := x.prSumB + i, prCntB := x.prCntB + 1 })
    else m) m

/-- The rail current and the currents in use (R155, R204). -/
def loopCurrent (m : Module) (r : Nat) : Module :=
  let i := sumI ((m.actives r).map m.curOf)
  let m := m.updRl r (fun x => { x with cur := i })
  let m := m.putI (pgRail + r) RAIL_IMEAS_I (roundDiv i 327680)
  (m.namedBy r).foldl (fun m n =>
    m.putI (pgPhase + n) PHASE_IPH_I_USED
      (if psSwitches (m.phSt n) then roundDiv (m.curOf n) 32768 else 0)) m

/-! ### Freezes (R158, R167, R224) -/

/-- The whole rail's integrators freeze for truncation (R167, R224). -/
def frozenRail (m : Module) (r : Nat) : Bool :=
  (m.rail r).trunc || (m.rail r).resume || m.ginTrunc r

/-- The voltage and current integrators freeze (R224). -/
def frozenV (m : Module) (r : Nat) : Bool :=
  m.frozenRail r || (m.actives r).any (fun n => m.get (pgPhase + n) PHASE_STATUS_IN_CBC = 1)

/-! ### Loops (R217 to R226) -/

/-- Coefficient `w` of the rail in table `t`, signed. -/
def coef (m : Module) (r t w : Nat) : Int := m.tblValI pgCle t ((if t = 1 then 4 else 8) * r + w)

/-- Shift at bit `lo` of the shift word of table `t` (R239). -/
def coefSh (m : Module) (r t w lo : Nat) : Int :=
  bits (m.pairKey (tkey pgCle t ((if t = 1 then 4 else 8) * r + w))) lo 3

/-- The integrators of a starting rail (R222). -/
def loopPreset (m : Module) (r : Nat) (yf : Int) : Module :=
  if !(m.rail r).first then m
  else
    let v : Int :=
      if m.bidi r then m.coef r 0 5 * 32768
      else match (m.rail r).vin with
        | some v => satInt 40 (roundDiv (yf * 1073741824) (160 * v))
        | none => 0
    m.updRl r (fun x => { x with vInt := v, vDer := 0, ePrev := 0, cInt := 0, vSat := 0, cSat := 0,
                                 first := false })

/-- A word of a loop state is uncorrectable (R226): a derivative state takes 0, an integrator takes the
value with which the other terms reproduce the output in force. -/
def stateFix (m : Module) (s : LaneSlot) (w : Nat) : Module :=
  if s.kind = 1 then
    m.updRl s.rail (fun x =>
      if w = 2 then { x with vDer := 0 }
      else if w < 2 then { x with vInt := satInt 40 (x.u * 32768 - x.pTerm - x.vDer) } else x)
  else if s.kind = 2 then
    if w < 2 then m.updPh s.inst (fun x => { x with bState := satInt 40 (x.db * 32768 - x.bTerm) }) else m
  else if w < 2 then m.updRl s.rail (fun x => { x with cInt := satInt 40 (x.dRail * 32768 - x.cTerm) }) else m

/-- The poisoned words of a rail's loop states (R79, R94, R99, R226), by their index in CLE table 3: each
counts as a mismatch at use, is named in `CLE.LAST` and latches POISON; derivative states come first. -/
def loopPoison (m : Module) (r : Nat) (ws : List Nat) : Module :=
  let mine := ws.filterMap (fun i =>
    (m.cle.slots.find? (fun s => s.idx = i / 4 && s.rail = r)).map (fun s => (s, i % 4)))
  (mine.filter (fun x => x.2 = 2) ++ mine.filter (fun x => x.2 ≠ 2)).foldl (fun m x =>
    let m := (m.pairUse pgCle TBL_DATA).1
    let m := m.setReg pgCle CLE_LAST (BitVec.ofNat 32 (3 * 2 ^ 28 + r * 2 ^ 24 + 3 * 2 ^ 16 + x.1.idx))
    let m := (m.raise pgCle CLE_EV_STATE_POISON).latchNow pgCle FLT_POISON
    m.stateFix x.1 x.2) m

/-- The rail voltage loop (R217). -/
def loopVolt (m : Module) (r : Nat) (y : Int) : Module :=
  let rl := m.rail r
  let e := satInt 16 (m.refCode r - y)
  let fz := m.frozenV r
  let (i, d, p, raw) := pid (m.coef r 0 0) (m.coef r 0 1) (m.coef r 0 2) (m.coef r 0 3)
    (m.coefSh r 0 4 16) (m.coefSh r 0 4 20) (m.coefSh r 0 4 24) (m.coef r 0 6) (m.coef r 0 5)
    e rl.ePrev rl.vInt rl.vDer rl.vSat fz
  let lo : Int := if m.bidi r then -32768 else 0
  let hi : Int := if m.bidi r then 32767 else m.dutyMax r
  let m := m.updRl r (fun x => { x with
    vInt := i, vDer := d, pTerm := p, ePrev := e, vSat := satDir lo hi raw, u := clampInt lo hi raw,
    dRail := if m.bidi r then x.dRail else clampInt lo hi raw })
  m.put pgCle ⟨CLE_FREEZE, r, 1⟩ (if fz then 1 else 0)

/-- The set point of a string rail at a sample: 0 while the string is SWAPPED, no discharge in
CUTOFF (R350, R367). -/
def stringSet (m : Module) (r : Nat) : Int :=
  let i := (m.rail r).iset
  match m.strOf r with
  | none => i
  | some b =>
    if m.get (pgBatt + b) BATT_STATUS_SWAPPED = 1 then 0
    else if m.get (pgBatt + b) BATT_STATUS_LEVEL = 3 then min i 0
    else i

/-- The sine of an impedance measurement, at most 1 % of I_FS (R360). -/
def impAdd (m : Module) (r : Nat) : Int :=
  match m.strOf r with
  | none => 0
  | some b =>
    let bt : Batt := nth {} m.bt b
    if bt.imp then clampInt (-328) 328 (Config.impSine bt.impF bt.impK) else 0

/-- The slewed set point of the sample and the integrator preset of a Crossing (R218, R219, R287). A
SWAPPED string counts as having a Crossing current of 0, which changes nothing (R350). -/
def loopSlew (m : Module) (r : Nat) : Module :=
  let rl := m.rail r
  let swapped := match m.strOf r with
    | some b => decide (m.get (pgBatt + b) BATT_STATUS_SWAPPED = 1) | none => false
  match rl.cross with
  | some (ix, dx) =>
    if swapped then m.updRl r (fun x => { x with cross := none })
    else
      let ix := if m.stringSet r < ix then m.stringSet r else ix
      m.updRl r (fun x => { x with cross := none, iSlew := ix, cInt := dx * 32768 })
  | none =>
    let step := m.coef r 2 5
    let dst := m.stringSet r
    m.updRl r (fun x => { x with iSlew := if step ≤ 0 then dst else rampTo x.iSlew dst step })

/-- The current loop of a BIDI rail (R218). -/
def loopCurr (m : Module) (r : Nat) : Module :=
  if !m.bidi r then m
  else
    let m := m.loopSlew r
    let rl := m.rail r
    let fz := m.frozenV r
    let iref := min (satInt 16 (rl.iSlew + m.impAdd r)) rl.u
    let ei := satInt 16 (iref - satInt 16 (roundDiv rl.cur (m.iFs r)))
    let st := integrate rl.cInt (m.coef r 2 1 * ei * 2 ^ (m.coefSh r 2 2 20).toNat) rl.cSat
      (m.coef r 2 4) (m.coef r 2 3) fz
    let pc := m.coef r 2 0 * ei * 2 ^ (m.coefSh r 2 2 16).toNat
    let raw := rhe15 (pc + st)
    let d := clampInt 0 (m.dutyMax r) raw
    let m := m.updRl r (fun x => { x with iRef := iref, cInt := st, cTerm := pc, cSat := satDir 0 (m.dutyMax r) raw,
                                          dRail := d })
    m.put pgCle ⟨CLE_FREEZE, 16 + r, 1⟩ (if fz then 1 else 0)

/-- Samples whose rail output saturated (R238). -/
def loopSat (m : Module) (r : Nat) : Module :=
  if (m.rail r).vSat ≠ 0 || (m.bidi r && (m.rail r).cSat ≠ 0) then m.countReg pgCle CLE_SAT_CNT 1 else m

/-- Duty ceiling of the phases that run on their observer (R195): the mean duty of the sensed active
siblings plus DCEIL; without such a sibling the spec states no mean, so it is a free value. -/
def loopCeil (m : Module) (r : Nat) : Module :=
  let sensed := (m.actives r).filter (fun n => m.get (pgPhase + n) PHASE_STATUS_OBS = 0)
  let derated := (m.actives r).filter (fun n => m.get (pgPhase + n) PHASE_STATUS_OBS = 1)
  let add := roundDiv (m.cfg (pgRail + r) RAIL_OBS_CFG_DCEIL * 32768 : Nat) 400
  derated.foldl (fun m n =>
    let (m, mean) :=
      if sensed.isEmpty then let (z, m) := m.draw 3; (m, ((z % 32768 : Nat) : Int))
      else (m, roundDiv (sumI (sensed.map (fun j => (m.phase j).d))) sensed.length)
    m.put (pgPhase + n) PHASE_DUTY_D_CEIL (clampInt 1 32767 (mean + add)).toNat) m

/-- The current that a SENSE_DERATED phase is limited to, in 0.1 A / 32,768 (R195). -/
def derateCur (m : Module) (r : Nat) : Int :=
  roundDiv (m.cfg (pgRail + r) RAIL_OBS_CFG_DERATE * m.val (pgRail + r) RAIL_PH_RATING * 32768 : Nat) 100

/-- The balance target of a phase, in 0.1 A / 32,768 (R220). -/
def balTarget (m : Module) (r n : Nat) : Int :=
  let act := m.actives r
  let cur := (m.rail r).cur
  let nd := (act.filter (fun j => m.phSt j = psDerated)).length
  let lim := m.derateCur r
  let even := roundDiv cur act.length
  if nd = 0 || (even ≤ lim && -lim ≤ even) then even
  else if m.phSt n = psDerated then clampInt (-lim) lim even
  else roundDiv (cur - nd * clampInt (-lim) lim even) (act.length - nd)

/-- The balance loop of an active phase and its duty word (R220, R221). -/
def loopBal (m : Module) (r n : Nat) : Module :=
  let ph := m.phase n
  let ceil := m.get (pgPhase + n) PHASE_DUTY_D_CEIL
  let lim : Int := min 32767 (m.tblVal pgCle 1 (4 * r + 3) : Nat)
  let probing := m.phSt n = psProbing
  let fz := m.frozenRail r || m.get (pgPhase + n) PHASE_STATUS_IN_CBC = 1
    || (ceil ≠ 0 && (ceil : Int) ≤ ph.dNext) || probing
  let scale := m.val (pgPhase + n) PHASE_ISNS_SCALE
  let eb := satInt 16 (roundDiv (m.balTarget r n) scale - satInt 16 (roundDiv (m.curOf n) scale))
  let skip := ph.fresh || probing
  let st := if skip then ph.bState
    else integrate ph.bState (m.coef r 1 1 * eb * 2 ^ (m.coefSh r 1 2 20).toNat) ph.bSat (-lim) lim fz
  let pb := if skip then ph.bTerm else m.coef r 1 0 * eb * 2 ^ (m.coefSh r 1 2 16).toNat
  let raw := rhe15 (pb + st)
  let db := if skip then ph.db else clampInt (-lim) lim raw
  let dMax := m.dutyCap n
  let want := (m.rail r).dRail + db
  let sat := if skip then 0
    else if satDir (-lim) lim raw ≠ 0 then satDir (-lim) lim raw else satDir 0 dMax want
  m.updPh n (fun x => { x with bState := st, bTerm := pb, db := db, bSat := sat, dNext := clampInt 0 dMax want })

/-- The phase add of the sample (R177). -/
def loopAdd (m : Module) (r : Nat) : Module :=
  let n := (m.actives r).length
  if m.shedOn r && m.rlSt r = rsReg && !m.addWaits r && n ≠ 0
      && decide (((m.shedEntry r 0 n * n * 32768 : Nat) : Int) < (m.rail r).cur)
  then m.addPhase r else m

/-- The dwell timer runs while its condition holds, and falls with it (R179). -/
def loopDwell (m : Module) (r : Nat) : Module :=
  if m.dwellCond r (m.rail r).cur then m.updRl r (fun x => { x with dwell := true })
  else (m.updRl r (fun x => { x with dwell := false })).put (pgRail + r) RAIL_STATUS_DROP_READY 0

/-- Condition (a) of R184 at the sample. -/
def loopStall (m : Module) (r : Nat) (yf : Int) : Module :=
  let rl := m.rail r
  m.updRl r (fun x => { x with
    stall := m.rlSt r = rsSoft && decide (2 * yf < rl.ramp) && decide (m.vset r < 5 * rl.ramp) })

/-- The rail's voltage and reference as reported (R205). -/
def loopMeas (m : Module) (r : Nat) (yf : Int) : Module :=
  let u := m.vUnit r
  let m := m.put (pgRail + r) RAIL_VMEAS_V (clampInt 0 65535 (roundDiv yf u)).toNat
  m.put (pgRail + r) RAIL_VMEAS_REF (clampInt 0 65535 (roundDiv (m.rail r).ref u)).toNat

/-- The charge of the sample goes into `Q_RAW`, in mC, wrapping (R352); the impedance sine moves on
by one sample. -/
def loopCharge (m : Module) (r : Nat) : Module :=
  match m.strOf r with
  | none => m
  | some b =>
    let q := (nth {} m.bt b).qAcc + (m.rail r).cur * decimOf (m.cfg (pgRail + r) RAIL_CFG_DECIM)
    let mC := q / 5242880000
    let m := { m with bt := upd m.bt b (fun x => { x with qAcc := q % 5242880000, impK := x.impK + 1 }) }
    m.setReg (pgBatt + b) BATT_Q_RAW
      (BitVec.ofInt 32 (sext 32 (m.reg (pgBatt + b) BATT_Q_RAW).toNat + mC))

/-- What the sample brings is taken (R155, R193, R211): what waits for it applies, the pairs are checked,
VSNS, V_IN and the members' currents follow, and the observers; the answer's number is VSNS in 6.25 µV. -/
def loopTake (m : Module) (r : Nat) (x : Sample) : Module × Int :=
  let m := (((m.loopBoundary r).loopPairs r).capUpd r).allActive r
  let y := m.calApply (48 + r) x.y
  let vin := m.busValid (m.cfg (pgRail + r) RAIL_CFG_VIN_SRC)
  let m := m.updRl r (fun rl => { rl with y := y, vin := vin })
  let yf := m.ySense r y
  (((m.loopSense r x).loopObserve r yf).loopDiffer r, yf)

/-- The threshold codes follow fields, corrections, reference and rail state (R157, R165, R182). -/
def loopThr (m : Module) (r : Nat) : Module :=
  ((m.namedBy r).foldl (fun m n => m.phaseThr n) m).railThr r

/-- A decimated sample of a running rail (R211): what waits for the sample applies, then reference,
sensing, observers, loops, charge, phase add and dwell, thresholds, and the trace units. -/
def loopSample (m : Module) (r : Nat) (x : Sample) : Module :=
  let m := (m.arrive x.t).ginNow x.gin
  if !m.rlRuns r then m
  else
    let vOld := m.vset r
    let (m, yf) := m.loopTake r x
    let m := (m.loopRef r yf vOld).loopPreset r yf
    let m := m.loopPoison r x.poison
    let m := (((m.loopCurrent r).loopProbe r).loopLevels r).loopRampEnd r
    let m := ((m.loopVolt r (m.rail r).y).loopCurr r).loopSat r
    let m := m.loopCeil r
    let m := (m.actives r).foldl (fun m n => m.loopBal r n) m
    let m := m.updRl r (fun rl => { rl with duties := true })
    let m := (m.loopMeas r yf).loopCharge r
    let m := (((m.loopAdd r).loopDwell r).loopStall r yf).loopThr r
    m.trSample r x.full

/-- 160 CORE cycles after the sample the duty words of the rail's phases are released (R211); they
are discarded when the rail has gone off meanwhile (R232). Each takes effect at its phase's next pulse
start (R149). -/
def dutyRelease (m : Module) (r : Nat) : Module :=
  if !m.rlRuns r || !(m.rail r).duties then m.updRl r (fun x => { x with duties := false })
  else
    let m := m.updRl r (fun x => { x with duties := false })
    (m.actives r).foldl (fun m n => m.updPh n (fun x => { x with dRel := x.dNext })) m

end Module

end Sys2Proof.Machine
end

