-- ==== Sys2Proof/Machine/Run.lean ====
section
/-! DEFINITION. How a command's effect becomes its outcome: the block goes on in every case. -/

namespace Sys2Proof.Machine

/-- The module is out of reset and fully operating: VAUX present, or within 2 ms of a collapse
(R48, R49). -/
def Module.powered (m : Module) : Bool := m.sys.pwr = .run || m.sys.pwr = .ride

/-- The outcome of a command whose effect on the module is `f`; the reply of the command before it
is gone. -/
def act (s : State) (f : Module → Module) : Host.Outcome State Fault Refusal :=
  .next { s with m := f { s.m with out := {} } }

/-- The same for an event of a unit that works only while the module is powered (R33, R49). -/
def actLive (s : State) (f : Module → Module) : Host.Outcome State Fault Refusal :=
  act s (fun m => if m.powered then f m else m)

/-- The same for an event of the supply, which RESET_n held low does not stop (R46, R48, R50). -/
def actSupply (s : State) (f : Module → Module) : Host.Outcome State Fault Refusal :=
  act s (fun m => if m.powered || m.sys.pwr = .pinReset then f m else m)

/-- The outcome of a command that also reaches the non-volatile part. -/
def act2 (s : State) (f : NonVol → Module → NonVol × Module) : Host.Outcome State Fault Refusal :=
  let x := f s.nv { s.m with out := {} }
  .next { s with nv := x.1, m := x.2 }

/-- The same, only while the module is powered. -/
def act2Live (s : State) (f : NonVol → Module → NonVol × Module) : Host.Outcome State Fault Refusal :=
  act2 s (fun nv m => if m.powered then f nv m else (nv, m))

/-- An event of an indexed unit of which the part has `n`; a unit that is absent has none (R2). -/
def actAt (i : Nat) (n : Nat → Nat) (s : State) (f : Module → Module) : Host.Outcome State Fault Refusal :=
  actLive s (fun m => if i < n m.sys.part then f m else m)

end Sys2Proof.Machine
end

