-- ==== Sys2Proof/Machine/RailEvents.lean ====
section
/-! DEFINITION. The hardware events of rails and phases: samples and period boundaries,
truncation, current limits, under-voltage, shorts, shedding and probes (R149 to R198). -/

namespace Sys2Proof.Machine

namespace Module

/-- VSNS rises above comparator A's threshold, the overshoot level (R156, R166); comparator A then holds the
exit level. -/
def truncOn (m : Module) (r : Nat) (x : Int) : Module :=
  if !m.rlRuns r || (m.rail r).trunc || !above x (m.thrA (48 + r)) then m
  else ((m.updRl r (fun y => { y with trunc := true })).railThr r).truncSync r

/-- VSNS falls below the exit level: comparator A returns to the overshoot level, and pulses resume at the
next pulse starts (R166). -/
def truncOff (m : Module) (r : Nat) (x : Int) : Module :=
  if !(m.rail r).trunc || !below x (m.thrA (48 + r)) then m
  else ((m.updRl r (fun y => { y with trunc := false })).railThr r).truncSync r

/-- Truncation has lasted longer than OVS_TMAX (R168). -/
def overVolt (m : Module) (r : Nat) : Module :=
  if !m.rlRuns r || !(m.rail r).trunc then m
  else
    let m := m.raise (pgRail + r) RAIL_EV_OV
    let (m, acts) := m.fault (pgRail + r) RAIL_FLT_OV 0 (rkey (pgRail + r) FLT_WIN)
    let m := m.trFault r 4
    if acts then m.railLatch r else m

/-- A trip of a phase is counted, and its policy acts when it becomes lasting (R169, R172, R191). -/
def cbcCount (m : Module) (n : Nat) : Module :=
  let r := m.railOf n
  let m := m.updPh n (fun x => { x with cut := true })
  let m := m.countReg (pgPhase + n) PHASE_CBC_CNT 1
  let m := m.probeAbort r
  let (m, acts) := m.fault (pgPhase + n) PHASE_FLT_CBC 0 (rkey (pgPhase + n) FLT_WIN)
  let m := m.trFault r 1
  if !acts then m
  else
    let m := m.raise (pgPhase + n) PHASE_EV_CBC_LASTING
    if m.flag (pgPhase + n) PHASE_CFG_CBC_POL then ((m.setPh n psRemoved).spareIn r).railUpd r
    else m.railUpd r

/-- A phase switches and its sense protects it: on its observer it has a duty ceiling instead (R195). -/
def protects (m : Module) (n : Nat) : Bool :=
  psSwitches (m.phSt n) && m.get (pgPhase + n) PHASE_STATUS_OBS = 0

/-- A phase trips its cycle-by-cycle limit (R169): the input is above comparator A's threshold, and
`LEB` PWM cycles have passed since the pulse start (R170). -/
def cbcTrip (m : Module) (n : Nat) (x : Crossing) : Module :=
  if !m.protects n || !above x.x (m.thrA n) || x.pwm < m.cfg (pgRail + m.railOf n) RAIL_CFG_LEB then m
  else m.cbcCount n

/-- The phase is in its low interval, `pwm` PWM cycles of 32 taps after its pulse start (R149, R171). -/
def lowInterval (m : Module) (n pwm : Nat) : Bool := (m.phase n).onTaps ≤ 32 * pwm

/-- A phase trips its negative limit (R171): a BUCK phase in its low interval is tri-state until its next
pulse start; on a BIDI rail the interval ends in the same way, and counts as a cycle-by-cycle trip (DESIGN
CHOICE, log entry 130). -/
def negTrip (m : Module) (n : Nat) (x : Crossing) : Module :=
  if !m.protects n || !below x.x (m.thrB n) then m
  else if m.bidi (m.railOf n) then
    ((m.updPh n (fun y => { y with negTri := true })).phPins n).cbcCount n
  else if m.lowInterval n x.pwm then (m.updPh n (fun y => { y with negTri := true })).phPins n
  else m

/-- CORE sees VSNS comparator B low (R156, R173). -/
def uvFalls (m : Module) (r : Nat) (x : Int) : Module :=
  if below x (m.thrB (48 + r)) then m.updRl r (fun y => { y with uvLow := true }) else m

/-- CORE sees VSNS comparator B high: the timer starts anew, and a reported under-voltage ends (R173). -/
def uvRises (m : Module) (r : Nat) (x : Int) : Module :=
  if below x (m.thrB (48 + r)) then m
  else (m.updRl r (fun y => { y with uvLow := false })).put (pgRail + r) RAIL_STATUS_UV 0

/-- The under-voltage timer reaches UV_DELAY (R173, R174); masked while UV_THR is 0 and outside
REGULATING. -/
def underVolt (m : Module) (r : Nat) : Module :=
  if m.rlSt r ≠ rsReg || !(m.rail r).uvLow || m.val (pgRail + r) RAIL_UV_THR = 0 then m
  else
    let m := m.raise (pgRail + r) RAIL_EV_UV
    let m := m.put (pgRail + r) RAIL_STATUS_UV 1
    let (m, acts) := m.fault (pgRail + r) RAIL_FLT_UV 0 (rkey (pgRail + r) FLT_WIN)
    let m := m.trFault r 2
    if acts && !m.flag (pgRail + r) RAIL_CFG_UV_POL then m.railLatch r else m

/-- The dwell timer reaches DWELL (R179). -/
def dropReady (m : Module) (r : Nat) : Module :=
  if (m.rail r).dwell && m.rlRuns r then m.put (pgRail + r) RAIL_STATUS_DROP_READY 1 else m

/-- A short is declared (R184, R185). -/
def shortDeclared (m : Module) (r : Nat) : Module := (m.railShort r).trFault r 3

/-- Condition (a) of R184 has held for SS_STALL. -/
def ssStall (m : Module) (r : Nat) : Module :=
  if m.rlSt r = rsSoft && (m.rail r).stall then m.shortDeclared r else m

/-- Condition (b) of R184 has held for 500 µs. -/
def ssCbc (m : Module) (r : Nat) : Module :=
  if m.rlSt r = rsSoft && !(m.actives r).isEmpty
      && (m.actives r).all (fun n => (m.phase n).cut || m.get (pgPhase + n) PHASE_STATUS_IN_CBC = 1)
  then m.shortDeclared r else m

/-- RETRY_GAP expires (R185, R186). -/
def shortRetry (m : Module) (r : Nat) : Module := if m.rlSt r = rsRetry then m.softStart r else m

/-- A probe of a SUSPECT phase starts at its pulse start, lowest phase number first, one per rail
(R189). -/
def probeStart (m : Module) (n : Nat) : Module :=
  let r := m.railOf n
  let due := (m.namedBy r).filter (fun j => m.phSt j = psSuspect && (m.phase j).probeDue)
  if m.inSapling || due.head? ≠ some n || !m.rlRuns r || m.truncating r || (m.rail r).ramping
      || (m.namedBy r).any (fun j => m.phSt j = psProbing) then m
  else
    let m := (m.setPh n psProbing).updPh n (fun x => { x with
      probeDue := false, probeN := 0, prSumA := 0, prCntA := 0, prSumB := 0, prCntB := 0 })
    m.pulseStart n

/-- The phase is declared OPEN: it goes off at the rail's next period boundary (R190, R194). -/
def phaseOpen (m : Module) (n : Nat) : Module :=
  let m := m.raise (pgPhase + n) PHASE_EV_OPEN
  let m := m.updPh n (fun x => { x with openDue := true })
  m.latchNow (pgPhase + n) PHASE_FLT_OPEN

/-- The response of a probe in 0.1 A (R189); where no sample fell in one of its halves the spec states none,
so it is a free value. -/
def probeResp (m : Module) (n : Nat) : Int × Module :=
  let x := m.phase n
  if x.prCntA = 0 || x.prCntB = 0 then let (z, m) := m.draw 11; (sext 16 z, m)
  else
    (satInt 16 (roundDiv (x.prSumB * x.prCntA - x.prSumA * x.prCntB) (32768 * x.prCntA * x.prCntB)), m)

/-- The probe ends after its 20 periods (R190). -/
def probeDone (m : Module) (n : Nat) : Module :=
  let r := m.railOf n
  if m.phSt n ≠ psProbing || (m.phase n).probeN < 20 then m
  else
    let (resp, m) := m.probeResp n
    let thr : Int := m.cfg (pgRail + r) RAIL_PROBE_CFG_PROBE_THR
    let m := m.setPh n psSuspect
    let m := m.putI (pgPhase + n) PHASE_PROBE_RESP resp
    let m := m.put (pgPhase + n) PHASE_PROBE_TRIES (satAdd 8 (m.get (pgPhase + n) PHASE_PROBE_TRIES) 1)
    let m := m.raise (pgPhase + n) PHASE_EV_PROBE_DONE
    if thr ≤ resp then
      (m.put (pgPhase + n) PHASE_PROBE_RESULT 1).senseFail n 5
    else if 4 * resp < thr || 2 ≤ (m.phase n).inconcl then
      (m.put (pgPhase + n) PHASE_PROBE_RESULT 2).phaseOpen n
    else
      (m.put (pgPhase + n) PHASE_PROBE_RESULT 3).updPh n (fun x => { x with inconcl := x.inconcl + 1 })

/-- Every 256 switching periods the adaptive dead time moves by one tap (R152): `mean` is the rail's
mean duty, Q1.15. -/
def dtAdapt (m : Module) (r mean : Nat) : Module :=
  let rating := m.val (pgRail + r) RAIL_PH_RATING
  if m.rlSt r ≠ rsReg || !m.flag (pgRail + r) RAIL_DT_ADAPT || m.truncating r
      || decide ((m.rail r).cur * 10 < ((m.actives r).length * rating * 32768 : Nat)) then m
  else
    let rl := m.rail r
    let up := match rl.dtMean with
      | some old => if old < mean then !rl.dtUp else rl.dtUp
      | none => rl.dtUp
    let f : Fld := ⟨RAIL_DT_NOW, if rl.dtFall then 16 else 0, 10⟩
    let x := m.get (pgRail + r) f
    let x := if up then x + 1 else x - 1
    let x := max (m.cfg (pgRail + r) RAIL_DT_LIM_MIN) (min x (m.cfg (pgRail + r) RAIL_DT_LIM_MAX))
    let m := m.put (pgRail + r) f x
    m.updRl r (fun y => { y with dtUp := up, dtFall := !rl.dtFall, dtMean := some mean })

/-- What waits for the rail's period boundary applies (R83, R145, R152, R197): Live fields of the phases
and the dead time. -/
def periodTake (m : Module) (r : Nat) : Module :=
  let m := (m.namedBy r).foldl (fun m n => m.boundary (pgPhase + n)) m
  let m := m.applyPend (fun k => k = rkey (pgRail + r) RAIL_DT || k = rkey (pgRail + r) RAIL_DT_LIM)
  ((m.dtApply r).phasesJudge r).railUpd r

/-- What the last period saw becomes the flags of this one (R203, R224). -/
def periodFlags (m : Module) (r : Nat) : Module :=
  (m.namedBy r).foldl (fun m n =>
    let m := m.put (pgPhase + n) PHASE_STATUS_IN_CBC (if (m.phase n).cut then 1 else 0)
    m.updPh n (fun x => { x with cut := false })) m

/-- Removals, sheds and drops take effect (R179, R194, R195): those that waited for the boundary. -/
def periodMoves (m : Module) (r : Nat) : Module :=
  let m := ((m.namedBy r).filter (fun n => (m.phase n).openDue)).foldl (fun m n => m.openPhase r n) m
  let m := ((m.namedBy r).filter (fun n => (m.phase n).shedDue)).foldl (fun m n =>
    let m := m.updPh n (fun x => { x with shedDue := false })
    if m.phSt n = psDerated then ((m.probeAbort r).setPh n psShed).railUpd r else m) m
  ((m.namedBy r).filter (fun n => (m.phase n).dropDue)).foldl (fun m n => m.dropPhase r n) m

/-- A rail's PWM period boundary (R83, R150, R179, R194, R195): the phases re-space. -/
def railPeriod (m : Module) (r : Nat) : Module :=
  if !m.rlRuns r then m
  else
    let m := ((m.periodTake r).periodFlags r).periodMoves r
    (m.refresh r).spaceOut r

end Module

/-- LOOP_SAMPLE (R211). -/
def execLoopSample (r : Nat) (x : Sample) (s : State) : Host.Outcome State Fault Refusal :=
  actAt r nRails s (fun m => m.loopSample r x)

/-- DUTY_RELEASE (R211). -/
def execDutyRelease (r : Nat) (t : Instant) (s : State) : Host.Outcome State Fault Refusal :=
  actAt r nRails s (fun m => (m.arrive t).dutyRelease r)

/-- RAIL_PERIOD_BOUNDARY (R150). -/
def execRailPeriodBoundary (r : Nat) (t : Instant) (s : State) : Host.Outcome State Fault Refusal :=
  actAt r nRails s (fun m => (m.arrive t).railPeriod r)

/-- TRUNC (R166). -/
def execTrunc (r : Nat) (x : Int) (t : Instant) (s : State) : Host.Outcome State Fault Refusal :=
  actAt r nRails s (fun m => (m.arrive t).truncOn r x)

/-- TRUNC_EXIT (R166). -/
def execTruncExit (r : Nat) (x : Int) (t : Instant) (s : State) : Host.Outcome State Fault Refusal :=
  actAt r nRails s (fun m => (m.arrive t).truncOff r x)

/-- OV (R168). -/
def execOv (r cyc : Nat) (s : State) : Host.Outcome State Fault Refusal :=
  actAt r nRails s (fun m => (m.arriveAt cyc).overVolt r)

/-- CBC_TRIP (R169). -/
def execCbcTrip (n : Nat) (x : Crossing) (t : Instant) (s : State) : Host.Outcome State Fault Refusal :=
  actAt n nPhases s (fun m => (m.arrive t).cbcTrip n x)

/-- NEG_LIMIT_TRIP (R171). -/
def execNegLimitTrip (n : Nat) (x : Crossing) (t : Instant) (s : State) : Host.Outcome State Fault Refusal :=
  actAt n nPhases s (fun m => (m.arrive t).negTrip n x)

/-- UV_COMPARATOR_LOW (R173). -/
def execUvComparatorLow (r : Nat) (x : Int) (s : State) : Host.Outcome State Fault Refusal :=
  actAt r nRails s (fun m => m.uvFalls r x)

/-- UV_COMPARATOR_HIGH (R173). -/
def execUvComparatorHigh (r : Nat) (x : Int) (s : State) : Host.Outcome State Fault Refusal :=
  actAt r nRails s (fun m => m.uvRises r x)

/-- UV (R174). -/
def execUv (r cyc : Nat) (s : State) : Host.Outcome State Fault Refusal :=
  actAt r nRails s (fun m => (m.arriveAt cyc).underVolt r)

/-- DT_ADAPT (R152). -/
def execDtAdapt (r mean : Nat) (s : State) : Host.Outcome State Fault Refusal :=
  actAt r nRails s (fun m => m.dtAdapt r mean)

/-- DROP_READY (R179). -/
def execDropReady (r : Nat) (s : State) : Host.Outcome State Fault Refusal :=
  actAt r nRails s (fun m => m.dropReady r)

/-- SS_STALL (R184). -/
def execSsStall (r cyc : Nat) (s : State) : Host.Outcome State Fault Refusal :=
  actAt r nRails s (fun m => (m.arriveAt cyc).ssStall r)

/-- SS_CBC_SHORT (R184). -/
def execSsCbcShort (r cyc : Nat) (s : State) : Host.Outcome State Fault Refusal :=
  actAt r nRails s (fun m => (m.arriveAt cyc).ssCbc r)

/-- SHORT_RETRY (R185). -/
def execShortRetry (r : Nat) (s : State) : Host.Outcome State Fault Refusal :=
  actAt r nRails s (fun m => m.shortRetry r)

/-- PROBE_START (R189). -/
def execProbeStart (n : Nat) (s : State) : Host.Outcome State Fault Refusal :=
  actAt n nPhases s (fun m => m.probeStart n)

/-- PROBE_DONE (R190). -/
def execProbeDone (n : Nat) (s : State) : Host.Outcome State Fault Refusal :=
  actAt n nPhases s (fun m => m.probeDone n)

end Sys2Proof.Machine
end

