-- ==== Sys2Proof/Machine/Adc.lean ====
section
/-! DEFINITION. The converters: GIN comparators (R158), rolling calibration and reference
calibration (R159 to R162), and the monitor inputs (R163, R164). -/

namespace Sys2Proof.Machine

namespace Module

/-! ### GIN comparators (R156, R158) -/

/-- Comparator A of GIN channel `i` is above its threshold or not: the selected rails truncate with it, and
their pulses resume after it (R158). -/
def ginSet (m : Module) (i : Nat) (on : Bool) : Module :=
  { m with adc := { m.adc with ginHi := upd m.adc.ginHi i (fun _ => on) } }.truncSyncAll

/-- Comparator A of GIN `i` rises above its threshold: an event, and truncation of the selected rails
(R158). -/
def ginHi (m : Module) (i : Nat) (x : Int) : Module :=
  if nGin m.sys.part ≤ i || !above x (m.thrA (60 + i)) then m
  else ((m.raise pgAdccal (12 + i)).ginSet i true).trGin i

/-- Comparator A of GIN `i` falls back, without hysteresis (R158). -/
def ginHiEnd (m : Module) (i : Nat) (x : Int) : Module :=
  if nGin m.sys.part ≤ i || above x (m.thrA (60 + i)) then m else m.ginSet i false

/-- Comparator B of GIN `i` falls below its threshold (R156). -/
def ginLo (m : Module) (i : Nat) (x : Int) : Module :=
  if nGin m.sys.part ≤ i || !below x (m.thrB (60 + i)) then m
  else (m.raise pgAdccal (16 + i)).trGin (4 + i)

/-! ### Calibration (R159 to R162) -/

/-- The channels of the part, rising, and the spare's own slot 64 (R153, R159). -/
def calChans (m : Module) : List Nat := (List.range 64).filter (chanPresent m.sys.part) ++ [64]

/-- The channel after `c` in the pass; after the spare's slot the next pass begins. -/
def calNext (m : Module) (c : Nat) : Nat :=
  match m.calChans.find? (fun x => c < x) with
  | some x => x
  | none => 0

/-- The calibration word of a channel is set (R207): offset in 1/16 code step, gain in 2^−20. -/
def calSet (m : Module) (c : Nat) (off gain : Int) : Module :=
  m.setTbl pgAdccal 0 c
    (BitVec.ofNat 32 (wrapInt 16 (satInt 16 off) * 65536 + wrapInt 16 (satInt 16 gain)))

/-- The slot of channel `c` begins: paired with the spare, or carried by it for the reference
calibration that was asked for (R159, R161). In the spare's own slot the 6-bit fields of ROLL_POS and
SPARE_STAT.CH hold 64 modulo 64, which is 0 (DESIGN CHOICE, log entry 131). -/
def calSlot (m : Module) (c : Nat) : Module :=
  let m := { m with adc := { m.adc with slot := c } }
  let m := m.put pgAdccal ⟨ADCCAL_ROLL_POS, 0, 6⟩ c
  let m := m.put pgAdccal ADCCAL_SPARE_STAT_CH c
  if m.adc.calReq.contains c then
    let m := m.put pgAdccal ADCCAL_SPARE_STAT_MODE 1
    { m with adc := { m.adc with calOn := some c, calReq := delKey m.adc.calReq c } }
  else m

/-- The pass goes on at the channel after `c`; a pass that ends is counted. -/
def calStep (m : Module) (c : Nat) : Module :=
  let m := if c = 64 then
      m.put pgAdccal ⟨ADCCAL_ROLL_POS, 16, 16⟩ (satAdd 16 (m.get pgAdccal ⟨ADCCAL_ROLL_POS, 16, 16⟩) 1)
    else m
  m.calSlot (m.calNext c)

/-- The spare fails its own reference check: it carries nothing (R162). -/
def spareFail (m : Module) : Module :=
  let m := m.raise pgAdccal ADCCAL_EV_SPARE_FAIL
  let m := m.latchNow pgAdccal ADCCAL_FLT_SPARE_FAIL
  let m := m.put pgAdccal ADCCAL_SPARE_STAT_MODE 3
  { m with adc := { m.adc with spareBad := true } }

/-- An error that a reference calibration cannot mend: more than 64 code steps or 2 % (R162). -/
def calBeyond (off gain : Int) : Bool :=
  decide (1024 < off) || decide (off < -1024) || decide (20971 < gain) || decide (gain < -20971)

/-- A rolling slot ends (R160): `off` and `gain` are the errors found, `span` the signal's span in
per cent of the range. The correction of one pass is limited; a larger error raises CAL_LIMIT, in
two passes in a row it asks for a reference calibration (R161). -/
def rollSlotEnd (m : Module) (off gain : Int) (span : Nat) : Module :=
  if !m.flag pgAdccal ADCCAL_CFG_ROLL_EN || m.adc.calOn.isSome || m.adc.carried.isSome
      || m.adc.spareBad then m.applyPend (fun k => k = rkey pgAdccal ADCCAL_CFG)
  else
    let c := m.adc.slot
    let useGain := m.cfg pgAdccal ADCCAL_CFG_SPAN_MIN ≤ span
    let g := if useGain then gain else 0
    let m :=
      if c = 64 then
        if calBeyond off gain then m.spareFail else m.calSet 64 off gain
      else
        let m := m.calSet c (m.calOff c + clampInt (-64) 64 off) (m.calGain c + clampInt (-524) 524 g)
        let beyond := decide (64 < off) || decide (off < -64) || decide (524 < g) || decide (g < -524)
        if beyond then
          let m := m.raise pgAdccal ADCCAL_EV_CAL_LIMIT
          if m.adc.limited.contains c then
            { m with adc := { m.adc with limited := delKey m.adc.limited c,
                                         calReq := insKey m.adc.calReq c } }
          else { m with adc := { m.adc with limited := insKey m.adc.limited c } }
        else { m with adc := { m.adc with limited := delKey m.adc.limited c } }
    let m := m.applyPend (fun k => k = rkey pgAdccal ADCCAL_CFG)
    if m.adc.spareBad then m else m.calStep c

/-- A reference calibration of a present channel is asked for (R161). -/
def calAsk (m : Module) (v : W32) : Module :=
  let c := bits v 0 6
  if bits v 8 1 = 1 && chanPresent m.sys.part c then
    { m with adc := { m.adc with calReq := insKey m.adc.calReq c } }
  else m

/-- The channel has failed and nothing can carry it (R162): a VSNS channel latches its rail; the sense of a
phase fails at the next SENSE_CHK (R192). -/
def convUncarried (m : Module) (c : Nat) : Module :=
  if 48 ≤ c ∧ c < 60 ∧ m.rlSt (c - 48) ≠ rsOff then m.railLatch (c - 48) else m

/-- The converter of a phase's channel has failed, and the spare does not carry it (R162, R192). -/
def convLost (m : Module) (n : Nat) : Bool :=
  bit (m.reg pgAdccal (if n < 32 then ADCCAL_FAIL_MAP0 else ADCCAL_FAIL_MAP1)) (n % 32) && m.adc.carried ≠ some n

/-- The ground of R192 that holds on a phase, 0 none: 1 STUCK, which the firmware finds, 2 RANGE, 3
OBSERVER for `OBS_CFG.T` of 16,000 conversions a ms, 4 CONVERTER. -/
def senseGround (m : Module) (n : Nat) (stuck : Bool) : Nat :=
  let x := m.phase n
  if stuck then 1
  else if 16 ≤ x.fullN then 2
  else if x.disN ≠ 0 && m.cfg (pgRail + m.railOf n) RAIL_OBS_CFG_T * 16000 ≤ x.disN then 3
  else if m.convLost n then 4 else 0

/-- A channel is declared failed (R162): the spare carries it for good, where it can. -/
def convFail (m : Module) (c : Nat) : Module :=
  let off := if c < 32 then ADCCAL_FAIL_MAP0 else ADCCAL_FAIL_MAP1
  let m := m.setReg pgAdccal off (setBit (m.reg pgAdccal off) (c % 32))
  let m := m.raise pgAdccal ADCCAL_EV_CONV_FAIL
  let m := m.latchNow pgAdccal ADCCAL_FLT_CONV_FAIL
  if m.adc.carried.isNone && !m.adc.spareBad then
    let m := m.put pgAdccal ADCCAL_SPARE_STAT_MODE 2
    let m := m.put pgAdccal ADCCAL_SPARE_STAT_CH c
    { m with adc := { m.adc with carried := some c } }
  else m.convUncarried c

/-- The reference calibration of a channel ends (R161, R162). -/
def refCalDone (m : Module) (off gain : Int) (spareOk : Bool) : Module :=
  match m.adc.calOn with
  | none => m
  | some c =>
    let m := { m with adc := { m.adc with calOn := none } }
    let m := m.put pgAdccal ADCCAL_SPARE_STAT_MODE 0
    let m := if spareOk then m else m.spareFail
    let m := if calBeyond off gain then m.convFail c else m.calSet c off gain
    if m.adc.carried.isSome || m.adc.spareBad then m else m.calStep c

/-- CONV_FAIL is released: the failed channels return to service, and a reference calibration of each is
asked for, so that the test of R162 runs again at the next pass (R206). -/
def convRelease (m : Module) : Module :=
  let failed := (List.range 64).filter (fun c =>
    bit (m.reg pgAdccal (if c < 32 then ADCCAL_FAIL_MAP0 else ADCCAL_FAIL_MAP1)) (c % 32))
  let m := m.setReg pgAdccal ADCCAL_FAIL_MAP0 0
  let m := m.setReg pgAdccal ADCCAL_FAIL_MAP1 0
  let m := { m with adc := { m.adc with
    carried := none, calReq := failed.foldl insKey m.adc.calReq } }
  if m.adc.spareBad then m else m.put pgAdccal ADCCAL_SPARE_STAT_MODE 0

/-- SPARE_FAIL is released: the spare returns to service (R206). -/
def spareRelease (m : Module) : Module :=
  let m := { m with adc := { m.adc with spareBad := false } }
  m.put pgAdccal ADCCAL_SPARE_STAT_MODE (if m.adc.carried.isSome then 2 else 0)

/-! ### Monitor inputs (R163, R164) -/

/-- Input `i` is read: its converter is on and its enable bit set. -/
def monOn (m : Module) (i : Nat) : Bool :=
  m.flag pgAdccal (if i < 16 then ADCCAL_MON_CFG_EN_A else ADCCAL_MON_CFG_EN_B)
    && bit (m.liveReg pgAdccal ADCCAL_MON_EN) i

/-- The limit state of an input is cleared and its reading is not valid (R164). -/
def monClear (m : Module) (i : Nat) : Module :=
  let m := m.setTbl pgAdccal 1 i (clrBit (m.tbl pgAdccal 1 i) 31)
  let m := m.setReg pgAdccal ADCCAL_MON_HI_MAP (clrBit (m.reg pgAdccal ADCCAL_MON_HI_MAP) i)
  let m := m.setReg pgAdccal ADCCAL_MON_LO_MAP (clrBit (m.reg pgAdccal ADCCAL_MON_LO_MAP) i)
  { m with adc := { m.adc with
    monHi := upd m.adc.monHi i (fun _ => 0), monLo := upd m.adc.monLo i (fun _ => 0),
    monHiIn := upd m.adc.monHiIn i (fun _ => 0), monLoIn := upd m.adc.monLoIn i (fun _ => 0) } }

/-- One limit of an input is judged: consecutive readings beyond (`a`) and inside (`b`) it, the map
and the event (R164). The answer is the module and the two counts. -/
def monJudge (m : Module) (i map ev a b : Nat) (beyond : Bool) : Module × Nat × Nat :=
  let set := bit (m.reg pgAdccal map) i
  if beyond then
    if 1 ≤ a && !set then
      (((m.setReg pgAdccal map (setBit (m.reg pgAdccal map) i)).raiseRec pgAdccal ev), 2, 0)
    else (m, min 2 (a + 1), 0)
  else if 1 ≤ b && set then (m.setReg pgAdccal map (clrBit (m.reg pgAdccal map) i), 0, 2)
  else (m, 0, min 2 (b + 1))

/-- A bit of a monitor register that waits goes into force for one input alone; the register goes on waiting
while it differs for another (R206). -/
def monBits (m : Module) (off : Nat) (sel : W32) : Module :=
  let k := rkey pgAdccal off
  if !m.pend.contains k then m
  else
    let m := m.force k ((m.liveKey k &&& ~~~sel) ||| (m.key k &&& sel))
    if m.liveKey k = m.key k then { m with pend := delKey m.pend k } else m

/-- What waits for the next reading of input `i` applies (R206): its limits, its bits of MON_EN and MON_DIV,
and its half's enable in MON_CFG, with AVG. -/
def monTake (m : Module) (i : Nat) : Module :=
  let m := m.applyPend (fun k => k = tkey pgAdccal 2 (2 * i) || k = tkey pgAdccal 2 (2 * i + 1))
  let m := m.monBits ADCCAL_MON_CFG (BitVec.ofNat 32 (0x30 + (if i < 16 then 1 else 2)))
  (m.monBits ADCCAL_MON_EN (BitVec.ofNat 32 (2 ^ i))).monBits ADCCAL_MON_DIV (BitVec.ofNat 32 (2 ^ i))

/-- An averaged reading of a monitor input completes (R163, R164). -/
def monReading (m : Module) (i v : Nat) : Module :=
  let m := m.monTake i
  if !m.monOn i || 32 ≤ i then m
  else
    let m := m.useWords pgAdccal 2 [2 * i, 2 * i + 1]
    let hi := m.tblVal pgAdccal 2 (2 * i)
    let lo := m.tblVal pgAdccal 2 (2 * i + 1)
    let m := m.setTbl pgAdccal 1 i (BitVec.ofNat 32 (2 ^ 31 + v % 2 ^ 17))
    let (m, a, b) := m.monJudge i ADCCAL_MON_HI_MAP ADCCAL_EV_MON_HI (nth 0 m.adc.monHi i)
      (nth 0 m.adc.monHiIn i) (hi ≠ 0xFFFF && 10 * hi < v % 2 ^ 17)
    let (m, c, d) := m.monJudge i ADCCAL_MON_LO_MAP ADCCAL_EV_MON_LO (nth 0 m.adc.monLo i)
      (nth 0 m.adc.monLoIn i) (lo ≠ 0 && v % 2 ^ 17 < 10 * lo)
    { m with adc := { m.adc with
      monHi := upd m.adc.monHi i (fun _ => a), monHiIn := upd m.adc.monHiIn i (fun _ => b),
      monLo := upd m.adc.monLo i (fun _ => c), monLoIn := upd m.adc.monLoIn i (fun _ => d) } }

/-- After a write of the monitor settings: inputs that are no longer read, and inputs whose divider
changed from `old`, lose their limit state (R164). -/
def monWritten (m : Module) (old : W32) : Module :=
  (List.range 32).foldl (fun m i =>
    let key := fun o => m.reg pgAdccal o
    let on := bits (key ADCCAL_MON_CFG) (if i < 16 then 0 else 1) 1 = 1 && bit (key ADCCAL_MON_EN) i
    if !on || bit old i ≠ bit (key ADCCAL_MON_DIV) i then m.monClear i else m) m

end Module

/-- GIN_HI (R158). -/
def execGinHi (i : Nat) (x : Int) (t : Instant) (s : State) : Host.Outcome State Fault Refusal :=
  actLive s (fun m => let m := m.arrive t; if m.en pgAdccal then m.ginHi i x else m)

/-- GIN_HI_END (R158). -/
def execGinHiEnd (i : Nat) (x : Int) (t : Instant) (s : State) : Host.Outcome State Fault Refusal :=
  actLive s (fun m => (m.arrive t).ginHiEnd i x)

/-- GIN_LO (R156). -/
def execGinLo (i : Nat) (x : Int) (cyc : Nat) (s : State) : Host.Outcome State Fault Refusal :=
  actLive s (fun m => let m := m.arriveAt cyc; if m.en pgAdccal then m.ginLo i x else m)

/-- ROLL_SLOT_END (R160). -/
def execRollSlotEnd (off gain : Int) (span : Nat) (s : State) : Host.Outcome State Fault Refusal :=
  actLive s (fun m => if m.en pgAdccal then m.rollSlotEnd off gain span else m)

/-- REF_CAL_DONE (R162). -/
def execRefCalDone (off gain : Int) (spareOk : Bool) (s : State) : Host.Outcome State Fault Refusal :=
  actLive s (fun m => m.refCalDone off gain spareOk)

/-- MON_READING (R163). Monitor inputs are read in service only (R56). -/
def execMonReading (i val : Nat) (s : State) : Host.Outcome State Fault Refusal :=
  actLive s (fun m => if m.get pgSys SYS_STATUS_PHASE = 4 && m.en pgAdccal then m.monReading i val else m)

end Sys2Proof.Machine
end

