-- ==== Sys2Proof/Machine/Mbox.lean ====
section
/-! DEFINITION. Mailbox channels (R502 to R516): their state in the acknowledge, rings and
answers, and the clusters that they wake. -/

namespace Sys2Proof.Machine

/-- Channel states as ACK_L numbers them (R516). -/
def chEmpty : Nat := 0
def chFull : Nat := 1
def chTaken : Nat := 2
def chDone : Nat := 3
def chRefused : Nat := 4

/-- Page of a channel (R502). -/
def chPage (c : Nat) : Nat := pgMbox + c / 8

namespace Module

/-- State, TAG, sender and receiver of a channel. -/
def chSt (m : Module) (c : Nat) : Nat := m.get (chPage c) ⟨MBOX_ACK_L0 + 12 * (c % 8), 16, 4⟩
def chTag (m : Module) (c : Nat) : Nat := m.get (chPage c) ⟨MBOX_ACK_L0 + 12 * (c % 8), 24, 8⟩
def chSender (m : Module) (c : Nat) : Nat := bits (m.tbl (chPage c) 8 (c % 8)) 16 4
def chReceiver (m : Module) (c : Nat) : Nat := bits (m.tbl (chPage c) 8 (c % 8)) 20 4

/-- The channel is in FULL or TAKEN. -/
def chBegun (m : Module) (c : Nat) : Bool := m.chSt c = chFull || m.chSt c = chTaken

/-- The channel is occupied (R508); one whose ring a firmware restart holds is too (DEDUCED, log entry 119). -/
def chOccupied (m : Module) (c : Nat) : Bool := m.chBegun c || m.rings.any (fun x => x.1 = c)

/-- The acknowledge takes a code, a TAG and a state (R507); FULL_MAP follows. -/
def chSet (m : Module) (c code tag st : Nat) : Module :=
  let p := chPage c
  let k := c % 8
  let m := m.setBoth (rkey p (MBOX_ACK_H0 + 12 * k)) (mkPair code)
  let m := m.setBoth (rkey p (MBOX_ACK_L0 + 12 * k)) (mkPair (tag * 256 + st))
  m.put p ⟨MBOX_FULL_MAP, k, 1⟩ (if st = chFull ∨ st = chTaken then 1 else 0)

/-- A write by another master, or a ring of an occupied channel, is counted (R503, R509). -/
def chDenied (m : Module) (p : Nat) : Module :=
  (m.count p ⟨MBOX_DENY_CNT, 0, 16⟩ 1).raise p MBOX_EV_DENIED
def chBusy (m : Module) (p : Nat) : Module :=
  (m.count p ⟨MBOX_DENY_CNT, 16, 16⟩ 1).raise p MBOX_EV_RING_BUSY

/-- A cluster has an occupied channel (R127, R510). -/
def cluMail (m : Module) (c : Nat) : Bool :=
  (List.range 32).any (fun ch => m.chReceiver ch = 4 + c && m.chOccupied ch)

/-- A GATED cluster starts to wake (R127). -/
def cluWake (m : Module) (c : Nat) : Module :=
  if nth 0 m.sched.clu c = 2 then
    { m with sched := { m.sched with waking := insKey m.sched.waking c } }
  else m

/-- The occupied channels of a cluster that becomes FAILED or ABSENT are refused (R508). -/
def cluMailFail (m : Module) (c : Nat) : Module :=
  (List.range 32).foldl (fun m ch =>
    if m.chReceiver ch = 4 + c && m.chOccupied ch then
      let m := m.chSet ch 0xFF01 (m.chTag ch) chRefused
      { m with rings := m.rings.filter (fun x => x.1 ≠ ch) }
    else m) m

/-- The clusters are halted by a firmware restart (R25). -/
def cluHalted (m : Module) : Bool := match m.sys.restart with | .halted _ _ => true | _ => false

/-- A ring reaches its receiver (R506, R508, R510): a failed or absent receiver cluster refuses it at once, a
gated one is woken. -/
def chDeliver (m : Module) (c : Nat) (v : W32) : Module :=
  let p := chPage c
  let tag := bits v 24 8
  let rx := m.chReceiver c
  if 4 ≤ rx ∧ rx < 8 ∧ (m.cluState (rx - 4) = 4 ∨ m.cluState (rx - 4) = 5) then
    m.chSet c 0xFF01 tag chRefused
  else
    let m := (m.chSet c 0 tag chFull).raise p (8 + c % 8)
    if 4 ≤ rx ∧ rx < 8 then m.cluWake (rx - 4) else m

/-- A valid ring of a free channel by its sender; while the clusters are halted a ring to a cluster is held, and
ACK is unchanged until the receiver runs (R29, R514). -/
def chRing (m : Module) (c : Nat) (v : W32) : Module :=
  let m := m.setBoth (rkey (chPage c) (MBOX_DOORBELL0 + 12 * (c % 8))) v
  if m.cluHalted && 4 ≤ m.chReceiver c && m.chReceiver c < 8 then { m with rings := m.rings ++ [(c, v)] }
  else m.chDeliver c v

/-- The clusters run again: the held rings are delivered in order. -/
def chResume (m : Module) : Module :=
  m.rings.foldl (fun m x => m.chDeliver x.1 x.2) { m with rings := [] }

/-- The receiver's acknowledge is a move that R508 allows: TAKEN from FULL or TAKEN, DONE from FULL
or TAKEN, with the TAG in force (R507). -/
def chAckOk (m : Module) (c : Nat) (l : W32) : Bool :=
  let st := bits l 16 4
  bits l 24 8 = m.chTag c && bits l 20 4 = 0 && (st = chTaken || st = chDone) && m.chBegun c

/-- The receiver's acknowledge applies (R508). -/
def chAck (m : Module) (c : Nat) (h l : W32) : Module :=
  let m := m.chSet c (bits h 16 16) (m.chTag c) (bits l 16 4)
  if bits l 16 4 = chDone then m.raise (chPage c) (16 + c % 8) else m

/-- Words of the payload of a channel. -/
def chPayload (m : Module) (c : Nat) : List W32 :=
  (List.range 16).map (fun i => m.tbl (chPage c) (c % 8) i)

end Module

end Sys2Proof.Machine
end

