-- ==== Sys2Proof/Machine/Sched.lean ====
section
/-! DEFINITION. The period timebase, drops and the placement of tasks on clusters (R108 to R131). -/

namespace Sys2Proof.Machine

/-- Load limit of a cluster: 75 % in units of 10^−7 (R121). -/
def loadMax : Nat := 7500000

/-- A task put into a list ordered by descending utilisation, ties by ascending ID (R122). -/
def insUtil (u : Nat → Nat) : List Nat → Nat → List Nat
  | [], t => [t]
  | a :: l, t => if u a < u t then t :: a :: l else a :: insUtil u l t

namespace Module

def updTask (m : Module) (t : Nat) (f : Task → Task) : Module :=
  { m with sched := { m.sched with tasks := upd m.sched.tasks t f } }

/-- The number of the period of a task in progress (R109, R110). -/
def taskK (m : Module) (t : Nat) : Nat :=
  let per := periodUs (m.taskPer t)
  (if per < 1000 then m.sched.epeK else m.sched.frame * 1000 / per) % 2 ^ 32

/-- Clusters that the placement may use (R122, R127): one that a test has been accepted for is out, gated
or not. -/
def cluAvail (m : Module) : List Nat :=
  (List.range (nClusters m.sys.part)).filter (fun c =>
    (nth 0 m.sched.clu c = 0 || nth 0 m.sched.clu c = 2) && m.sched.bist ≠ some c)

/-! ### Packing (R122 to R125) -/

/-- The tasks in packing order. -/
def packOrder (m : Module) : List Nat := (List.range 12).foldl (insUtil m.taskUtil) []

/-- The load that a partial packing puts on a cluster. -/
def packLoad (m : Module) (pk : List (Nat × Nat)) (c : Nat) : Nat :=
  sumN ((pk.filter (fun x => x.2 = c)).map (fun x => m.taskUtil x.1))

/-- The cluster of a task, or the one it moves to. -/
def taskHome (m : Module) (t : Nat) : Nat :=
  match (m.task t).next with
  | some c => c
  | none => (m.task t).owner

/-- First-fit-decreasing over the clusters `cs` (R122); a task that fits nowhere goes to the
least-loaded one, of several the lowest-numbered (R125; DESIGN CHOICE, log entry 135). Tasks placed by the
drop policy keep their cluster (R124). The answer is
the cluster of each task, and whether all fit. -/
def pack (m : Module) (cs : List Nat) : List (Nat × Nat) × Bool :=
  let pins := (List.range 12).filter (fun t => (m.task t).pinned && cs.contains (m.taskHome t))
  let pk0 := pins.map (fun t => (t, m.taskHome t))
  (m.packOrder.filter (fun t => !pins.contains t)).foldl (fun acc t =>
    match cs.find? (fun c => m.packLoad acc.1 c + m.taskUtil t ≤ loadMax) with
    | some c => (acc.1 ++ [(t, c)], acc.2)
    | none =>
      let least := cs.foldl (fun b c => match b with
        | none => some c
        | some d => if m.packLoad acc.1 c < m.packLoad acc.1 d then some c else some d) none
      match least with
      | some c => (acc.1 ++ [(t, c)], false)
      | none => (acc.1, false)) (pk0, true)

/-- A bit of PLACE.STAT. -/
def placeStat (m : Module) (b : Nat) (on : Bool) : Module :=
  m.put pgPlace ⟨STAT, b, 1⟩ (if on then 1 else 0)

/-- The N−1 rule (R123): the packing on the available clusters less one. N1_FAIL is raised as the STAT bit
rises, not again at each packing that fails (DESIGN CHOICE, log entry 136). -/
def evalN1 (m : Module) : Module :=
  let cs := m.cluAvail
  let less := cs.take (cs.length - 1)
  let (pk, fits) := m.pack less
  let ok := fits && !less.isEmpty && less.all (fun c => m.packLoad pk c ≤ loadMax)
  let top := (less.map (fun c => m.packLoad pk c)).foldl max 0
  let was := bit (m.reg pgPlace STAT) PLACE_ST_N1_FAIL
  let m := m.put pgPlace PLACE_PLAN_STAT_N1_LOAD (min 255 (top / 100000))
  let m := m.put pgPlace PLACE_PLAN_STAT_N1_OK (if ok then 1 else 0)
  let m := m.placeStat PLACE_ST_N1_FAIL !ok
  if !ok && !was then m.raise pgPlace PLACE_EV_N1_FAIL else m

/-- A task changes owner (R126); one that its policy moved is watched from then on (R118). -/
def taskMove (m : Module) (t c : Nat) : Module :=
  let was := (m.task t).owner
  let m := m.updTask t (fun x => { x with
    owner := c, next := none, armed := false, clean := if x.watched then 0 else x.clean })
  if was = c then m
  else (m.countReg pgPlace PLACE_MOVE_CNT 1).raise pgPlace PLACE_EV_MOVED

/-- A firmware restart is in progress. -/
def restarting (m : Module) : Bool :=
  match m.sys.restart with | .none => false | _ => true

/-- The clusters are halted, or the freeze after it lasts: placement stands still (R28, R131). -/
def halted (m : Module) : Bool :=
  match m.sys.restart with | .halted _ _ => true | .frozen _ _ => true | _ => false

/-- The module behaves as during the freeze: in a restart, and while SCHED is stopped (R28, R120). -/
def frozen (m : Module) : Bool := m.restarting || !m.sched.run

/-- A task that the drop policy placed is packed like any other again once its cluster is vacated or out of
service (R124). -/
def unpin (m : Module) : Module :=
  let cs := m.cluAvail
  ((List.range 12).filter (fun t => (m.task t).pinned && !cs.contains (m.taskHome t))).foldl
    (fun m t => m.updTask t (fun x => { x with pinned := false })) m

/-- A repack (R124 to R127): the tasks that change cluster wait for the next major frame; a task
without owner takes its cluster at once. A gated cluster that receives a task starts to wake. OVER75 is
raised and recorded as its STAT bit rises (DESIGN CHOICE, log entry 135). -/
def packNow (m : Module) : Module :=
  let m := m.unpin
  let (pk, fits) := m.pack m.cluAvail
  let was := bit (m.reg pgPlace STAT) PLACE_ST_OVER75
  let m := m.placeStat PLACE_ST_OVER75 !fits
  let m := if !fits && !was then m.raiseRec pgPlace PLACE_EV_OVER75 else m
  let m := pk.foldl (fun m tc =>
    let x := m.task tc.1
    let m := m.cluWake tc.2
    if x.owner = 0xFF then m.updTask tc.1 (fun y => { y with owner := tc.2, next := none, armed := false })
    else if x.owner = tc.2 then m.updTask tc.1 (fun y => { y with next := none, armed := false })
    else if x.next = some tc.2 then m
    else m.updTask tc.1 (fun y => { y with next := some tc.2, armed := false })) m
  m.evalN1

/-- A repack is asked for; a firmware restart puts it off to its end (R131). -/
def repack (m : Module) : Module :=
  if m.halted then { m with sched := { m.sched with packDue := true } } else m.packNow

/-- The repack that was put off (R131). -/
def packLate (m : Module) : Module :=
  if m.sched.packDue then ({ m with sched := { m.sched with packDue := false } }).packNow else m

/-- After a cost has changed: the placement stays while every load is at most 75 % (R124). -/
def checkLoads (m : Module) : Module :=
  if (List.range (nClusters m.sys.part)).any (fun c => loadMax < m.cluLoad c) then m.repack else m.evalN1

/-! ### Drops (R113, R118) -/

/-- An abort of a task in progress: its staged changes are gone (R113, R25, R120), and a period has not been
committed (R119). -/
def taskAbort (m : Module) (t reason : Nat) : Module :=
  let m := m.put pgSched SCHED_DROP_LAST_TASK t
  let m := m.put pgSched SCHED_DROP_LAST_REASON reason
  let m := m.put pgSched SCHED_DROP_LAST_PERIOD (m.taskK t)
  m.updTask t (fun x => { x with started := false, buf := [], clean := 0, cmts := false })

/-- A drop (R113, R118): counted against the task's window; when lasting, the task is to move at the
next major frame; one that is watched after a policy move is to enter its fallback. -/
def taskDrop (m : Module) (t reason : Nat) : Module :=
  let m := if t = 0 then { m with ep := { m.ep with req := none, res := none, discard := false } } else m
  let m := (m.taskAbort t reason).countReg pgSched SCHED_DROP_CNT 1
  let m := m.raise pgSched SCHED_EV_DROP
  let (m, acts) := m.fault pgSched (8 + t) 0 (rkey pgSched FLT_WIN)
  m.updTask t (fun x => { x with moveDue := x.moveDue || acts, fallDue := x.fallDue || (x.watched && !x.fallback) })

/-- The cluster that a drop policy takes: the least-loaded other available one with room, of several the
lowest-numbered (R118; DESIGN CHOICE, log entry 137). -/
def policyCluster (m : Module) (t : Nat) : Option Nat :=
  ((m.cluAvail.filter (fun c => c ≠ (m.task t).owner && m.cluLoad c + m.taskUtil t ≤ loadMax)).foldl
    (fun b c => match b with
      | none => some c
      | some d => if m.cluLoad c < m.cluLoad d then some c else some d) none)

/-- The move of a drop policy at a major frame (R118): the counter is emptied and the task is
watched. -/
def policyMove (m : Module) (t c : Nat) : Module :=
  let m := m.clearCtr pgSched (8 + t)
  let m := m.cluWake c
  let m := m.updTask t (fun x => { x with moveDue := false, pinned := true, watched := true, clean := 0, cmts := false,
                                          next := some c, armed := true })
  if (m.task t).started then m else m.taskMove t c

/-! ### Clusters (R127 to R131) -/

/-- A woken cluster is ready (R127); one woken for its test is isolated next (R128). One that has been woken
from LEAN is in service again, and the unit repacks (R124). -/
def cluReady (m : Module) (c : Nat) : Module :=
  if !m.sched.waking.contains c then m
  else
    let st := if m.sched.bist = some c then 6 else 0
    let m := { m with sched := { m.sched with waking := delKey m.sched.waking c,
                                              clu := upd m.sched.clu c (fun _ => st) } }
    if st = 0 then m.repack else m

/-- Gating at a major frame (R127): under LEAN, while the N−1 rule holds, every available cluster
without task, occupied channel or wake is gated. -/
def cluGate (m : Module) : Module :=
  let on := m.flag pgPlace PLACE_CFG_LEAN && m.get pgPlace PLACE_PLAN_STAT_N1_OK = 1
  let m := m.placeStat PLACE_ST_LEAN_ACTIVE on
  if !on then m
  else (List.range (nClusters m.sys.part)).foldl (fun m c =>
    if nth 0 m.sched.clu c = 0 && !m.cluBusy c && !m.cluMail c && !m.sched.waking.contains c then
      { m with sched := { m.sched with clu := upd m.sched.clu c (fun _ => 2) } }
    else m) m

/-- LEAN is cleared: every gated cluster wakes (R127). -/
def cluWakeAll (m : Module) : Module := (List.range 4).foldl (fun m c => m.cluWake c) m

/-- Why an in-service test of a cluster is refused (R128), 0 when it is not. -/
def bistRefusal (m : Module) (c : Nat) : Nat :=
  if m.get pgPlace PLACE_PLAN_STAT_N1_OK ≠ 1 then 1
  else if m.sched.bist.isSome then 2
  else if m.restarting then 3
  else if nClusters m.sys.part ≤ c || nth 0 m.sched.clu c = 4 then 4
  else 0

/-- An in-service test is asked for (R128): refused with its reason, or the cluster is vacated; a
gated one is woken. The flag says that the request was accepted. -/
def bistAsk (m : Module) (c : Nat) : Module × Bool :=
  let why := m.bistRefusal c
  if why ≠ 0 then
    ((m.put pgPlace PLACE_PLAN_STAT_REFUSE why).raise pgPlace PLACE_EV_BIST_REFUSED, false)
  else
    let gated := decide (nth 0 m.sched.clu c = 2)
    let m := { m with sched := { m.sched with bist := some c, bistOn := false, bistGated := gated } }
    if gated then (m.cluWake c, true)
    else
      let m := { m with sched := { m.sched with
        clu := upd m.sched.clu c (fun _ => 6), waking := delKey m.sched.waking c } }
      (m.repack, true)

/-- The vacated cluster owns no task: it is isolated and its test begins (R128). -/
def bistIsolate (m : Module) (c : Nat) : Module :=
  if m.sched.bist = some c && !m.sched.bistOn && !m.cluBusy c && nth 0 m.sched.clu c = 6 then
    { m with sched := { m.sched with bistOn := true, clu := upd m.sched.clu c (fun _ => 3) } }
  else m

/-- The test ends (R129): the verdict goes to the BIST page; a failed cluster is a failed non-essential unit
(R544), refuses its mail, and the unit repacks without it. -/
def bistEnd (m : Module) (c : Nat) (pass : Bool) : Module :=
  if m.sched.bist ≠ some c || !m.sched.bistOn then m
  else
    let st := if pass then (if m.sched.bistGated then 2 else 0) else 4
    let m := { m with sched := { m.sched with bist := none, bistOn := false, bistGated := false,
                                              clu := upd m.sched.clu c (fun _ => st) } }
    let m := m.setReg pgBist BIST_IS_LAST (BitVec.ofNat 32
      (c + (if pass then 256 else 0) + (m.reg pgSched SCHED_MFRAME).toNat % 65536 * 65536))
    let m := m.put pgBist ⟨BIST_CLUSTERS, (if pass then 16 else 8) + c, 1⟩ 1
    let m := m.raise pgBist BIST_EV_IS_DONE
    if pass then
      let m := m.raise pgPlace PLACE_EV_BIST_DONE
      (if m.cluMail c then m.cluWake c else m).evalN1
    else
      let m := (m.put pgSys SYS_STATUS_DEGRADED 1).latchNow pgBist BIST_FLT_UNIT
      ((m.raiseRec pgBist BIST_EV_UNIT_FAIL).cluMailFail c).repack

/-- A firmware restart aborts an in-service test (R131): the cluster passes no test, and returns as
available, also where it was GATED before (DESIGN CHOICE, log entry 138). -/
def bistAbort (m : Module) : Module :=
  match m.sched.bist with
  | none => m
  | some c => { m with sched := { m.sched with
      bist := none, bistOn := false, bistGated := false, clu := upd m.sched.clu c (fun x => if x = 4 then 4 else 0) } }

/-- The rotating test asks for a test of a cluster (R130): a refused request waits to be tried again. -/
def rotAsk (m : Module) (c : Nat) : Module :=
  let (m, ok) := m.bistAsk c
  { m with sched := { m.sched with
      rotWait := if ok then delKey m.sched.rotWait c else insKey m.sched.rotWait c } }

/-- ROT_TEST hours have passed (R130): the next cluster in turn. The test runs only while `PLACE.CTRL.EN` is 1
(DEDUCED, log entry 139). -/
def rotExpire (m : Module) : Module :=
  if m.cfg pgPlace PLACE_CFG_ROT_TEST = 0 || !m.en pgPlace then m
  else
    let c := m.sched.rotNext
    ({ m with sched := { m.sched with rotNext := (c + 1) % nClusters m.sys.part } }).rotAsk c

/-- A request that waits is tried again at a major frame once its reason has cleared (R130). -/
def rotRetry (m : Module) : Module :=
  match m.sched.rotWait.find? (fun c => m.bistRefusal c = 0) with
  | some c => m.rotAsk c
  | none => m

/-- A change of ROT_TEST comes into force (R130): from off it begins with cluster 0; off, nothing waits
any more. -/
def rotChange (m : Module) (old : Nat) : Module :=
  let new := m.cfg pgPlace PLACE_CFG_ROT_TEST
  if new = 0 then { m with sched := { m.sched with rotWait := [] } }
  else if old = 0 then { m with sched := { m.sched with rotNext := 0 } }
  else m

/-! ### Timebase (R110 to R112) -/

/-- TB_STAT.SRC (R140): PTP locked, holdover after it, SYNC_IN locked, or free-running. -/
def tbSrc (m : Module) (src : Nat) : Module := m.put pgSched SCHED_TB_STAT_SRC src

/-- PTP disciplines the timebase (R110). -/
def tbPtp (m : Module) : Bool := m.get pgPtp PTP_STATUS_LOCKED = 1 && m.flag pgSched SCHED_TB_CFG_PTP_DISC

/-- The source of the timebase after a change of PTP lock or SYNC_IN (R20, R112); `hold` when PTP lock
is lost. -/
def tbUpdate (m : Module) (hold : Bool) : Module :=
  let m := { m with sched := { m.sched with hold := m.sched.hold || hold } }
  m.tbSrc (if m.tbPtp then 2
    else if m.get pgClk CLK_SYNC_STAT_LOCKED = 1 then 1
    else if m.sched.hold && m.flag pgSched SCHED_TB_CFG_PTP_DISC then 3 else 0)

/-- A step or slew that has begun towards TAI ends (R112). -/
def tbLeave (m : Module) : Module :=
  { m with sched := { m.sched with stepTo := none, slew := 0, tbAsk := false } }.put pgSched SCHED_TB_STAT_SLEWING 0

/-- `TB_CFG` has been written (R110, R140): PTP begins or ends to discipline the timebase. -/
def tbWritten (m : Module) (was : Bool) : Module :=
  let m := m.tbUpdate false
  if m.tbPtp && !was then { m with sched := { m.sched with tbAsk := true } }
  else if was && !m.tbPtp then m.tbLeave
  else m

end Module

/-- CLUSTER_READY (R127). -/
def execClusterReady (c : Nat) (s : State) : Host.Outcome State Fault Refusal :=
  actLive s (fun m => m.cluReady c)

/-- CLUSTER_ISOLATED (R128). -/
def execClusterIsolated (c : Nat) (s : State) : Host.Outcome State Fault Refusal :=
  actLive s (fun m => m.bistIsolate c)

/-- BIST_DONE (R129). -/
def execBistDone (c : Nat) (pass : Bool) (s : State) : Host.Outcome State Fault Refusal :=
  actLive s (fun m => m.bistEnd c pass)

/-- ROT_TEST (R130). -/
def execRotTest (s : State) : Host.Outcome State Fault Refusal :=
  actLive s (fun m => m.rotExpire)

end Sys2Proof.Machine
end

