-- ==== Sys2Proof/Machine/Therm.lean ====
section
/-! DEFINITION. Temperatures: inputs, ring sensors, die temperature, limits and forbidden ranges
(R371 to R384). All temperatures are in 0.1 °C. -/

namespace Sys2Proof.Machine

/-- Maximum power of the part times θJC(top), 0.1 °C (R53, R54). -/
def lidRise (part : Nat) : Int :=
  roundDiv ((if part = 0x9640 then 95 else if part = 0x9624 then 68 else 54) * 35) 100

/-- The neighbours of a ring sensor in the 4 × 4 grid (R373). -/
def ringNear (s : Nat) : List Nat :=
  (List.range 16).filter (fun t =>
    (s / 4 = t / 4 && (s % 4 + 1 = t % 4 || t % 4 + 1 = s % 4))
      || (s % 4 = t % 4 && (s / 4 + 1 = t / 4 || t / 4 + 1 = s / 4)))

/-- Which forbidden range holds for a temperature (R381): outside, it is entered again 2 °C inside. -/
def outside (was : Bool) (lo hi t : Int) : Bool :=
  if was then t < lo + 20 || hi - 20 < t else t < lo || hi < t

namespace Module

/-- Mode of an input (R371). -/
def tsMode (m : Module) (i : Nat) : Nat := bits (m.tblLive pgTherm 0 (4 * i)) 0 2
def tsValid (m : Module) (i : Nat) : Bool := bit (m.tbl pgTherm 1 (2 * i + 1)) 16
def tsMeas (m : Module) (i : Nat) : Int := sext 16 (bits (m.tbl pgTherm 1 (2 * i)) 0 16)
def tsRep (m : Module) (i : Nat) : Int := sext 16 (bits (m.tbl pgTherm 1 (2 * i)) 16 16)
def tsRate (m : Module) (i : Nat) : Int := sext 16 (bits (m.tbl pgTherm 1 (2 * i + 1)) 0 16)

def updTh (m : Module) (f : Therm → Therm) : Module := { m with th := f m.th }

/-- A flag of word 2i + 1 of the readings table. -/
def tsFlag (m : Module) (i b : Nat) (on : Bool) : Module :=
  let w := m.tbl pgTherm 1 (2 * i + 1)
  m.setTbl pgTherm 1 (2 * i + 1) (if on then setBit w b else clrBit w b)

/-- The reported temperature of an input follows its measured one, ahead by rate × `RR_HOR` while a
cap request is in force (R380). -/
def tsReport (m : Module) (i : Nat) (ahead : Bool) : Module :=
  let req := bit (m.reg pgTherm THERM_RISE_MAP) (16 + i)
  let add := if ahead && req then roundDiv (m.tsRate i * m.cfg pgTherm THERM_RR_CFG_RR_HOR) 10 else 0
  let w := m.tbl pgTherm 1 (2 * i)
  m.setTbl pgTherm 1 (2 * i) (setBits w 16 16 (wrapInt 16 (satInt 16 (m.tsMeas i + add))))

/-- Cap requests count: the firmware runs and THERM is not in its fallback (R380). -/
def riseActs (m : Module) : Bool :=
  m.sys.fwRun && !m.frozen && !(m.task 8).fallback

/-! ### Limits (R378) -/

/-- One limit of a point: two consecutive readings above it cross it, two at least 2 °C below it
clear it. The answer: whether it is crossed, and the two counts. -/
def limStep (crossed : Bool) (up dn : Nat) (lim t : Int) : Bool × Nat × Nat :=
  let up := if lim < t then min 2 (up + 1) else 0
  let dn := if t ≤ lim - 20 then min 2 (dn + 1) else 0
  (if crossed then decide (dn < 2) else decide (2 ≤ up), up, dn)

/-- A reading of a point (0 to 15 an input, 16 the die) meets its limits in whole °C. -/
def thermLimits (m : Module) (i : Nat) (warn hot t : Int) : Module :=
  let w := bit (m.reg pgTherm THERM_WARN_MAP) i
  let h := bit (m.reg pgTherm THERM_HOT_MAP) i
  let (w', a, b) := limStep w (nth 0 m.th.warnUp i) (nth 0 m.th.warnDn i) (warn * 10) t
  let (h', c, d) := limStep h (nth 0 m.th.hotUp i) (nth 0 m.th.hotDn i) (hot * 10) t
  let m := m.updTh (fun x => { x with
    warnUp := upd x.warnUp i (fun _ => a), warnDn := upd x.warnDn i (fun _ => b),
    hotUp := upd x.hotUp i (fun _ => c), hotDn := upd x.hotDn i (fun _ => d) })
  let m := m.put pgTherm ⟨THERM_WARN_MAP, i, 1⟩ (if w' then 1 else 0)
  let m := m.put pgTherm ⟨THERM_HOT_MAP, i, 1⟩ (if h' then 1 else 0)
  let m := if w' && !w then m.raise pgTherm THERM_EV_WARN else m
  if h' && !h then (m.raise pgTherm THERM_EV_HOT).latchNow pgTherm THERM_FLT_HOT else m

/-! ### Inputs (R372) -/

/-- The temperature in 0.1 °C of a diode (R371): ΔV less ΔI × R_SER, times q / (η k ln 17); `dv` in nV, η in
1/10,000, `rser` in 0.1 Ω (ΔI is 160 µA). The value of q / (k ln 17) is that of physics (PRESUMED, log
entry 147). -/
def diodeTemp (dv ideal rser : Nat) : Int :=
  let d : Nat := 10000000 * ideal
  roundDiv (((dv : Int) - 16000 * rser) * 8191772 - 5463 * d) (2 * d)

/-- What TS input `i` reads (R371, R372): a temperature, none where it is OPEN or SHORT. -/
def tsSense (m : Module) (i x : Nat) : Option Int × Bool × Bool :=
  let w := m.tblLive pgTherm 0 (4 * i + 1)
  if m.tsMode i = 1 then
    if 2450000 < x then (none, true, false)
    else if x < 500 then (none, false, true)
    else (some (Config.thermistor x (bits w 0 16) (bits w 16 16)), false, false)
  else
    let t := diodeTemp x (bits w 0 16) (bits w 16 16)
    if bits w 0 16 = 0 || 2000 < t then (none, true, false)
    else if t < -600 then (none, false, true)
    else (some t, false, false)

/-- A reading of TS input `i`. A diode beyond its range reads OPEN above it and SHORT below it (DESIGN CHOICE,
log entry 147). -/
def tsReading (m : Module) (i x : Nat) : Module :=
  let (t, opn, sht) := m.tsSense i x
  match t with
  | some t =>
    let m := (m.tsFlag i 17 false).tsFlag i 18 false
    let good := min 2 (nth 0 m.th.good i + 1)
    let m := m.updTh (fun y => { y with good := upd y.good i (fun _ => good),
                                        bad := upd y.bad i (fun _ => 0) })
    let m := if good = 2 then m.tsFlag i 16 true else m
    if !m.tsValid i then m
    else
      let m := m.setTbl pgTherm 1 (2 * i)
        (setBits (m.tbl pgTherm 1 (2 * i)) 0 16 (wrapInt 16 (satInt 16 t)))
      let m := m.tsReport i m.riseActs
      let m := m.useWords pgTherm 0 [4 * i + 2]
      let w := m.pairKey (tkey pgTherm 0 (4 * i + 2))
      m.thermLimits i (sext 8 (bits w 24 8)) (sext 8 (bits w 16 8)) t
  | none =>
    let m := (m.tsFlag i 17 opn).tsFlag i 18 sht
    let bad := nth 0 m.th.bad i + 1
    let m := m.updTh (fun y => { y with bad := upd y.bad i (fun _ => min 2 bad),
                                        good := upd y.good i (fun _ => 0) })
    if bad = 2 then
      let m := m.tsFlag i 16 false
      (m.raise pgTherm THERM_EV_INPUT_FAULT).latchNow pgTherm THERM_FLT_INPUT_FAULT
    else m

/-! ### Die (R373 to R377) -/

/-- Offset of a ring sensor in 0.01 °C, and its temperature from the last count. -/
def ringOffset (m : Module) (s : Nat) : Int := sext 16 (bits (m.tbl pgTherm 2 (2 * s + 1)) 16 16)
def ringTemp (m : Module) (s : Nat) : Int :=
  roundDiv (Config.ringCurve (nth 0 m.th.count s) * 10 + m.ringOffset s) 10
def ringIn (m : Module) (s : Nat) : Bool := bit (m.reg pgTherm THERM_RING_INC) s
def pkgTemp (m : Module) : Int := sext 16 (m.get pgTherm ⟨THERM_PKG, 0, 16⟩)

/-- The reference of a sensor (R376): the mean of its included neighbours, or the package diode. -/
def ringRef (m : Module) (s : Nat) : Int :=
  let ns := (ringNear s).filter m.ringIn
  if ns.isEmpty then m.pkgTemp else roundDiv (sumI (ns.map m.ringTemp)) ns.length

/-- Lid estimate (R374), none without a LID input. -/
def lidTemp (m : Module) : Option Int :=
  if m.flag pgTherm THERM_CFG_LID_EN && m.tsValid (m.cfg pgTherm THERM_CFG_LID) then
    some (m.tsMeas (m.cfg pgTherm THERM_CFG_LID) + lidRise m.sys.part)
  else none

/-- An included sensor differs from its reference by more than XCHK.DEV (R376). -/
def ringBeyond (m : Module) (s : Nat) : Bool :=
  let dev : Int := (m.cfg pgTherm THERM_XCHK_DEV * 10 : Nat)
  m.ringIn s && (dev < m.ringTemp s - m.ringRef s || m.ringTemp s - m.ringRef s < -dev)

/-- Ring sensors: temperatures, deviations and the sensors that deviate too far (R373, R376). -/
def ringRound (m : Module) (counts : List Nat) : Module :=
  let m := m.updTh (fun x => { x with count := counts })
  let m := (List.range 16).foldl (fun m s =>
    let t := m.ringTemp s
    m.setTbl pgTherm 2 (2 * s) (BitVec.ofNat 32
      (wrapInt 16 (satInt 16 (t - m.ringRef s)) * 65536 + wrapInt 16 (satInt 16 t)))) m
  m.updTh (fun x => { x with beyond := (List.range 16).filter m.ringBeyond })

/-- The die temperature and its source (R374): `DIE.SRC` 0 ring, 1 package diode, 2 lid estimate,
3 ring on OTP offsets. -/
def dieRound (m : Module) (otp : List Int) : Module :=
  let inc := (List.range 16).filter m.ringIn
  let hottest := inc.foldl (fun b s => match b with
    | none => some s
    | some a => if m.ringTemp a < m.ringTemp s then some s else some a) none
  let onOtp := fun s => roundDiv (Config.ringCurve (nth 0 m.th.count s) * 10 + nth 0 otp s) 10
  let (src, t, s) :=
    match m.get pgSys SYS_STATUS_PHASE = 4 && m.th.calOnce, hottest with
    | true, some s => (0, m.ringTemp s, s)
    | _, _ =>
      if m.th.pkgOk then (1, m.pkgTemp, 0)
      else match m.lidTemp with
        | some t => (2, t, 0)
        | none =>
          let s := (List.range 16).foldl (fun a b => if onOtp a < onOtp b then b else a) 0
          (3, onOtp s, s)
  let m := m.put pgTherm THERM_DIE_T_J (wrapInt 16 (satInt 16 t))
  let m := m.put pgTherm THERM_DIE_HOTTEST s
  m.put pgTherm THERM_DIE_SRC src

/-- T_J in force. -/
def tJ (m : Module) : Int := m.getI pgTherm THERM_DIE_T_J

/-- The forbidden ranges (R381). -/
def ranges (m : Module) : Module :=
  let h := decide (m.get pgTherm THERM_RANGE_MRAM_HOLD = 1)
  let u := decide (m.get pgTherm THERM_RANGE_UPD_BLOCK = 1)
  let h' := outside h (-400) 1250 m.tJ
  let u' := outside u 0 850 m.tJ
  let m := m.put pgTherm THERM_RANGE_MRAM_HOLD (if h' then 1 else 0)
  let m := m.put pgTherm THERM_RANGE_UPD_BLOCK (if u' then 1 else 0)
  let m := if h' && !h then m.raise pgTherm THERM_EV_MRAM_HOLD else m
  let m := if h && !h' then { m with rc := { m.rc with heldUpTo := m.rc.next - 1 } } else m
  if u' && !u then m.raise pgTherm THERM_EV_UPD_BLOCK else m

/-- A 1 ms temperature round (R371 to R381). -/
def thermRound (m : Module) (otp : List Int) (x : TherRound) : Module :=
  let m := m.applyPend (fun k => decide (pageOfKey k = pgTherm))
  let m := match x.pkg with
    | some t => (m.updTh (fun y => { y with pkgOk := true, pkgs := (t :: y.pkgs).take 16 })).setReg pgTherm
        THERM_PKG (BitVec.ofNat 32 (wrapInt 16 (satInt 16 t)))
    | none => m.updTh (fun y => { y with pkgOk := false, pkgs := [] })
  let ins := if m.en pgTherm then (List.range 16).filter (fun i => m.tsMode i ≠ 0) else []
  let m := (ins.zip x.ts).foldl (fun m ir => m.tsReading ir.1 ir.2) m
  let m := (m.ringRound x.ring).dieRound otp
  let m := m.usePair pgTherm THERM_DIE_LIM
  let w := m.pairKey (rkey pgTherm THERM_DIE_LIM)
  let m := m.thermLimits 16 (sext 8 (bits w 24 8)) (sext 8 (bits w 16 8)) m.tJ
  m.ranges

/-- A ring sensor has deviated for XCHK.T: it is excluded, and those that still deviate without it go on
to be judged, so that two neighbours do not exclude each other in one reading (R376). -/
def ringExclude (m : Module) (s : Nat) : Module :=
  if !m.ringIn s || !m.th.beyond.contains s then m
  else
    let m := m.setReg pgTherm THERM_RING_INC (clrBit (m.reg pgTherm THERM_RING_INC) s)
    let m := m.setTbl pgTherm 2 (2 * s + 1) (clrBit (m.tbl pgTherm 2 (2 * s + 1)) 0)
    let m := m.updTh (fun x => { x with beyond := x.beyond.filter m.ringBeyond })
    let m := m.raise pgTherm THERM_EV_EXCLUDED
    (m.fault pgTherm THERM_FLT_RING_EXCL 0 (rkey pgTherm FLT_WIN)).1

/-- The cause of RING_EXCL is gone (R377). -/
def ringBack (m : Module) : Bool :=
  let dev : Int := (m.cfg pgTherm THERM_XCHK_DEV * 10 : Nat)
  ((List.range 16).filter (fun s => !m.ringIn s)).all (fun s =>
    2 * (m.ringTemp s - m.ringRef s) ≤ dev && -dev ≤ 2 * (m.ringTemp s - m.ringRef s))

/-- A calibration starts (R375). -/
def calStart (m : Module) : Module := m.updTh (fun x => { x with cal := true })

/-- RING_EXCL has been cleared: the excluded sensors are re-admitted once they are calibrated
(R377). -/
def ringReadmit (m : Module) : Module :=
  (m.updTh (fun x => { x with readmit := (List.range 16).filter (fun s => !m.ringIn s) })).calStart

/-- A sensor's offset is set (0.01 °C). -/
def setRingOffset (m : Module) (s : Nat) (o : Int) : Module :=
  m.setTbl pgTherm 2 (2 * s + 1)
    (setBits (m.tbl pgTherm 2 (2 * s + 1)) 16 16 (wrapInt 16 (satInt 16 o)))

/-- The mean of the package diode that a calibration takes (R375): of its latest 16 consecutive readings. -/
def pkgMean (m : Module) : Option Int :=
  if m.th.pkgs.isEmpty then none else some (roundDiv (sumI m.th.pkgs) m.th.pkgs.length)

/-- A calibration ends (R375): against the mean of the package diode, the lid estimate, or the OTP
offsets. -/
def ringCal (m : Module) (otp : List Int) : Module :=
  if !m.th.cal then m
  else
    let mean := m.pkgMean
    let ref := match mean with | some t => some t | none => m.lidTemp
    let src := if mean.isSome then 0 else if m.lidTemp.isSome then 1 else 2
    let sus := match mean, m.lidTemp with
      | some t, some l => decide (100 < t - l) || decide (t - l < -100)
      | _, _ => false
    let m := (List.range 16).foldl (fun m s =>
      m.setRingOffset s (match ref with
        | some t => (t - Config.ringCurve (nth 0 m.th.count s)) * 10
        | none => nth 0 otp s)) m
    let m := m.th.readmit.foldl (fun m s =>
      let m := m.setReg pgTherm THERM_RING_INC (setBit (m.reg pgTherm THERM_RING_INC) s)
      m.setTbl pgTherm 2 (2 * s + 1) (setBit (m.tbl pgTherm 2 (2 * s + 1)) 0)) m
    let m := m.updTh (fun x => { x with cal := false, calOnce := true, readmit := [] })
    let m := m.put pgTherm THERM_CAL_STAT_SRC src
    let m := m.put pgTherm THERM_CAL_STAT_SUSPECT (if sus then 1 else 0)
    let m := m.count pgTherm THERM_CAL_STAT_COUNT 1
    let m := if sus then m.raise pgTherm THERM_EV_CAL_SUSPECT else m
    m.raise pgTherm THERM_EV_CAL_DONE

/-! ### Rate of rise (R379, R380) -/

/-- The THERM task judges the rate of an input: `now` and `was` are the means of R379 in 0.01 °C. -/
def thermRise (m : Module) (i : Nat) (now was : Int) : Module :=
  if 16 ≤ i || !m.tsValid i then m
  else
    let win := m.cfg pgTherm THERM_RR_CFG_RR_WIN
    let rate := satInt 16 (roundDiv (now - was) win)
    let m := m.setTbl pgTherm 1 (2 * i + 1)
      (setBits (m.tbl pgTherm 1 (2 * i + 1)) 0 16 (wrapInt 16 rate))
    let w3 := m.tblLive pgTherm 0 (4 * i + 3)
    let warn : Int := bits w3 0 16
    let req : Int := bits w3 16 16
    let wOn := decide (warn ≠ 0) && decide (warn ≤ rate)
    let wWas := bit (m.reg pgTherm THERM_RISE_MAP) i
    let m := m.put pgTherm ⟨THERM_RISE_MAP, i, 1⟩ (if wOn then 1 else 0)
    let m := if wOn && !wWas then m.raise pgTherm THERM_EV_RISE else m
    let rWas := bit (m.reg pgTherm THERM_RISE_MAP) (16 + i)
    let rOn := decide (req ≠ 0) && decide (req ≤ rate)
    let m :=
      if rOn then
        let m := m.updTh (fun x => { x with low := upd x.low i (fun _ => 0) })
        let m := m.put pgTherm ⟨THERM_RISE_MAP, 16 + i, 1⟩ 1
        if rWas then m else m.raise pgTherm THERM_EV_RISE_REQ
      else if rWas then
        if req ≠ 0 && req ≤ 2 * rate then m.updTh (fun x => { x with low := upd x.low i (fun _ => 0) })
        else
          let n := nth 0 m.th.low i + 1
          let m := m.updTh (fun x => { x with low := upd x.low i (fun _ => n) })
          if req = 0 || 100 * win ≤ n then m.put pgTherm ⟨THERM_RISE_MAP, 16 + i, 1⟩ 0 else m
      else m
    m.tsReport i true

/-- EN goes to 1, with which the settings of the inputs apply: every input restarts INVALID until 2 good rounds
(R382), also one whose mode is as before, since nothing was read while EN was 0 (DEDUCED, log entry
146). -/
def thermRestart (m : Module) : Module :=
  (List.range 16).foldl (fun m i =>
    (m.tsFlag i 16 false).updTh (fun x => { x with
      good := upd x.good i (fun _ => 0), bad := upd x.bad i (fun _ => 0) })) m

/-- What the EPE takes of a TS input: the reported temperature in whole °C, none while it is INVALID
(R380, R372). -/
def tsEpe (m : Module) (i : Nat) : Option Int :=
  if m.tsValid i then some (m.tsRep i / 10) else none

/-- SOFT_RST (R76) with the TS inputs stopped: their readings, their counters and what they have raised.
The die and its ring run regardless of EN (R383) and keep theirs. -/
def thermSoft (m : Module) : Module :=
  let m := (List.range 32).foldl (fun m w => m.setTbl pgTherm 1 w 0) m
  let m := (m.put pgTherm ⟨THERM_WARN_MAP, 0, 16⟩ 0).put pgTherm ⟨THERM_HOT_MAP, 0, 16⟩ 0
  let m := m.setReg pgTherm THERM_RISE_MAP 0
  m.updTh (fun x => { x with
    bad := rep 16 0, good := rep 16 0, low := rep 16 0
    warnUp := rep 16 0 ++ x.warnUp.drop 16, warnDn := rep 16 0 ++ x.warnDn.drop 16
    hotUp := rep 16 0 ++ x.hotUp.drop 16, hotDn := rep 16 0 ++ x.hotDn.drop 16 })

end Module

/-- EXCLUDED (R376). -/
def execExcluded (i : Nat) (s : State) : Host.Outcome State Fault Refusal :=
  actAt i (fun _ => 16) s (fun m => m.ringExclude i)

end Sys2Proof.Machine
end

