-- ==== Sys2Proof/Machine/Twc.lean ====
section
/-! DEFINITION. The two-wire controller ports (R461 to R474): polling, writes, arbitration and
recovery. -/

namespace Sys2Proof.Machine

/-! ### Formats received (R463) -/

/-- `x` × 2^e × k, rounded towards 0. -/
def scale2 (x : Int) (e : Int) (k : Nat) : Int :=
  if 0 ≤ e then x * 2 ^ e.toNat * k else (x * k).tdiv (2 ^ (-e).toNat)

/-- A LINEAR11 word times `k`. -/
def linear11 (w k : Nat) : Int := scale2 (sext 11 w) (sext 5 (w / 2048)) k

/-- A LINEAR16 word under a VOUT_MODE, times `k`. -/
def linear16 (w mode k : Nat) : Int := scale2 ((w % 65536 : Nat) : Int) (sext 5 mode) k

/-- VOUT_MODE gives the linear mode: bits [7:5] are 0 (PRESUMED from PMBus, log entry 61; R463). -/
def voutLinear (mode : Nat) : Bool := mode % 256 / 32 = 0

/-- Entry states as numbered in table 1 (R474). -/
def enUnused : Nat := 0
def enNever : Nat := 1
def enOk : Nat := 2
def enStale : Nat := 3
def enFormat : Nat := 4

/-- A write put behind the writes of its own and of earlier classes (R465). -/
def insWork : List TwcWork → TwcWork → List TwcWork
  | [], w => [w]
  | a :: l, w => if w.cls < a.cls then w :: a :: l else a :: insWork l w

namespace Module

def port (m : Module) (p : Nat) : Twc := nth {} m.twc p
def updPort (m : Module) (p : Nat) (f : Twc → Twc) : Module := { m with twc := upd m.twc p f }

/-- Words of an entry: settings in force, readings. -/
def entW (m : Module) (p e w : Nat) : W32 := m.tblLive (pgTwc + p) 0 (4 * e + w)
def rdW (m : Module) (p e w : Nat) : W32 := m.tbl (pgTwc + p) 1 (4 * e + w)
def rdPut (m : Module) (p e w lo n x : Nat) : Module :=
  m.setTbl (pgTwc + p) 1 (4 * e + w) (setBits (m.rdW p e w) lo n x)

def entValid (m : Module) (p e : Nat) : Bool := bits (m.entW p e 0) 7 1 = 1
def entKind (m : Module) (p e : Nat) : Nat := bits (m.entW p e 0) 8 2
def entSt (m : Module) (p e : Nat) : Nat := bits (m.rdW p e 3) 0 3
def entI (m : Module) (p e : Nat) : Int := sext 16 (bits (m.rdW p e 0) 0 16)
def entT (m : Module) (p e : Nat) : Int := sext 16 (bits (m.rdW p e 1) 0 16)

/-- A write is asked for (R465). -/
def twcSend (m : Module) (p : Nat) (w : TwcWork) : Module :=
  m.updPort p (fun x => { x with work := insWork x.work w })

/-- The port can start a transaction (R465, R468, R19). -/
def portFree (m : Module) (p : Nat) : Bool :=
  m.en (pgTwc + p) && (m.port p).cur.isNone && !(m.port p).stuck && !m.clk.lost.contains 6

/-- The polling table in force changes (R464, R473): a valid entry whose address or kind is new is
NEVER, one that is not valid UNUSED. -/
def twcTable (m : Module) (p : Nat) (old : List W32) : Module :=
  let m := (List.range 16).foldl (fun m e =>
    let o := nth 0 old e
    let n := m.entW p e 0
    if bits n 7 1 = 0 then m.rdPut p e 3 0 3 enUnused
    else if bits o 7 1 = 0 || bits o 0 7 ≠ bits n 0 7 || bits o 8 2 ≠ bits n 8 2 then
      let m := m.updPort p (fun x => { x with zoned := delKey x.zoned e })
      (m.rdPut p e 3 0 3 enNever).rdPut p e 3 8 8 0
    else m) m
  m.put (pgTwc + p) TWC_STATUS_ENTRIES ((List.range 16).filter (m.entValid p)).length

/-- The port's waiting settings apply (R473). -/
def twcApply (m : Module) (p : Nat) : Module :=
  let old := (List.range 16).map (fun e => m.entW p e 0)
  (m.boundary (pgTwc + p)).twcTable p old

/-- The readings of a round (R463): VOUT_MODE first where an entry has not answered or is STALE. -/
def roundReads (m : Module) (p : Nat) : List (Nat × Nat) :=
  ((List.range 16).filter (m.entValid p)).flatMap (fun e =>
    let n := if m.entKind p e = 1 then 6 else 5
    let bitsOn := ((List.range n).filter (fun b => bits (m.entW p e 0) (24 + b) 1 = 1)).map (fun b => (e, b))
    let fresh := m.entSt p e = enNever || m.entSt p e = enStale
    if m.entKind p e = 0 || bitsOn.isEmpty then []
    else if m.entKind p e = 1 && fresh then (e, 7) :: bitsOn else bitsOn)

/-- A polling round starts (R463, R466): COMMITs apply, the write zone is made active, failed writes
are tried again. -/
def roundStart (m : Module) (p : Nat) : Module :=
  let m := m.twcApply p
  let m := m.put (pgTwc + p) ⟨TWC_ROUND_CNT, 0, 16⟩ (m.get (pgTwc + p) ⟨TWC_ROUND_CNT, 0, 16⟩ + 1)
  let again := (m.port p).again
  let m := m.updPort p (fun x => { x with round := m.roundReads p, failed := [], again := [], alertN := 0,
                                          due := false })
  (again.foldl (fun m w => m.twcSend p w) m).twcSend p ⟨2, 16, 0x08, m.cfg (pgTwc + p) TWC_CFG_ZONE_WAKE⟩

/-- POLL_INT elapses (R463): a round that has not finished makes the next one late. -/
def pollRound (m : Module) (p : Nat) : Module :=
  if !m.en (pgTwc + p) || m.clk.lost.contains 6 then m
  else if (m.port p).round.isEmpty then m.roundStart p
  else
    let m := m.put (pgTwc + p) ⟨TWC_ROUND_CNT, 16, 16⟩ (m.get (pgTwc + p) ⟨TWC_ROUND_CNT, 16, 16⟩ + 1)
    (m.updPort p (fun x => { x with due := true })).raise (pgTwc + p) TWC_EV_ROUND_LATE

/-- Between transactions the port takes its next work in the order of R465. -/
def twcStart (m : Module) (p : Nat) : Module :=
  if !m.portFree p then m
  else
    let x := m.port p
    let take := fun (j : TwcJob) (m : Module) =>
      (m.updPort p (fun y => { y with cur := some j, wait := false, losses := 0 })).put (pgTwc + p)
        TWC_STATUS_BUSY 1
    match x.work with
    | w :: rest =>
      let m := m.updPort p (fun y => { y with work := rest })
      let m := if w.cls = 1 then m.put (pgTwc + p) TWC_STATUS_DROOP 1 else m
      take (.work w) m
    | [] =>
      match x.alerts with
      | e :: rest => take (.alert e) (m.updPort p (fun y => { y with alerts := rest }))
      | [] =>
        match x.round with
        | (e, b) :: _ => take (.read e b) m
        | [] => m

/-- A reading of an entry is stored as R463 holds it; in the fallback of POLL the last ones are kept
(R117). -/
def twcStore (m : Module) (p e b v : Nat) : Module :=
  if (m.task 7).fallback then m
  else if m.entKind p e = 1 then
    if b = 0 then m.rdPut p e 0 0 16 (wrapInt 16 (satInt 16 (linear11 v 100)))
    else if b = 1 then
      if m.entSt p e = enFormat || !voutLinear (bits (m.rdW p e 2) 8 8) then m
      else m.rdPut p e 0 16 16 (clampInt 0 65535 (linear16 v (bits (m.rdW p e 2) 8 8) 1000)).toNat
    else if b = 2 then m.rdPut p e 1 0 16 (wrapInt 16 (satInt 16 (linear11 v 10)))
    else if b = 3 then m.rdPut p e 1 16 16 v
    else if b = 4 then m.rdPut p e 2 0 8 v
    else if b = 5 then m.rdPut p e 3 16 16 (clampInt 0 65535 (linear11 v 100)).toNat
    else m.rdPut p e 2 8 8 v
  else
    if b = 0 then m.rdPut p e 0 0 16 (wrapInt 16 ((sext 16 v).tdiv 10))
    else if b = 1 then m.rdPut p e 0 16 16 v
    else if b = 2 then m.rdPut p e 1 0 16 (wrapInt 16 (satInt 16 ((2 * (v : Int) - 5463).tdiv 2)))
    else if b = 3 then m.rdPut p e 1 16 16 v
    else m.rdPut p e 2 0 8 v

/-- An entry's readings of the round are done (R464): its state, failures and round number follow. -/
def entryDone (m : Module) (p e : Nat) : Module :=
  let st := m.entSt p e
  if (m.task 7).fallback then m
  else if (m.port p).failed.contains e then
    let n := satAdd 8 (bits (m.rdW p e 3) 8 8) 1
    let m := m.rdPut p e 3 8 8 n
    if (st = enOk || st = enFormat) && m.cfg (pgTwc + p) TWC_POLL_CFG_STALE_N ≤ n then
      (m.rdPut p e 3 0 3 enStale).raise (pgTwc + p) TWC_EV_STALE
    else m
  else
    let m := (m.rdPut p e 3 8 8 0).rdPut p e 2 16 16 (m.get (pgTwc + p) ⟨TWC_ROUND_CNT, 0, 16⟩)
    let bad := m.entKind p e = 1 && !voutLinear (bits (m.rdW p e 2) 8 8)
    let m := m.rdPut p e 3 0 3 (if bad then enFormat else enOk)
    let m := if bad && st ≠ enFormat then m.raise (pgTwc + p) TWC_EV_FORMAT_BAD else m
    if bits (m.entW p e 0) 11 1 = 1 && !(m.port p).zoned.contains e then
      (m.updPort p (fun x => { x with zoned := insKey x.zoned e })).twcSend p
        ⟨2, e, 0x07, m.cfg (pgTwc + p) TWC_CFG_ZONE_WAKE⟩
    else m

/-- A reading of the round has ended: the entry is done with its last one, and a round that was
waited for starts (R463). -/
def roundNext (m : Module) (p e : Nat) (ok : Bool) : Module :=
  let m := m.updPort p (fun x => { x with
    round := x.round.drop 1, failed := if ok then x.failed else insKey x.failed e })
  let more := match (m.port p).round with | (e', _) :: _ => decide (e' = e) | [] => false
  let m := if more then m else m.entryDone p e
  if (m.port p).round.isEmpty && (m.port p).due then m.roundStart p else m

/-- The transaction in progress ends: `some v` with a value read or a write done, none with a
failure (R464, R465, R468). -/
def twcFinish (m : Module) (p : Nat) (res : Option Nat) : Module :=
  let cur := (m.port p).cur
  let m := m.updPort p (fun x => { x with cur := none, wait := false, losses := 0 })
  let m := m.put (pgTwc + p) TWC_STATUS_BUSY 0
  match cur with
  | none => m
  | some (.work w) =>
    let m := if w.cls = 1 then m.put (pgTwc + p) TWC_STATUS_DROOP 0 else m
    if res.isSome || w.cls = 4 then m
    else m.updPort p (fun x => { x with again := x.again ++ [w] })
  | some (.alert e) =>
    match res with
    | some v => m.twcStore p e 3 v
    | none => m
  | some (.read e b) =>
    match res with
    | some v => (m.twcStore p e b v).roundNext p e true
    | none => m.roundNext p e false

/-- A byte of ERR_CNT counts up. -/
def twcErr (m : Module) (p lo : Nat) : Module := m.count (pgTwc + p) ⟨TWC_ERR_CNT, lo, 8⟩ 1

/-- Address of the target of a job; a Zone Write goes to 0x37 (PRESUMED from PMBus, log entry 149). -/
def jobAddr (m : Module) (p : Nat) : Option TwcJob → Nat
  | some (.work w) => if 16 ≤ w.entry then 0x37 else bits (m.entW p w.entry 0) 0 7
  | some (.read e _) => bits (m.entW p e 0) 0 7
  | some (.alert e) => bits (m.entW p e 0) 0 7
  | none => 0

/-- A transaction of a controller port ends (R468, R469). -/
def twcEnd (m : Module) (p : Nat) (res : TwcRes) : Module :=
  let x := m.port p
  if x.cur.isNone || x.wait then m
  else
    match res with
    | .ok v => m.twcFinish p (some v)
    | .addrNack => ((m.twcErr p 0).raise (pgTwc + p) TWC_EV_NACK).twcFinish p none
    | .dataNack => ((m.twcErr p 8).raise (pgTwc + p) TWC_EV_NACK).twcFinish p none
    | .pecErr => ((m.twcErr p 16).raise (pgTwc + p) TWC_EV_PEC_ERR).twcFinish p none
    | .arbLost pos =>
      let m := m.raise (pgTwc + p) TWC_EV_ARB_LOST
      let m := m.put (pgTwc + p) TWC_ARB_LAST_POS (min 255 pos)
      let m := m.put (pgTwc + p) TWC_ARB_LAST_ADDR (m.jobAddr p x.cur)
      let m := m.count (pgTwc + p) ⟨TWC_ARB_CNT, 0, 16⟩ 1
      let n := x.losses + 1
      if m.cfg (pgTwc + p) TWC_CFG_ARB_RETRIES ≤ n then
        (m.count (pgTwc + p) ⟨TWC_ARB_CNT, 16, 16⟩ 1).twcFinish p none
      else
        let k := m.nfree
        { m with nfree := k + 1 }.updPort p (fun y => { y with
          wait := true, losses := n, backoff := Config.backoff p k % 16 })

/-- The bus is free and the back-off has passed: the transaction is tried again (R469). -/
def twcRetry (m : Module) (p : Nat) : Module := m.updPort p (fun x => { x with wait := false })

/-- A target has held SCL for STRETCH_TMO (R468). -/
def twcStretch (m : Module) (p : Nat) : Module :=
  if (m.port p).cur.isNone then m else (m.twcErr p 24).twcFinish p none

/-- A line is stuck (R468). -/
def twcStuck (m : Module) (p : Nat) : Module :=
  if !m.en (pgTwc + p) || (m.port p).stuck then m
  else
    let m := m.raise (pgTwc + p) TWC_EV_BUS_STUCK
    let m := m.latchNow (pgTwc + p) TWC_FLT_BUS_STUCK
    let m := m.updPort p (fun x => { x with stuck := true })
    m.twcFinish p none

/-- A recovery of a stuck port is tried again (R468). -/
def twcRecover (m : Module) (p : Nat) (free : Bool) : Module :=
  if free then m.updPort p (fun x => { x with stuck := false }) else m

/-- An alert: the address that the Alert Response Address returned (R467). -/
def twcAlert (m : Module) (p addr : Nat) : Module :=
  if !m.en (pgTwc + p) || !m.flag (pgTwc + p) TWC_CFG_ALERT_EN || 16 ≤ (m.port p).alertN
      || (m.port p).stuck then m
  else
    let m := m.updPort p (fun x => { x with alertN := x.alertN + 1 })
    match (List.range 16).find? (fun e => m.entValid p e && bits (m.entW p e 0) 0 7 = addr) with
    | some e => (m.updPort p (fun x => { x with alerts := x.alerts ++ [e] })).raise (pgTwc + p) TWC_EV_ALERT
    | none => m.twcErr p 24

/-- EN of a port goes to 0, or its clock is lost: the transaction and the round are gone (R473,
R470). -/
def twcStop (m : Module) (p : Nat) : Module :=
  let m := m.updPort p (fun x => { x with cur := none, wait := false, losses := 0, round := [],
                                          due := false, failed := [], alerts := [] })
  (m.put (pgTwc + p) TWC_STATUS_BUSY 0).put (pgTwc + p) TWC_STATUS_DROOP 0

end Module

/-- POLL_ROUND (R463). -/
def execPollRound (p : Nat) (s : State) : Host.Outcome State Fault Refusal :=
  actAt p (fun _ => 4) s (fun m => m.pollRound p)

/-- TWC_TRANSACTION_START (R465). -/
def execTwcTransactionStart (p : Nat) (s : State) : Host.Outcome State Fault Refusal :=
  actAt p (fun _ => 4) s (fun m => m.twcStart p)

/-- ARB_BACKOFF_END (R469). -/
def execArbBackoffEnd (p : Nat) (s : State) : Host.Outcome State Fault Refusal :=
  actAt p (fun _ => 4) s (fun m => m.twcRetry p)

/-- TWC_STRETCH_TMO (R468). -/
def execTwcStretchTmo (p : Nat) (s : State) : Host.Outcome State Fault Refusal :=
  actAt p (fun _ => 4) s (fun m => m.twcStretch p)

/-- BUS_STUCK (R468). -/
def execBusStuck (p : Nat) (s : State) : Host.Outcome State Fault Refusal :=
  actAt p (fun _ => 4) s (fun m => m.twcStuck p)

/-- BUS_RECOVERY_RETRY (R468). -/
def execBusRecoveryRetry (p : Nat) (free : Bool) (s : State) : Host.Outcome State Fault Refusal :=
  actAt p (fun _ => 4) s (fun m => m.twcRecover p free)

/-- ALERT (R467). -/
def execAlert (p addr : Nat) (s : State) : Host.Outcome State Fault Refusal :=
  actAt p (fun _ => 4) s (fun m => m.twcAlert p addr)

end Sys2Proof.Machine
end

