-- ==== Sys2Proof/Machine/Epe.lean ====
section
/-! DEFINITION. The energy placement engine (R242 to R261): the sources of a solve, the solver, the
commit of its results, reserve and standby of rectifiers, trims, phase order and wear. Currents are
in 10 mA. -/

namespace Sys2Proof.Machine

/-! ### The solver (R252) -/

/-- The largest level. -/
def levelMax : Nat := 0x1FFFFF

/-- What a source supplies at a level between its bounds. -/
def srcSupply (L : Nat) (s : EpeSrc) : Nat := sumN ((s.segs.filter (fun x => x.2 ≤ L)).map (·.1))

/-- What the sources supply at a level. -/
def supply (S : List EpeSrc) (L : Nat) : Nat := sumN (S.map (srcSupply L))

/-- The lowest level that supplies `r`, found between `lo` and `hi`, and the iterations made. -/
def levelSearch (S : List EpeSrc) (r : Nat) : Nat → Nat → Nat → Nat → Nat × Nat
  | 0, lo, _, it => (lo, it)
  | fuel + 1, lo, hi, it =>
    if lo < hi then
      let mid := lo + (hi - lo) / 2
      if r ≤ supply S mid then levelSearch S r fuel lo mid (it + 1)
      else levelSearch S r fuel (mid + 1) hi (it + 1)
    else (lo, it)

/-- A source's share at level `L`: its lower bound, every cheaper segment, its part of `rem` over the
tied segments. -/
def tieShare (L rem tie : Nat) (s : EpeSrc) : Nat :=
  sumN ((s.segs.filter (fun x => x.2 = L)).map (fun x => x.1 * rem / tie))

/-- Leftover units of 10 mA go one to a tied segment that has a length, in order. -/
def leftovers (L : Nat) : List (EpeSrc × Nat) → Nat → List (Nat × Nat)
  | [], _ => []
  | (s, a) :: l, left =>
    let n := min left (s.segs.filter (fun x => x.2 = L && 0 < x.1)).length
    (s.slot, a + n) :: leftovers L l (left - n)

/-- `fill` of R252: allocation by slot, deficit, iterations, and the level when one was searched. -/
def fill (S : List EpeSrc) (d : Nat) : List (Nat × Nat) × Bool × Nat × Option Nat :=
  let base := sumN (S.map (·.lo))
  if d ≤ base then (S.map (fun s => (s.slot, s.lo)), false, 0, none)
  else
    let r := d - base
    if supply S levelMax < r then (S.map (fun s => (s.slot, s.hi)), true, 0, none)
    else
      let (L, it) := levelSearch S r 21 0 levelMax 0
      let below := if L = 0 then 0 else supply S (L - 1)
      let tie := supply S L - below
      let rem := r - below
      let given := sumN (S.map (tieShare L rem tie))
      let xs := S.map (fun s => (s, s.lo + (if L = 0 then 0 else srcSupply (L - 1) s) + tieShare L rem tie s))
      (leftovers L xs (rem - given), false, it, some L)

/-- The share that an allocation gives a slot. -/
def shareOf (a : List (Nat × Nat)) (s : Nat) : Nat :=
  match a.find? (fun x => x.1 = s) with | some x => x.2 | none => 0

/-- What an allocation gives the rectifiers. -/
def rectSum (a : List (Nat × Nat)) : Nat := sumN ((a.filter (fun x => x.1 < 32)).map (·.2))

/-- The passes of R252; during a Crossing batteries only and no cap pass (R277). -/
def solve (q : EpeReq) : EpeRes :=
  let avail := q.srcs.filter (fun s => s.ok && (!q.crossing || (32 ≤ s.slot && s.slot < 40)))
  let (a, dA, itA, lA) := fill avail (q.dLoad + q.dChg)
  match q.crossing, q.icap with
  | false, some icap =>
    if rectSum a ≤ icap then ⟨a, false, dA, itA, lA⟩
    else
      let dry := q.srcs.filter (·.okDry)
      let (b, dB, itB, _) := fill (dry.filter (fun s => s.slot < 32)) icap
      let (c, dC, itC, lC) := fill (dry.filter (fun s => 32 ≤ s.slot)) (q.dLoad - rectSum b)
      ⟨b ++ c, true, dA || dB || dC, itA + itB + itC, lC⟩
  | _, _ => ⟨a, false, dA, itA, lA⟩

/-! ### Segments and costs (R244, R245) -/

/-- The segments between the bounds: length and cost of each, from the ends and efficiencies. -/
def segments (lo hi base : Nat) (wl : Nat) : Nat → List (Nat × Nat) → List (Nat × Nat)
  | _, [] => []
  | e, (x, eta) :: l =>
    let top := if l.isEmpty then hi else min x hi
    (top - max e lo, wl * (65535 - eta) + base) :: segments lo hi base wl x l

/-- TT of a temperature (R245, R260). -/
def ttOf (t : Option Int) : Nat :=
  match t with
  | none => 16384
  | some x => min 65535 (max 0 ((x + 64) * 256)).toNat

namespace Module

def updEp (m : Module) (f : Epe → Epe) : Module := { m with ep := f m.ep }

/-- State of XING (R311). -/
def xingSt (m : Module) : Nat := m.get pgXing XING_STATUS_STATE
/-- In CROSSING or QUALIFYING. -/
def crossing (m : Module) : Bool := m.xingSt = 1 || m.xingSt = 2

/-- The rectifiers are out of service for a Crossing (R277, R286): from its detection to RETURNING, or to
the end of a CUTOFF. -/
def rectsAway (m : Module) : Bool := m.crossing || m.xingSt = 4

/-- V_bus was looked at (R250): VBUS_BAD follows, and its event is raised once. -/
def vbusSeen (m : Module) (v : Option Nat) : Module :=
  let was := m.get pgEpe EPE_STATUS_VBUS_BAD = 1
  match v with
  | some _ => if was then m.put pgEpe EPE_STATUS_VBUS_BAD 0 else m
  | none => if was then m else (m.put pgEpe EPE_STATUS_VBUS_BAD 1).raise pgEpe EPE_EV_VBUS_BAD

/-- V_bus: what the bus input named by `VBUS_SRC` gives, while it is valid (R247, R249, R250). -/
def vbusNow (m : Module) : Option Nat := m.busValid (m.cfg pgEpe EPE_CFG_VBUS_SRC)

/-- V_bus is looked at when a command brings samples of the GIN channels: VBUS_BAD follows (R250). -/
def vbusTake (m : Module) (gin : List Int) : Module :=
  let m := m.ginNow gin
  m.vbusSeen m.vbusNow

/-! ### Sources (R242 to R245) -/

/-- Word `w` of a source, in force, and its value when it is a pair. -/
def srcW (m : Module) (s w : Nat) : W32 := m.tblLive pgEpe 0 (16 * s + w)
def srcV (m : Module) (s w : Nat) : Nat := m.tblVal pgEpe 0 (16 * s + w)
def srcEn (m : Module) (s : Nat) : Bool := bits (m.srcW s 0) 0 1 = 1

/-- Share and state of a source as reported (R279). -/
def srcShare (m : Module) (s : Nat) : Nat := bits (m.tbl pgEpe 0 (16 * s + 15)) 0 16
def srcSt (m : Module) (s : Nat) : Nat := bits (m.tbl pgEpe 0 (16 * s + 15)) 16 4
def srcPut (m : Module) (s lo w x : Nat) : Module :=
  m.setTbl pgEpe 0 (16 * s + 15) (setBits (m.tbl pgEpe 0 (16 * s + 15)) lo w x)

/-- Port and entry of a rectifier (R279). -/
def rectPort (m : Module) (s : Nat) : Nat := bits (m.srcW s 0) 20 2
def rectEntry (m : Module) (s : Nat) : Nat := bits (m.srcW s 0) 16 4
def rectEntSt (m : Module) (s : Nat) : Nat := m.entSt (m.rectPort s) (m.rectEntry s)

/-- Rail of a source (R242). -/
def srcRail (m : Module) (s : Nat) : Nat :=
  if s < 40 then m.cfg (pgBatt + (s - 32)) BATT_CFG_RAIL else s - 40

/-- Smaller of SOC_C and SOC_V of a string (R243, R365), 0.01 %. -/
def sMin (m : Module) (b : Nat) : Nat :=
  min (m.get (pgBatt + b) ⟨BATT_SOC, 16, 16⟩) (m.get (pgBatt + b) ⟨BATT_SOC, 0, 16⟩)

/-- The string is present and not SWAPPED, its rail is REGULATING, and it is not cut off (R243,
R367). -/
def strGood (m : Module) (b : Nat) : Bool :=
  (nth {} m.bt b).run && m.get (pgBatt + b) BATT_STATUS_PRES = 1
    && m.get (pgBatt + b) BATT_STATUS_SWAPPED = 0
    && m.get (pgBatt + b) BATT_STATUS_LEVEL ≠ 3
    && m.rlSt (m.cfg (pgBatt + b) BATT_CFG_RAIL) = rsReg

/-- Charging is permitted (R362). -/
def chgPermitted (m : Module) (b : Nat) : Bool :=
  m.flag (pgBatt + b) BATT_CFG_CHG_EN && m.srcEn (32 + b) && (nth {} m.bt b).run
    && m.get (pgBatt + b) BATT_STATUS_PRES = 1 && m.get (pgBatt + b) BATT_STATUS_SWAPPED = 0
    && m.xingSt = 0 && m.get (pgBatt + b) BATT_STATUS_FULL = 0
    && m.get (pgBatt + b) BATT_STATUS_CHG_TEMP = 0

/-- Charge request that counts in this solve, 10 mA (R247, R362). -/
def chgAsk (m : Module) (b : Nat) : Nat :=
  if m.chgPermitted b then 10 * m.get (pgBatt + b) ⟨BATT_CHG_REQ, 0, 16⟩ else 0

/-- The polling entry that supplies a string's temperature (R463). -/
def strEntry (m : Module) (b : Nat) : Option (Nat × Nat) :=
  ((List.range 64).map (fun i => (i / 16, i % 16))).find? (fun x =>
    m.entValid x.1 x.2 && m.entKind x.1 x.2 = 2 && bits (m.entW x.1 x.2 0) 19 1 = 1
      && bits (m.entW x.1 x.2 0) 16 3 = b)

/-- A temperature of a polling entry in 0.1 °C, while its readings are good. -/
def entTemp10 (m : Module) (p e : Nat) : Option Int :=
  if m.entSt p e = enOk || m.entSt p e = enFormat then some (m.entT p e) else none

/-- A temperature of a polling entry in whole °C. -/
def entTemp (m : Module) (p e : Nat) : Option Int := (m.entTemp10 p e).map (· / 10)

/-- The source has a temperature input (R245, R279). -/
def srcTempIn (m : Module) (s : Nat) : Bool :=
  let c := bits (m.srcW s 0) 8 8
  c < 16 || (c = 0x80 && s < 40)

/-- The present temperature of a source in °C (R244, R279). -/
def srcTemp (m : Module) (s : Nat) : Option Int :=
  let c := bits (m.srcW s 0) 8 8
  if c < 16 then m.tsEpe c
  else if c = 0x80 then
    if s < 32 then m.entTemp (m.rectPort s) (m.rectEntry s)
    else if s < 40 then
      match m.strEntry (s - 32) with | some (p, e) => m.entTemp p e | none => none
    else none
  else none

/-- The measured output current of a source (R247). -/
def srcI (m : Module) (s : Nat) : Int :=
  if s < 32 then m.entI (m.rectPort s) (m.rectEntry s)
  else if s < 52 then roundDiv ((m.rail (m.srcRail s)).cur * 10) 32768
  else m.srcShare s

/-- hi of R244 before a stale reading holds it. -/
def srcHi (m : Module) (s : Nat) (t : Option Int) : Nat :=
  let w4 := m.pairKey (tkey pgEpe 0 (16 * s + 4))
  let t0 := sext 8 (bits w4 24 8)
  let beyond := (max 0 (t.getD t0 - t0)).toNat
  let ilim := m.srcV s 1 * (256 - bits w4 16 8 * beyond) / 256
  let hi := min (m.srcV s 3) ilim
  if 32 ≤ s && s < 52 then min hi (100 * m.capacity (m.srcRail s)) else hi

/-- Whether a rectifier is available apart from a Crossing: in service, AC good, answered (R243). An
entry in FORMAT_BAD has answered. -/
def rectOk (m : Module) (acok s : Nat) : Bool :=
  nth 0 m.ep.mode s = 0
    && (bits (m.srcW s 0) 27 1 = 0 || acok.testBit (bits (m.srcW s 0) 24 3))
    && enOk ≤ m.rectEntSt s

/-- The source that a solve takes for slot `s` (R243 to R245). -/
def srcTake (m : Module) (acok s : Nat) : EpeSrc :=
  let t := nth none m.ep.lastT s
  let stale := decide (s < 32) && m.rectEntSt s ≠ enOk && m.rectEntSt s ≠ enFormat
  let hi0 := m.srcHi s t
  let hi := if stale then m.srcShare s else hi0
  let lo := if stale then hi else min (m.srcV s 2) hi
  let chg := if 32 ≤ s && s < 40 then m.chgAsk (s - 32) else 0
  let okDry :=
    if s < 32 then m.rectOk acok s && !m.rectsAway
    else if s < 40 then
      s - 32 < nStrings m.sys.part && m.strGood (s - 32)
        && (m.crossing || m.cfg pgEpe EPE_POLICY_FLOOR * 100 < m.sMin (s - 32))
    else if s < 52 then
      m.rlSt (s - 40) = rsReg && m.bidi (s - 40) && (m.strOf (s - 40)).isNone
    else bits (m.srcW s 0) 1 1 = 1
  let base := m.cfg pgEpe EPE_WEIGHTS_WW * m.srcV s 5 + m.cfg pgEpe EPE_WEIGHTS_WT * ttOf (if m.srcTempIn s then t else none)
  let ends := (List.range 8).map (fun j => (bits (m.srcW s (6 + j)) 16 16, bits (m.srcW s (6 + j)) 0 16))
  { slot := s, lo := lo, hi := hi, ok := okDry && chg = 0, okDry := okDry, chg := chg, i := m.srcI s,
    t := t, stale := stale, segs := segments lo hi base (m.cfg pgEpe EPE_WEIGHTS_WL) 0 ends }

/-- The enabled sources. -/
def srcsOn (m : Module) : List Nat := (List.range 64).filter m.srcEn

/-- The last valid temperatures follow (R244). -/
def srcTemps (m : Module) : Module :=
  m.srcsOn.foldl (fun m s => match m.srcTemp s with
    | some t => m.updEp (fun x => { x with lastT := upd x.lastT s (fun _ => some t) })
    | none => m) m

/-- icap of R248, none without a cap. -/
def icapOf (m : Module) (vbus : Nat) : Option Nat :=
  let c := m.get pgCap ⟨CAP_IN_FORCE, 0, 24⟩
  if c = 0xFFFFFF then none
  else some (c * m.val pgCap CAP_CAP_EFF / 65536 * 100000 / vbus)

/-- The pairs that a solve uses are checked (R94). -/
def epePairs (m : Module) : Module :=
  let m := m.srcsOn.foldl (fun m s => m.useWords pgEpe 0 ((List.range 5).map (fun w => 16 * s + 1 + w))) m
  m.usePair pgCap CAP_CAP_EFF

/-- d_load before it saturates, 10 mA (R247): a rectifier's polled current counts only while it is in
service (R286). -/
def loadSum (m : Module) (srcs : List EpeSrc) : Int :=
  sumI (srcs.map (fun s => if s.slot < 32 && m.rectsAway then 0 else s.i))

/-- EPE_REQ gathers its inputs and requests a solve (R247, R250, R251, R278). -/
def epeRequest (m : Module) (gin : List Int) (acok : Nat) : Module :=
  if !m.en pgEpe then m
  else
    let m := m.vbusTake gin
    match m.vbusNow with
    | none => m
    | some v =>
      let m := ((m.boundary pgEpe).epePairs).srcTemps
      let srcs := m.srcsOn.map (m.srcTake acok)
      let load := clampInt 0 (2 ^ 20 - 1) (m.loadSum srcs)
      let m := { m with xg := { m.xg with vbus := v } }
      m.updEp (fun x => { x with
        req := some { crossing := m.crossing, dLoad := load.toNat, dChg := sumN (srcs.map (·.chg)), vbus := v,
                      icap := m.icapOf v, srcs := srcs },
        res := none, discard := false })

/-- The hardware completes the solve and stages its results (R251, R252). -/
def epeSolved (m : Module) : Module :=
  match m.ep.req with
  | none => m
  | some q => m.updEp (fun x => { x with res := some (solve q) })

/-! ### Set points (R259) -/

/-- A current in 10 mA as a rail's set point (R216, R259). -/
def setCode (m : Module) (r : Nat) (x : Int) : Int :=
  satInt 16 (roundDiv (x * 32768) (10 * m.iFs r))

/-- The set point of a rail that a source drives. -/
def setPoint (m : Module) (r : Nat) (x : Int) : Module :=
  let c := m.setCode r x
  m.updRl r (fun y => { y with iset := c })

/-- The strings that carry assist (R265): available in the last solve, above the floor. -/
def assistStrings (m : Module) : List Nat :=
  (List.range (nStrings m.sys.part)).filter (fun b =>
    m.srcEn (32 + b) && m.srcSt (32 + b) = 1 && m.strGood b
      && m.cfg pgEpe EPE_POLICY_FLOOR * 100 < m.sMin b)

/-- hi of a source in the last committed solve. -/
def srcHiNow (m : Module) (s : Nat) : Nat := nth 0 m.ep.hi s

/-- The part of the assist current that a string takes (R265). -/
def assistPart (m : Module) (b : Nat) : Nat :=
  if m.assistStrings.contains b then
    m.cp.a * m.srcHiNow (32 + b) / max 1 (sumN (m.assistStrings.map (fun x => m.srcHiNow (32 + x))))
  else 0

/-- What the walk leaves of each starting set point, in 1/100,000 (R293). -/
def walkLeft (m : Module) : Nat := 100000 - m.cfg pgXing ⟨XING_RETURN_SLEW, 0, 8⟩ * m.xg.walkMs

/-- The walk value of a string, Q1.15 (R293). -/
def walkOf (m : Module) (b : Nat) : Int := roundDiv (nth 0 m.xg.sb0 b * m.walkLeft) 100000

/-- The set point of a string that does not charge, Q1.15: committed share and assist (R259, R265). In
RETURNING the walk stands in for a share that is smaller; without firmware it stands alone (R293). -/
def stringCode (m : Module) (b : Nat) : Int :=
  let r := m.cfg (pgBatt + b) BATT_CFG_RAIL
  let share : Int := m.srcShare (32 + b)
  let assist : Int := m.assistPart b
  if m.xingSt ≠ 3 then m.setCode r (share + assist)
  else if !m.sys.fwRun then m.walkOf b
  else if m.setCode r share < m.walkOf b then satInt 16 (m.walkOf b + m.setCode r assist)
  else m.setCode r (share + assist)

/-- The set points of the strings that do not charge (R259, R265, R293); a string with its source at EN 0
has a share of 0. -/
def stringPoints (m : Module) : Module :=
  ((List.range (nStrings m.sys.part)).filter (fun b =>
      (nth {} m.bt b).run && (m.xingSt = 3 || m.srcSt (32 + b) ≠ 4))).foldl
    (fun m b =>
      let c := m.stringCode b
      m.updRl (m.cfg (pgBatt + b) BATT_CFG_RAIL) (fun x => { x with iset := c })) m

/-! ### Phase order and wear (R260) -/

/-- Score of a phase. -/
def phScore (m : Module) (n : Nat) : Nat :=
  m.cfg pgEpe EPE_WEIGHTS_WW * min 65535 ((m.tbl pgEpe 1 (2 * n + 1)).toNat / 16)
    + m.cfg pgEpe EPE_WEIGHTS_WT * ttOf (nth none m.ep.phT n)

/-- A phase put into an order of rising score, ties by rising number. -/
def insScore (m : Module) : List Nat → Nat → List Nat
  | [], n => [n]
  | a :: l, n => if m.phScore n < m.phScore a then n :: a :: l else a :: m.insScore l n

/-- The phase order tables of the running rails are written (R260, RAIL table 2). -/
def phaseOrder (m : Module) : Module :=
  let m := (List.range (nPhases m.sys.part)).foldl (fun m n =>
    let w := m.tblLive pgEpe 1 (2 * n)
    if bits w 7 1 = 1 then
      match m.tsEpe (bits w 0 4) with
      | some t => m.updEp (fun x => { x with phT := upd x.phT n (fun _ => some t) })
      | none => m
    else m.updEp (fun x => { x with phT := upd x.phT n (fun _ => none) })) m
  ((List.range (nRails m.sys.part)).filter (fun r => m.rlSt r ≠ rsOff)).foldl (fun m r =>
    let order := (m.namedBy r).foldl m.insScore []
    let m := (List.range 48).foldl (fun m i =>
      m.setTbl (pgRail + r) 2 i (match order[i]? with
        | some n => BitVec.ofNat 32 (128 + n)
        | none => 0)) m
    m.refresh r) m

/-- Wear of a phase as table 1 reports it, A·h. -/
def wearWords (m : Module) : Module :=
  (List.range 48).foldl (fun m n =>
    m.setTbl pgEpe 1 (2 * n + 1) (BitVec.ofNat 32 (min (2 ^ 32 - 1) (nth 0 m.ep.wear n / 36000)))) m

/-- Each second every phase of a running rail wears by |I| × 1 s (R260). -/
def wearTick (m : Module) : Module :=
  let m' := (List.range (nPhases m.sys.part)).foldl (fun x n =>
    if m.rlRuns (m.railOf n) && psSwitches (m.phSt n) then
      x.updEp (fun e => { e with wear := upd e.wear n (· + (m.curOf n).natAbs / 32768) })
    else x) m
  m'.wearWords

/-! ### Crossing table (R261) -/

/-- The strings that a Crossing would use, floor ignored, with their hi. -/
def xStrings (m : Module) (q : EpeReq) : List (Nat × Nat) :=
  (q.srcs.filter (fun s => 32 ≤ s.slot && s.slot < 40 && m.strGood (s.slot - 32))).map
    (fun s => (s.slot - 32, s.hi))

/-- Duty preset of a string's rail: V_batt over V_bus of its own input, else of the EPE's. -/
def xDuty (m : Module) (r vbus : Nat) : Nat :=
  let v := (m.busValid (m.cfg (pgRail + r) RAIL_CFG_VIN_SRC)).getD vbus
  let y := m.ySense r (m.rail r).y
  (clampInt 0 (m.dutyMax r) (roundDiv (32768 * y) (160 * v))).toNat

/-- Crossing currents and duty presets of the commit. -/
def crossTable (m : Module) (q : EpeReq) : Module :=
  let xs := m.xStrings q
  let sum := sumN (xs.map (·.2))
  let short := decide (sum < q.dLoad)
  let m := m.put pgEpe EPE_STATUS_XSHORT (if short then 1 else 0)
  let m := m.updEp (fun e => { e with dLoad := q.dLoad, xb := rep 8 0, xhi := rep 8 0 })
  (List.range 8).foldl (fun m b =>
    match xs.find? (fun x => x.1 = b) with
    | none => m.setTbl pgEpe 2 b 0
    | some (_, hi) =>
      let x := if short then hi else min hi (q.dLoad * hi / max 1 sum)
      let r := m.cfg (pgBatt + b) BATT_CFG_RAIL
      let c := max 0 (m.setCode r x)
      let m := m.updEp (fun e => { e with xb := upd e.xb b (fun _ => x), xhi := upd e.xhi b (fun _ => hi) })
      m.setTbl pgEpe 2 b (BitVec.ofNat 32 (c.toNat * 65536 + m.xDuty r q.vbus))) m

/-! ### Reserve and standby (R254 to R256) -/

/-- Segment-0 cost of a source in a solve. -/
def costOf (s : EpeSrc) : Nat := match s.segs with | x :: _ => x.2 | [] => 0

/-- The rule N+k over the hi of the rectifiers in service: their sum less the `k` largest. -/
def reserveOk (his : List Nat) (k need : Nat) : Bool :=
  let sorted := his.foldl (fun l h => (l.filter (fun x => h ≤ x)) ++ [h] ++ (l.filter (fun x => x < h))) []
  need ≤ sumN (sorted.drop k)

/-- A source put into an order of rising segment-0 cost, ties by rising slot. -/
def insCost : List EpeSrc → EpeSrc → List EpeSrc
  | [], s => [s]
  | a :: l, s => if costOf s < costOf a then s :: a :: l else a :: insCost l s

/-- OPERATION goes to a rectifier by its polling port (R255, R465). -/
def rectOperate (m : Module) (s op : Nat) : Module :=
  m.twcSend (m.rectPort s) ⟨2, m.rectEntry s, 0x01, op⟩

/-- A rectifier in standby is woken: it is WAKING (R255, R256). -/
def rectWake (m : Module) (s : Nat) : Module :=
  let m := m.updEp (fun x => { x with mode := upd x.mode s (fun _ => 3), onMs := upd x.onMs s (fun _ => 0) })
  (m.srcPut s 16 4 3).rectOperate s (m.cfg pgEpe EPE_PMB_CMD_ON_OP)

/-- A rectifier enters standby; it keeps its trim (R255, R258). -/
def rectStandby (m : Module) (s : Nat) : Module :=
  let m := m.updEp (fun x => { x with mode := upd x.mode s (fun _ => 2), onMs := upd x.onMs s (fun _ => 0) })
  let m := (m.srcPut s 16 4 2).rectOperate s (m.cfg pgEpe EPE_PMB_CMD_STBY_OP)
  m.raise pgEpe EPE_EV_STANDBY

/-- The standby rectifiers that are woken until the rule would hold: as few as will do, in the order
given (R255). -/
def wakeUntil (k need : Nat) : List EpeSrc → List Nat → List Nat
  | [], _ => []
  | s :: l, his => if reserveOk his k need then [] else s.slot :: wakeUntil k need l (his ++ [s.hi])

/-- Wakes and standby are judged after a committed solve (R255). The rule that a wake would mend
counts the rectifiers that are already waking. -/
def standbyJudge (m : Module) (q : EpeReq) (res : EpeRes) (need : Nat) : Module :=
  if !m.flag pgEpe EPE_STBY_CFG_EN || res.bound || m.crossing || m.xingSt = 4 then m
  else
    let rects := q.srcs.filter (fun s => s.slot < 32)
    let on := rects.filter (·.ok)
    let k := m.cfg pgEpe EPE_POLICY_K
    let waking := rects.filter (fun s => nth 0 m.ep.mode s.slot = 3)
    let asleep := (rects.filter (fun s => nth 0 m.ep.mode s.slot = 2)).foldl insCost []
    let reserve := if reserveOk (on.map (·.hi)) k need then []
      else wakeUntil k need asleep ((on ++ waking).map (·.hi))
    let loaded := on.any (fun s => m.cfg pgEpe EPE_STBY_CFG_WAKE_LOAD * s.hi < 100 * shareOf res.share s.slot)
    let rested := asleep.filter (fun s => !reserve.contains s.slot
      && m.cfg pgEpe EPE_STBY_TIME_MIN_OFF * 1000 ≤ nth 0 m.ep.onMs s.slot)
    let load := if loaded then (rested.take 1).map (·.slot) else []
    let wakes := reserve ++ load
    if !wakes.isEmpty then wakes.foldl (fun m s => m.rectWake s) m
    else if on.all (fun s => 100 * shareOf res.share s.slot < m.cfg pgEpe EPE_STBY_CFG_STBY_LOAD * s.hi) then
      match ((on.filter (fun s => !s.stale)).foldl insCost []).reverse with
      | [] => m
      | c :: _ =>
        if reserveOk ((on.filter (fun s => s.slot ≠ c.slot)).map (·.hi)) k need
            && m.cfg pgEpe EPE_STBY_TIME_MIN_ON * 1000 ≤ nth 0 m.ep.onMs c.slot
        then m.rectStandby c.slot else m
    else m

/-- The reserve rule after a solve (R254). -/
def reserveJudge (m : Module) (q : EpeReq) (need : Nat) : Module :=
  let rects := q.srcs.filter (fun s => s.slot < 32)
  if rects.isEmpty then m.put pgEpe EPE_STATUS_RESERVE_SHORT 0
  else
    let holds := reserveOk ((rects.filter (·.ok)).map (·.hi)) (m.cfg pgEpe EPE_POLICY_K) need
    let m := m.put pgEpe EPE_STATUS_RESERVE_SHORT (if holds then 0 else 1)
    if holds then m.updEp (fun x => { x with rsSaid := false })
    else if rects.all (fun s => s.ok || nth 0 m.ep.mode s.slot = 3) && !m.ep.rsSaid then
      (m.updEp (fun x => { x with rsSaid := true })).raise pgEpe EPE_EV_RESERVE_SHORT
    else m

/-! ### Commit (R251 to R254, R259 to R261) -/

/-- The readings, shares and states of the sources are reported (R247, R279). -/
def srcReport (m : Module) (q : EpeReq) (res : EpeRes) : Module :=
  (List.range 64).foldl (fun m s =>
    match q.srcs.find? (fun x => x.slot = s) with
    | none =>
      let m := m.setTbl pgEpe 0 (16 * s + 14) 0
      let m := m.setTbl pgEpe 0 (16 * s + 15) 0
      m.updEp (fun x => { x with hi := upd x.hi s (fun _ => 0) })
    | some x =>
      let charging := decide (x.chg ≠ 0) && !res.bound
      let took := res.share.any (fun y => y.1 = s)
      let rm := if s < 32 then nth 0 m.ep.mode s else 0
      let st := if charging then 4 else if took then 1 else if rm = 2 then 2 else if rm = 3 then 3 else 5
      let share := shareOf res.share s
      let i : Int := if 52 ≤ s then (share : Int) else x.i
      let w := wrapInt 16 (satInt 16 i) + wrapInt 8 (satInt 8 (x.t.getD 0)) * 65536
        + (if x.stale then 2 ^ 31 else 0)
      let m := m.setTbl pgEpe 0 (16 * s + 14) (BitVec.ofNat 32 w)
      let m := m.setTbl pgEpe 0 (16 * s + 15) (BitVec.ofNat 32 (min 65535 share + st * 65536))
      let m := if 32 ≤ s && s < 40 then
          m.put (pgBatt + (s - 32)) BATT_STATUS_CHARGING (if charging then 1 else 0) else m
      m.updEp (fun y => { y with hi := upd y.hi s (fun _ => x.hi) })) m

/-- What the registers of the page report of a committed solve; a pass that searched no level leaves
LEVEL open, which is a free value (R278). -/
def solveRegs (m : Module) (q : EpeReq) (res : EpeRes) (need : Nat) : Module :=
  let m := m.put pgEpe EPE_STATUS_BOUND (if res.bound then 1 else 0)
  let m := m.put pgEpe EPE_STATUS_DEFICIT (if res.deficit then 1 else 0)
  let m := m.put pgEpe EPE_STATUS_ITER res.iter
  let m := m.put pgEpe ⟨EPE_DEMAND, 0, 20⟩ (min (2 ^ 20 - 1) need)
  let m := m.put pgEpe ⟨EPE_ICAP, 0, 20⟩ (match q.icap with | none => 0xFFFFF | some i => min 0xFFFFE i)
  let m := m.put pgEpe ⟨EPE_VBUS, 0, 16⟩ (min 65535 q.vbus)
  let m := match res.level with
    | some l => m.put pgEpe ⟨EPE_LEVEL, 0, 21⟩ l
    | none => let (z, m) := m.draw 4; m.put pgEpe ⟨EPE_LEVEL, 0, 21⟩ z
  let m := m.countReg pgEpe EPE_SOLVE_CNT 1
  let m := if res.bound then m.raise pgEpe EPE_EV_BOUND else m
  if res.deficit then ((m.raise pgEpe EPE_EV_DEFICIT).fault pgEpe EPE_FLT_DEFICIT 0 (rkey pgEpe FLT_WIN)).1
  else m

/-- The rails whose set point is the share of a RAIL source (R242, R259): the BIDI rails that carry no
string, with a share of 0 where the source took no part. -/
def shareRails (m : Module) : List Nat :=
  (List.range (nRails m.sys.part)).filter (fun r => m.bidi r && (m.strOf r).isNone)

/-- A rail source's set point, a charging string's, and the other strings' (R259, R362). -/
def sharePoints (m : Module) (q : EpeReq) : Module :=
  let m := (q.srcs.filter (fun s => s.chg ≠ 0 && m.srcSt s.slot = 4)).foldl
    (fun m s => m.setPoint (m.srcRail s.slot) (-(s.chg : Int))) m
  let m := m.shareRails.foldl (fun m r => m.setPoint r (m.srcShare (40 + r))) m
  m.stringPoints

/-- The deadline commits a solve: one is complete and no Crossing has discarded it (R251, R277). -/
def epeCommits (m : Module) : Bool := m.ep.req.isSome && m.ep.res.isSome && !m.ep.discard

/-- The commit of a solve at the deadline of EPE_REQ (R251); a Crossing detected since the request
discards it (R277). `DISCARDED` is raised and the old results stay. A capped solve resets the assist
(R267). -/
def epeCommit (m : Module) : Module :=
  match m.ep.req, m.ep.res with
  | some q, some res =>
    let m' := m.updEp (fun x => { x with req := none, res := none, discard := false })
    if m.ep.discard then m'.raise pgEpe EPE_EV_DISCARDED
    else
      let need := q.dLoad + (if res.bound then 0 else q.dChg)
      let m := m'.srcReport q res
      let m := if res.bound then
          { m with cp := { m.cp with a := 0, assist := false, spent := m.cp.spent || m.cp.qual } } else m
      let m := if res.bound then (m.put pgCap CAP_STATUS_ASSIST_ON 0).setReg pgCap CAP_ASSIST 0 else m
      let m := ((m.sharePoints q).phaseOrder).crossTable q
      let m := m.solveRegs q res need
      (m.reserveJudge q need).standbyJudge q res need
  | _, _ => m.updEp (fun x => { x with req := none, res := none, discard := false })

/-- A dropped period: its solve is discarded with it (R251). -/
def epeDrop (m : Module) : Module :=
  m.updEp (fun x => { x with req := none, res := none, discard := false })

/-! ### Rectifiers between solves -/

/-- A WAKING rectifier has stayed silent for 1 s (R256). -/
def rectSilent (m : Module) (s : Nat) : Module :=
  if 32 ≤ s || nth 0 m.ep.mode s ≠ 3 then m
  else
    let m := m.updEp (fun x => { x with mode := upd x.mode s (fun _ => 5) })
    (m.srcPut s 16 4 5).raise pgEpe EPE_EV_WAKE

/-- A polled reading that shows an output current ends WAKING (R256); a rectifier that was silent is
in service again. -/
def rectSeen (m : Module) (p e : Nat) : Module :=
  if m.entI p e ≤ 0 then m
  else ((List.range 32).filter (fun s => m.srcEn s && m.rectPort s = p && m.rectEntry s = e
      && (nth 0 m.ep.mode s = 3 || nth 0 m.ep.mode s = 5))).foldl (fun m s =>
    let m := m.updEp (fun x => { x with mode := upd x.mode s (fun _ => 0),
                                        onMs := upd x.onMs s (fun _ => 0) })
    m.srcPut s 16 4 (if m.crossing || m.xingSt = 4 then 5 else 1)) m

/-- The bus droop wake (R257, R466): every port cuts a read short and sends its Zone Write, then an
OPERATION to each standby entry outside the zone. All standby rectifiers are WAKING. -/
def droopWake (m : Module) : Module :=
  let asleep := (List.range 32).filter (fun s => m.srcEn s && nth 0 m.ep.mode s = 2)
  if asleep.isEmpty then m
  else
    let op := m.cfg pgEpe EPE_PMB_CMD_ON_OP
    let zone := fun s => bits (m.entW (m.rectPort s) (m.rectEntry s) 0) 11 1 = 1
    let m' := (List.range 4).foldl (fun x p =>
      let mine := asleep.filter (fun s => m.rectPort s = p)
      if mine.isEmpty then x
      else
        let x := match (x.port p).cur with | some (.read _ _) => x.twcFinish p none | _ => x
        let x := if mine.any zone then x.twcSend p ⟨1, 16, 0x01, op⟩ else x
        (mine.filter (fun s => !zone s)).foldl (fun x s => x.twcSend p ⟨1, m.rectEntry s, 0x01, op⟩) x) m
    asleep.foldl (fun m s =>
      (m.updEp (fun x => { x with mode := upd x.mode s (fun _ => 3),
                                  onMs := upd x.onMs s (fun _ => 0) })).srcPut s 16 4 3) m'

/-- A ms passes for the times in service and in standby (R255): a rectifier that is neither starts anew. -/
def rectMs (m : Module) : Module :=
  let ms := (List.range 32).map (fun s =>
    if nth 0 m.ep.mode s = 2 || m.srcSt s = 1 then nth 0 m.ep.onMs s + 1 else 0)
  m.updEp (fun x => { x with onMs := ms })

/-- A voltage in µV as a word of a VOUT_MODE's linear format (R463). -/
def linearWord (mode : Nat) (uv : Int) : Int :=
  let e := sext 5 mode
  if 0 ≤ e then roundDiv uv (1000000 * 2 ^ e.toNat) else roundDiv (uv * 2 ^ (-e).toNat) 1000000

/-- SHARE_TRIM (R258): the trim of each rectifier in service moves towards its share. -/
def shareTrim (m : Module) : Module :=
  ((List.range 32).filter (fun s => m.srcEn s && m.srcSt s = 1)).foldl (fun m s =>
    let err : Int := m.srcShare s - m.srcI s
    let step : Int := 1000 * m.cfg pgEpe EPE_TRIM_CFG_TRIM_STEP
    let top : Int := 1000 * m.cfg pgEpe EPE_TRIM_CFG_TRIM_MAX
    let by_ := clampInt (-step) step (err * m.cfg pgEpe EPE_TRIM_CFG_TRIM_KP)
    let t := clampInt (-top) top (nth 0 m.ep.trim s + by_)
    let m := m.updEp (fun x => { x with trim := upd x.trim s (fun _ => t) })
    if m.rectEntSt s = enFormat then m
    else m.twcSend (m.rectPort s) ⟨4, m.rectEntry s, m.cfg pgEpe EPE_PMB_CMD_TRIM_CODE,
      linearWord (bits (m.rdW (m.rectPort s) (m.rectEntry s) 2) 8 8) t⟩) m

/-! ### COMMIT SRC (R246) -/

/-- A source of the snapshot whose segment ends fall or whose efficiencies rise. -/
def srcBad (m : Module) (s : Nat) : Bool :=
  let w := fun j => m.tbl pgEpe 0 (16 * s + 6 + j)
  bits (m.tbl pgEpe 0 (16 * s)) 0 1 = 1
    && (List.range 7).any (fun j => decide (bits (w (j + 1)) 16 16 < bits (w j) 16 16)
        || decide (bits (w j) 0 16 < bits (w (j + 1)) 0 16))

/-- The SRC bit of COMMIT. -/
def commitSrc (m : Module) : Module :=
  match (List.range 64).find? m.srcBad with
  | some s => (m.put pgEpe EPE_STATUS_BAD_SRC s).raise pgEpe EPE_EV_TABLE_BAD
  | none => m.commit pgEpe (inGroup pgEpe 0)

end Module

/-- SOLVE_DONE (R252). -/
def execSolveDone (s : State) : Host.Outcome State Fault Refusal :=
  actLive s (fun m => m.epeSolved)

/-- WAKE (R256). -/
def execWake (slot : Nat) (s : State) : Host.Outcome State Fault Refusal :=
  actLive s (fun m => m.rectSilent slot)

/-- DROOP_WAKE (R257): not while V_bus is not valid (R250). -/
def execDroopWake (gin : List Int) (s : State) : Host.Outcome State Fault Refusal :=
  actLive s (fun m =>
    let m := m.vbusTake gin
    if m.vbusNow.isSome then m.droopWake else m)

/-- WEAR_ACCUMULATE (R260). -/
def execWearAccumulate (s : State) : Host.Outcome State Fault Refusal :=
  actLive s (fun m => m.wearTick)

/-- WEAR_SAVE (R260). -/
def execWearSave (s : State) : Host.Outcome State Fault Refusal :=
  act2Live s (fun nv m => m.nvWrite nv (.wear m.ep.wear))

/-- TWC_TRANSACTION_END (R468): a reading that shows an output current ends a rectifier's WAKING
(R256). -/
def execTwcTransactionEnd (p : Nat) (res : TwcRes) (s : State) : Host.Outcome State Fault Refusal :=
  actAt p (fun _ => 4) s (fun m =>
    let cur := (m.port p).cur
    let m := m.twcEnd p res
    match cur, res with
    | some (.read e 0), .ok _ => m.rectSeen p e
    | _, _ => m)

end Sys2Proof.Machine
end

