-- ==== Sys2Proof/Machine/Cap.lean ====
section
/-! DEFINITION. The cap fast path (R262 to R268): the cap in force, the input-power estimate, the
CAP_n outputs, battery assist and hard limits. Power is in W, currents in 10 mA. -/

namespace Sys2Proof.Machine

namespace Module

def updCp (m : Module) (f : Cap → Cap) : Module := { m with cp := f m.cp }
def capC (m : Module) : Nat := m.get pgCap ⟨CAP_IN_FORCE, 0, 24⟩
def capPin (m : Module) : Nat := m.get pgCap ⟨CAP_PIN, 0, 24⟩

/-! ### The cap in force (R263) -/

/-- The share that limits the cap, and its code in C_SRC: the floor while JOINING (R430), the last share
in the LOCAL fallback, none outside a grove. -/
def capShare (m : Module) : Option (Nat × Nat) :=
  if !m.gr.run then none
  else if m.get pgBenuf BENUF_STATUS_STATE = 1 then some (m.val32 pgGrove GROVE_FLOOR_W_H % 2 ^ 24, 1)
  else m.gr.share.map (fun x => (x, if m.get pgGrove GROVE_STATUS_LOCAL = 1 then 2 else 1))

/-- The cap in force follows LOCAL_CAP and the share; each change is told. -/
def capForce (m : Module) : Module :=
  let loc := m.val32 pgCap CAP_LOCAL_CAP_H % 2 ^ 24
  let (c, src) := match m.capShare with
    | some (x, s) => if x < loc then (x, s) else (loc, 0)
    | none => (loc, 0)
  let m := m.put pgCap CAP_STATUS_C_SRC src
  if c = m.capC then m
  else (m.put pgCap ⟨CAP_IN_FORCE, 0, 24⟩ c).raise pgCap CAP_EV_CAP_CHANGED

/-! ### Outputs (R264, R268, R295) -/

/-- Level of output `i` in per cent, and its VLOW bit. -/
def capLvl (m : Module) (i : Nat) : Nat := bits (m.liveReg pgCap (CAP_CAP_CFG0 + 4 * i)) 0 8
def capVlow (m : Module) (i : Nat) : Bool := bit (m.liveReg pgCap (CAP_CAP_CFG0 + 4 * i)) 16

/-- The outputs that are asserted: by level, by a latched SUSTAINED, by VLOW; none while EN is 0. -/
def capDrive (m : Module) : Module :=
  let on := fun i => m.en pgCap && m.inService
    && ((m.latched pgCap CAP_FLT_SUSTAINED && m.capLvl i ≠ 0)
      || (m.get pgXing XING_STATUS_VLOW = 1 && m.capVlow i)
      || (nth false m.cp.on i && m.capLvl i ≠ 0))
  m.put pgCap CAP_STATUS_CAP_ASSERTED (sumN (((List.range 8).filter on).map (2 ^ ·)))

/-- Output `i` meets the estimate `p` under cap `c` (R264): asserted by QUAL estimates above its
level, released below the level less HYS once HOLD has passed. -/
def capOutput (m : Module) (c p i : Nat) : Module :=
  let lvl := m.capLvl i
  let hys := m.cfg pgCap CAP_QUAL_HYS
  let on := nth false m.cp.on i
  let us := nth 0 m.cp.us i + 1
  let cnt := if c * lvl < p * 100 then nth 0 m.cp.cnt i + 1 else 0
  let set := fun (a : Bool) (n k : Nat) => m.updCp (fun x => { x with
    on := upd x.on i (fun _ => a), cnt := upd x.cnt i (fun _ => n), us := upd x.us i (fun _ => k) })
  if lvl = 0 then set false 0 0
  else if on then
    if decide (400 * p + c * hys < 4 * c * lvl) && decide (m.cfg pgCap CAP_QUAL_HOLD ≤ us) then set false cnt 0
    else set true cnt us
  else if m.cfg pgCap CAP_QUAL_QUAL ≤ cnt then set true cnt 0
  else set false cnt 0

/-! ### The estimate (R262) -/

/-- Discharge power of the strings, in units of 0.625 µW / 32,768: rail current times rail voltage. -/
def battPower (m : Module) : Int :=
  sumI (((List.range (nStrings m.sys.part)).filter (fun b => m.srcEn (32 + b) && (nth {} m.bt b).run)).map
    (fun b =>
      let r := m.cfg (pgBatt + b) BATT_CFG_RAIL
      max 0 (m.rail r).cur * m.ySense r (m.rail r).y))

/-- The estimate from the GIN channels that `EST_CFG` names, their last samples in Q1.15 of the range of V
and of `BUS_ISCALE`: the numerator of V × I − P_batt in W over 2^30 × 1,600,000 (R262). -/
def estGin (m : Module) : Int :=
  let v := m.cfg pgCap CAP_EST_CFG_VCH
  let i := m.cfg pgCap CAP_EST_CFG_ICH
  nth 0 m.adc.gin v * m.ginRange v * nth 0 m.adc.gin i * (m.val pgCap CAP_BUS_ISCALE : Nat) * 160
    - m.battPower * 32768

/-- The estimate from the running feed channels, W (R297). -/
def estFeed (m : Module) : Int :=
  sumI ((List.range (nFeeds m.sys.part)).map (fun c =>
    let f : Feed := nth {} m.fd c
    let rs := bits (m.liveReg (pgFeed + c) FEED_RSENSE) 0 20
    if m.get (pgFeed + c) FEED_STATUS_STATE = 0 || rs = 0 then 0 else (f.vin : Int) * f.vs / (rs * 1000)))

/-- P_in, rounded down and kept within its register; with CAP_EFF at 0 the GIN form has no value,
which is a free value. -/
def estimate (m : Module) : Nat × Module :=
  if m.cfg pgCap CAP_EST_CFG_SRC = 1 then
    ((clampInt 0 (2 ^ 24 - 1) m.estFeed).toNat, m)
  else
    let eff := m.val pgCap CAP_CAP_EFF
    if eff = 0 then let (z, m) := m.draw 5; (z % 2 ^ 24, m)
    else ((clampInt 0 (2 ^ 24 - 1) (m.estGin / (16384 * 1600000 * eff : Nat))).toNat, m)

/-! ### Assist (R265, R267) -/

/-- A power in W as a bus current at V_bus (R265). -/
def assistAmps (m : Module) (e vbus : Nat) : Nat := e * m.val pgCap CAP_CAP_EFF * 100000 / (65536 * vbus)

/-- The largest assist current: MAX, and what the strings have left. -/
def assistTop (m : Module) : Nat :=
  let room := sumN (m.assistStrings.map (fun b => m.srcHiNow (32 + b) - m.srcShare (32 + b)))
  let mx := m.cfg pgCap CAP_ASSIST_CFG_MAX
  if mx = 0 then room else min room (100 * mx)

/-- The assist current takes a value and goes to the strings. -/
def assistSet (m : Module) (a : Nat) (on : Bool) : Module :=
  let a := min a m.assistTop
  let m := m.updCp (fun x => { x with a := a, assist := on })
  let m := m.setReg pgCap CAP_ASSIST (BitVec.ofNat 32 (min a (2 ^ 20 - 1)))
  (m.put pgCap CAP_STATUS_ASSIST_ON (if on then 1 else 0)).stringPoints

/-- Assist ends; the strings return to their shares. -/
def assistEnd (m : Module) : Module := if m.cp.assist || m.cp.a ≠ 0 then m.assistSet 0 false else m

/-- An excess is qualified (R265): it is counted and told. -/
def capQualify (m : Module) : Module :=
  let m := m.updCp (fun x => { x with qual := true, spent := false })
  (m.countReg pgCap CAP_EXCESS_CNT 1).raise pgCap CAP_EV_EXCESS

/-- The qualified excess at the 100 % level follows the estimate. -/
def capExcess (m : Module) (c p : Nat) : Module :=
  if c < p then
    let n := m.cp.above + 1
    let m := m.updCp (fun x => { x with above := n })
    if m.cfg pgCap CAP_QUAL_QUAL ≤ n && !m.cp.qual then m.capQualify else m
  else m.updCp (fun x => { x with above := 0, qual := false })

/-- Assist starts at an estimate whose excess is qualified (R265): not while it is off, in a Crossing or
while V_bus is not valid (R250), and after a capped solve only on a new qualification (R267). With EN at 0 it
ends. -/
def assistStart (m : Module) (c p : Nat) : Module :=
  if !m.flag pgCap CAP_ASSIST_CFG_EN then m.assistEnd
  else
    match m.vbusNow with
    | some v =>
      if m.cp.qual && !m.cp.spent && !m.cp.assist && !m.crossing then
        (m.assistSet (m.assistAmps (p - c) v) true).raise pgCap CAP_EV_ASSIST
      else m
    | none => m

/-- The 1 µs estimate (R262 to R265, R280). -/
def capEstimate (m : Module) (gin : List Int) : Module :=
  let m := m.ginNow gin
  if !m.en pgCap || m.inSapling then m
  else
    let m := m.vbusSeen m.vbusNow
    let m := (m.boundary pgCap).usePairs pgCap
      [CAP_LOCAL_CAP_H, CAP_LOCAL_CAP_L, CAP_CAP_EFF, CAP_BUS_ISCALE]
    let m := m.capForce
    let (p, m) := m.estimate
    let m := m.put pgCap ⟨CAP_PIN, 0, 24⟩ p
    let m := m.put pgCap ⟨CAP_PIN_MAX, 0, 24⟩ (max p (m.get pgCap ⟨CAP_PIN_MAX, 0, 24⟩))
    let c := m.capC
    let m := (List.range 8).foldl (fun m i => m.capOutput c p i) m
    ((m.capExcess c p).assistStart c p).capDrive

/-- A step of 20 µs while assist runs (R267): `mean` is the mean P_in of its last 4 µs. Assist whose
current has come down to 0 without an excess ends. -/
def assistStep (m : Module) (mean : Nat) (gin : List Int) : Module :=
  let m := m.ginNow gin
  if !m.en pgCap || !m.cp.assist || m.crossing then m
  else
    let m := m.vbusSeen m.vbusNow
    match m.vbusNow with
    | none => m
    | some v =>
      let c := m.capC
      let low := c * (400 - m.cfg pgCap CAP_QUAL_HYS) / 400
      if c < mean then m.assistSet (m.cp.a + m.assistAmps (mean - c) v) true
      else if mean < low then
        let a := m.cp.a - m.assistAmps (low - mean) v
        m.assistSet a (a ≠ 0 || m.cp.qual)
      else m

/-! ### Hard limits (R266) and sustained excess (R268) -/

/-- A hard-limit write goes to a rectifier (R465). -/
def limitSend (m : Module) (s : Nat) (w : Int) : Module :=
  m.twcSend (m.rectPort s) ⟨3, m.rectEntry s, m.cfg pgEpe EPE_PMB_CMD_HL_CODE, w⟩

/-- The rectifiers in service. -/
def rectsOn (m : Module) : List Nat := (List.range 32).filter (fun s => m.srcEn s && m.srcSt s = 1)

/-- Hard limits are written: each rectifier's share in W, times 1 + MARGIN. -/
def hardLimit (m : Module) : Module :=
  if !m.en pgCap || !m.flag pgCap CAP_HL_CFG_EN || !m.cp.qual || m.get pgCap CAP_STATUS_HL_ON = 1 then m
  else
    let vb := m.get pgEpe ⟨EPE_VBUS, 0, 16⟩
    let mg := m.cfg pgCap CAP_HL_CFG_MARGIN
    let m := m.rectsOn.foldl (fun m s =>
      m.limitSend s ((m.srcShare s * vb * (100 + mg) / 10000000 : Nat) : Int)) m
    (m.put pgCap CAP_STATUS_HL_ON 1).raise pgCap CAP_EV_HARD_LIMIT

/-- The hard limits are withdrawn by writing each rectifier's rated value, where it has one (R465). -/
def limitsOff (m : Module) : Module :=
  if m.get pgCap CAP_STATUS_HL_ON = 0 then m
  else
    let m := ((List.range 32).filter m.srcEn).foldl (fun m s =>
      let w := bits (m.entW (m.rectPort s) (m.rectEntry s) 1) 0 16
      if w = 0 then m else m.limitSend s w) m
    (m.put pgCap CAP_STATUS_HL_ON 0).raise pgCap CAP_EV_RELEASED

/-- P_in has stayed below C for RELEASE (R266). -/
def limitRelease (m : Module) : Module := if m.capPin < m.capC then m.limitsOff else m

/-- An excess has stayed qualified for SUSTAIN (R268). -/
def sustained (m : Module) : Module :=
  if !m.en pgCap || !m.cp.qual then m
  else (m.fault pgCap CAP_FLT_SUSTAINED 0 (rkey pgCap FLT_WIN)).1.capDrive

/-- EN of the cap page goes to 0 (R280). -/
def capStop (m : Module) : Module :=
  let m := (m.assistEnd).limitsOff
  let m := m.updCp (fun x => { x with on := rep 8 false, cnt := rep 8 0, us := rep 8 0, above := 0,
                                      qual := false, spent := false })
  m.capDrive

end Module

/-- CAP_ESTIMATE (R264). -/
def execCapEstimate (gin : List Int) (s : State) : Host.Outcome State Fault Refusal :=
  actLive s (fun m => m.capEstimate gin)

/-- ASSIST_STEP (R267). -/
def execAssistStep (mean : Nat) (gin : List Int) (s : State) : Host.Outcome State Fault Refusal :=
  actLive s (fun m => m.assistStep mean gin)

/-- HARD_LIMIT (R266). -/
def execHardLimit (s : State) : Host.Outcome State Fault Refusal :=
  actLive s (fun m => m.hardLimit)

/-- RELEASED (R266). -/
def execReleased (s : State) : Host.Outcome State Fault Refusal :=
  actLive s (fun m => m.limitRelease)

/-- SUSTAINED (R268). -/
def execSustained (s : State) : Host.Outcome State Fault Refusal :=
  actLive s (fun m => m.sustained)

end Sys2Proof.Machine
end

