-- ==== Sys2Proof/Machine/Seq.lean ====
section
/-! DEFINITION. The sequencer (R314 to R333): identities, ticks, the power-up and power-down tables,
faults in a step, requests, fault timers, chatter, SYS_PG and the group outputs. -/

namespace Sys2Proof.Machine

/-! ### Numbers of R319, R341 -/

def sqOff : Nat := 0
def sqUp : Nat := 1
def sqOn : Nat := 2
def sqDown : Nat := 3
def sqMinOff : Nat := 4
def sqHalted : Nat := 5
def kEnd : Nat := 0
def kEnable : Nat := 1
def kDisable : Nat := 2
def kWaitPg : Nat := 3
def kWaitOff : Nat := 4
def kDelay : Nat := 5
def kWaitCond : Nat := 6

/-- A condition code of R321 that is listed. -/
def condKnown (c : Nat) : Bool := c ≤ 0x0A || (0x10 ≤ c && c ≤ 0x27)

namespace Module

def updSq (m : Module) (f : Seq → Seq) : Module := { m with sq := f m.sq }
def seqSt (m : Module) : Nat := m.get pgSeq SEQ_STATUS_STATE
def seqStep (m : Module) : Nat := m.sq.step

/-- Step `s` is the step in progress; STATUS shows it. -/
def toStep (m : Module) (s : Nat) : Module :=
  (m.put pgSeq SEQ_STATUS_STEP (min 63 s)).updSq (fun x => { x with step := s })

/-- A bit of one of the pairs of maps at `off` and `off` + 4 (R340). -/
def seqMap (m : Module) (off id : Nat) : Bool := bit (m.reg pgSeq (off + 4 * (id / 32))) (id % 32)
def seqMapPut (m : Module) (off id : Nat) (on : Bool) : Module :=
  m.put pgSeq ⟨off + 4 * (id / 32), id % 32, 1⟩ (if on then 1 else 0)

/-- Settings of an identity (R341). -/
def idW (m : Module) (id : Nat) : W32 := m.tblLive pgSeq 0 id
def idOut (m : Module) (id : Nat) : Nat := if id < 32 then bits (m.idW id) 29 3 else 0

/-- The rail identities of the part that are rails, not group outputs (R314). -/
def seqIds (m : Module) : List Nat :=
  (List.range (nIds m.sys.part)).filter (fun id => m.idOut id = 0)

def idEnabled (m : Module) (id : Nat) : Bool := m.seqMap SEQ_EN_MAP0 id
def idGood (m : Module) (id : Nat) : Bool := m.seqMap SEQ_PG_MAP0 id
def idFailed (m : Module) (id : Nat) : Bool := m.seqMap SEQ_FAIL_MAP0 id
def idTimed (m : Module) (id : Nat) : Bool := m.seqMap SEQ_TMR_MAP0 id

/-! ### Tables (R319, R323) -/

/-- Words of step `s` of table `t` in force. -/
def stepV (m : Module) (t s w : Nat) : Nat := m.tblVal pgSeqtbl t (4 * s + w)
def stepKind (m : Module) (t s : Nat) : Nat := if 64 ≤ s then kEnd else m.stepV t s 0 / 4096 % 16
def stepPol (m : Module) (t s : Nat) : Nat := m.stepV t s 0 / 512 % 8
def stepTgt (m : Module) (t s : Nat) : Nat := m.stepV t s 0 % 64
def stepArg (m : Module) (t s : Nat) : Nat := m.stepV t s 1 % 16384
def stepCond (m : Module) (t s : Nat) : Nat := m.stepV t s 1 % 256
def stepTmo (m : Module) (t s : Nat) : Nat := m.stepV t s 2 % 16384

/-- The steps before END in force, as SEQTBL.STATUS reports them (R343). -/
def seqLens (m : Module) : Module :=
  let len := fun t => ((List.range 64).takeWhile (fun s => m.stepKind t s ≠ kEnd)).length
  (m.put pgSeqtbl SEQTBL_STATUS_UP_LEN (len 0)).put pgSeqtbl SEQTBL_STATUS_DOWN_LEN (len 1)

/-- The snapshot of a table applies (R322). -/
def seqApply (m : Module) (t : Nat) : Module := (m.applySnap (inGroup pgSeqtbl t)).seqLens

/-- A step of the shadow table that misses the check of R322: its reason. -/
def stepBad (m : Module) (t s : Nat) : Option Nat :=
  let w := fun i => bits (m.tbl pgSeqtbl t (4 * s + i)) 16 16
  let k := w 0 / 4096
  let tgt := w 0 % 64
  if kEnable ≤ k && k ≤ kWaitOff then
    if nIds m.sys.part ≤ tgt then some 1
    else if tgt < 32 && bits (m.tbl pgSeq 0 tgt) 29 3 ≠ 0 then some 2
    else none
  else if k = kWaitCond && !condKnown (w 1 % 256) then some 3
  else none

/-- A bit of SEQTBL.COMMIT (R322): every step up to END is checked; the snapshot applies at once in
OFF. -/
def seqCommit (m : Module) (t : Nat) : Module :=
  let ss := (List.range 64).takeWhile (fun s => bits (m.tbl pgSeqtbl t (4 * s)) 28 4 ≠ kEnd)
  match ss.find? (fun s => (m.stepBad t s).isSome) with
  | some s =>
    let m' := m.put pgSeqtbl SEQTBL_STATUS_BAD_STEP s
    let m' := m'.put pgSeqtbl SEQTBL_STATUS_BAD_TABLE t
    let m' := m'.put pgSeqtbl SEQTBL_STATUS_REASON ((m.stepBad t s).getD 0)
    m'.raise pgSeqtbl SEQTBL_EV_TABLE_BAD
  | none => (m.commit pgSeqtbl (inGroup pgSeqtbl t)).seqLens

/-- The identity is the TARGET of a step of a table in force. -/
def seqNames (m : Module) (id : Nat) : Bool :=
  (List.range 2).any (fun t =>
    ((List.range 64).takeWhile (fun s => m.stepKind t s ≠ kEnd)).any (fun s => m.stepTgt t s = id))

/-! ### Pins (R56, R62) -/

/-- RAIL_EN[i] failed when it was adopted: the identity is unavailable until the next module reset (R62). -/
def idOutFail (m : Module) (id : Nat) : Bool := decide (id < 32) && bit (m.reg pgSys SYS_OUT_FAIL2) id

/-- An identity that limp records own: set up by them, or a TARGET of a limp table (R316, R587). -/
def limpId (m : Module) (i : Nat) : Bool :=
  m.sys.limp.contains (65536 + i) || (m.sys.limp.contains pgSeqtbl && m.seqNames i)

/-- RAIL_EN[i] is driven, or released in open-drain mode; a failed output stays Z (R62), and so does one
outside the limp subset in Sapling (R56). -/
def railPin (m : Module) (i : Nat) (on : Bool) : Module :=
  if m.idOutFail i || !(m.inService || (m.sys.released && m.limpId i)) then m
  else
    let l : Lvl := if on then (if bits (m.idW i) 15 1 = 1 then .z else .high) else .low
    { m with pin := { m.pin with railEn := upd m.pin.railEn i (fun _ => l) } }

/-- An identity's enable is set (R315, R316, R320), but for one whose output has failed (R62); a disabled
one is no longer armed or timed (R329). -/
def idEnable (m : Module) (id : Nat) (on : Bool) : Module :=
  if nIds m.sys.part ≤ id || m.idEnabled id = on || (on && m.idOutFail id) then m
  else
    let m := m.seqMapPut SEQ_EN_MAP0 id on
    let m := if on then m
      else (m.seqMapPut SEQ_TMR_MAP0 id false).updSq (fun x => { x with armed := delKey x.armed id })
    if id < 32 then m.railPin id on else m.railEn (id - 32) on

/-- The sequencer owns the identities of its tables while EN is 1 (R316). -/
def seqOwns (m : Module) (id : Nat) : Bool := m.en pgSeq && m.seqNames id

/-- A wait condition holds (R321); `acok` are the levels of AC_OK_n. -/
def seqCond (m : Module) (acok c : Nat) : Bool :=
  if c < 8 then
    m.get (pgFeed + c) FEED_STATUS_PG = 1 || m.get (pgFeed + c) FEED_STATUS_STATE = 5
  else if c = 8 then m.xingSt = 0
  else if c = 9 then m.get pgSys SYS_STATUS_HOLD_OK = 1
  else if c = 10 then m.get pgPtp PTP_STATUS_LOCKED = 1
  else if 0x10 ≤ c && c < 0x18 then acok.testBit (c - 0x10)
  else if 0x18 ≤ c && c < 0x20 then
    m.get (pgBatt + (c - 0x18)) BATT_STATUS_PRES = 1 && m.get (pgBatt + (c - 0x18)) BATT_STATUS_SWAPPED = 0
  else if 0x20 ≤ c && c < 0x28 then bit (m.reg pgSeq SEQ_GATE) (c - 0x20)
  else false

/-! ### Requests (R326) -/

/-- A request: ignored while EN is 0, else sampled at the next tick. -/
def seqRequest (m : Module) (on : Bool) (cause : Nat) : Module :=
  if !m.en pgSeq then m.raise pgSeq SEQ_EV_REQ_IGNORED
  else
    let m := m.put pgSeq SEQ_STATUS_CAUSE cause
    m.updSq (fun x => { x with reqs := x.reqs ++ [(on, cause)] })

/-! ### Step faults (R324, R331) -/

/-- The step in progress fails: it is recorded and, in UP, its policy acts. -/
def stepFail (m : Module) (why : Nat) : Module :=
  let st := m.seqSt
  let t := if st = sqDown then 1 else 0
  let s := m.seqStep
  let m := m.put pgSeq SEQ_STEP_LAST_STEP s
  let m := m.put pgSeq SEQ_STEP_LAST_TABLE t
  let m := m.put pgSeq SEQ_STEP_LAST_REASON why
  let m := m.put pgSeq SEQ_STEP_LAST_FRAME ((m.reg pgSched SCHED_MFRAME).toNat)
  let m := m.raiseRec pgSeq SEQ_EV_STEP_FAULT
  let next := fun (m : Module) =>
    (m.toStep (s + 1)).updSq (fun x => { x with
      waiting := false, seen := false, retries := 0, gap := false })
  let tgt := m.stepTgt t s
  let pol := m.stepPol t s
  if st = sqDown then next m
  else if pol = 0 then next m
  else if pol = 1 && m.stepKind t s = kWaitPg && m.sq.retries < m.cfg pgSeq SEQ_CFG_RETRIES then
    (m.idEnable tgt false).updSq (fun x => { x with waiting := false, seen := false, gap := true })
  else if pol = 3 then
    let m := (m.put pgSeq SEQ_STATUS_STATE sqHalted).raise pgSeq SEQ_EV_HALTED
    (m.latchNow pgSeq SEQ_FLT_HALT).updSq (fun x => { x with waiting := false, gap := false })
  else if pol = 4 then
    let m := if tgt < 44 then
        ((m.idEnable tgt false).seqMapPut SEQ_FAIL_MAP0 tgt true).updSq
          (fun x => { x with skip := insKey x.skip tgt })
      else m
    next m
  else m.seqRequest false 5

/-- An edge of an identity's good (R331): counted towards UNSTABLE in UP and DOWN, else in EDGE_CNT
only. At the threshold the policy of the step in progress acts in UP. -/
def seqEdge (m : Module) (id : Nat) : Module :=
  let st := m.seqSt
  if st ≠ sqUp && st ≠ sqDown then m.countReg pgSeq SEQ_EDGE_CNT 1
  else
    let win := rkey pgSeq FLT_WIN
    let m := (m.fault pgSeq SEQ_FLT_CHATTER id win).1
    if m.inWindow pgSeq SEQ_FLT_CHATTER id < m.winThr win || m.seqMap SEQ_UNST_MAP0 id then m
    else
      let m := (m.seqMapPut SEQ_UNST_MAP0 id true).raise pgSeq SEQ_EV_CHATTER
      if st = sqUp then m.stepFail 2 else m

/-! ### Stages of a tick (R317) -/

/-- Stage 1: the good of every identity is sampled (R314). -/
def seqSample (m : Module) : Module :=
  m.seqIds.foldl (fun m id =>
    let was := m.idGood id
    let now := if m.idOutFail id then false
      else if id < 32 then
        if bits (m.idW id) 26 1 = 1 then m.idEnabled id
        else decide (nth false m.sq.pg id ≠ decide (bits (m.idW id) 28 1 = 1))
      else m.rlSt (id - 32) = rsReg
    let m := m.seqMapPut SEQ_PG_MAP0 id now
    if 32 ≤ id && was ≠ now then m.seqEdge id else m) m

/-- The table of the walk in progress. -/
def seqTable (m : Module) : Nat := if m.seqSt = sqDown then 1 else 0

/-- The step in progress waits on the identity (R329). -/
def stepWaits (m : Module) (id : Nat) : Bool :=
  let k := m.stepKind m.seqTable m.seqStep
  m.sq.waiting && (k = kWaitPg || k = kWaitOff) && m.stepTgt m.seqTable m.seqStep = id

/-- Stage 2: identities are armed, fault timers start and stop (R329). -/
def seqTimers (m : Module) : Module :=
  m.seqIds.foldl (fun m id =>
    if !m.idEnabled id then m.seqMapPut SEQ_TMR_MAP0 id false
    else
      let m := if m.idGood id || m.seqSt = sqOn then m.updSq (fun x => { x with armed := insKey x.armed id }) else m
      if m.idGood id then m.seqMapPut SEQ_TMR_MAP0 id false
      else if m.sq.armed.contains id && !m.idTimed id && !m.stepWaits id && !m.idFailed id then
        m.seqMapPut SEQ_TMR_MAP0 id true
      else m) m

/-- A state is entered and its walk starts at step 0. -/
def seqEnter (m : Module) (st : Nat) : Module :=
  let m := (m.put pgSeq SEQ_STATUS_STATE st).toStep 0
  m.updSq (fun x => { x with waiting := false, seen := false, retries := 0, gap := false, lead := false })

/-- UP is entered (R327): the new table applies, marks and chatter counters are cleared. -/
def seqEnterUp (m : Module) : Module :=
  let m := m.seqApply 0
  let m := [SEQ_FAIL_MAP0, SEQ_FAIL_MAP1, SEQ_UNST_MAP0, SEQ_UNST_MAP1].foldl
    (fun m off => m.setReg pgSeq off 0) m
  let m := (m.clearCtr pgSeq SEQ_FLT_CHATTER).put pgSeq SEQ_STATUS_PEND_ON 0
  (m.seqEnter sqUp).updSq (fun x => { x with skip := [] })

/-- DOWN is entered (R325, R327): the new table applies, every group output drops, and step 0 waits
for DOWN_LEAD. -/
def seqEnterDown (m : Module) : Module :=
  let m := m.seqApply 1
  let on := (List.range 44).filter m.idEnabled
  let m := (m.seqEnter sqDown).setReg pgSeq SEQ_PG_OUT 0
  m.updSq (fun x => { x with base := on, lead := decide (m.cfg pgSeq SEQ_CFG_DOWN_LEAD ≠ 0) })

/-- END of a table (R327). -/
def seqEndTable (m : Module) : Module :=
  if m.seqSt = sqUp then (m.put pgSeq SEQ_STATUS_STATE sqOn).raise pgSeq SEQ_EV_UP_DONE
  else
    let m := (m.raise pgSeq SEQ_EV_DOWN_DONE).updSq (fun x => { x with rest := decide (m.cfg pgSeq ⟨SEQ_MIN_OFF, 0, 16⟩ ≠ 0) })
    if m.get pgSeq SEQ_STATUS_PEND_ON = 1 then m.put pgSeq SEQ_STATUS_STATE sqMinOff
    else ((m.put pgSeq SEQ_STATUS_STATE sqOff).seqApply 0).seqApply 1

/-- A step is skipped (R324, R325). -/
def stepSkipped (m : Module) (t s : Nat) : Bool :=
  let tgt := m.stepTgt t s
  let k := m.stepKind t s
  k ≠ kEnd && tgt < 44 && (if t = 0 then m.sq.skip.contains tgt else !m.sq.base.contains tgt)

/-- The step is complete: the next one runs at the next tick (R318). -/
def stepDone (m : Module) (s : Nat) : Module :=
  (m.toStep (s + 1)).updSq (fun x => { x with waiting := false, seen := false, retries := 0 })

/-- Stage 3, the table step: at most one step runs; skipped steps take no tick (R318, R320, R323,
R325). A step that waits looks at its level. -/
def stepRun (m : Module) (acok t : Nat) : Nat → Module
  | 0 => m
  | fuel + 1 =>
    let s := m.seqStep
    if !m.sq.waiting && m.stepSkipped t s then (m.toStep (s + 1)).stepRun acok t fuel
    else
      let m := if m.sq.waiting || 64 ≤ s then m else m.useWords pgSeqtbl t [4 * s, 4 * s + 1, 4 * s + 2]
      let k := m.stepKind t s
      let tgt := m.stepTgt t s
      let zero := m.stepArg t s = 0
      let wait := fun (m : Module) (seen : Bool) => m.updSq (fun x => { x with waiting := true, seen := seen })
      if k = kEnable then (m.idEnable tgt true).stepDone s
      else if k = kDisable then (m.idEnable tgt false).stepDone s
      else if k = kWaitPg then
        if m.idGood tgt && zero then m.stepDone s else wait m (m.idGood tgt)
      else if k = kWaitOff then
        if !m.idGood tgt && zero then m.stepDone s else wait m (!m.idGood tgt)
      else if k = kDelay then if zero then m.stepDone s else wait m true
      else if k = kWaitCond then
        if m.seqCond acok (m.stepCond t s) then m.stepDone s else wait m false
      else m.seqEndTable

/-- The requests that this tick samples, the first `n`: an on request is held while a Crossing forbids
it (R296, R326). -/
def seqTaken (m : Module) (n : Nat) : Bool × Bool × Module :=
  let hold := m.flag pgXing XING_RET_CFG_NO_UP && (m.xingSt = 1 || m.xingSt = 2 || m.xingSt = 3)
  let rs := m.sq.reqs.take n
  let off := rs.any (fun x => !x.1)
  let on := rs.any (fun x => x.1) && !hold
  let keep := if hold && !off then rs else []
  (off, on, m.updSq (fun x => { x with reqs := keep ++ x.reqs.drop n }))

/-- Stage 3: the state machine (R327). -/
def seqMachine (m : Module) (acok n : Nat) : Module :=
  let (off, on, m) := m.seqTaken n
  let st := m.seqSt
  let walk := fun (m : Module) (t : Nat) =>
    if m.sq.gap || m.sq.lead then m else m.stepRun acok t 65
  if st = sqOff then
    if off || !on then m
    else if m.sq.rest then (m.put pgSeq SEQ_STATUS_STATE sqMinOff).put pgSeq SEQ_STATUS_PEND_ON 1
    else walk m.seqEnterUp 0
  else if st = sqUp then
    if off then
      let m := (m.raise pgSeq SEQ_EV_ABORTED).seqEnterDown
      walk m 1
    else if m.sq.reqs.any (fun x => !x.1) then m
    else walk m 0
  else if st = sqOn then if off then walk m.seqEnterDown 1 else m
  else if st = sqDown then
    let m := if off then m.put pgSeq SEQ_STATUS_PEND_ON 0
      else if on then m.put pgSeq SEQ_STATUS_PEND_ON 1 else m
    walk m 1
  else if st = sqMinOff then
    if off then
      let m := (m.put pgSeq SEQ_STATUS_STATE sqOff).put pgSeq SEQ_STATUS_PEND_ON 0
      (m.seqApply 0).seqApply 1
    else if !m.sq.rest then walk m.seqEnterUp 0 else m
  else if off then walk m.seqEnterDown 1 else m

/-- Members of a power-good group (R328). -/
def grpMembers (m : Module) (g : Nat) : List Nat :=
  (List.range 44).filter (fun id => bit (m.liveReg pgSeq (SEQ_GRP0_M0 + 8 * g + 4 * (id / 32))) (id % 32))

/-- Stage 4: SYS_PG and the group outputs (R330). -/
def seqGroups (m : Module) : Module :=
  (List.range 8).foldl (fun m g =>
    let ms := m.grpMembers g
    let held := ms.all (fun id => m.idEnabled id && !m.idFailed id)
    let ok := held && ms.all (fun id => m.idGood id && !m.idTimed id)
      && (g ≠ 0 || m.seqSt = sqOn) && m.seqSt ≠ sqDown
    let was := bit (m.reg pgSeq SEQ_PG_OUT) g
    m.put pgSeq ⟨SEQ_PG_OUT, g, 1⟩ (if (if was then held && m.seqSt ≠ sqDown else ok) then 1 else 0)) m

/-- Stage 5: SYS_PG and the RAIL_EN pins that serve as group outputs are driven (R328). -/
def seqDrive (m : Module) : Module :=
  let out := fun g => bit (m.reg pgSeq SEQ_PG_OUT) g
  let m' := if bit (m.reg pgSys SYS_OUT_FAIL1) 16 || !m.drives pgSeq then m
    else { m with pin := { m.pin with sysPg := if out 0 then .high else .low } }
  ((List.range 32).filter (fun i => m.idOut i ≠ 0)).foldl (fun x i => x.railPin i (out (m.idOut i))) m'

/-- A tick (R317). -/
def seqTick (m : Module) (acok : Nat) : Module :=
  if !m.en pgSeq || !m.sys.released then m
  else
    let m := m.applyPend (fun k => decide (pageOfKey k = pgSeq))
    let m := m.updSq (fun x => { x with acok := acok })
    let n := m.sq.reqs.length
    ((((m.seqSample).seqTimers).seqMachine acok n).seqGroups).seqDrive

/-- What follows a change between ticks: outputs as at the tick that sees it (R330). -/
def seqSettle (m : Module) : Module := (m.seqGroups).seqDrive

/-! ### Times that elapse -/

/-- The count of a WAIT_PG, WAIT_OFF or DELAY step reaches ARG (R320). -/
def seqWaitDone (m : Module) : Module :=
  let k := m.stepKind m.seqTable m.seqStep
  if (m.seqSt = sqUp || m.seqSt = sqDown) && m.sq.waiting && m.sq.seen && k ≠ kWaitCond then
    m.stepDone m.seqStep
  else m

/-- TMO of the step in progress expires (R324). -/
def seqTimeout (m : Module) : Module :=
  if (m.seqSt = sqUp || m.seqSt = sqDown) && m.sq.waiting && m.stepTmo m.seqTable m.seqStep ≠ 0 then
    (m.stepFail 1).seqSettle
  else m

/-- RETRY_GAP has passed: TARGET is enabled again and the step restarts (R324). -/
def seqRetry (m : Module) : Module :=
  if m.seqSt = sqUp && m.sq.gap then
    let m := m.idEnable (m.stepTgt 0 m.seqStep) true
    m.updSq (fun x => { x with gap := false, waiting := true, seen := false, retries := x.retries + 1 })
  else m

/-- DOWN_LEAD ticks have passed since the entry to DOWN (R327): step 0 runs. -/
def seqLead (m : Module) : Module :=
  if m.seqSt = sqDown && m.sq.lead then
    ((m.updSq (fun x => { x with lead := false })).stepRun m.sq.acok 1 65).seqSettle
  else m

/-- MIN_OFF has passed since DOWN_DONE (R327). -/
def seqRested (m : Module) : Module :=
  let m := m.updSq (fun x => { x with rest := false })
  if m.seqSt = sqMinOff then ((m.seqEnterUp).stepRun m.sq.acok 0 65).seqSettle else m

/-- The fault timer of an identity expires (R329). -/
def seqRailFail (m : Module) (id : Nat) : Module :=
  if 44 ≤ id || !m.idTimed id then m
  else
    let m := (m.seqMapPut SEQ_TMR_MAP0 id false).seqMapPut SEQ_FAIL_MAP0 id true
    let m := m.raise pgSeq SEQ_EV_RAIL_FAIL
    let m := m.latchNow pgSeq SEQ_FLT_RAIL_FAIL
    let pol := bits (m.idW id) 24 2
    let m := if pol = 1 then m.idEnable id false
      else if pol = 2 then m.seqRequest false 6 else m
    m.seqSettle

/-- RAIL_PG[i] has held a new level for DGL (R331). -/
def seqDeglitch (m : Module) (id : Nat) (level : Bool) : Module :=
  if 32 ≤ id || nth false m.sq.pg id = level then m
  else
    let m := m.updSq (fun x => { x with pg := upd x.pg id (fun _ => level) })
    if m.idOut id ≠ 0 || bits (m.idW id) 26 1 = 1 || !m.en pgSeq then m else m.seqEdge id

/-! ### EN (R315, R328) -/

/-- An identity that is a member of the group that it drives (R328). -/
def seqMaskBad (m : Module) : Bool :=
  (List.range 32).any (fun i => m.idOut i ≠ 0 && (m.grpMembers (m.idOut i)).contains i)

/-- EN goes to 1: what the sequencer holds or finds enabled at the pins, and the own rails whose EN is 1,
count as enabled (R315). -/
def seqStart (m : Module) : Module :=
  let m := m.seqIds.foldl (fun m id =>
    m.seqMapPut SEQ_EN_MAP0 id (if id < 32 then m.idEnabled id || nth Lvl.z m.pin.railEn id = .high
      else bit (m.reg (pgRail + (id - 32)) CTRL) 0)) m
  (m.seqApply 0).seqApply 1

end Module

/-- SEQ_TICK (R317). -/
def execSeqTick (acok : Nat) (s : State) : Host.Outcome State Fault Refusal :=
  actLive s (fun m => m.seqTick acok)

/-- SEQ_WAIT_DONE (R320). -/
def execSeqWaitDone (s : State) : Host.Outcome State Fault Refusal :=
  actLive s (fun m => m.seqWaitDone)

/-- STEP_FAULT (R324). -/
def execStepFault (s : State) : Host.Outcome State Fault Refusal :=
  actLive s (fun m => m.seqTimeout)

/-- SEQ_RETRY (R324). -/
def execSeqRetry (s : State) : Host.Outcome State Fault Refusal :=
  actLive s (fun m => m.seqRetry)

/-- DOWN_LEAD (R327). -/
def execDownLead (s : State) : Host.Outcome State Fault Refusal :=
  actLive s (fun m => m.seqLead)

/-- SEQ_MIN_OFF (R327). -/
def execSeqMinOff (s : State) : Host.Outcome State Fault Refusal :=
  actLive s (fun m => m.seqRested)

/-- RAIL_FAIL (R329). -/
def execRailFail (id : Nat) (s : State) : Host.Outcome State Fault Refusal :=
  actLive s (fun m => m.seqRailFail id)

/-- RAIL_PG_DEGLITCH (R331). -/
def execRailPgDeglitch (id : Nat) (level : Bool) (s : State) : Host.Outcome State Fault Refusal :=
  actLive s (fun m => m.seqDeglitch id level)

end Sys2Proof.Machine
end

