-- ==== Sys2Proof/Machine/Wdog.lean ====
section
/-! DEFINITION. The host watchdog and AUTONOMOUS (R334 to R339). -/

namespace Sys2Proof.Machine

def wdOff : Nat := 0
def wdBoot : Nat := 1
def wdClosed : Nat := 2
def wdOpen : Nat := 3

namespace Module

def wdSt (m : Module) : Nat := m.get pgWdog WDOG_STATUS_STATE
def wdTo (m : Module) (s : Nat) : Module := m.put pgWdog WDOG_STATUS_STATE s

/-- AUTONOMOUS is in force (R337). -/
def autonomous (m : Module) : Bool := m.get pgWdog WDOG_STATUS_AUTONOMOUS = 1

/-- AUTONOMOUS ends (R338). -/
def wdResume (m : Module) : Module :=
  if !m.autonomous then m
  else
    let m := (m.put pgWdog WDOG_STATUS_AUTONOMOUS 0).put pgWdog WDOG_STATUS_RESUMES 0
    m.raiseRec pgWdog WDOG_EV_RESUMED

/-- The window restarts (R334): a WIN_MIN of 0 leaves no CLOSED part. -/
def wdWindow (m : Module) : Module :=
  m.wdTo (if m.cfg pgWdog WDOG_WIN_WIN_MIN = 0 then wdOpen else wdClosed)

/-- An expiry with its cause (R336); HOST_RST_n is pulsed in service only (R56). Every expiry is recorded: as
a fault where R103 writes a fault record, else as an event. CFG.ACT acts at each expiry that finds the count
at the threshold, so at each one with the window of reset (DEDUCED from R103, log entry 144). -/
def wdExpire (m : Module) (cause : Nat) : Module :=
  let m := m.count pgWdog ⟨WDOG_EXP_CNT, 0, 16⟩ 1
  let m := m.put pgWdog WDOG_LAST_CAUSE cause
  let m := m.put pgWdog WDOG_LAST_FRAME (m.reg pgSched SCHED_MFRAME).toNat
  let win := rkey pgWdog FLT_WIN
  let due := recDue (m.ctr pgWdog WDOG_FLT_EXPIRED 0 win)
  let was := m.latched pgWdog WDOG_FLT_EXPIRED
  let m := (m.fault pgWdog WDOG_FLT_EXPIRED 0 win).1
  let lasting := m.atThr pgWdog WDOG_FLT_EXPIRED 0 win
  let m := if (if lasting then !was else due) then m.raise pgWdog WDOG_EV_EXPIRED
    else m.raiseRec pgWdog WDOG_EV_EXPIRED
  let act := m.cfg pgWdog WDOG_CFG_ACT
  let m := if lasting && act ≠ 1 && m.inService then { m with pin := { m.pin with hostRst := .low } } else m
  let m := if lasting && act = 0 && !m.autonomous then
      ((m.put pgWdog WDOG_STATUS_AUTONOMOUS 1).put pgWdog WDOG_STATUS_RESUMES 0).raise pgWdog
        WDOG_EV_AUTONOMOUS
    else m
  m.wdTo wdBoot

/-- A kick (R334, R335, R338). -/
def wdKick (m : Module) : Module :=
  let st := m.wdSt
  if st = wdOff then m
  else if st = wdClosed then
    let m := (m.count pgWdog ⟨WDOG_EXP_CNT, 16, 16⟩ 1).raise pgWdog WDOG_EV_EARLY
    let m := m.put pgWdog WDOG_STATUS_RESUMES 0
    if m.flag pgWdog WDOG_CFG_EARLY then m.wdWindow else m.wdExpire 2
  else
    let m := m.wdWindow
    if !m.autonomous then m
    else
      let n := m.get pgWdog WDOG_STATUS_RESUMES + 1
      let m := m.put pgWdog WDOG_STATUS_RESUMES n
      if m.cfg pgWdog WDOG_CFG_RESUME_N ≤ n then m.wdResume else m

/-- A rising edge on WDI (R334, R56). -/
def wdiEdge (m : Module) : Module :=
  let src := m.cfg pgWdog WDOG_CFG_SRC
  if m.get pgSys SYS_STATUS_PHASE = 4 && src ≠ 1 then m.wdKick else m

/-- A write to KICK (R334). -/
def wdKickWrite (m : Module) (v : W32) : Module :=
  if v ≠ 0xA5A55A5A then m.count pgWdog ⟨WDOG_EXP_CNT, 16, 16⟩ 1
  else if m.cfg pgWdog WDOG_CFG_SRC = 0 then m
  else m.wdKick

/-- WIN_MIN elapses (R335). -/
def wdOpens (m : Module) : Module := if m.wdSt = wdClosed then m.wdTo wdOpen else m

/-- WIN_MAX or BOOT_WIN elapses without a kick (R335). -/
def wdElapsed (m : Module) : Module :=
  if m.wdSt = wdBoot then m.wdExpire 3 else if m.wdSt = wdOpen then m.wdExpire 1 else m

/-- The HOST_RST_n pulse ends (R336). -/
def wdPulseEnd (m : Module) : Module := { m with pin := { m.pin with hostRst := .z } }

/-- EN goes to 1 and to 0 (R335). -/
def wdStart (m : Module) : Module := m.wdTo wdBoot
def wdStop (m : Module) : Module := (m.wdTo wdOff).wdResume

end Module

/-- WDI_KICK (R334). -/
def execWdiKick (s : State) : Host.Outcome State Fault Refusal :=
  actLive s (fun m => m.wdiEdge)

/-- WIN_MIN_END (R335). -/
def execWinMinEnd (s : State) : Host.Outcome State Fault Refusal :=
  actLive s (fun m => m.wdOpens)

/-- EXPIRED (R336). -/
def execExpired (s : State) : Host.Outcome State Fault Refusal :=
  actLive s (fun m => m.wdElapsed)

/-- HOST_RST_END (R336). -/
def execHostRstEnd (s : State) : Host.Outcome State Fault Refusal :=
  actLive s (fun m => m.wdPulseEnd)

end Sys2Proof.Machine
end

