-- ==== Sys2Proof/Machine/Xing.lean ====
section
/-! DEFINITION. Crossing and Return (R284 to R296): detection, Crossing currents, the bus loop, the
walk back to the rectifiers, and battery exhaustion. -/

namespace Sys2Proof.Machine

def xsIdle : Nat := 0
def xsCross : Nat := 1
def xsQual : Nat := 2
def xsReturn : Nat := 3
def xsCutoff : Nat := 4

namespace Module

def updXg (m : Module) (f : Xing → Xing) : Module := { m with xg := f m.xg }
def xingTo (m : Module) (s : Nat) : Module := m.put pgXing XING_STATUS_STATE s

/-- The running strings of the part and their rails. -/
def strings (m : Module) : List Nat :=
  (List.range (nStrings m.sys.part)).filter (fun b => (nth {} m.bt b).run)
def strRail (m : Module) (b : Nat) : Nat := m.cfg (pgBatt + b) BATT_CFG_RAIL

/-- A command of the Crossing logic comes with samples of the GIN channels: V_bus is looked at (R250), and
what waits applies (R310). -/
def xingVbus (m : Module) (gin : List Int) : Module :=
  let m := (m.vbusTake gin).boundary pgXing
  match m.vbusNow with
  | some v => m.updXg (fun x => { x with vbus := v })
  | none => m

/-! ### Detection (R284 to R287, R290) -/

/-- A REGULATING string rail adds every available inactive healthy member at once; its dwell and the drops
that wait end, its shedding is held off, its probe is aborted (R286). -/
def xingMembers (m : Module) (r : Nat) : Module :=
  let m := (m.updRl r (fun x => { x with noShed := true })).probeAbort r
  if m.rlSt r ≠ rsReg then m
  else
    let ns := m.idle r
    let m := m.updRl r (fun x => { x with dwell := false })
    let m := m.put (pgRail + r) RAIL_STATUS_DROP_READY 0
    let m := (m.namedBy r).foldl (fun m n =>
      m.updPh n (fun x => { x with dropDue := x.dropDue && x.dropOff })) m
    let m := ns.foldl (fun m n => m.setPh n psActive) m
    let m := ns.foldl (fun m n => m.joins r n) m
    let m := m.count (pgRail + r) ⟨RAIL_SHED_CNT, 0, 16⟩ ns.length
    if ns.isEmpty then m else (m.raise (pgRail + r) RAIL_EV_PHASE_ADDED).railUpd r

/-- The Crossing current of a string goes to its rail (R219, R287). -/
def xingCurrent (m : Module) (b : Nat) : Module :=
  let w := m.tbl pgEpe 2 b
  if bits w 16 16 = 0 then m
  else
    let r := m.strRail b
    let x := sext 16 (bits w 16 16)
    m.updRl r (fun y => { y with cross := some (x, sext 16 (bits w 0 16)), iset := x })

/-- An impedance measurement is aborted (R361, R368). -/
def impAbort (m : Module) (b : Nat) : Module :=
  let m := { m with bt := upd m.bt b (fun x => { x with imp := false, impReq := false }) }
  m.put (pgBatt + b) BATT_STATUS_IMP_RUN 0

/-- What happens in the CORE cycle of the detection flag (R286, R287, R290). -/
def xingCross (m : Module) : Module :=
  let m := m.xingTo xsCross
  let m := ((List.range 32).filter m.srcEn).foldl (fun m s => m.srcPut s 16 4 5) m
  let m := if m.ep.req.isSome then m.updEp (fun x => { x with discard := true }) else m
  let m := m.assistEnd
  let m := m.strings.foldl (fun m b => (m.xingMembers (m.strRail b)).impAbort b) m
  let m := m.strings.foldl (fun m b => m.xingCurrent b) m
  let vb := m.xg.vbus
  let m := m.updXg (fun x => { x with
    fullWait := true, istate := 0, solved := false, held := false, qualMs := 0, vref := vb })
  let m := m.setReg pgXing XING_QUAL_LEFT 0
  let m := ((m.put pgXing XING_DROOP_VMIN (m.vbusNow.getD 0xFFFF)).put pgXing XING_DROOP_TX 0).trCrossing
  if sumN m.ep.xhi < m.ep.dLoad then
    ((m.put pgEpe EPE_STATUS_XSHORT 1).fault pgXing XING_FLT_XSHORT 0 (rkey pgXing FLT_WIN)).1
  else m

/-- A detector fires at CORE cycle `cyc` of the major frame (R285, R292, R294). A second detector in
the cycle of the first is reported with it. -/
def xingDetect (m : Module) (det cyc : Nat) : Module :=
  if !m.xg.run || m.inSapling then m
  else
    let m := m.arriveAt cyc
    let frame := m.reg pgSched SCHED_MFRAME
    let same := m.xingSt = xsCross && m.reg pgXing XING_LAST_FRAME = frame
      && m.reg pgXing XING_LAST_CYC = BitVec.ofNat 32 cyc
    let old := m.get pgXing XING_STATUS_DET
    let m := m.countReg pgXing XING_XING_CNT 1
    let m := m.setReg pgXing XING_LAST_FRAME frame
    let m := m.setReg pgXing XING_LAST_CYC (BitVec.ofNat 32 cyc)
    let st := m.xingSt
    if st = xsIdle then
      ((m.put pgXing XING_STATUS_DET (2 ^ det)).raiseRec pgXing XING_EV_DETECTED).xingCross
    else if st = xsQual then
      ((m.xingTo xsCross).setReg pgXing XING_QUAL_LEFT 0).updXg (fun x => { x with qualMs := 0, held := false })
    else if st = xsReturn then
      let m := (m.put pgXing XING_STATUS_DET (2 ^ det)).raise pgXing XING_EV_RETURN_FAIL
      let m := (m.fault pgXing XING_FLT_INPUT_UNSTABLE 0 (rkey pgXing XING_RET_WIN)).1
      let m := m.put pgXing XING_STATUS_UNSTABLE (if m.latched pgXing XING_FLT_INPUT_UNSTABLE then 1 else 0)
      m.xingCross
    else if same then m.put pgXing XING_STATUS_DET (Nat.lor old (2 ^ det))
    else m

/-- Shedding on string rails resumes 10 ms after the detection (R286). -/
def xingShed (m : Module) : Module :=
  (List.range 12).foldl (fun m r => m.updRl r (fun x => { x with noShed := false })) m

/-- The full Crossing current is commanded (R288). -/
def xingFull (m : Module) (tx : Nat) : Module :=
  if !m.crossing || !m.xg.fullWait then m
  else
    let m := m.updXg (fun x => { x with fullWait := false })
    (m.put pgXing XING_DROOP_TX (min 65535 tx)).raise pgXing XING_EV_FULL

/-! ### Bus loop (R289) -/

/-- The strings with a Crossing current; a SWAPPED one counts as having none (R289, R350). -/
def xingStrings (m : Module) : List Nat :=
  m.strings.filter (fun b => nth 0 m.ep.xb b ≠ 0 && m.get (pgBatt + b) BATT_STATUS_SWAPPED = 0)

/-- The bus loop at a valid sample of V_bus. -/
def busLoop (m : Module) (v : Nat) : Module :=
  let m := m.usePairs pgXing [XING_BUS_REF, XING_BUS_KP, XING_BUS_KI]
  let ref : Int := if m.val pgXing XING_BUS_REF = 0 then m.xg.vref else m.val pgXing XING_BUS_REF
  let e := satInt 16 (ref - v)
  let p := (m.val pgXing XING_BUS_KP * e) / 256
  let bs := m.xingStrings
  let sumHi : Int := sumN (bs.map (fun b => nth 0 m.ep.xhi b))
  let sumX := sumN (bs.map (fun b => nth 0 m.ep.xb b))
  let st := clampInt (-sumHi) sumHi (m.xg.istate + (m.val pgXing XING_BUS_KI * e) / 65536)
  let di := p + st
  let m := m.updXg (fun x => { x with istate := st })
  let m := m.put pgXing ⟨XING_BUS_DI, 0, 16⟩ (wrapInt 16 (satInt 16 (roundDiv di 10)))
  bs.foldl (fun m b =>
    let x := nth 0 m.ep.xb b
    let base : Int := if m.xg.solved then m.srcShare (32 + b) else x
    m.setPoint (m.strRail b)
      (clampInt 0 (nth 0 m.ep.xhi b : Nat) (base + di * x / (max 1 sumX : Nat)))) m

/-- A sample of V_bus (R289, R310, R311): in CROSSING and QUALIFYING its lowest value is kept, and
once the full current is commanded the bus loop runs; a sample that is not valid holds it (R250). -/
def busSample (m : Module) (gin : List Int) : Module :=
  let m := m.xingVbus gin
  match m.vbusNow with
  | none => m
  | some v =>
    if !m.crossing then m
    else
      let m := m.put pgXing XING_DROOP_VMIN (min v (m.get pgXing XING_DROOP_VMIN))
      if m.xg.fullWait then m else m.busLoop v

/-- A solve has been committed (R289): the bus loop starts from the shares. -/
def xingSolved (m : Module) : Module :=
  if m.crossing then m.updXg (fun x => { x with istate := 0, solved := true }) else m

/-! ### Return (R291 to R293) -/

/-- The strings that carry, floor ignored (R292). -/
def xingAlive (m : Module) : List Nat := m.strings.filter m.strGood

/-- CROSSING goes to QUALIFYING while the input is good, and while INPUT_UNSTABLE is latched only
once every available string is at or below the floor (R292, R294). -/
def xingJudge (m : Module) : Module :=
  let floor := m.cfg pgEpe EPE_POLICY_FLOOR * 100
  if m.xingSt = xsCross && m.get pgXing XING_STATUS_IN_GOOD = 1
      && (!m.latched pgXing XING_FLT_INPUT_UNSTABLE || m.xingAlive.all (fun b => m.sMin b ≤ floor)) then
    let m := (m.xingTo xsQual).raise pgXing XING_EV_QUALIFYING
    let m := m.updXg (fun x => { x with qualMs := 0, held := false })
    m.put pgXing ⟨XING_QUAL_LEFT, 0, 16⟩ (m.cfg pgXing ⟨XING_RETURN_QUAL, 0, 16⟩)
  else m

/-- IN_GOOD of R291: every channel of `FEED_MASK` inside both windows, every input of `ACOK_MASK` high,
no fault bit in the last polled STATUS_INPUT of an enabled rectifier, each where it is selected; `acok`
holds the levels of AC_OK_n. The spec does not say which bits of STATUS_INPUT are fault bits: every bit of it
counts (DESIGN CHOICE, log entry 143). -/
def inGood (m : Module) (acok : Nat) : Bool :=
  (!m.flag pgXing XING_RET_CFG_RS_FEED
    || (List.range (nFeeds m.sys.part)).all (fun c =>
      !(m.cfg pgXing XING_DET_FEED_MASK).testBit c || m.get (pgFeed + c) FEED_STATUS_IN_WIN = 1))
  && (!m.flag pgXing XING_RET_CFG_RS_ACOK
    || (List.range 8).all (fun i => !(m.cfg pgXing XING_DET_ACOK_MASK).testBit i || acok.testBit i))
  && (!m.flag pgXing XING_RET_CFG_RS_POLL
    || (List.range 32).all (fun s =>
      !m.srcEn s || bits (m.rdW (m.rectPort s) (m.rectEntry s) 2) 0 8 = 0))

/-- IN_GOOD has changed to `good` (R291, R292): a dip clears the timer. -/
def xingGood (m : Module) (good : Bool) : Module :=
  let m := m.put pgXing XING_STATUS_IN_GOOD (if good then 1 else 0)
  let m := m.updXg (fun x => { x with qualMs := 0, held := false })
  let m := if m.xingSt = xsQual && !good then (m.xingTo xsCross).setReg pgXing XING_QUAL_LEFT 0 else m
  let m := if m.xingSt = xsCutoff then
      m.put pgXing ⟨XING_QUAL_LEFT, 0, 16⟩ (if good then m.cfg pgXing ⟨XING_RETURN_QUAL, 0, 16⟩ else 0)
    else m
  m.xingJudge

/-- What IN_GOOD is made of has changed (R291): IN_GOOD is formed anew. -/
def inGoodSee (m : Module) (acok : Nat) : Module :=
  let m := m.boundary pgXing
  let good := m.inGood acok
  if (m.get pgXing XING_STATUS_IN_GOOD = 1) = good then m else m.xingGood good

/-- The VLOW outputs are released (R295). -/
def vlowEnd (m : Module) : Module := (m.put pgXing XING_STATUS_VLOW 0).capDrive

/-- RETURNING starts (R293). -/
def xingReturn (m : Module) : Module :=
  let m := ((m.boundary pgXing).xingTo xsReturn).raise pgXing XING_EV_RETURNING
  let m := (m.setReg pgXing XING_QUAL_LEFT 0).put pgXing XING_STATUS_WALK 100
  let set := (List.range 8).map (fun b => if m.strings.contains b then (m.rail (m.strRail b)).iset else 0)
  let m := m.updXg (fun x => { x with sb0 := set, walkMs := 0, held := false })
  let m := ((List.range 32).filter (fun s => m.srcEn s && nth 0 m.ep.mode s = 2)).foldl
    (fun m s => m.rectWake s) m
  m.vlowEnd

/-- The qualification timer reaches RETURN_QUAL (R292): held while a firmware restart is in
progress. -/
def xingQualified (m : Module) : Module :=
  if m.xingSt ≠ xsQual || m.get pgXing XING_STATUS_IN_GOOD = 0 then m
  else if m.restarting then m.updXg (fun x => { x with held := true })
  else m.xingReturn

/-- A firmware restart has ended (R292). -/
def xingUnhold (m : Module) : Module :=
  if m.xg.held && m.xingSt = xsQual && !m.restarting then m.xingReturn else m

/-- A major frame of RETURNING (R293): the larger of share and walk; without firmware the walk
alone. The walk at 0 for every string ends it. -/
def xingWalk (m : Module) : Module :=
  let m := (m.boundary pgXing).updXg (fun x => { x with walkMs := x.walkMs + 1 })
  let m := m.put pgXing XING_STATUS_WALK (m.walkLeft / 1000)
  if m.strings.all (fun b => m.walkOf b ≤ 0) then
    let m := ((m.xingTo xsIdle).put pgXing XING_STATUS_WALK 0).raise pgXing XING_EV_RETURN_DONE
    if m.sys.fwRun then m.stringPoints
    else m.strings.foldl (fun m b => m.updRl (m.strRail b) (fun x => { x with iset := 0 })) m
  else m.stringPoints

/-- A major frame (R292, R293): an input that is good, the time that is left, and the walk. -/
def xingFrame (m : Module) : Module :=
  let st := m.xingSt
  if st = xsReturn then m.xingWalk
  else if st = xsCross then m.xingJudge
  else if (st = xsQual || st = xsCutoff) && m.get pgXing XING_STATUS_IN_GOOD = 1 then
    let m := m.updXg (fun x => { x with qualMs := x.qualMs + 1 })
    m.put pgXing ⟨XING_QUAL_LEFT, 0, 16⟩ (m.cfg pgXing ⟨XING_RETURN_QUAL, 0, 16⟩ - m.xg.qualMs / 10)
  else m

/-! ### Exhaustion (R295) -/

/-- The strings are judged in CROSSING and QUALIFYING: VLOW, and CUTOFF with its off request. -/
def xingBatt (m : Module) : Module :=
  if !m.crossing then m
  else
    let alive := m.xingAlive
    let fit := alive.filter (fun b => m.get (pgBatt + b) BATT_STATUS_LEVEL < 2)
    let low := decide (sumN (fit.map (fun b => nth 0 m.ep.xhi b)) < m.ep.dLoad)
    let m := if low && m.get pgXing XING_STATUS_VLOW = 0 then
        ((m.put pgXing XING_STATUS_VLOW 1).raise pgXing XING_EV_VLOW).capDrive
      else m
    if alive.isEmpty then
      let m := ((m.xingTo xsCutoff).raise pgXing XING_EV_CUTOFF).updXg
        (fun x => { x with qualMs := 0, held := false })
      if m.flag pgXing XING_RET_CFG_CUT_SEQ then m.seqRequest false 4 else m
    else m.xingJudge

/-- IN_GOOD has held for RETURN_QUAL in CUTOFF (R292). -/
def xingCutoffExit (m : Module) : Module :=
  if m.xingSt ≠ xsCutoff || m.get pgXing XING_STATUS_IN_GOOD = 0 then m
  else
    let m := ((m.boundary pgXing).xingTo xsIdle).setReg pgXing XING_QUAL_LEFT 0
    let m := m.vlowEnd.stringPoints
    if m.flag pgXing XING_RET_CFG_AUTO_ON then m.seqRequest true 3 else m

/-! ### EN (R291, R310) -/

/-- RET_SRC selects nothing, or only sources with empty masks (R291). -/
def xingNoSource (m : Module) : Bool :=
  !((m.flag pgXing XING_RET_CFG_RS_FEED && m.cfg pgXing XING_DET_FEED_MASK ≠ 0)
    || (m.flag pgXing XING_RET_CFG_RS_ACOK && m.cfg pgXing XING_DET_ACOK_MASK ≠ 0)
    || m.flag pgXing XING_RET_CFG_RS_POLL)

/-- EN is written 1: the detectors start, or the start is refused. -/
def xingStart (m : Module) : Module :=
  if m.xingNoSource then m.raise pgXing XING_EV_START_REFUSED
  else m.updXg (fun x => { x with run := true })

/-- EN is written 0 in IDLE. -/
def xingStop (m : Module) : Module := (m.updXg (fun x => { x with run := false })).applyOnStop pgXing

end Module

/-- FEED_DETECT (R284). -/
def execFeedDetect (cyc : Nat) (gin : List Int) (s : State) : Host.Outcome State Fault Refusal :=
  actLive s (fun m =>
    let m := m.xingVbus gin
    if m.flag pgXing XING_DET_FEED_EN && m.cfg pgXing XING_DET_FEED_MASK ≠ 0 then m.xingDetect 0 cyc
    else m)

/-- SLOPE_DETECT (R284): while V_bus is valid (R250) and below the arming level. -/
def execSlopeDetect (cyc : Nat) (gin : List Int) (s : State) : Host.Outcome State Fault Refusal :=
  actLive s (fun m =>
    let m := m.xingVbus gin
    let arm := m.cfg pgXing XING_SLOPE_CFG_VBUS_ARM
    if m.flag pgXing XING_DET_SLOPE_EN && m.vbusNow.any (fun v => arm = 0xFFFF || v < arm) then
      m.xingDetect 1 cyc
    else m)

/-- ACOK_DETECT (R284). -/
def execAcokDetect (cyc : Nat) (gin : List Int) (s : State) : Host.Outcome State Fault Refusal :=
  actLive s (fun m =>
    let m := m.xingVbus gin
    if m.flag pgXing XING_DET_ACOK_EN && m.cfg pgXing XING_DET_ACOK_MASK ≠ 0 then m.xingDetect 2 cyc
    else m)

/-- FULL (R288). -/
def execFull (tx : Nat) (s : State) : Host.Outcome State Fault Refusal :=
  actLive s (fun m => m.xingFull tx)

/-- BUS_LOOP_SAMPLE (R289). -/
def execBusLoopSample (gin : List Int) (s : State) : Host.Outcome State Fault Refusal :=
  actLive s (fun m => m.busSample gin)

/-- STRING_SHED_RESUME (R286). -/
def execStringShedResume (s : State) : Host.Outcome State Fault Refusal :=
  actLive s (fun m => m.xingShed)

/-- IN_GOOD_CHANGE (R291). -/
def execInGoodChange (acok : Nat) (s : State) : Host.Outcome State Fault Refusal :=
  actLive s (fun m => m.inGoodSee acok)

/-- RETURNING (R293). -/
def execReturning (s : State) : Host.Outcome State Fault Refusal :=
  actLive s (fun m => m.xingQualified)

/-- CUTOFF_EXIT (R292). -/
def execCutoffExit (s : State) : Host.Outcome State Fault Refusal :=
  actLive s (fun m => m.xingCutoffExit)

end Sys2Proof.Machine
end

