-- ==== Sys2Proof/Machine/Feed.lean ====
section
/-! DEFINITION. Feed channels (R297 to R309): hot swap, ideal diode and pairs, trips, FET checks. -/

namespace Sys2Proof.Machine

def fsOff : Nat := 0
def fsQual : Nat := 1
def fsRamp : Nat := 2
def fsOn : Nat := 3
def fsBlock : Nat := 4
def fsConduct : Nat := 5
def fsRetry : Nat := 6
def fsLatched : Nat := 7
def fsDamaged : Nat := 8

/-- The drive of the FET is on in this state (R308, R309). -/
def fsDrive (s : Nat) : Bool := s = fsRamp || s = fsOn || s = fsConduct

/-- FD_GATE in a state (R302, R306, R309). -/
def fsGate (s : Nat) : Gate := if s = fsRamp then .ramp else if s = fsOn || s = fsConduct then .hold else .down

namespace Module

def feed (m : Module) (c : Nat) : Feed := nth {} m.fd c
def updFd (m : Module) (c : Nat) (f : Feed → Feed) : Module := { m with fd := upd m.fd c f }
def fdSt (m : Module) (c : Nat) : Nat := m.get (pgFeed + c) FEED_STATUS_STATE
def fdMode (m : Module) (c : Nat) : Nat := m.cfg (pgFeed + c) FEED_CFG_MODE

/-- The other channel of a pair, and whether the channel is one of a pair (R298, R299). -/
def fdMate (c : Nat) : Nat := if c % 2 = 0 then c + 1 else c - 1
def fdPaired (m : Module) (c : Nat) : Bool := m.fdMode c = 3 && m.fdMode (fdMate c) = 3

/-- The page of a channel's windows and EN: the even one of a pair (R299). -/
def fdHead (m : Module) (c : Nat) : Nat := if m.fdPaired c then c - c % 2 else c
def fdEn (m : Module) (c : Nat) : Bool := m.en (pgFeed + m.fdHead c)

/-- The channel whose page holds the shunt value: the odd one of a pair (R299). -/
def fdShunt (m : Module) (c : Nat) : Nat := if m.fdPaired c then c - c % 2 + 1 else c
def fdRsense (m : Module) (c : Nat) : Nat := bits (m.liveReg (pgFeed + m.fdShunt c) FEED_RSENSE) 0 20

/-- PAIRED_ODD of the two channels of a pair (R313). -/
def fdPairSee (m : Module) (c : Nat) : Module :=
  [c - c % 2, c - c % 2 + 1].foldl (fun m d =>
    m.put (pgFeed + d) FEED_STATUS_PAIRED_ODD (if m.fdPaired d && d % 2 = 1 then 1 else 0)) m

/-- The channel enters a state; RAMP starts the I²t accumulator from 0, a drive that comes on its
FET checks (R303, R308). -/
def fdTo (m : Module) (c s : Nat) : Module :=
  let was := m.fdSt c
  let m := m.put (pgFeed + c) FEED_STATUS_STATE s
  let m := m.put (pgFeed + c) FEED_STATUS_PG (if s = fsOn then 1 else 0)
  let m := if fsDrive was && !fsDrive s then m.put (pgFeed + c) FEED_STATUS_REVERSE 0 else m
  let g := if m.drives (pgFeed + c) then fsGate s else .z
  m.updFd c (fun x => { x with gate := g, e := if s = fsRamp then 0 else x.e,
                               vgsOn := fsDrive s && fsDrive was && x.vgsOn })

/-- The cause of the last turn-off (R312). -/
def fdLast (m : Module) (c cause : Nat) : Module :=
  m.setReg (pgFeed + c) FEED_LAST
    (BitVec.ofNat 32 (cause + (m.reg pgSched SCHED_MFRAME).toNat % 65536 * 65536))

/-- A channel of a pair turns off: the other one that was not already held goes to QUALIFY (R307). -/
def fdMateOff (m : Module) (c : Nat) : Module :=
  let d := fdMate c
  if m.fdPaired c && (fsDrive (m.fdSt d) || m.fdSt d = fsBlock) then m.fdTo d fsQual else m

/-- INS_DELAY has passed inside the windows (R300, R307, R309). -/
def fdInserted (m : Module) (c : Nat) : Module :=
  let h := m.fdHead c
  if m.get (pgFeed + h) FEED_STATUS_IN_WIN = 0 || !m.fdEn c then m
  else if m.fdPaired c then
    if m.fdSt h = fsQual && m.fdSt (h + 1) = fsQual then (m.fdTo (h + 1) fsRamp).fdTo h fsBlock else m
  else if m.fdSt c ≠ fsQual then m
  else m.fdTo c (if m.fdMode c = 1 then fsRamp else fsBlock)

/-- An excursion of the input (R301, R307). -/
def fdExcursion (m : Module) (c : Nat) (hi : Bool) : Module :=
  let m := m.put (pgFeed + c) FEED_STATUS_IN_WIN 0
  let st := m.fdSt c
  if fsDrive st || st = fsBlock then
    let m := (m.raise (pgFeed + c) (if hi then FEED_EV_OV_EXC else FEED_EV_UV_EXC)).fdLast c
      (if hi then 4 else 3)
    (m.fdTo c fsQual).fdMateOff c
  else m

/-- VGS_ON and VDS_ON are reached (R302). -/
def fdOn (m : Module) (c : Nat) : Module :=
  if m.fdSt c = fsRamp then (m.fdTo c fsOn).raise (pgFeed + c) FEED_EV_ON else m

/-- Forward conduction of an ideal diode (R306, R307). -/
def fdConduct (m : Module) (c : Nat) : Module :=
  if m.fdSt c = fsBlock && m.get (pgFeed + c) FEED_STATUS_IN_WIN = 1
      && (!m.fdPaired c || m.fdSt (fdMate c) = fsOn) then m.fdTo c fsConduct
  else m

/-- Reverse turn-off (R306). -/
def fdReverse (m : Module) (c : Nat) : Module :=
  if m.fdSt c ≠ fsConduct then m
  else
    let m := (m.fdTo c fsBlock).put (pgFeed + c) FEED_STATUS_REVERSE 1
    (m.countReg (pgFeed + c) FEED_REV_CNT 1).raise (pgFeed + c) FEED_EV_REVERSE

/-- A trip (R305): retry below the threshold, latched at it. -/
def fdTrip (m : Module) (c cause : Nat) : Module :=
  let m := m.count (pgFeed + c) ⟨FEED_TRIP_CNT, if cause = 1 then 0 else 16, 16⟩ 1
  let m := (m.raise (pgFeed + c) (if cause = 1 then FEED_EV_FAST_TRIP else FEED_EV_I2T_TRIP)).fdLast c cause
  let m := (m.fault (pgFeed + c) FEED_FLT_TRIP 0 (rkey (pgFeed + c) FLT_WIN)).1
  let last := m.atThr (pgFeed + c) FEED_FLT_TRIP 0 (rkey (pgFeed + c) FLT_WIN)
  (m.fdTo c (if last then fsLatched else fsRetry)).fdMateOff c

/-- The fast-trip comparator (R304). -/
def fdFast (m : Module) (c : Nat) : Module :=
  if m.fdSt c = fsRamp || m.fdSt c = fsOn then m.fdTrip c 1 else m

/-- RETRY_GAP has passed (R305). -/
def fdRetry (m : Module) (c : Nat) : Module := if m.fdSt c = fsRetry then m.fdTo c fsQual else m

/-- The windows with their hysteresis (R300); `v` in mV. -/
def fdWindow (m : Module) (c v : Nat) : Module :=
  let h := pgFeed + m.fdHead c
  let uv := 10 * m.val h FEED_VIN_UV
  let ov := 10 * m.val h FEED_VIN_OV
  let hy := 10 * m.cfg h ⟨FEED_VIN_HYS, 0, 8⟩
  let was := m.get (pgFeed + c) FEED_STATUS_IN_WIN = 1
  let now := if was then decide (uv < v) && decide (v < ov) else decide (uv + hy < v) && decide (v + hy < ov)
  m.put (pgFeed + c) FEED_STATUS_IN_WIN (if now then 1 else 0)

/-- The I²t accumulator in RAMP and ON (R303). -/
def fdHeat (m : Module) (c : Nat) : Module :=
  if m.fdSt c ≠ fsRamp && m.fdSt c ≠ fsOn then m
  else
    let vs := (m.feed c).vs.natAbs
    let il := 100 * m.val (pgFeed + c) FEED_ILIM
    let q := vs * vs * 65536 / (il * il)
    let e := if 65536 < q then (m.feed c).e + (q - 65536) / 1000 else (m.feed c).e - (65536 - q) / 1000
    let m := m.updFd c (fun x => { x with e := e })
    if m.val (pgFeed + c) FEED_I2T * 65536 ≤ e then m.fdTrip c 2 else m

/-- What the page reports of a sample (R312): a current without shunt value, and an accumulator
against an I2T of 0, are not stated and are free values. -/
def fdMeas (m : Module) (c : Nat) : Module :=
  let f := m.feed c
  let m := m.setReg (pgFeed + c) FEED_VMEAS
    (BitVec.ofNat 32 (min 65535 (f.vin / 10) + min 65535 (f.vout / 10) * 65536))
  let rs := m.fdRsense c
  let (i, m) := if rs = 0 then let (z, m) := m.draw 6; (z % 65536, m)
    else (wrapInt 16 (satInt 16 (roundDiv (f.vs * 10) rs)), m)
  let m := m.setReg (pgFeed + c) FEED_IMEAS
    (BitVec.ofNat 32 (i + wrapInt 16 (satInt 16 (f.vgs / 10)) * 65536))
  let lim := m.val (pgFeed + c) FEED_I2T
  let (p, m) := if lim = 0 then let (z, m) := m.draw 7; (z % 65536, m)
    else (min 65535 (f.e * 100 / (lim * 65536)), m)
  m.put (pgFeed + c) ⟨FEED_I2T_NOW, 0, 16⟩ p

/-- A 1 µs sample of a channel (R297, R300, R303, R312): `vin` and `vout` in mV, the shunt in µV,
FD_GATE − FD_SRC in mV. -/
def fdSample (m : Module) (c vin vout : Nat) (vs vgs : Int) : Module :=
  let m := m.boundary (pgFeed + c)
  let m := if m.en (pgFeed + c) then
      m.usePairs (pgFeed + c) [FEED_VIN_UV, FEED_VIN_OV, FEED_ILIM, FEED_I2T] else m
  let on := fsDrive (m.fdSt c)
  let m := m.updFd c (fun x => { x with vin := vin, vout := vout, vs := vs, vgs := vgs,
                                        vgsOn := on && (x.vgsOn || decide (3000 ≤ vgs)) })
  ((m.fdWindow c vin).fdHeat c).fdMeas c

/-! ### FET checks (R308) -/

/-- The gate has not come up within GATE_TMO. -/
def fdDamaged (m : Module) (c : Nat) : Module :=
  if !fsDrive (m.fdSt c) || (m.feed c).vgsOn then m
  else
    let m := ((m.raise (pgFeed + c) FEED_EV_DAMAGED).latchNow (pgFeed + c) FEED_FLT_DAMAGED).fdLast c 5
    (m.fdTo c fsDamaged).fdMateOff c

/-- The FET has not conducted within VDS_TMO. -/
def fdNoConduct (m : Module) (c : Nat) : Module :=
  if !fsDrive (m.fdSt c) || !(m.feed c).vgsOn then m
  else
    let m := ((m.raise (pgFeed + c) FEED_EV_NO_CONDUCT).latchNow (pgFeed + c) FEED_FLT_NO_CONDUCT).fdLast c 6
    (m.fdTo c fsDamaged).fdMateOff c

/-- The FET drops too much at a low current for 1 s; not judged without a shunt value. -/
def fdDegraded (m : Module) (c : Nat) : Module :=
  if (m.fdSt c ≠ fsOn && m.fdSt c ≠ fsConduct) || m.fdRsense c = 0 then m
  else
    let m := ((m.raise (pgFeed + c) FEED_EV_DEGRADED).latchNow (pgFeed + c) FEED_FLT_DEGRADED).fdLast c 7
    if m.flag (pgFeed + c) FEED_CFG_DEG_POL then (m.fdTo c fsLatched).fdMateOff c else m

/-! ### EN and latches (R299, R309) -/

/-- EN written 1 starts nothing (R299), or the self-test found the channel failed. Where only one channel of
a pair is set to PAIRED, that channel is refused and the other one starts in its own mode (DEDUCED, log
entry 142). -/
def fdRefused (m : Module) (c : Nat) : Bool :=
  let rs := fun d => bits (m.liveReg (pgFeed + d) FEED_RSENSE) 0 20
  let mode := m.fdMode c
  mode = 0 || bit (m.reg pgBist BIST_MISC) (16 + c) || (mode = 3 && bit (m.reg pgBist BIST_MISC) (16 + fdMate c))
    || (mode = 3 && m.fdMode (fdMate c) ≠ 3) || (mode = 1 && rs c = 0)
    || (mode = 3 && rs (c - c % 2 + 1) = 0)

/-- EN goes to 1. -/
def fdStart (m : Module) (c : Nat) : Module :=
  let m := m.fdPairSee c
  if m.fdRefused c then m.raise (pgFeed + c) FEED_EV_START_REFUSED
  else if m.fdPaired c then
    if c % 2 = 1 then m
    else (m.fdTo c fsQual).fdTo (c + 1) fsQual
  else m.fdTo c fsQual

/-- EN goes to 0. -/
def fdStop (m : Module) (c : Nat) : Module :=
  let m := m.applyOnStop (pgFeed + c)
  if m.fdPaired c then if c % 2 = 1 then m else (m.fdTo c fsOff).fdTo (c + 1) fsOff
  else m.fdTo c fsOff

/-- The latch bit that holds a channel in LATCHED or DAMAGED, by the cause of its turn-off (R312). -/
def fdHolds (m : Module) (c : Nat) : Nat :=
  let cause := m.get (pgFeed + c) ⟨FEED_LAST, 0, 4⟩
  if cause = 5 then FEED_FLT_DAMAGED else if cause = 6 then FEED_FLT_NO_CONDUCT
  else if cause = 7 then FEED_FLT_DEGRADED else FEED_FLT_TRIP

/-- Latch bit `i` of a channel is cleared: the channel that it held goes on (R305, R308, R309). -/
def fdRelease (m : Module) (c i : Nat) : Module :=
  if (m.fdSt c = fsLatched || m.fdSt c = fsDamaged) && i = m.fdHolds c then
    m.fdTo c (if m.fdEn c then fsQual else fsOff)
  else m

/-- A channel adopted on is judged under its EN in the cycle after the release (R309). -/
def fdAdopt (m : Module) (c : Nat) : Module :=
  let on := (m.feed c).adopted
  let m := m.updFd c (fun x => { x with adopted := false })
  if !on || !m.fdEn c || m.fdRefused c then m
  else if m.fdPaired c then
    if c % 2 = 1 then m.fdTo c fsOn
    else if m.fdSt (c + 1) = fsOn then m.fdTo c fsConduct
    else m
  else m.fdTo c (if m.fdMode c = 2 then fsConduct else fsOn)

/-- The channels are judged after the release: odd channels first, so that a pair whose odd channel
was adopted on has its even one in CONDUCT or BLOCK (R309). A channel that the part lacks or that the
limp subset leaves out keeps its gate at Z (R45, R56). -/
def fdAdoptAll (m : Module) : Module :=
  let cs := [1, 3, 5, 7, 0, 2, 4, 6].filter (fun c => c < nFeeds m.sys.part && m.drives (pgFeed + c))
  let m := cs.foldl (fun m c =>
    let was := (m.feed c).adopted
    let m := m.fdAdopt c
    if m.fdPaired c && c % 2 = 0 && !was && m.fdSt (c + 1) = fsOn then m.fdTo c fsBlock else m) m
  cs.foldl (fun m c => m.updFd c (fun x => { x with gate := fsGate (m.fdSt c) })) m

end Module

/-- FEED_INS_DELAY (R300). -/
def execFeedInsDelay (c : Nat) (s : State) : Host.Outcome State Fault Refusal :=
  actAt c nFeeds s (fun m => m.fdInserted c)

/-- FEED_EXCURSION (R301). -/
def execFeedExcursion (c : Nat) (hi : Bool) (s : State) : Host.Outcome State Fault Refusal :=
  actAt c nFeeds s (fun m => m.fdExcursion c hi)

/-- FEED_ON (R302). -/
def execFeedOn (c : Nat) (s : State) : Host.Outcome State Fault Refusal :=
  actAt c nFeeds s (fun m => m.fdOn c)

/-- FEED_SAMPLE (R303). -/
def execFeedSample (c vin vout : Nat) (vs vgs : Int) (s : State) : Host.Outcome State Fault Refusal :=
  actAt c nFeeds s (fun m => m.fdSample c vin vout vs vgs)

/-- FAST_TRIP (R304). -/
def execFastTrip (c : Nat) (s : State) : Host.Outcome State Fault Refusal :=
  actAt c nFeeds s (fun m => m.fdFast c)

/-- FEED_RETRY (R305). -/
def execFeedRetry (c : Nat) (s : State) : Host.Outcome State Fault Refusal :=
  actAt c nFeeds s (fun m => m.fdRetry c)

/-- FEED_CONDUCT (R306). -/
def execFeedConduct (c : Nat) (s : State) : Host.Outcome State Fault Refusal :=
  actAt c nFeeds s (fun m => m.fdConduct c)

/-- REVERSE (R306). -/
def execReverse (c : Nat) (s : State) : Host.Outcome State Fault Refusal :=
  actAt c nFeeds s (fun m => m.fdReverse c)

/-- DAMAGED (R308). -/
def execDamaged (c : Nat) (s : State) : Host.Outcome State Fault Refusal :=
  actAt c nFeeds s (fun m => m.fdDamaged c)

/-- NO_CONDUCT (R308). -/
def execNoConduct (c : Nat) (s : State) : Host.Outcome State Fault Refusal :=
  actAt c nFeeds s (fun m => m.fdNoConduct c)

/-- DEGRADED (R308). -/
def execDegraded (c : Nat) (s : State) : Host.Outcome State Fault Refusal :=
  actAt c nFeeds s (fun m => m.fdDegraded c)

end Sys2Proof.Machine
end

