-- ==== Sys2Proof/Machine/Batt.lean ====
section
/-! DEFINITION. Battery strings (R346 to R369, R594): presence and identity, state of charge,
learning, impedance, charging, and the warning levels. -/

namespace Sys2Proof.Machine

/-- The identity code of a resistance in Ω (R348). -/
def idCode (rid : Nat) : Nat :=
  if 240000 < rid || rid < 500 then 0
  else
    match (List.range 30).find? (fun j =>
      let n := 1000 * 6 ^ j
      let x := rid * 5 ^ j
      decide (20 * (max n x - min n x) ≤ n)) with
    | some j => j + 1
    | none => 31

/-- State of charge of an OCV row, given as points in mV, at a voltage (R354). Roundings down. -/
def ocvSoc (pts : List Nat) (v : Int) : Nat :=
  if v < (nth 0 pts 0 : Nat) then 0
  else if (nth 0 pts 31 : Nat) ≤ v then 10000
  else
    match (List.range 31).find? (fun k => decide (v < (nth 0 pts (k + 1) : Nat))) with
    | none => 10000
    | some k =>
      let a := nth 0 pts k
      let b := nth 0 pts (k + 1)
      let sa := k * 10000 / 31
      let sb := (k + 1) * 10000 / 31
      sa + (v.toNat - a) * (sb - sa) / max 1 (b - a)

namespace Module

def updBt (m : Module) (b : Nat) (f : Batt → Batt) : Module := { m with bt := upd m.bt b f }
def batt (m : Module) (b : Nat) : Batt := nth {} m.bt b
def btPres (m : Module) (b : Nat) : Nat := m.get (pgBatt + b) BATT_STATUS_PRES
def btSwapped (m : Module) (b : Nat) : Bool := m.get (pgBatt + b) BATT_STATUS_SWAPPED = 1
def socC (m : Module) (b : Nat) : Nat := m.get (pgBatt + b) ⟨BATT_SOC, 0, 16⟩
def socV (m : Module) (b : Nat) : Nat := m.get (pgBatt + b) ⟨BATT_SOC, 16, 16⟩
def setSocC (m : Module) (b x : Nat) : Module := m.put (pgBatt + b) ⟨BATT_SOC, 0, 16⟩ x
def setSocV (m : Module) (b x : Nat) : Module := m.put (pgBatt + b) ⟨BATT_SOC, 16, 16⟩ x

/-- String current in 0.1 A / 32,768 (R347). -/
def btCur (m : Module) (b : Nat) : Int := (m.rail (m.strRail b)).cur

/-- A learned value goes into its register (R356). -/
def setLearned (m : Module) (b off x : Nat) : Module :=
  m.setBoth (rkey (pgBatt + b) off) (mkPair (min 65535 x))

/-- The identity resistor takes part in the presence test (R349). -/
def idUsed (m : Module) (b : Nat) : Bool := m.cfg (pgBatt + b) BATT_CFG_PRES_SRC ≠ 1

/-- The string's thermistor reads between its limits (R349). -/
def btTsOk (m : Module) (b : Nat) : Bool :=
  let i := m.cfg (pgBatt + b) BATT_CFG_TS
  m.flag (pgBatt + b) BATT_CFG_TS_EN && m.tsMode i = 1 && decide (0 < nth 0 m.th.good i)

/-- The string's temperature in 0.1 °C (R347, R371, R463). -/
def btTemp (m : Module) (b : Nat) : Option Int :=
  if m.flag (pgBatt + b) BATT_CFG_TEMP_POLL then
    match m.strEntry b with | some (p, e) => m.entTemp10 p e | none => none
  else
    let i := m.cfg (pgBatt + b) BATT_CFG_TS
    if m.flag (pgBatt + b) BATT_CFG_TS_EN && m.tsMode i = 1 && m.tsValid i then some (m.tsMeas i)
    else none

/-! ### Warning levels (R365 to R367) -/

/-- State-of-charge conditions are not judged: BATT fallback, a firmware restart (R366), or no update
yet. -/
def socBlind (m : Module) (b : Nat) : Bool :=
  (m.task 4).fallback || m.frozen || !(m.batt b).primed

/-- Voltage threshold of a level, 0 off. -/
def lvlV (m : Module) (b k : Nat) : Nat :=
  m.val (pgBatt + b) (if k = 0 then BATT_V_LOW else if k = 1 then BATT_V_VLOW else BATT_V_CUT)

/-- The voltage condition to enter a level on a mean voltage. -/
def lvlVIn (m : Module) (b k mv : Nat) : Bool := m.lvlV b k ≠ 0 && decide (mv ≤ m.lvlV b k)

/-- The voltage condition to leave it. -/
def lvlVOut (m : Module) (b k mv : Nat) : Bool :=
  m.lvlV b k = 0 || decide (m.lvlV b k + m.cfg (pgBatt + b) BATT_LVL_CFG_V_HYS ≤ mv)

/-- The charge in 0.01 % at which a level is entered, and the estimate that it is compared with. -/
def lvlSoc (m : Module) (b k : Nat) : Nat × Nat :=
  if k = 0 then (50 * m.valF (pgBatt + b) BATT_SOC_LVL_LOW, m.sMin b)
  else if k = 1 then (50 * m.valF (pgBatt + b) BATT_SOC_LVL_VLOW, m.sMin b)
  else (m.val (pgBatt + b) BATT_SOC_CUT, m.socV b)

/-- Levels are entered and left on the conditions as they stand; STATUS.LEVEL, the events and the
Crossing logic follow (R365, R295). -/
def battLevels (m : Module) (b : Nat) : Module :=
  let x := m.batt b
  let blind := m.socBlind b
  let new := (List.range 3).map (fun k =>
    if nth false x.lvl k then !(nth false x.vOut k && (blind || nth false x.socOut k))
    else nth false x.vIn k || (!blind && nth false x.socIn k))
  if new = x.lvl then m
  else
    let m := m.updBt b (fun y => { y with lvl := new })
    let m := ([(0, BATT_EV_LOW), (1, BATT_EV_VERY_LOW), (2, BATT_EV_CUTOFF)]).foldl
      (fun m ke => if nth false new ke.1 && !nth false x.lvl ke.1 then m.raise (pgBatt + b) ke.2 else m) m
    let old := m.get (pgBatt + b) BATT_STATUS_LEVEL
    let lv := if nth false new 2 then 3 else if nth false new 1 then 2 else if nth false new 0 then 1 else 0
    let m := m.put (pgBatt + b) BATT_STATUS_LEVEL lv
    let m := if lv < old then m.raise (pgBatt + b) BATT_EV_LEVEL_CLEAR else m
    m.xingBatt

/-- The state-of-charge conditions are judged at an update (R366). -/
def battSocJudge (m : Module) (b : Nat) : Module :=
  let cs := (List.range 3).map (m.lvlSoc b)
  (m.updBt b (fun x => { x with
    socIn := cs.map (fun c => decide (c.2 ≤ c.1)),
    socOut := cs.map (fun c => decide (c.1 + 200 ≤ c.2)) })).battLevels b

/-! ### Impedance (R360, R361) -/

/-- A measurement may start, or go on. -/
def impFit (m : Module) (b : Nat) : Bool :=
  let r := m.strRail b
  m.rlSt r = rsReg && m.xingSt = xsIdle && m.get pgEpe EPE_STATUS_BOUND = 0 && !m.cp.assist
    && m.get (pgBatt + b) BATT_STATUS_LEVEL = 0 && !m.restarting
    && !(m.namedBy r).any (fun n => m.phSt n = psSuspect || m.phSt n = psProbing)

/-- A measurement that waits starts; one whose conditions fail is aborted. -/
def impJudge (m : Module) (b : Nat) : Module :=
  let x := m.batt b
  if x.imp then if m.impFit b then m else m.impAbort b
  else if x.impReq && m.impFit b && !m.bt.any (fun y => y.imp) then
    (m.updBt b (fun y => { y with imp := true, impReq := false, impF := 0, impK := 0 })).put
      (pgBatt + b) BATT_STATUS_IMP_RUN 1
  else m

/-- A measurement is asked for, with IMP_CFG.EN at 1. -/
def impAsk (m : Module) (b : Nat) : Module :=
  if (m.batt b).run && m.flag (pgBatt + b) BATT_IMP_CFG_EN && !(m.batt b).imp then
    m.updBt b (fun x => { x with impReq := true })
  else m

/-- Every measurement is aborted: a firmware restart (R361). -/
def impAbortAll (m : Module) : Module := (List.range 8).foldl (fun m b => m.impAbort b) m

/-! ### Learned values (R356, R357) -/

/-- Health (R356). -/
def learnSoh (m : Module) (b : Nat) : Module :=
  let p := pgBatt + b
  let c := 10000 * m.val p BATT_LRN_CAP / max 1 (m.val p BATT_CAP_NP)
  let rn := m.val p BATT_R_NP
  let h := if rn = 0 then c else min c (10000 * min rn (2 * rn - m.val p BATT_LRN_R) / rn)
  m.setLearned b BATT_LRN_SOH (min 10000 h)

/-- A learned value changes and the health follows: LRN_SEQ counts each change that learning makes, the
health's own among them, and not those of ACCEPT or a restore (DEDUCED, log entry 145). -/
def learn (m : Module) (b off x : Nat) : Module :=
  let p := pgBatt + b
  let x := min 65535 x
  if m.val p off = x then m
  else
    let soh := m.val p BATT_LRN_SOH
    let m := (m.setLearned b off x).learnSoh b
    m.put p ⟨BATT_LRN_SEQ, 0, 16⟩
      (m.get p ⟨BATT_LRN_SEQ, 0, 16⟩ + 1 + (if m.val p BATT_LRN_SOH = soh then 0 else 1))

/-- A quarter of the way to a new value, rounded down. -/
def learnTo (m : Module) (b off : Nat) (new : Int) : Module :=
  let old : Int := m.val (pgBatt + b) off
  m.learn b off (old + (new - old) / 4).toNat

/-- The learned values return to nameplate (R351, R369). -/
def nameplate (m : Module) (b : Nat) : Module :=
  let p := pgBatt + b
  let m := (m.setLearned b BATT_LRN_CAP (m.val p BATT_CAP_NP)).setLearned b BATT_LRN_R (m.val p BATT_R_NP)
  let m := (m.setLearned b BATT_LRN_CYC 0).setLearned b BATT_LRN_SOH 10000
  let m := m.updBt b (fun x => { x with restSoc := none, restQ := 0, thru := 0, restore := false })
  m.put p BATT_STATUS_UNLEARNED 1

/-- A restore that was accepted takes effect (R357). -/
def battRestore (m : Module) (b : Nat) : Module :=
  if !(m.batt b).restore then m
  else
    let m := m.updBt b (fun x => { x with restore := false })
    (m.put (pgBatt + b) BATT_STATUS_UNLEARNED 0).raise (pgBatt + b) BATT_EV_LEARN_OK

/-! ### The update (R353 to R356, R362 to R364) -/

/-- CHG_TEMP and the reported temperature (R364). -/
def battTemp (m : Module) (b : Nat) : Module :=
  let p := pgBatt + b
  let w := m.pairKey (rkey p BATT_CHG_TEMP)
  let lo := 10 * sext 8 (bits w 24 8)
  let hi := 10 * sext 8 (bits w 16 8)
  let was := m.get p BATT_STATUS_CHG_TEMP = 1
  let bad := match m.btTemp b with
    | none => true
    | some t =>
      if was then !(decide (lo + 20 ≤ t) && decide (t ≤ hi - 20)) else decide (t < lo) || decide (hi < t)
  let m := match m.btTemp b with
    | some t => m.put p BATT_STATUS_TEMP (wrapInt 8 (satInt 8 (t / 10)))
    | none => m
  let m := m.put p BATT_STATUS_CHG_TEMP (if bad then 1 else 0)
  if bad && !was then m.raise p BATT_EV_CHG_TEMP else m

/-- Open-circuit voltage in mV (R354). -/
def battVoc (m : Module) (b : Nat) : Int :=
  (m.batt b).mv + roundDiv (m.btCur b * m.val (pgBatt + b) BATT_LRN_R) 32768000

/-- The points of an OCV row. -/
def ocvRow (m : Module) (b row : Nat) : List Nat :=
  (List.range 32).map (fun k => m.tblVal (pgBatt + b) 0 (32 * row + k))

/-- The voltage estimate of the state of charge (R354). -/
def battSocV (m : Module) (b : Nat) (v : Int) : Nat :=
  let p := pgBatt + b
  let soc := fun row => ocvSoc (m.ocvRow b row) v
  let ta := 10 * sext 8 (m.cfg p BATT_OCV_T_T_A)
  let tb := 10 * sext 8 (m.cfg p BATT_OCV_T_T_B)
  let tc := 10 * sext 8 (m.cfg p BATT_OCV_T_T_C)
  match m.btTemp b with
  | none => soc 1
  | some t =>
    if t ≤ ta then soc 0
    else if tc ≤ t then soc 2
    else
      let (t0, t1, r) := if t < tb then (ta, tb, 0) else (tb, tc, 1)
      let s0 : Int := soc r
      let s1 : Int := soc (r + 1)
      (s0 + (s1 - s0) * (t - t0) / max 1 (t1 - t0)).toNat

/-- The charge since the last update goes into the estimates (R353, R356). -/
def battCount (m : Module) (b : Nat) : Module :=
  let p := pgBatt + b
  let q := m.reg p BATT_Q_RAW
  let x := m.batt b
  let dq := sext 32 (q - x.qLast).toNat
  let cap := m.val p BATT_LRN_CAP
  let m := m.updBt b (fun y => { y with qLast := q, restQ := y.restQ + dq, thru := y.thru + dq.toNat })
  if cap = 0 then
    let (f, m) := m.draw 8
    m.setSocC b (min 10000 f)
  else
    let unit : Int := 36 * cap
    let tot := dq + x.qRem
    let soc : Int := m.socC b
    let left := soc - tot / unit
    let m := m.updBt b (fun y => { y with qRem := tot % unit })
    let m :=
      if 10000 < left then (m.setSocC b 10000).updBt b (fun y => { y with qRem := 0 })
      else if 0 ≤ left then m.setSocC b left.toNat
      else
        let m := (m.setSocC b 0).updBt b (fun y => { y with qRem := 0 })
        if m.val p BATT_SOC_CUT < m.socV b then
          let beyond := (m.batt b).qOver + (tot - soc * unit).toNat
          let m := m.updBt b (fun y => { y with qOver := beyond })
          let m := m.put p ⟨BATT_Q_OVER, 0, 16⟩ (min 65535 (beyond / 36000))
          if m.get p BATT_STATUS_CAP_SUSPECT = 1 then m
          else (m.put p BATT_STATUS_CAP_SUSPECT 1).raise p BATT_EV_CAP_SUSPECT
        else m
    let cyc := (m.batt b).thru / (360000 * cap)
    if cyc = 0 then m
    else
      let m := m.updBt b (fun y => { y with thru := y.thru % (360000 * cap) })
      m.learn b BATT_LRN_CYC (m.val p BATT_LRN_CYC + cyc)

/-- The string is at rest (R355). -/
def battAtRest (m : Module) (b : Nat) : Bool :=
  let p := pgBatt + b
  decide ((m.btCur b).natAbs < 32768 * m.cfg p BATT_REST_CFG_REST_I)
    && decide (60000 * m.cfg p BATT_REST_CFG_REST_T ≤ (m.batt b).restMs)

/-- A rest correction, and what the capacity learns from it (R355, R356). -/
def battRest (m : Module) (b : Nat) : Module :=
  let p := pgBatt + b
  let t := 60000 * m.cfg p BATT_REST_CFG_REST_T
  let x := m.batt b
  if !m.battAtRest b || x.restMs < (x.restN + 1) * t then m
  else
    let soc := m.socV b
    let m := (m.setSocC b soc).updBt b (fun y => { y with
      restN := y.restMs / t, qRem := 0, qOver := 0, restSoc := some soc, restQ := 0 })
    let m := (m.put p BATT_STATUS_CAP_SUSPECT 0).setReg p BATT_Q_OVER 0
    let m := m.raise p BATT_EV_REST_CORR
    match x.restSoc with
    | none => m
    | some old =>
      let d := max old soc - min old soc
      if d < 4000 then m else m.learnTo b BATT_LRN_CAP (x.restQ.natAbs / (36 * d) : Nat)

/-- The charge request, FULL and the interval (R353, R362, R363). -/
def battCharge (m : Module) (b : Nat) (voc : Int) : Module :=
  let p := pgBatt + b
  let r := m.val p BATT_LRN_R
  let chgI := m.val p BATT_CHG_I
  let head : Int := m.val p BATT_V_CHG - voc
  let req :=
    if m.get p BATT_STATUS_CHG_TEMP = 1 then 0
    else if r = 0 then if 0 < head then chgI else 0
    else min chgI ((max 0 head * 1000).toNat / r)
  let m := m.put p ⟨BATT_CHG_REQ, 0, 16⟩ req
  let m := if req < m.cfg p BATT_CHG_TERM_CHG_TERM && m.get p BATT_STATUS_CHARGING = 1 then
      m.put p BATT_STATUS_FULL 1
    else if m.socC b ≤ m.cfg p BATT_CHG_TERM_RECHG then m.put p BATT_STATUS_FULL 0 else m
  let rest := m.battAtRest b
  let m := m.put p BATT_STATUS_AT_REST (if rest then 1 else 0)
  m.put p BATT_STATUS_UPD
    (if m.val p BATT_LRN_CAP * 32768 < 20 * (m.btCur b).natAbs then 0 else if rest then 2 else 1)

/-- The pairs that an update uses (R94). -/
def battPairs (m : Module) (b : Nat) : Module :=
  let m := m.usePairs (pgBatt + b) [BATT_CAP_NP, BATT_R_NP, BATT_CHG_I, BATT_V_CHG, BATT_CHG_TEMP,
    BATT_SOC_LVL, BATT_SOC_CUT, BATT_LRN_CAP, BATT_LRN_R, BATT_LRN_CYC]
  m.useWords (pgBatt + b) 0 (List.range 96)

/-- An update of the estimator. -/
def battUpdate (m : Module) (b : Nat) : Module :=
  let p := pgBatt + b
  let sel := fun k => decide (pageOfKey k = p) && !inGroup p 2 k
  let m := ((m.applyPend sel).applySnap sel).battRestore b
  let m := (m.battPairs b).battTemp b
  let voc := m.battVoc b
  let m := m.setSocV b (m.battSocV b voc)
  let m :=
    if (m.batt b).primed then m.battCount b
    else (m.setSocC b (m.socV b)).updBt b (fun x => { x with
      primed := true, qRem := 0, qLast := m.reg p BATT_Q_RAW })
  let m := (m.battRest b).battCharge b voc
  (m.updBt b (fun x => { x with updMs := 0 })).battSocJudge b

/-- The interval of R353 in ms. -/
def battEvery (m : Module) (b : Nat) : Nat :=
  let u := m.get (pgBatt + b) BATT_STATUS_UPD
  if u = 0 then 1 else if u = 1 then 100 else 1000

/-- A ms passes for the intervals of R353. -/
def battMs (m : Module) : Module :=
  m.strings.foldl (fun m b => m.updBt b (fun x => { x with updMs := x.updMs + 1 })) m

/-- A period of the BATT task ends; `done` when its outputs count. While SWAPPED the estimator is
frozen (R350); in fallback no update is made (R366). -/
def battTick (m : Module) (done : Bool) : Module :=
  m.strings.foldl (fun m b =>
    if done && !(m.task 4).fallback && !m.btSwapped b && m.battEvery b ≤ (m.batt b).updMs then
      m.battUpdate b
    else m) m

/-- BATT enters its fallback: SOC_V is not given (R354). -/
def battHold (m : Module) : Module := m.strings.foldl (fun m b => m.setSocV b 0xFFFF) m

/-! ### Voltage judgement (R366) -/

/-- The voltage conditions that no longer hold lose their time. -/
def battVCond (m : Module) (b mv : Nat) : Module :=
  m.updBt b (fun x => { x with
    vIn := (List.range 3).map (fun k => nth false x.vIn k && m.lvlVIn b k mv),
    vOut := (List.range 3).map (fun k => m.lvlV b k = 0 || (nth false x.vOut k && m.lvlVOut b k mv)) })

/-- Every 1 ms. -/
def battVoltage (m : Module) (b mv : Nat) : Module :=
  if !(m.batt b).run then m
  else
    let p := pgBatt + b
    let sel := fun k => inGroup p 2 k
    let m := (m.applyPend sel).applySnap sel
    let m := m.usePairs p [BATT_V_LOW, BATT_V_VLOW, BATT_V_CUT]
    let cur := m.btCur b
    let m := m.put p ⟨BATT_VI, 0, 16⟩ (min 65535 mv)
    let m := m.put p ⟨BATT_VI, 16, 16⟩ (wrapInt 16 (satInt 16 (roundDiv cur 32768)))
    let rest := decide (cur.natAbs < 32768 * m.cfg p BATT_REST_CFG_REST_I)
    let m := m.updBt b (fun x => { x with
      mv := min 65535 mv,
      restMs := if rest then x.restMs + 1 else 0, restN := if rest then x.restN else 0 })
    ((m.battVCond b mv).battLevels b).impJudge b

/-- A voltage condition has held for LVL_T (R365). -/
def battLevelTimer (m : Module) (b k : Nat) (enter : Bool) : Module :=
  let mv := (m.batt b).mv
  if !(m.batt b).run || 3 ≤ k then m
  else if enter then
    if m.lvlVIn b k mv then
      (m.updBt b (fun x => { x with vIn := upd x.vIn k (fun _ => true) })).battLevels b
    else m
  else if m.lvlVOut b k mv then
    (m.updBt b (fun x => { x with vOut := upd x.vOut k (fun _ => true) })).battLevels b
  else m

/-! ### Presence and identity (R348 to R351) -/

/-- The string is taken as swapped (R350). -/
def battSwap (m : Module) (b : Nat) : Module :=
  if m.btSwapped b then m
  else ((m.put (pgBatt + b) BATT_STATUS_SWAPPED 1).raise (pgBatt + b) BATT_EV_SWAPPED).xingBatt

/-- The presence state is set; leaving PRESENT is a swap. -/
def battPresent (m : Module) (b st : Nat) : Module :=
  let old := m.btPres b
  if st = old then m
  else
    let m := m.put (pgBatt + b) BATT_STATUS_PRES st
    if st = 1 then
      let m := m.raise (pgBatt + b) BATT_EV_PRESENT
      let x := m.batt b
      if x.taken then m
      else
        let m := m.updBt b (fun y => { y with taken := true })
        if m.idUsed b then m.put (pgBatt + b) BATT_ID_CODE x.code else m
    else
      let m := if st = 2 then m.latchNow (pgBatt + b) BATT_FLT_ID_BAD else m
      if old = 1 then m.battSwap b else m

/-- A read of BAT_ID, `rid` in Ω. -/
def battIdRead (m : Module) (b rid : Nat) : Module :=
  if !(m.batt b).run then m
  else
    let p := pgBatt + b
    let code := idCode rid
    let use := m.idUsed b
    let valid := decide (1 ≤ code) && decide (code ≤ 30)
    let pass := if use then valid else m.btTsOk b
    let m := m.put p BATT_ID_R_ID (min 65535 (rid / 100))
    let m := m.updBt b (fun x => { x with
      code := code,
      good := if pass then min 3 (x.good + 1) else 0,
      bad := if pass then 0 else min 2 (x.bad + 1),
      bad31 := if use && code = 31 then min 2 (x.bad31 + 1) else 0,
      diff := if use && valid && x.taken && code ≠ m.get p BATT_ID_CODE then min 2 (x.diff + 1) else 0 })
    let m := if m.cfg p BATT_CFG_PRES_SRC = 2 && valid && !m.btTsOk b then m.latchNow p BATT_FLT_TS_FAIL else m
    let x := m.batt b
    let m :=
      if x.bad31 = 2 then m.battPresent b 2
      else if x.bad = 2 then m.battPresent b 0
      else if x.good = 3 then m.battPresent b 1
      else m
    if x.diff = 2 then m.battSwap b else m

/-- ACCEPT (R351, R363). -/
def battAccept (m : Module) (b : Nat) : Module :=
  let p := pgBatt + b
  if m.btPres b ≠ 1 then m.raise p BATT_EV_LEARN_REFUSED
  else
    let m := m.put p BATT_ID_CODE (m.batt b).code
    let m := (m.nameplate b).put p BATT_STATUS_SWAPPED 0
    let m := if m.socV b = 0xFFFF then m else m.setSocC b (m.socV b)
    (m.put p BATT_STATUS_FULL 0).updBt b (fun x => { x with
      qRem := 0, qLast := m.reg p BATT_Q_RAW, diff := 0 })

/-! ### EN and COMMIT (R346, R357, R369, R594) -/

/-- The start of a string is refused (R346). -/
def battRefused (m : Module) (b : Nat) : Bool :=
  let p := pgBatt + b
  let r := m.strRail b
  decide (nRails m.sys.part ≤ r) || !m.bidi r
    || m.strings.any (fun c => c ≠ b && m.strRail c = r)
    || m.val p BATT_CAP_NP = 0 || m.val p BATT_V_CUT = 0 || m.tblVal p 0 63 = 0

/-- EN goes from 0 to 1. -/
def battStart (m : Module) (b : Nat) : Module :=
  if m.battRefused b then m.raise (pgBatt + b) BATT_EV_START_REFUSED
  else
    let fresh := !(m.batt b).first
    let m := m.updBt b (fun x => { x with
      run := true, first := true, good := 0, bad := 0, bad31 := 0, diff := 0, restMs := 0, restN := 0,
      socIn := rep 3 false, socOut := rep 3 true, vIn := rep 3 false, vOut := rep 3 true })
    if fresh then m.nameplate b else m

/-- EN goes from 1 to 0 (R594). -/
def battStop (m : Module) (b : Nat) : Module :=
  let m := (m.impAbort b).updBt b (fun x => { x with run := false, lvl := rep 3 false })
  let m := (m.put (pgBatt + b) BATT_STATUS_LEVEL 0).put (pgBatt + b) BATT_STATUS_CHARGING 0
  (m.applyOnStop (pgBatt + b)).battRestore b

/-- The OCV table and its temperatures may be committed (R369). -/
def ocvGood (m : Module) (b : Nat) : Bool :=
  let p := pgBatt + b
  let v := fun i => bits (m.tbl p 0 i) 16 16
  let t := fun lo => sext 8 (bits (m.reg p BATT_OCV_T) lo 8)
  (List.range 3).all (fun row => (List.range 31).all (fun k =>
    decide (v (32 * row + k) ≤ v (32 * row + k + 1))))
  && decide (t 0 < t 8) && decide (t 8 < t 16)

/-- COMMIT.OCV. -/
def commitOcv (m : Module) (b : Nat) : Module :=
  if m.ocvGood b then m.commit (pgBatt + b) (inGroup (pgBatt + b) 0)
  else m.raise (pgBatt + b) BATT_EV_TABLE_BAD

/-- COMMIT.LEARN: `wrote` holds the keys that the transaction wrote and that were not refused
(R357). -/
def commitLearn (m : Module) (b : Nat) (wrote : List Nat) : Module :=
  let p := pgBatt + b
  let k := fun off => wrote.contains (rkey p off)
  if k BATT_LRN_CAP && k BATT_LRN_R && k BATT_LRN_CYC && k BATT_LRN_SOH
      && bits (m.reg p BATT_LRN_CAP) 16 16 ≠ 0 && bits (m.reg p BATT_LRN_R) 16 16 ≠ 0
      && m.btPres b = 1 && !m.btSwapped b && bits (m.reg p BATT_ID_EXPECT) 0 5 = m.get p BATT_ID_CODE then
    let m := (m.commit p (inGroup p 3)).updBt b (fun x => { x with restore := true })
    if (m.batt b).run then m else m.battRestore b
  else m.raise p BATT_EV_LEARN_REFUSED

end Module

/-- BAT_ID_READ (R348). -/
def execBatIdRead (b rid : Nat) (s : State) : Host.Outcome State Fault Refusal :=
  actAt b nStrings s (fun m => m.battIdRead b rid)

/-- IMP_PERIOD (R360). -/
def execImpPeriod (b : Nat) (s : State) : Host.Outcome State Fault Refusal :=
  actAt b nStrings s (fun m => m.impAsk b)

/-- IMP_FREQ_STEP (R360, R356): the last frequency ends the measurement. -/
def execImpFreqStep (b zmag : Nat) (zph zreal : Int) (s : State) : Host.Outcome State Fault Refusal :=
  actAt b nStrings s (fun m =>
    let x := m.batt b
    if !x.imp then m
    else
      let m := m.setTbl (pgBatt + b) 1 x.impF
        (BitVec.ofNat 32 (wrapInt 16 (satInt 16 zph) * 65536 + min 65535 zmag))
      let m := m.updBt b (fun y => { y with
        impF := y.impF + 1, impK := 0, zReal := if x.impF = 0 then zreal else y.zReal })
      if x.impF < 7 then m
      else
        let m := (m.updBt b (fun y => { y with imp := false })).put (pgBatt + b) BATT_STATUS_IMP_RUN 0
        let m := m.raise (pgBatt + b) BATT_EV_IMP_DONE
        m.learnTo b BATT_LRN_R (m.batt b).zReal)

/-- BATT_VOLTAGE_JUDGE (R366). -/
def execBattVoltageJudge (b mv : Nat) (s : State) : Host.Outcome State Fault Refusal :=
  actAt b nStrings s (fun m => m.battVoltage b mv)

/-- BATT_LEVEL_TIMER (R365). -/
def execBattLevelTimer (b lvl : Nat) (enter : Bool) (s : State) : Host.Outcome State Fault Refusal :=
  actAt b nStrings s (fun m => if lvl = 0 then m else m.battLevelTimer b (lvl - 1) enter)

end Sys2Proof.Machine
end

