-- ==== Sys2Proof/Machine/Path.lean ====
section
/-! DEFINITION. The path engines (R389 to R408): release and sending of frames, self-check,
switch-over, repair and rebuild. -/

namespace Sys2Proof.Machine

def esActive : Nat := 0
def esStep : Nat := 1
def esReset : Nat := 2
def esTest : Nat := 3
def esCopy : Nat := 4
def esCatch : Nat := 5
def esFailed : Nat := 6

namespace Module

def updNet (m : Module) (f : Net → Net) : Module := { m with net := f m.net }
def portUp (m : Module) (p : Nat) : Bool := m.get (pgNet + p) NET_STATUS_UP = 1
def portsUp (m : Module) : List Nat := (List.range 2).filter m.portUp

/-- The module's address (R387, R553) and shelf number (R427). -/
def ownMac (m : Module) : Nat :=
  bits (m.reg pgSys SYS_MAC_H) 0 16 * 2 ^ 32 + (m.reg pgSys SYS_MAC_L).toNat
def shelf (m : Module) : Nat := m.cfg pgBenuf ⟨BENUF_SHELF, 0, 12⟩

/-- State of an engine; the active one. -/
def eng (m : Module) (e : Nat) : Nat :=
  m.get pgNetpair (if e = 0 then NETPAIR_STATUS_STATE0 else NETPAIR_STATUS_STATE1)
def setEng (m : Module) (e st : Nat) : Module :=
  m.put pgNetpair (if e = 0 then NETPAIR_STATUS_STATE0 else NETPAIR_STATUS_STATE1) st
def engA (m : Module) : Nat := m.get pgNetpair NETPAIR_STATUS_ACTIVE

/-- An engine drives the ports. -/
def pathOn (m : Module) : Bool := !m.net.rebuild && m.eng m.engA = esActive

/-- The path is SIMPLEX when the other engine is not in step. -/
def pathSimplex (m : Module) : Module :=
  m.put pgNetpair NETPAIR_STATUS_SIMPLEX (if m.eng (1 - m.engA) = esStep then 0 else 1)

/-! ### Frames -/

/-- The Benuf session key, as the authentication engine reads it through its own ID (R437, R492). -/
def sessionKey (m : Module) : Option (List Byte) :=
  if m.hw.wipe.isSome || !bit (m.liveReg pgHeart HEART_ACL) 10 then none
  else (m.hw.keys.find? (fun k => k.kind = 1)).map (·.bytes)

/-- PATH of a frame that is released now (R415). -/
def pathBits (m : Module) : Nat :=
  m.engA + 2 * m.get pgNetpair NETPAIR_STATUS_SIMPLEX + (if m.portUp 0 then 4 else 0)
    + (if m.portUp 1 then 8 else 0)

/-- The header of a frame, HCHK included (R415, R416). -/
def frameHeader (m : Module) (f : TxFrame) : List Byte :=
  let h := toBytes 1 (16 + f.typ % 16) ++ toBytes 1 (f.flags % 256)
    ++ toBytes 2 (m.shelf * 16 + f.path % 16) ++ toBytes 2 (f.dst % 4096 * 16 + f.cls)
    ++ toBytes 4 (f.period % 2 ^ 32) ++ toBytes 2 (f.seq % 65536) ++ toBytes 2 f.payload.length
  h ++ toBytes 2 (crc16 h)

/-- A frame as port A sends it, from its destination address to the trailer (R389, R414). -/
def frameBytes (m : Module) (f : TxFrame) : List Byte :=
  let vlan := if m.flag pgBenuf BENUF_CFG_VLAN_EN then
      toBytes 2 0x8100 ++ toBytes 2 ((7 - f.cls) * 8192 + m.cfg pgBenuf ⟨BENUF_VLAN, 0, 12⟩)
    else []
  let body := m.frameHeader f ++ f.payload
  let body := body ++ (if f.auth then Config.cmac (m.sessionKey.getD []) body else [])
  let x := toBytes 6 f.da ++ toBytes 6 m.ownMac ++ vlan ++ toBytes 2 (m.cfg pgBenuf BENUF_CFG_ETYPE)
    ++ body ++ toBytes 4 (crc32c body)
  let x := x ++ rep (54 - x.length) 0
  x ++ toBytes 2 (f.trailer % 65536) ++ toBytes 2 (0xA000 + (x.length - 8) % 4096) ++ toBytes 2 0x88FB

/-- The next trailer sequence is taken (R389). -/
def takeTrailer (m : Module) : Nat × Module :=
  let t := m.get pgNetpair ⟨NETPAIR_TX_SEQ, 0, 16⟩
  (t, m.put pgNetpair ⟨NETPAIR_TX_SEQ, 0, 16⟩ (t + 1))

/-- A frame of this type must be authenticated (R437). -/
def mustAuth (m : Module) (typ : Nat) : Bool :=
  m.flag pgBenuf BENUF_CFG_AUTH && bit (m.liveReg pgBenuf BENUF_AUTH_SET) typ

/-- The numbers of the EPE period and of the 10 ms period (R110, R275). -/
def epePeriodNo (m : Module) : Nat := m.taskK 0
def tenMs (m : Module) : Nat := m.sched.frame / 10 % 2 ^ 32

/-- A frame is released to its class (R421): a SHARE or SUMMARY takes the place of an older one, a
full class drops the frame. In Sapling only answers are sent (R588). -/
def release (m : Module) (cls typ da dst flags : Nat) (payload : List Byte) (auth : Bool) : Module :=
  let on := if m.get pgSys SYS_STATUS_PHASE = 5 then typ = 6 else m.en pgBenuf || (typ = 1 && m.bn.leave ≠ 0)
  if !on || !m.pathOn then m
  else
    let q := if cls = 0 then m.net.txq.filter (fun f => f.typ ≠ typ) else m.net.txq
    if 16 ≤ (q.filter (fun f => f.cls = cls)).length then
      (m.countReg pgBenuf BENUF_TX_DROP 1).raise pgBenuf BENUF_EV_TX_OVF
    else
      let seq := bits (m.tbl pgBenuf 1 typ) 0 16
      let m := m.setTbl pgBenuf 1 typ (BitVec.ofNat 32 ((seq + 1) % 65536))
      let (t, m) := m.takeTrailer
      let auth := auth || m.mustAuth typ
      let fl := flags + (if auth then 1 else 0) + (if m.get pgBenuf BENUF_STATUS_STATE = 1 then 2 else 0)
      m.updNet (fun n => { n with txq := q ++ [{
        cls := cls, typ := typ, da := da, dst := dst, flags := fl,
        period := if typ = 3 then m.tenMs else m.epePeriodNo,
        seq := seq, trailer := t, payload := payload, auth := auth, path := m.pathBits }] })

/-- The class that is sent next (R421). -/
def txNext (m : Module) : Option TxFrame :=
  (List.range 8).findSome? (fun c => m.net.txq.find? (fun f => f.cls = c))

/-- The ports finish the frame that they send, or begin the next one (R421); none when there is
nothing to send. -/
def txStep (m : Module) : Option Module :=
  if !m.pathOn then none
  else
    match m.net.fly with
    | some f =>
      let m' := m.portsUp.foldl (fun m p =>
        m.setReg (pgNet + p) NET_TX_FRAMES (m.reg (pgNet + p) NET_TX_FRAMES + 1)) m
      some { m'.updNet (fun n => { n with fly := none }) with out := { bytes := m.frameBytes f } }
    | none =>
      match m.txNext with
      | some f => some (m.updNet (fun n => { n with fly := some f, txq := n.txq.erase f }))
      | none => none

/-! ### Self-check and switch-over (R397 to R402) -/

/-- Engine `e` goes to repair at once, or waits for a command as FAILED (R403). -/
def engRepair (m : Module) (e : Nat) : Module :=
  ((m.updNet (fun n => { n with replay := 0 })).setEng e esReset).pathSimplex

/-- An engine leaves service (R403, R406). -/
def engLeave (m : Module) (e : Nat) (lasting : Bool) : Module :=
  if lasting then ((m.setEng e esFailed).pathSimplex).raise pgNetpair NETPAIR_EV_SIMPLEX
  else if m.flag pgNetpair NETPAIR_CFG_AUTO_REPAIR then m.engRepair e
  else (m.setEng e esFailed).pathSimplex

/-- The frame in flight is aborted on every port and released again in its place (R400). -/
def txAbort (m : Module) : Module :=
  match m.net.fly with
  | none => m
  | some f =>
    let m := m.portsUp.foldl (fun m p => m.countReg (pgNet + p) NET_ABORT_CNT 1) m
    m.updNet (fun n => { n with fly := none, txq := f :: n.txq })

/-- SEND_OFS of a report released in CORE cycle `cyc` of the major frame, in 100 ns after the start of its
period, rounded up (R270, R275): SHARE by the EPE period, SUMMARY by the period of 10 ms. -/
def sendOfs (m : Module) (f : TxFrame) (cyc : Nat) : Nat :=
  let per := if f.typ = 2 then 10 * periodUs (m.taskPer 0) else 100000
  let now := if f.typ = 2 then m.epePeriodNo else m.tenMs
  (now + 2 ^ 32 - f.period) % 2 ^ 32 * per + (10000 * m.sched.frame + ceilDiv cyc 40) % per

/-- Where SEND_OFS stands in the payload of a report (R424). -/
def ofsAt (typ : Nat) : Option Nat := if typ = 2 then some 32 else if typ = 3 then some 24 else none

/-- The own SEND_OFS of a period: past 400 µs it is a late send (R271). -/
def sentOfs (m : Module) (x : Nat) : Module :=
  let m := m.setReg pgGrove GROVE_LAST_SEND (BitVec.ofNat 32 (min 65535 x))
  if x ≤ 4000 then m
  else ((m.raise pgGrove GROVE_EV_LATE_SEND).fault pgGrove GROVE_FLT_LATE_SEND 0 (rkey pgGrove FLT_WIN)).1

/-- Reports that the new active engine releases again carry the time of that release (R402); it is a free
value where the command tells no cycle. -/
def resend (m : Module) : Module :=
  if !m.net.txq.any (fun f => (ofsAt f.typ).isSome) then m
  else
    let (c, m) := match m.out.cyc with
      | some c => (c, m)
      | none => m.draw 10
    let x := fun f => m.sendOfs f (c % 400000)
    let stamp := fun (f : TxFrame) => match ofsAt f.typ with
      | some i => f.payload.take i ++ toBytes 4 (mkPair (min 65535 (x f))).toNat ++ f.payload.drop (i + 4)
      | none => f.payload
    let m' := m.updNet (fun n => { n with txq := n.txq.map (fun f => { f with payload := stamp f }) })
    match m.net.txq.find? (fun f => f.typ = 2) with
    | some f => m'.sentOfs (x f)
    | none => m'

/-- The standby takes the ports (R399, R400). -/
def switchOver (m : Module) (reason : Nat) (forced : Bool) : Module :=
  let old := m.engA
  let m := (m.put pgNetpair NETPAIR_STATUS_ACTIVE (1 - old)).setEng (1 - old) esActive
  let m := m.count pgNetpair ⟨NETPAIR_SWITCH_CNT, 0, 16⟩ 1
  let m := if forced then m.count pgNetpair ⟨NETPAIR_SWITCH_CNT, 16, 16⟩ 1 else m
  let m := m.setReg pgNetpair NETPAIR_SWITCH_LAST (BitVec.ofNat 32
    (reason % 16 + old * 256 + bits (m.reg pgSched SCHED_MFRAME) 0 16 * 65536))
  let m := (m.raise pgNetpair NETPAIR_EV_SWITCHED).txAbort
  (m.updNet (fun n => { n with txq := n.txq.map (fun f => { f with path := m.pathBits }) })).resend

/-- A double fault (R408): transmission stops and both engines reset; an engine whose flags are lasting
stays FAILED (R406). -/
def doubleFault (m : Module) : Module :=
  let m := (List.range 2).foldl (fun m e =>
    m.setEng e (if m.latched pgNetpair (NETPAIR_FLT_ENG0 + e) then esFailed else esReset)) m
  let m := (m.updNet (fun n => { n with rebuild := true, fly := none, txq := [], replay := 0 }))
  let m := m.put pgNetpair NETPAIR_STATUS_SIMPLEX 1
  (m.latchNow pgNetpair NETPAIR_FLT_DOUBLE).raiseRec pgNetpair NETPAIR_EV_DOUBLE_FAULT

/-- The flag of engine `e` counts against its own counter block (R397). -/
def engCount (m : Module) (e : Nat) : Module × Bool :=
  m.fault pgNetpair (NETPAIR_FLT_ENG0 + e) 0 (rkey pgNetpair FLT_WIN)

/-- Engine `e` raises its flag (R398); an engine that is not in service and not past its test has
nothing to flag. -/
def engFlag1 (m : Module) (e reason : Nat) : Module :=
  let st := m.eng e
  if st = esReset || st = esTest || st = esFailed then m
  else
    let (m, lasting) := m.engCount e
    if e ≠ m.engA then m.engLeave e lasting
    else if m.eng (1 - e) = esStep then (m.switchOver reason false).engLeave e lasting
    else m.doubleFault

/-- The engines of `mask` flag in one cycle (R398). -/
def engFlag (m : Module) (mask reason : Nat) : Module :=
  if m.net.rebuild then m
  else if mask % 4 = 3 && m.eng (1 - m.engA) = esStep then
    ((m.engCount 0).1.engCount 1).1.doubleFault
  else (List.range 2).foldl (fun m e =>
    if mask.testBit e && !m.net.rebuild then m.engFlag1 e reason else m) m

/-- The staged outputs differ although no engine flagged (R398). -/
def mismatch (m : Module) : Module :=
  let sb := 1 - m.engA
  if m.net.rebuild || m.eng sb ≠ esStep then m
  else
    let m := m.count pgNetpair ⟨NETPAIR_MISMATCH_CNT, 0, 16⟩ 1
    let m := (m.count pgNetpair ⟨NETPAIR_MISMATCH_CNT, 16, 16⟩ 1).raise pgNetpair NETPAIR_EV_MISMATCH
    m.engLeave sb false

/-! ### Repair and rebuild (R403 to R408) -/

/-- A repair stage of engine `e` ends. -/
def repairStage (m : Module) (e : Nat) (ok : Bool) : Module :=
  let st := m.eng e
  if st = esReset then m.setEng e esTest
  else if st = esTest then
    if !ok then m.setEng e esFailed
    else if m.net.rebuild then m
    else (m.updNet (fun n => { n with replay := 0 })).setEng e esCopy
  else if st = esCopy then m.setEng e esCatch
  else if st = esCatch then
    let m := ((m.updNet (fun n => { n with replay := 0 })).setEng e esStep).pathSimplex
    (m.count pgNetpair ⟨NETPAIR_REPAIR_CNT, 0, 16⟩ 1).raise pgNetpair NETPAIR_EV_REPAIRED
  else m

/-- A frame enters the replay buffer of a repair; the 65th starts it again at COPY (R404). -/
def replayFrame (m : Module) : Module :=
  let e := 1 - m.engA
  if m.eng e ≠ esCopy && m.eng e ≠ esCatch then m
  else if m.net.replay < 64 then m.updNet (fun n => { n with replay := n.replay + 1 })
  else
    let m := (m.updNet (fun n => { n with replay := 0 })).setEng e esCopy
    (m.count pgNetpair ⟨NETPAIR_REPAIR_CNT, 16, 16⟩ 1).raise pgNetpair NETPAIR_EV_REPLAY_OVF

/-- The first engine to pass its test after a double fault becomes active, its protocol state
rebuilt (R408). -/
def rebuilt (m : Module) (e : Nat) : Module :=
  if !m.net.rebuild || m.eng e ≠ esTest then m
  else
    let m := (m.setEng e esActive).put pgNetpair NETPAIR_STATUS_ACTIVE e
    let m := m.updNet (fun n => { n with rebuild := false, dup := [], txq := [], fly := none })
    (m.put pgNetpair NETPAIR_STATUS_ENTRIES 0).pathSimplex

/-- CMD.SWITCH (R405): the old active goes through repair. -/
def netSwitch (m : Module) : Module :=
  if m.net.rebuild || m.eng (1 - m.engA) ≠ esStep then m.raise pgNetpair NETPAIR_EV_SWITCH_REFUSED
  else
    let old := m.engA
    (m.switchOver 5 true).engRepair old

/-- CMD.REPAIR, and a clearing write of ENG0 or ENG1 (R406, R407). -/
def netRepair (m : Module) (e : Nat) : Module := if m.eng e = esFailed then m.engRepair e else m

/-- The path at start-up: engine 0 is active when it passed its self-test, otherwise engine 1; the other
one is in step when it passed too, but not in Sapling (R409). -/
def pathStart (m : Module) (bad : List Nat) (sapling : Bool) : Module :=
  let a := if bad.contains 0 then 1 else 0
  let m := m.put pgNetpair NETPAIR_STATUS_ACTIVE a
  let m := m.setEng a (if bad.contains a then esFailed else esActive)
  let m := m.setEng (1 - a) (if bad.contains (1 - a) || sapling then esFailed else esStep)
  m.pathSimplex

end Module

/-- ENGINE_FLAG (R398), in CORE cycle `cyc` of the major frame. -/
def execEngineFlag (mask reason cyc : Nat) (s : State) : Host.Outcome State Fault Refusal :=
  actLive s (fun m => (m.arriveAt cyc).engFlag mask reason)

/-- SUPERVISION_SEND (R390): a supervision frame goes out on both ports. -/
def execSupervisionSend (s : State) : Host.Outcome State Fault Refusal :=
  actLive s (fun m =>
    if m.cfg pgNetpair NETPAIR_CFG_LIFE_CHECK = 0 || !m.pathOn then m
    else
      let (t, m) := m.takeTrailer
      let m := m.portsUp.foldl (fun m p =>
        m.setReg (pgNet + p) NET_TX_FRAMES (m.reg (pgNet + p) NET_TX_FRAMES + 1)) m
      let x := toBytes 6 0x01154E000100 ++ toBytes 6 m.ownMac ++ toBytes 2 0x88FB ++ toBytes 2 1
        ++ toBytes 2 t ++ toBytes 1 20 ++ toBytes 1 6 ++ toBytes 6 m.ownMac ++ toBytes 2 0
      let x := x ++ rep (54 - x.length) 0
      { m with out := { bytes := x ++ toBytes 2 t ++ toBytes 2 (0xA000 + (x.length - 8)) ++ toBytes 2 0x88FB } })

/-- REPAIR_STAGE_DONE (R403). -/
def execRepairStageDone (e : Nat) (ok : Bool) (s : State) : Host.Outcome State Fault Refusal :=
  actAt e (fun _ => 2) s (fun m => m.repairStage e ok)

/-- REBUILD_DONE (R408). -/
def execRebuildDone (e : Nat) (s : State) : Host.Outcome State Fault Refusal :=
  actAt e (fun _ => 2) s (fun m => m.rebuilt e)

end Sys2Proof.Machine
end

