-- ==== Sys2Proof/Machine/Benuf.lean ====
section
/-! DEFINITION. Benuf (R414 to R437): the frames that the module builds, and joining and leaving a
grove. -/

namespace Sys2Proof.Machine

/-- A complement pair of a frame: 16 bits, and 32 bits with the upper half first (R417). -/
def pair16 (x : Nat) : List Byte := toBytes 4 (mkPair x).toNat
def pair32 (x : Nat) : List Byte := pair16 (x / 65536) ++ pair16 x

/-- The 48 bits of a broadcast. -/
def macAll : Nat := 2 ^ 48 - 1

namespace Module

def updBn (m : Module) (f : Benuf → Benuf) : Module := { m with bn := f m.bn }
def updGr (m : Module) (f : Grove → Grove) : Module := { m with gr := f m.gr }
def ptpLocked (m : Module) : Bool := m.get pgPtp PTP_STATUS_LOCKED = 1

/-- The 24-bit value of a GROVE pair. -/
def groveW (m : Module) (off : Nat) : Nat := m.val32 pgGrove off % 2 ^ 24

/-! ### The member table (R428) -/

def memSt (m : Module) (i : Nat) : Nat := bits (m.tbl pgBenuf 0 (4 * i + 1)) 0 3
def memMac (m : Module) (i : Nat) : Nat :=
  (m.tbl pgBenuf 0 (4 * i)).toNat * 65536 + bits (m.tbl pgBenuf 0 (4 * i + 1)) 16 16
def setMemMac (m : Module) (i mac : Nat) : Module :=
  let m := m.setTbl pgBenuf 0 (4 * i) (BitVec.ofNat 32 (mac / 65536))
  m.setTbl pgBenuf 0 (4 * i + 1) (setBits (m.tbl pgBenuf 0 (4 * i + 1)) 16 16 mac)

/-- Admitted for the allocation: ADMITTED, or LEAVING until it is freed (R431). -/
def memIn (m : Module) (i : Nat) : Bool := m.memSt i = 1 || m.memSt i = 4

/-- The member words of GROVE table 0 follow the member's state (R283): ADMITTED for one that the
allocation takes, nothing for any other. -/
def memWord (m : Module) (i : Nat) : Module :=
  if m.memIn i then m.setTbl pgGrove 0 (4 * i) (setBits (m.tbl pgGrove 0 (4 * i)) 30 1 1)
  else (List.range 4).foldl (fun m w => m.setTbl pgGrove 0 (4 * i + w) 0) m

def setMemSt (m : Module) (i st : Nat) : Module :=
  (m.setTbl pgBenuf 0 (4 * i + 1) (setBits (m.tbl pgBenuf 0 (4 * i + 1)) 0 3 st)).memWord i

/-- The declared maximum M of a member (R272). -/
def memMax (m : Module) (i : Nat) : Nat := bits (m.tbl pgGrove 0 (4 * i + 2)) 0 24
def setMemMax (m : Module) (i w : Nat) : Module :=
  m.setTbl pgGrove 0 (4 * i + 2) (setBits (m.tbl pgGrove 0 (4 * i + 2)) 0 24 (min w (2 ^ 24 - 1)))

/-- STATUS.ADMITTED follows the table. -/
def memCount (m : Module) : Module :=
  m.put pgBenuf BENUF_STATUS_ADMITTED ((List.range 64).filter (fun i => m.memSt i = 1)).length

/-- A slot is freed. -/
def memFree (m : Module) (i : Nat) : Module :=
  let m := (List.range 4).foldl (fun m w => (m.setTbl pgBenuf 0 (4 * i + w) 0).setTbl pgGrove 0 (4 * i + w) 0) m
  (m.updBn (fun x => { x with joins := x.joins.filter (fun a => a.1 ≠ i) })).memCount

/-- A member is admitted with its declared maximum. -/
def memAdmit (m : Module) (i w : Nat) : Module :=
  let m := (m.setMemSt i 1).setMemMax i w
  (m.raise pgBenuf BENUF_EV_ADMITTED).memCount

/-! ### Frames that the module builds (R423 to R426) -/

/-- A word of the identity, 0 when its pair is bad (R552). -/
def identWord (m : Module) (i : Nat) : Nat :=
  let w := m.tbl pgSys 0 i
  if pairOk w then bits w 16 16 else 0

/-- HELLO (R423). -/
def helloPayload (m : Module) : List Byte :=
  toBytes 2 (m.identWord 16) ++ toBytes 1 (m.cfg pgEpe EPE_CFG_PERIOD)
    ++ toBytes 1 (m.cfg pgGrove GROVE_CFG_CANOPY_EN + 2 * m.cfg pgGrove GROVE_CFG_PRIO)
    ++ toBytes 4 (m.reg pgSys SYS_FW_VERSION).toNat ++ toBytes 6 m.ownMac ++ toBytes 2 0
    ++ (List.range 4).flatMap (fun i => toBytes 2 (m.identWord (8 + i)))
    ++ pair32 (m.groveW GROVE_MAX_W_H) ++ pair32 (m.groveW GROVE_GMAX_H) ++ pair32 (m.groveW GROVE_CCAP_H)
    ++ toBytes 4 (min (2 ^ 32 - 1) (m.bn.joinMs / 1000))

/-- A HELLO is sent, `extra` holding the LEAVING flag. -/
def sendHello (m : Module) (extra : Nat) : Module :=
  let m := m.usePairs pgGrove [GROVE_MAX_W_H, GROVE_MAX_W_L, GROVE_GMAX_H, GROVE_GMAX_L, GROVE_CCAP_H, GROVE_CCAP_L]
  m.release 2 1 macAll 0xFFF extra m.helloPayload false

/-- STATE of a HEALTH frame (R423). -/
def healthState (m : Module) : Nat :=
  m.get pgGrove GROVE_STATUS_LOCAL
    + (if m.get pgSys SYS_STATUS_FW_LOST = 1 then 2 else 0) + (if m.autonomous then 4 else 0)
    + (if m.get pgBenuf BENUF_STATUS_STATE = 1 then 8 else 0)
    + m.get pgXing XING_STATUS_STATE * 16 + m.get pgNetpair NETPAIR_STATUS_SIMPLEX * 128
    + m.get pgCap CAP_STATUS_CAP_ASSERTED * 256 + m.get pgSeq SEQ_STATUS_STATE * 2 ^ 16
    + (if m.ptpLocked then 2 ^ 20 else 0)

/-- HEALTH (R423). -/
def healthPayload (m : Module) : List Byte :=
  let groups := sumN ((List.range 8).map (fun i => bits (m.liveReg pgCap (CAP_CAP_CFG0 + 4 * i)) 8 4 * 16 ^ i))
  let faults := (pages.filter (fun p => pagePresent m.sys.part p && m.reg p FLT_STAT ≠ 0)).length
  toBytes 4 m.healthState ++ pair32 m.capC ++ toBytes 4 groups
    ++ wordBytes [m.reg pgNetpair NETPAIR_STATUS, m.reg pgNetpair NETPAIR_SWITCH_CNT,
        m.reg pgNetpair NETPAIR_SWITCH_LAST]
    ++ toBytes 4 faults ++ wordBytes [m.reg pgSys SYS_FW_VERSION, m.reg pgEpe EPE_SOLVE_CNT]

/-! ### Answers to requests (R435, R436) -/

/-- A MGMT_RSP is released to its requester. -/
def mgmtSend (m : Module) (k : KeptReq) : Module := m.release 3 6 k.mac 0xFFF 0 k.rsp k.auth

/-- A request is counted, and a BUSY answer too (R445). -/
def mgmtCount (m : Module) (busy : Bool) : Module :=
  let m := m.count pgBenuf ⟨BENUF_MGMT_CNT, 0, 16⟩ 1
  if busy then m.count pgBenuf ⟨BENUF_MGMT_CNT, 16, 16⟩ 1 else m

/-- A request is answered, and its answer kept (R436). STATUS 1 is BUSY. -/
def mgmtAnswer (m : Module) (k : KeptReq) : Module :=
  let m := m.mgmtCount (k.rsp.head? = some 1)
  (m.updBn (fun x => { x with kept := (k :: x.kept).take 32 })).mgmtSend k

/-! ### Joining and leaving (R429 to R431) -/

/-- A frame that the checks let pass bears the module's own number, so it comes from another MAC (R422,
R429). -/
def heardOwn (m : Module) (src : Nat) : Module :=
  if src = m.shelf && src ≠ 0xFFF then m.updBn (fun x => { x with dupHeard := true }) else m

/-- The module belongs in its grove: BENUF and GROVE run, it has a number that it has not yielded, and
PTP is locked (R430). -/
def mayShare (m : Module) : Bool :=
  !m.inSapling && m.en pgBenuf && m.gr.run && m.shelf ≠ 0xFFF && m.ptpLocked && m.get pgBenuf BENUF_STATUS_DUP = 0

/-- GROVE.STATUS.LOCAL follows: no lock, a yielded number, a task in its fallback, or hardware-only service (R30, R117, R269, R429);
the cap in force follows it (R263). In LOCAL the last share is held: what waited to replace it is gone (R117). -/
def groveLocal (m : Module) : Module :=
  let loc := m.gr.run && (!m.mayShare || (m.task 1).fallback || (m.task 10).fallback
    || m.get pgSys SYS_STATUS_FW_LOST = 1)
  let was := m.get pgGrove GROVE_STATUS_LOCAL = 1
  let m := m.put pgGrove GROVE_STATUS_LOCAL (if loc then 1 else 0)
  let m := if loc && !was then
      (m.updGr (fun g => { g with own := none, next := none, rise := none })).raise pgGrove GROVE_EV_LOCAL
    else m
  m.capForce

/-- JOINING starts (R430). -/
def joinStart (m : Module) : Module :=
  let own := m.shelf % 64
  let m := m.put pgBenuf BENUF_STATUS_STATE 1
  let m := m.updBn (fun x => { x with joinMs := 0, leave := 0 })
  let m := ((m.setMemMac own m.ownMac).setMemSt own 1).setMemMax own (m.groveW GROVE_MAX_W_H)
  (m.memCount).sendHello 0

/-- The module leaves: three HELLOs with LEAVING wait to be sent, unless it yields its number (R429,
R431). -/
def leaveStart (m : Module) : Module :=
  let yield := m.get pgBenuf BENUF_STATUS_DUP = 1
  let m := m.updBn (fun x => { x with leave := if yield then 0 else 3, joins := [] })
  let m := m.updGr (fun x => { x with next := none, rise := none, own := none, reports := [] })
  m.memFree (m.shelf % 64)

/-- What joining depends on has changed (R430, R431). -/
def groveUpdate (m : Module) : Module :=
  let st := m.get pgBenuf BENUF_STATUS_STATE
  let inGrove := st = 1 || st = 2
  let m :=
    if m.mayShare then if inGrove then m else m.joinStart
    else
      let m := if inGrove then m.leaveStart else m
      m.put pgBenuf BENUF_STATUS_STATE (if m.en pgBenuf then 3 else 0)
  m.groveLocal

/-- JOIN_T after the first HELLO (R430). -/
def joinEnd (m : Module) : Module :=
  if m.get pgBenuf BENUF_STATUS_STATE ≠ 1 then m
  else
    let m := (m.put pgBenuf BENUF_STATUS_STATE 2).raise pgBenuf BENUF_EV_JOIN_DONE
    (m.raise pgGrove GROVE_EV_SHARING).groveLocal

/-- A change of PTP lock or of a task's fallback reaches the grove. -/
def groveEpoch (m : Module) : Module := if m.gr.run || m.en pgBenuf then m.groveUpdate else m

/-! ### HELLO on receipt (R428, R429, R431) -/

/-- The settings of a HELLO agree with the module's own. -/
def helloFits (m : Module) (f : Hello) : Bool :=
  f.epePeriod = m.cfg pgEpe EPE_CFG_PERIOD && f.canopy = m.flag pgGrove GROVE_CFG_CANOPY_EN
    && (!f.canopy || (f.gmax = m.groveW GROVE_GMAX_H && f.ccap = m.groveW GROVE_CCAP_H))

/-- The last conflict. -/
def noteConflict (m : Module) (own : Bool) (n : Nat) : Module :=
  m.setReg pgBenuf BENUF_CONFLICT (BitVec.ofNat 32 (n % 4096 + (if own then 32768 else 0)))

/-- A HELLO with the module's own number from another MAC (R429). -/
def helloOwn (m : Module) (f : Hello) : Module :=
  let m := (m.heardOwn f.src).noteConflict true f.src
  let age := m.bn.joinMs / 1000
  if age < f.joinAge || (age = f.joinAge && f.mac < m.ownMac) then
    let m := (m.put pgBenuf BENUF_STATUS_DUP 1).latchNow pgBenuf BENUF_FLT_DUP_SHELF
    m.groveUpdate
  else m

/-- A HELLO of the module's own grove for slot `i`. -/
def helloMember (m : Module) (f : Hello) (i : Nat) : Module :=
  let st := m.memSt i
  let same := m.memMac i = f.mac
  if st ≠ 0 && !same then (m.noteConflict false f.src).raise pgBenuf BENUF_EV_CONFLICT
  else
    let m := m.setMemMac i f.mac
    let m := (m.setTbl pgBenuf 0 (4 * i + 2) 0).setTbl pgBenuf 0 (4 * i + 3) (BitVec.ofNat 32 f.joinAge)
    let drop := fun (m : Module) => m.updBn (fun x => { x with joins := x.joins.filter (fun a => a.1 ≠ i) })
    if f.leaving then
      if st = 0 then (drop m).memFree i else ((drop m).setMemSt i 4).memCount
    else if m.helloFits f then
      if st = 1 then m.setMemMax i (max (m.memMax i) f.maxW)
      else
        let m := drop m
        m.updBn (fun x => { x with joins := x.joins ++ [(i, f.maxW)] })
    else
      let m := ((drop m).setMemSt i 3).memCount
      if st = 3 then m else m.raise pgBenuf BENUF_EV_CFG_MISMATCH

/-- A HELLO that passed the checks of R422. -/
def hello (m : Module) (f : Hello) : Module :=
  let own := m.shelf
  if !m.en pgBenuf || own = 0xFFF || f.src / 64 ≠ own / 64 then m
  else if f.src = own then if f.mac = m.ownMac then m else m.helloOwn f
  else m.helloMember f (f.src % 64)

/-- The start of an EPE period (R428, R431): leaving slots are freed, then members admitted. -/
def memPeriod (m : Module) : Module :=
  let m := (List.range 64).foldl (fun m i =>
    if m.memSt i = 4 then
      let again := m.bn.joins.filter (fun a => a.1 = i)
      let mac := m.memMac i
      let m := (m.memFree i).raise pgBenuf BENUF_EV_LEFT
      if again.isEmpty then m
      else (m.setMemMac i mac).updBn (fun x => { x with joins := x.joins ++ again })
    else m) m
  let as := m.bn.joins
  as.foldl (fun m a => m.memAdmit a.1 a.2) (m.updBn (fun x => { x with joins := [] }))

/-- Each ms: ages of the members, of the kept requests and of the duplicate table, and the time since
JOINING began (R392, R423, R436, R446). -/
def netMs (m : Module) : Module :=
  let m := m.updBn (fun x => { x with
    joinMs := x.joinMs + 1,
    kept := (x.kept.map (fun k => { k with age := k.age + 1 })).filter (fun k => k.age < 1000) })
  let m := m.updNet (fun n => { n with dup := n.dup.map (fun d => { d with age := min 65535 (d.age + 1) }) })
  if m.sched.frame % 100 ≠ 0 then m
  else (List.range 64).foldl (fun m i =>
    if m.memSt i = 0 then m
    else
      let w := m.tbl pgBenuf 0 (4 * i + 2)
      m.setTbl pgBenuf 0 (4 * i + 2) (setBits w 0 16 (min 65535 (bits w 0 16 + 1)))) m

end Module

/-- HELLO_RECEIVED (R428). -/
def execHelloReceived (f : Hello) (s : State) : Host.Outcome State Fault Refusal :=
  actLive s (fun m => m.hello f)

/-- HELLO_SEND (R430). -/
def execHelloSend (s : State) : Host.Outcome State Fault Refusal :=
  actLive s (fun m =>
    if m.get pgBenuf BENUF_STATUS_STATE = 1 || m.get pgBenuf BENUF_STATUS_STATE = 2 then m.sendHello 0 else m)

/-- JOIN_DONE (R430). -/
def execJoinDone (s : State) : Host.Outcome State Fault Refusal := actLive s (fun m => m.joinEnd)

/-- LEAVING_HELLO (R431). -/
def execLeavingHello (s : State) : Host.Outcome State Fault Refusal :=
  actLive s (fun m =>
    if m.bn.leave = 0 then m
    else (m.sendHello 4).updBn (fun x => { x with leave := x.leave - 1 }))

/-- MEMBER_DROP (R431). -/
def execMemberDrop (mem : Nat) (s : State) : Host.Outcome State Fault Refusal :=
  actAt mem (fun _ => 64) s (fun m =>
    if m.cfg pgBenuf BENUF_HELLO_CFG_DROP_T = 0 || m.memSt mem = 0 || mem = m.shelf % 64 then m
    else (m.memFree mem).raise pgBenuf BENUF_EV_LEFT)

/-- DUP_SHELF_GONE (R429). -/
def execDupShelfGone (s : State) : Host.Outcome State Fault Refusal :=
  actLive s (fun m => m.updBn (fun x => { x with dupHeard := false }))

/-- HEALTH_SEND (R425). -/
def execHealthSend (s : State) : Host.Outcome State Fault Refusal :=
  actLive s (fun m => if m.en pgBenuf then m.release 2 10 macAll 0xFFF 0 m.healthPayload false else m)

end Sys2Proof.Machine
end

