-- ==== Sys2Proof/Machine/Grove.lean ====
section
/-! DEFINITION. The grove exchange and the canopy (R269 to R276). -/

namespace Sys2Proof.Machine

/-- What one claimant has after the classes that are served whole (R272): classes in order, `r` what is
left. The answer gives each counted claimant's allocation, what is left, and whether it ended inside
a class. `d` and `f` are already bounded by `M`. -/
def allocClasses (cs : List Counted) : List Nat → Nat → List (Nat × Nat) → List (Nat × Nat) × Nat × Bool
  | [], r, x => (x, r, false)
  | p :: ps, r, x =>
    let mine := cs.filter (fun c => c.prio = p)
    let n := sumN (mine.map (fun c => c.d - c.f))
    if n = 0 then allocClasses cs ps r x
    else if n ≤ r then
      allocClasses cs ps (r - n) (x.map (fun y =>
        match mine.find? (fun c => c.who = y.1) with | some c => (y.1, c.d) | none => y))
    else
      (x.map (fun y => match mine.find? (fun c => c.who = y.1) with
        | some c => (y.1, c.f + (c.d - c.f) * r / n) | none => y), 0, true)

/-- The allocation of R272: the cap, the declared maxima of the claimants that were missed, and the
counted ones. -/
def allocate (cap : Nat) (missed : List Nat) (cs : List Counted) : List (Nat × Nat) :=
  let c := missed.foldl (fun c w => c - w) cap
  let cs := cs.map (fun a => let f := min a.f a.mx; { a with f := f, d := max f (min a.d a.mx) })
  let sf := sumN (cs.map (·.f))
  if c < sf then cs.map (fun a => (a.who, a.f * c / sf))
  else
    let (x, r, ended) := allocClasses cs (List.range 8) (c - sf) (cs.map (fun a => (a.who, a.f)))
    if ended then x
    else
      let room := fun (y : Nat × Nat) =>
        match cs.find? (fun a => a.who = y.1) with | some a => a.mx - y.2 | none => 0
      let h := sumN (x.map room)
      if h = 0 || r = 0 then x else x.map (fun y => (y.1, y.2 + room y * min r h / h))

/-- An allocation's entry. -/
def allocOf (x : List (Nat × Nat)) (who : Nat) : Nat :=
  match x.find? (fun y => y.1 = who) with | some y => y.2 | none => 0

namespace Module

/-! ### Reports (R270, R271) -/

/-- DEMAND_W (R270): the module's MAX_W while V_bus is not valid (R250). -/
def demandW (m : Module) : Nat × Module :=
  let chg := sumN (m.strings.map m.chgAsk)
  let eff := m.val pgCap CAP_CAP_EFF
  match m.vbusNow with
  | none => (m.groveW GROVE_MAX_W_H, m)
  | some v =>
    if eff = 0 then
      let (x, m) := m.draw 9
      (x % 16777215, m)
    else (min 16777214 ((m.ep.dLoad + chg) * v * 65536 / (eff * 100000)), m)

/-- The module is out of grove sharing (R117, R263). -/
def inLocal (m : Module) : Bool := m.get pgGrove GROVE_STATUS_LOCAL = 1

/-- The FLAGS of a report. -/
def shareFlags (m : Module) : Nat :=
  m.get pgGrove GROVE_STATUS_LOCAL + (if m.crossing then 2 else 0) + (if m.cp.qual then 4 else 0)
    + (if m.get pgEpe EPE_STATUS_DEFICIT = 1 then 8 else 0)

/-- The SHARE frame of a period (R270, R424), sent `late` × 100 ns after its start. -/
def sharePayload (m : Module) (d late : Nat) : List Byte :=
  let num := m.get pgPlace PLACE_POINTS_NUMBERED
  let nb := ceilDiv num 256
  let blk := if nb = 0 then 0 else m.epePeriodNo % nb
  let cnt := min 256 (num - 256 * blk)
  pair32 d ++ pair32 (m.groveW GROVE_FLOOR_W_H) ++ pair32 (m.groveW GROVE_MAX_W_H)
    ++ pair16 (m.cfg pgGrove GROVE_CFG_PRIO * 8192) ++ pair16 m.shareFlags ++ pair16 (min 65535 late)
    ++ toBytes 1 blk ++ toBytes 1 0 ++ toBytes 2 cnt
    ++ wordBytes ((List.range cnt).map (fun i =>
        m.pointVal (bits (m.tbl pgPlace 0 (256 * blk + i)) 16 16)))

/-- A report received (R271, R428). -/
def shareIn (m : Module) (f : ShareRpt) : Module :=
  let m := if m.en pgBenuf then m.heardOwn f.src else m
  if !m.en pgBenuf || !m.ptpLocked || m.shelf = 0xFFF || f.src / 64 ≠ m.shelf / 64 || f.src = m.shelf then m
  else
    let i := f.src % 64
    if m.memSt i ≠ 1 then m.count pgBenuf ⟨BENUF_RX_BAD2, 16, 16⟩ 1
    else
      if !f.good || f.period ≠ m.epePeriodNo || 4000 < f.sendOfs || 600 < f.arrival
          || m.gr.reports.any (fun c => c.who = i) then m
      else
        let m := m.setMemMax i (max (m.memMax i) f.maxW)
        m.updGr (fun x => { x with reports := x.reports ++ [⟨i, f.demand, f.floor, m.memMax i, f.prio, i⟩] })

/-! ### The allocation of a period (R272 to R274) -/

/-- The grove cap in force (R272, R276). -/
def groveCap (m : Module) : Nat :=
  if m.flag pgGrove GROVE_CFG_CANOPY_EN then m.gr.gcap.getD 0 else m.groveW GROVE_GCAP_H

/-- 600 µs into the period (R272). The module's own report counts always (R271). -/
def groveCut (m : Module) : Module :=
  if !m.gr.run || !m.mayShare then m.updGr (fun x => { x with reports := [] })
  else
    let m := m.usePairs pgGrove [GROVE_FLOOR_W_H, GROVE_FLOOR_W_L, GROVE_MAX_W_H, GROVE_MAX_W_L, GROVE_GCAP_H,
      GROVE_GCAP_L]
    let own := m.shelf % 64
    let (d, m) := m.demandW
    let m := m.setMemMax own (max (m.memMax own) (m.groveW GROVE_MAX_W_H))
    let me : Counted := ⟨own, d, m.groveW GROVE_FLOOR_W_H, m.memMax own, m.cfg pgGrove GROVE_CFG_PRIO, own⟩
    let cs := m.gr.reports.filter (fun c => m.memIn c.who) ++ [me]
    let cs := (List.range 64).filterMap (fun i => cs.find? (fun c => c.who = i))
    let missed := (List.range 64).filter (fun i => m.memIn i && !cs.any (fun c => c.who = i))
    let x := allocate m.groveCap (missed.map m.memMax) cs
    let m := (List.range 64).foldl (fun m i =>
      let base := (if m.memIn i then 2 ^ 30 else 0)
      match cs.find? (fun c => c.who = i) with
      | some c =>
        let m := m.setTbl pgGrove 0 (4 * i) (BitVec.ofNat 32 (c.d % 2 ^ 24 + base + 2 ^ 31))
        let m := m.setTbl pgGrove 0 (4 * i + 1) (BitVec.ofNat 32 (c.f % 2 ^ 24))
        m.setTbl pgGrove 0 (4 * i + 3) (BitVec.ofNat 32 (allocOf x i % 2 ^ 24 + c.prio % 8 * 2 ^ 24))
      | none =>
        if m.memIn i then
          (m.setTbl pgGrove 0 (4 * i) (BitVec.ofNat 32 base)).setTbl pgGrove 0 (4 * i + 3) 0
        else m) m
    let m := m.put pgGrove GROVE_STATUS_COUNTED cs.length
    let m := m.put pgGrove GROVE_STATUS_MISSED missed.length
    let m := if missed.isEmpty then m
      else (m.countReg pgGrove GROVE_MISS_CNT missed.length).raise pgGrove GROVE_EV_MISSED
    let m := m.updGr (fun y => { y with reports := [] })
    if m.inLocal then m else m.updGr (fun y => { y with own := some (allocOf x own) })

/-- The share in force changes. -/
def setShare (m : Module) (x : Nat) : Module :=
  ((m.updGr (fun g => { g with share := some x })).setReg pgGrove GROVE_SHARE_W (BitVec.ofNat 32 x)).capForce

/-- The GROVE task sends its report in its period, `late` × 100 ns after the start (R270, R271). -/
def groveSend (m : Module) (late : Nat) : Module :=
  if !m.gr.run || !m.mayShare || (m.task 1).fallback then m
  else
    let (d, m) := m.demandW
    let m := m.release 0 2 macAll 0xFFF 0 (m.sharePayload d late) false
    m.sentOfs late

/-- The GROVE task commits (R274): the share falls at the next period start or rises after RISE_DELAY;
in LOCAL the last one is held (R117). -/
def groveCommit (m : Module) : Module :=
  if !m.gr.run || !m.mayShare || m.inLocal then m
  else
    match m.gr.own with
    | none => m
    | some x =>
      let up := match m.gr.share with | some s => decide (s < x) | none => false
      m.updGr (fun g => { g with own := none, next := if up then none else some x, rise := if up then some x else none })

/-- GCAP_NOW reports the grove cap in force (R282). -/
def gcapNow (m : Module) : Module :=
  m.setReg pgGrove GROVE_GCAP_NOW (BitVec.ofNat 32 (if m.gr.run then m.groveCap else 0))

/-- The start of an EPE period: what waits applies (R274, R282, R428). -/
def groveStart (m : Module) : Module :=
  let m := (m.boundary pgGrove).memPeriod.gcapNow
  match m.gr.next with
  | some x => (m.updGr (fun g => { g with next := none })).setShare x
  | none => m

/-- RISE_DELAY after the period start (R274). -/
def shareUp (m : Module) : Module :=
  match m.gr.rise with
  | some x => (m.updGr (fun g => { g with rise := none })).setShare x
  | none => m

/-! ### The canopy (R275, R276) -/

/-- The first admitted member at or after `q`, wrapping. -/
def sumMember (m : Module) (q : Nat) : Option Nat :=
  ((List.range 64).map (fun i => (q + i) % 64)).find? (fun i => m.memSt i = 1)

/-- The module's own grove in this period: demand, floor (R275). -/
def groveSums (m : Module) : Nat × Nat :=
  let ms := (List.range 64).filter m.memIn
  (sumN (ms.map (fun i =>
      let w := m.tbl pgGrove 0 (4 * i)
      if bit w 31 then bits w 0 24 else m.memMax i)),
    sumN (ms.map (fun i => if bit (m.tbl pgGrove 0 (4 * i)) 31 then bits (m.tbl pgGrove 0 (4 * i + 1)) 0 24 else 0)))

/-- A SUMMARY received (R275). -/
def sumIn (m : Module) (f : SumRpt) : Module :=
  let g := f.src / 64
  if !m.en pgBenuf || !m.ptpLocked || !m.flag pgGrove GROVE_CFG_CANOPY_EN || !f.good || f.period ≠ m.tenMs
      || 20000 < f.sendOfs || 3000 < f.arrival
      || m.gr.sums.any (fun c => c.who = g && c.src = f.src % 64) then m
  else m.updGr (fun x => { x with sums := x.sums ++ [⟨g, f.sumD, f.sumF, f.gmax, 0, f.src % 64⟩] })

/-- The summary of grove `g` that is used: the expected sender's, else the lowest member's. -/
def sumPick (m : Module) (ss : List Counted) (g : Nat) : Option Counted :=
  let q := m.tenMs % 64
  let want := if g = m.shelf / 64 then (m.sumMember q).getD q else q
  let mine := ss.filter (fun c => c.who = g)
  match mine.find? (fun c => c.src = want) with
  | some c => some c
  | none => (List.range 64).findSome? (fun i => mine.find? (fun c => c.src = i))

/-- The canopy's allocation (R276). -/
def canopyCut (m : Module) : Module :=
  if !m.gr.run || !m.mayShare || !m.flag pgGrove GROVE_CFG_CANOPY_EN then
    m.updGr (fun x => { x with sums := [] })
  else
    let m := m.usePairs pgGrove [GROVE_CCAP_H, GROVE_CCAP_L, GROVE_GMAX_H, GROVE_GMAX_L]
    let own := m.shelf / 64
    let gmax := m.groveW GROVE_GMAX_H
    let (d, f) := m.groveSums
    let ss := m.gr.sums ++
      (if m.sumMember (m.tenMs % 64) = some (m.shelf % 64) then [⟨own, d, f, gmax, 0, m.shelf % 64⟩] else [])
    let cs := (List.range 64).filterMap (m.sumPick ss)
    let m := m.updGr (fun x => { x with
      sums := [],
      groves := cs.foldl (fun gs c => insKey gs c.who) (insKey x.groves own) })
    let missed := m.gr.groves.filter (fun g => !cs.any (fun c => c.who = g))
    let x := allocate (m.groveW GROVE_CCAP_H) (missed.map (fun _ => gmax)) cs
    let m := (List.range 64).foldl (fun m g =>
      match cs.find? (fun c => c.who = g) with
      | some c =>
        let m := m.setTbl pgGrove 1 (4 * g) (BitVec.ofNat 32 (c.d % 2 ^ 24 + 2 ^ 31))
        let m := m.setTbl pgGrove 1 (4 * g + 1) (BitVec.ofNat 32 (c.f % 2 ^ 24))
        let m := m.setTbl pgGrove 1 (4 * g + 2) (BitVec.ofNat 32 (c.mx % 2 ^ 24))
        m.setTbl pgGrove 1 (4 * g + 3) (BitVec.ofNat 32 (allocOf x g % 2 ^ 24))
      | none =>
        let m := m.setTbl pgGrove 1 (4 * g) 0
        if m.gr.groves.contains g then m.setTbl pgGrove 1 (4 * g + 2) (BitVec.ofNat 32 gmax) else m) m
    if cs.any (fun c => c.who = own) then
      let new := allocOf x own
      let up := match m.gr.gcap with | some c => decide (c < new) | none => false
      m.updGr (fun y => { y with gnext := if up then none else some new, grise := if up then some new else none })
    else m

/-- A grove cap goes into force. -/
def setGroveCap (m : Module) (x : Nat) : Module :=
  (m.updGr (fun g => { g with gcap := some x })).gcapNow

/-- The start of a 10 ms period (R276). -/
def canopyStart (m : Module) : Module :=
  match m.gr.gnext with
  | some x => (m.updGr (fun g => { g with gnext := none })).setGroveCap x
  | none => m

/-- The canopy cap that waits for RISE_DELAY (R276). -/
def canopyUp (m : Module) : Module :=
  match m.gr.grise with
  | some x => (m.updGr (fun g => { g with grise := none })).setGroveCap x
  | none => m

/-- The CANOPY task sends SUMMARY in its period, where this is the summary member (R275). -/
def canopySend (m : Module) (late : Nat) : Module :=
  if !m.gr.run || !m.mayShare || (m.task 10).fallback || !m.flag pgGrove GROVE_CFG_CANOPY_EN
      || m.sumMember (m.tenMs % 64) ≠ some (m.shelf % 64) then m
  else
    let (d, f) := m.groveSums
    m.release 0 3 macAll 0xFFF 0
      (pair32 (min d (2 ^ 32 - 1)) ++ pair32 (min f (2 ^ 32 - 1)) ++ pair32 (m.groveW GROVE_GMAX_H)
        ++ pair16 (min 65535 late)) false

/-! ### EN (R269) -/

/-- Why the exchange does not start, 0 when it does. -/
def groveRefusal (m : Module) : Nat :=
  if m.cfg pgEpe EPE_CFG_PERIOD < 6 then 1
  else if m.groveW GROVE_MAX_W_H = 0 then 2
  else if m.groveW GROVE_GCAP_H = 0 && !m.flag pgGrove GROVE_CFG_CANOPY_EN then 3
  else 0

/-- EN goes from 0 to 1. -/
def groveOn (m : Module) : Module :=
  let why := m.groveRefusal
  let m := m.put pgGrove GROVE_STATUS_REFUSE why
  if why ≠ 0 then m.raise pgGrove GROVE_EV_START_REFUSED
  else (m.updGr (fun _ => { run := true })).groveUpdate.gcapNow

/-- EN goes from 1 to 0: the module leaves (R431). -/
def groveOff (m : Module) : Module :=
  let m := (m.updGr (fun g => { g with run := false, share := none })).groveUpdate
  ((m.applyOnStop pgGrove).setReg pgGrove GROVE_SHARE_W 0).gcapNow

end Module

/-- SHARE_RECEIVED (R271). -/
def execShareReceived (f : ShareRpt) (s : State) : Host.Outcome State Fault Refusal :=
  actLive s (fun m => m.shareIn f)

/-- SUMMARY_RECEIVED (R275). -/
def execSummaryReceived (f : SumRpt) (s : State) : Host.Outcome State Fault Refusal :=
  actLive s (fun m => m.sumIn f)

/-- GROVE_CUTOFF (R272). -/
def execGroveCutoff (s : State) : Host.Outcome State Fault Refusal := actLive s (fun m => m.groveCut)

/-- SHARE_RISE (R274, R276): RISE_DELAY of the share's rise, or of the canopy's, has passed. -/
def execShareRise (canopy : Bool) (s : State) : Host.Outcome State Fault Refusal :=
  actLive s (fun m => if canopy then m.canopyUp else m.shareUp)

/-- CANOPY_CUTOFF (R276). -/
def execCanopyCutoff (s : State) : Host.Outcome State Fault Refusal := actLive s (fun m => m.canopyCut)

end Sys2Proof.Machine
end

