-- ==== Sys2Proof/Machine/Ptp.lean ====
section
/-! DEFINITION. PTP (R438 to R444): the servo port, lock and its loss, the timebase at a lock (R110 to
R112), PPS_OUT and time anchors (R521). -/

namespace Sys2Proof.Machine

namespace Module

def updPt (m : Module) (f : Ptp → Ptp) : Module := { m with pt := f m.pt }
def ptpSel (m : Module) : Nat := m.get pgPtp PTP_STATUS_SEL

/-! ### Time anchors (R521, R524, R528) -/

/-- A TIME_ANCHOR record for a TAI time, `us` into the ms of its header: none without lock. The first one since DEPLOYED goes to the
Root log. -/
def anchor (m : Module) (s ns us reason : Nat) : Module :=
  if !m.ptpLocked then m
  else
    let mark := (m.sys.life = 2 || m.sys.life = 3) && !m.rc.anchorMarked && m.rc.rootUsed < 512
    let m := if mark then { m with rc := { m.rc with anchorMarked := true } } else m
    m.recMake 0x0004 0xFFFF 29 0
      (toBytes 6 s ++ toBytes 4 ns ++ toBytes 2 (us % 1000) ++ wordBytes [m.reg pgPtp PTP_OFFSET]
        ++ wordBytes [m.reg pgPtp PTP_GM_ID_H, m.reg pgPtp PTP_GM_ID_L] ++ toBytes 1 reason ++ toBytes 4 0) mark

/-- An anchor at a time of the timebase. -/
def anchorNow (m : Module) (reason : Nat) : Module :=
  m.anchor (m.sched.frame / 1000) (m.sched.frame % 1000 * 1000000) 0 reason

/-! ### The timebase (R111, R112) -/

/-- The timebase is compared with TAI, `tai` ns at CORE cycle `cyc` of the major frame (R111): up to 500 µs
it slews; a larger offset it steps at the next major frame, to the TAI ms in which that frame begins (DESIGN
CHOICE, log entry 140), or slews where no step is allowed. -/
def tbLock (m : Module) (tai : Nat) (cyc : Nat) : Module :=
  if !m.tbPtp then m
  else
    let m := { m with sched := { m.sched with tbAsk := false } }.put pgSched SCHED_TB_STAT_SRC 2
    let ofs : Int := 2 * (tai : Int) - (2 * 1000000 * (m.sched.frame : Int) + 5 * (cyc : Int))
    if ofs.natAbs ≤ 1000000 || !m.flag pgSched SCHED_TB_CFG_STEP_EN then
      let m := { m with sched := { m.sched with stepTo := none, slew := roundDiv ofs 2 } }
      m.put pgSched SCHED_TB_STAT_SLEWING (if roundDiv ofs 2 = 0 then 0 else 1)
    else
      { m with sched := { m.sched with
          stepTo := some ((2 * (tai + 1000000) - 5 * cyc) / 2000000), slew := 0 } }.put pgSched SCHED_TB_STAT_SLEWING 0

/-- TAI of a message in ns. -/
def taiOf (x : PtpMsg) : Nat := x.taiS * 1000000000 + x.taiNs

/-- Each major frame of a slew: 200 ppm of it (R111). -/
def tbSlew (m : Module) : Module :=
  if m.sched.slew = 0 then m
  else
    let s := if 0 < m.sched.slew then max 0 (m.sched.slew - 200) else min 0 (m.sched.slew + 200)
    let m := { m with sched := { m.sched with slew := s } }
    if s = 0 then m.put pgSched SCHED_TB_STAT_SLEWING 0 else m

/-! ### PPS_OUT (R442) -/

/-- PPS_OUT carries pulses: EN, and lock or FREE. -/
def ppsRuns (m : Module) : Bool :=
  m.flag pgPtp PTP_PPS_CFG_EN && (m.ptpLocked || m.flag pgPtp PTP_PPS_CFG_FREE)

/-- PPS_OUT may be driven: in service, and not failed when it was adopted (R56, R62). -/
def ppsDrives (m : Module) : Bool := m.inService && !bit (m.reg pgSys SYS_OUT_FAIL1) 17

/-- The level outside a pulse: high-impedance with EN at 0, low otherwise. -/
def ppsIdle (m : Module) : Module :=
  if !m.ppsDrives then m
  else if !m.flag pgPtp PTP_PPS_CFG_EN then { m with pin := { m.pin with pps := .z } }
  else if m.ppsRuns then
    { m with pin := { m.pin with pps := if m.pin.pps = .high then .high else .low } }
  else { m with pin := { m.pin with pps := .low } }

/-! ### Lock (R439 to R441) -/

/-- Lock is lost. -/
def ptpLose (m : Module) : Module :=
  let m := m.updPt (fun x => { x with good := 0, bad := 0 })
  if !m.ptpLocked then m
  else
    let m := m.put pgPtp PTP_STATUS_LOCKED 0
    let m := (m.count pgPtp ⟨PTP_LOCK_CNT, 16, 16⟩ 1).raise pgPtp PTP_EV_LOST
    let m := (m.fault pgPtp PTP_FLT_LOST 0 (rkey pgPtp FLT_WIN)).1
    let m := (m.tbUpdate (m.get pgSched SCHED_TB_STAT_SRC = 2)).tbLeave
    (m.groveEpoch).ppsIdle

/-- Lock is reached. -/
def ptpLock (m : Module) (x : PtpMsg) : Module :=
  let m := m.put pgPtp PTP_STATUS_LOCKED 1
  let m := (m.count pgPtp ⟨PTP_LOCK_CNT, 0, 16⟩ 1).raise pgPtp PTP_EV_LOCKED
  let m := m.anchor x.taiS x.taiNs (x.cyc / 400) 1
  ((m.tbLock (taiOf x) x.cyc).groveEpoch).ppsIdle

/-- A port can carry the servo: enabled, UP, with a master. -/
def ptpPortOk (m : Module) (p : Nat) : Bool :=
  bit (m.liveReg pgPtp PTP_CFG) (10 + p) && m.portUp p && nth false m.pt.master p

/-- The servo goes to port `p` (R439): offsets further apart than LOCK_THR make a new lock. -/
def ptpSwitch (m : Module) (p : Nat) (tai : Option PtpMsg) : Module :=
  if m.ptpSel = p then m
  else
    let m := (m.put pgPtp PTP_STATUS_SEL p).raise pgPtp PTP_EV_PORT_SWITCH
    let far := m.cfg pgPtp PTP_LOCK_CFG_LOCK_THR < (nth 0 m.pt.ofs 0 - nth 0 m.pt.ofs 1).natAbs
    let m := match tai with
      | some x => m.anchor x.taiS x.taiNs (x.cyc / 400) 4
      | none => m.anchorNow 4
    if far && m.ptpLocked then
      match tai with
      | some x => m.tbLock (taiOf x) x.cyc
      | none => { m with sched := { m.sched with tbAsk := true } }
    else m

/-- The servo port follows: `best` when it can carry the servo, else the other one; lock is lost when
neither has a master. -/
def ptpChoose (m : Module) (best : Nat) (tai : Option PtpMsg) : Module :=
  let b := if best = 1 then 1 else 0
  if m.ptpPortOk b then m.ptpSwitch b tai
  else if m.ptpPortOk (1 - b) then m.ptpSwitch (1 - b) tai
  else m.ptpLose

/-- A port has lost its master or its link (R439). -/
def ptpPortLost (m : Module) (p : Nat) : Module :=
  if !m.en pgPtp then m
  else
    let m := m.updPt (fun x => { x with master := upd x.master p (fun _ => false) })
    if m.ptpSel = p then m.ptpChoose (1 - p) none else m

/-- A Sync interval of the servo port ends with an offset (R440). -/
def ptpJudge (m : Module) (x : PtpMsg) : Module :=
  let m := m.boundary pgPtp
  let m := m.setReg pgPtp PTP_OFFSET (BitVec.ofInt 32 (satInt 32 x.offset))
  let a := x.offset.natAbs
  let ok := decide (a ≤ m.cfg pgPtp PTP_LOCK_CFG_LOCK_THR)
  let far := decide (100 * m.cfg pgPtp PTP_LOCK_CFG_UNLOCK_THR < a)
  let m := m.updPt (fun y => { y with
    good := if ok then min 255 (y.good + 1) else 0, bad := if far then min 2 (y.bad + 1) else 0 })
  if !m.ptpLocked then
    if ok && m.cfg pgPtp PTP_LOCK_CFG_LOCK_N ≤ m.pt.good then m.ptpLock x else m
  else if m.pt.bad = 2 then m.ptpLose
  else if m.sched.tbAsk then m.tbLock (taiOf x) x.cyc
  else m

/-- A PTP message on an enabled port that is UP (R438). -/
def ptpMessage (m : Module) (x : PtpMsg) : Module :=
  let p := if x.port = 1 then 1 else 0
  if !m.en pgPtp || !bit (m.liveReg pgPtp PTP_CFG) (10 + p) || !m.portUp p then m
  else
    let m := m.put pgPtp (if p = 0 then PTP_STATUS_STATE_A else PTP_STATUS_STATE_B) x.portState
    let m := m.setReg pgPtp (if p = 0 then PTP_DELAY_A else PTP_DELAY_B) (BitVec.ofNat 32 (min x.delay (2 ^ 32 - 1)))
    let m := m.updPt (fun y => { y with
      master := upd y.master p (fun _ => x.portState = 8 || x.portState = 9),
      ofs := if x.sync then upd y.ofs p (fun _ => x.offset) else y.ofs })
    let m := m.ptpChoose x.bestPort (some x)
    if m.ptpSel ≠ p || !m.ptpPortOk p then m
    else
      let hi := BitVec.ofNat 32 (x.gm / 2 ^ 32)
      let lo := BitVec.ofNat 32 x.gm
      let m := if m.reg pgPtp PTP_GM_ID_H = hi && m.reg pgPtp PTP_GM_ID_L = lo then m
        else ((m.setReg pgPtp PTP_GM_ID_H hi).setReg pgPtp PTP_GM_ID_L lo).raise pgPtp PTP_EV_GM_CHANGE
      if x.sync then m.ptpJudge x else m

/-- EN goes from 1 to 0 (R443). -/
def ptpStop (m : Module) : Module :=
  let m := m.updPt (fun _ => {})
  let m := (m.put pgPtp PTP_STATUS_STATE_A 0).put pgPtp PTP_STATUS_STATE_B 0
  (m.ptpLose).applyOnStop pgPtp

end Module

/-- PTP_MESSAGE (R440). -/
def execPtpMessage (x : PtpMsg) (s : State) : Host.Outcome State Fault Refusal :=
  actLive s (fun m => m.ptpMessage x)

/-- ANNOUNCE_TIMEOUT (R439). -/
def execAnnounceTimeout (p : Nat) (s : State) : Host.Outcome State Fault Refusal :=
  actAt p (fun _ => 2) s (fun m => m.ptpPortLost p)

/-- PPS_EDGE (R442). -/
def execPpsEdge (rise : Bool) (s : State) : Host.Outcome State Fault Refusal :=
  actLive s (fun m =>
    if !m.ppsDrives || !m.en pgPtp then m
    else if m.ppsRuns then { m with pin := { m.pin with pps := if rise then .high else .low } }
    else m.ppsIdle)

/-- SYNC_INTERVAL (R438): a slave asks for its delay; a master sends Sync, Follow_Up and Announce; with
peer delay each port asks its peer. -/
def execSyncInterval (p : Nat) (s : State) : Host.Outcome State Fault Refusal :=
  actAt p (fun _ => 2) s (fun m =>
    if !m.en pgPtp || !bit (m.liveReg pgPtp PTP_CFG) (10 + p) || !m.portUp p then m
    else
      let st := m.get pgPtp (if p = 0 then PTP_STATUS_STATE_A else PTP_STATUS_STATE_B)
      let peer := m.flag pgPtp PTP_CFG_DELAY
      let n := (if st = 6 then 3 else 0) + (if peer || st = 8 || st = 9 then 1 else 0)
      m.setReg (pgNet + p) NET_TX_FRAMES (m.reg (pgNet + p) NET_TX_FRAMES + BitVec.ofNat 32 n))

/-- ANCHOR_INTERVAL (R521): every ANCHOR_INT while locked. -/
def execAnchorInterval (s : State) : Host.Outcome State Fault Refusal :=
  actLive s (fun m =>
    let m := m.boundary pgRec
    if m.cfg pgRec REC_CFG_ANCHOR_INT = 0 then m else m.anchorNow 2)

end Sys2Proof.Machine
end

