-- ==== Sys2Proof/Machine/Net.lean ====
section
/-! DEFINITION. The ports, the duplicate table, the merge unit (R385 to R396, R410 to R413), and the
checks that a received Benuf frame passes (R422). -/

namespace Sys2Proof.Machine

/-- A field of a frame, most significant byte first. -/
def fld (bs : List Byte) (i n : Nat) : Nat := ofBytes ((bs.drop i).take n)

/-- The multicast groups of PTP (R438) and of the redundancy supervision (R390). -/
def macPtp : List Nat := [0x011B19000000, 0x0180C200000E]
def macSup : Nat := 0x01154E0001

/-- The trailer of a frame (R389, R392): sequence and LAN identifier, when its last six bytes form a
valid one. -/
def trailerOf (bs : List Byte) : Option (Nat × Nat) :=
  let n := bs.length
  let t := n - 6
  let lan := fld bs (t + 2) 2 / 4096
  if 20 ≤ n && fld bs (t + 4) 2 = 0x88FB && (lan = 10 || lan = 11) && fld bs (t + 2) 2 % 4096 = (n - 14) % 4096 then
    some (fld bs t 2, lan)
  else none

/-- A Benuf frame taken apart: header offset, type, flags, SRC, DST, PERIOD, LEN. -/
structure Parsed where
  at' : Nat
  typ : Nat
  flags : Nat
  src : Nat
  dst : Nat
  period : Nat
  len : Nat
  deriving DecidableEq, Repr

/-- Where the Benuf header of a frame begins. -/
def headerAt (bs : List Byte) : Nat := if fld bs 12 2 = 0x8100 then 18 else 14

/-- Whether LEN fits a type (R420; DEDUCED, log entry 148: a payload of another size than its type's does not
match the frame). A MGMT_REQ of any size is answered (R434). -/
def lenFits (typ len : Nat) : Bool :=
  match typ with
  | 1 => len = 52
  | 2 => 40 ≤ len && len ≤ 1064 && len % 4 = 0
  | 3 => len = 28
  | 4 => len = 24
  | 5 => true
  | 6 => 8 ≤ len && len % 4 = 0
  | 7 => 9 ≤ len && len ≤ 1032
  | 8 => 72 ≤ len && len ≤ 1032 && (len - 8) % 64 = 0
  | 9 => len = 68
  | 10 => len = 40
  | _ => false

/-- The offsets in the payload of the 4-byte pairs of a type (R423). -/
def pairsOf (typ : Nat) : List Nat :=
  match typ with
  | 1 => [16, 20, 24, 28, 32, 36].map (· + 8)
  | 2 => (List.range 9).map (4 * ·)
  | 3 => (List.range 7).map (4 * ·)
  | 4 => (List.range 6).map (4 * ·)
  | 10 => [4, 8]
  | _ => []

namespace Module

/-! ### Ports (R385 to R388) -/

/-- A port goes DOWN (R386). -/
def linkDown (m : Module) (p : Nat) : Module :=
  if !m.portUp p then m
  else
    let pg := pgNet + p
    let m := (m.put pg NET_STATUS_UP 0).put pg NET_STATUS_SYNC 0
    let m := (m.put pg NET_STATUS_AN_DONE 0).put pg NET_STATUS_LP_FD 0
    let m := (m.countReg pg NET_LINK_CNT 1).raise pg NET_EV_LINK_DOWN
    ((m.fault pg NET_FLT_LINK 0 (rkey pg FLT_WIN)).1).ptpPortLost p

/-- A port comes UP: synchronisation has held for 10 ms, and negotiation has completed where it is in
use. -/
def linkUp (m : Module) (p : Nat) (an fd : Bool) : Module :=
  let pg := pgNet + p
  let speed := m.cfg pg NET_CFG_SPEED
  let use := m.flag pg NET_CFG_AN && speed = 0
  if !m.en pg || m.clk.lost.contains (4 + p) || (use && !an) || m.portUp p then m
  else
    let m := (m.put pg NET_STATUS_UP 1).put pg NET_STATUS_SYNC 1
    let m := m.put pg NET_STATUS_AN_DONE (if use then 1 else 0)
    let m := m.put pg NET_STATUS_LP_FD (if use && fd then 1 else 0)
    let m := m.put pg NET_STATUS_SPEED_NOW speed
    let m := m.put pg NET_STATUS_EQ_NOW (m.cfg pg NET_CFG_RX_EQ)
    m.raise pg NET_EV_LINK_UP

/-- EN of a port goes to 0: electrical idle (R410). -/
def netStop (m : Module) (p : Nat) : Module := (m.linkDown p).applyOnStop (pgNet + p)

/-- A destination that the port accepts (R387). -/
def daOk (m : Module) (da : Nat) : Bool :=
  da = m.ownMac || da = macAll || (m.en pgPtp && macPtp.contains da)
    || (da / 256 = macSup && m.cfg pgNetpair NETPAIR_CFG_LIFE_CHECK ≠ 0)

/-- A frame arrives on a port (R385 to R388, R408). -/
def frameIn (m : Module) (p : Nat) (bs : List Byte) (fcsOk : Bool) : Module :=
  let pg := pgNet + p
  if !m.portUp p then m
  else if !fcsOk then m.countReg pg NET_FCS_ERR 1
  else if 1536 < bs.length + 4 || !m.daOk (fld bs 0 6) then m.count pg ⟨NET_RX_DROP, 16, 16⟩ 1
  else if m.net.rebuild then m.count pg ⟨NET_RX_DROP, 0, 16⟩ 1
  else if 32 ≤ (nth [] m.net.rxq p).length then
    (m.count pg ⟨NET_RX_DROP, 0, 16⟩ 1).raise pg NET_EV_RX_OVF
  else
    let m := m.setReg pg NET_RX_FRAMES (m.reg pg NET_RX_FRAMES + 1)
    m.updNet (fun n => { n with rxq := upd n.rxq p (fun q => q ++ [bs]) })

/-! ### Duplicates (R392, R393) -/

/-- The table after an entry was replaced; STATUS.ENTRIES follows. -/
def setDup (m : Module) (d : List DupEnt) : Module :=
  (m.updNet (fun n => { n with dup := d })).put pgNetpair NETPAIR_STATUS_ENTRIES d.length

/-- An entry is heard on a port. -/
def dupHear (m : Module) (p : Nat) (d : DupEnt) : DupEnt :=
  { d with age := 0, seenA := d.seenA || p = 0, seenB := d.seenB || p = 1, heard := m.net.stamp }

/-- A frame with a trailer is judged (R392); the answer's flag says that it is accepted. -/
def dupJudge (m : Module) (p mac s : Nat) : Module × Bool :=
  let m := m.updNet (fun n => { n with stamp := n.stamp + 1 })
  let tab := m.net.dup
  match tab.find? (fun d => d.mac = mac) with
  | some d =>
    let a := (s + 65536 - d.h) % 65536
    let b := (d.h + 65536 - s) % 65536
    let put := fun (m : Module) (d' : DupEnt) => m.setDup (tab.map (fun x => if x.mac = mac then d' else x))
    if a = 0 || (b < 32 && bit d.w b) then
      ((put m (m.dupHear p d)).countReg (pgNet + p) NET_DUP_CNT 1, false)
    else if b < 32 then (put m (m.dupHear p { d with w := setBit d.w b }), true)
    else if a < 32768 then
      let w := if a < 32 then setBit (BitVec.ofNat 32 (d.w.toNat * 2 ^ a)) a else 0
      (put m (m.dupHear p { d with h := s, w := w }), true)
    else ((put m (m.dupHear p { d with h := s, w := 0 })).count pgNetpair ⟨NETPAIR_EVICT_CNT, 16, 16⟩ 1, true)
  | none =>
    let free := (List.range 256).find? (fun i => !tab.any (fun d => d.slot = i))
    let old := tab.foldl (fun b d => match b with
      | none => some d | some x => if d.heard < x.heard then some d else some x) none
    match free, old with
    | some i, _ => (m.setDup (tab ++ [m.dupHear p ⟨i, mac, s, 0, 0, false, false, 0⟩]), true)
    | none, some o =>
      let m := (m.count pgNetpair ⟨NETPAIR_EVICT_CNT, 0, 16⟩ 1).raise pgNetpair NETPAIR_EV_EVICT
      (m.setDup (tab.filter (fun d => d.slot ≠ o.slot)
        ++ [m.dupHear p ⟨o.slot, mac, s, 0, 0, false, false, 0⟩]), true)
    | none, none => (m, true)

/-- Whether the duplicate table lets a frame through (R392). -/
def dupPass (m : Module) (p : Nat) (bs : List Byte) : Module × Bool :=
  match trailerOf bs with
  | none => (m.count (pgNet + p) ⟨NET_LAN_CNT, 16, 16⟩ 1, true)
  | some (s, lan) =>
    let m := if lan = 10 + p then m
      else (m.count (pgNet + p) ⟨NET_LAN_CNT, 0, 16⟩ 1).raise (pgNet + p) NET_EV_WRONG_LAN
    m.dupJudge p (fld bs 6 6) s

/-! ### Checks on receipt (R422) -/

/-- The Benuf header of a frame at an offset. -/
def parse (bs : List Byte) (i : Nat) : Parsed :=
  { at' := i, typ := fld bs i 1 % 16, flags := fld bs (i + 1) 1, src := fld bs (i + 2) 2 / 16,
    dst := fld bs (i + 4) 2 / 16, period := fld bs (i + 6) 4, len := fld bs (i + 12) 2 }

/-- A period number lies within 1,024 of the module's own, either way (R437). -/
def periodNear (m : Module) (k : Nat) : Bool :=
  let d := (k + 2 ^ 32 - m.epePeriodNo) % 2 ^ 32
  d ≤ 1024 || 2 ^ 32 - 1024 ≤ d

/-- The authentication of a frame is good, or not required (R437). -/
def authOk (m : Module) (bs : List Byte) (x : Parsed) : Bool :=
  let n := 16 + x.len
  let body := (bs.drop x.at').take n
  let tag := (bs.drop (x.at' + n)).take 16
  let has := x.flags % 2 = 1
  if !m.mustAuth x.typ then true
  else has && m.periodNear x.period
    && (match m.sessionKey with | some k => decide (Config.cmac k body = tag) | none => false)

/-- Where a received frame fails the checks, by the number of the step; 0 when it passes all. -/
def benufCheck (m : Module) (bs : List Byte) : Nat :=
  let tagged := fld bs 12 2 = 0x8100
  let i := headerAt bs
  let x := parse bs i
  let tagN := if x.flags % 2 = 1 then 16 else 0
  let n := 16 + x.len + tagN
  let vid := fld bs 14 2 % 4096
  let vlan := m.flag pgBenuf BENUF_CFG_VLAN_EN
  let left := bs.length - (if (trailerOf bs).isSome then 6 else 0)
  if fld bs (i - 2) 2 ≠ m.cfg pgBenuf BENUF_CFG_ETYPE || (vlan && !(tagged && vid = m.cfg pgBenuf ⟨BENUF_VLAN, 0, 12⟩)) then 1
  else if bs.length < i + 16 || fld bs i 1 / 16 ≠ 1 || crc16 ((bs.drop i).take 14) ≠ fld bs (i + 14) 2 then 2
  else if !lenFits x.typ x.len || 1472 < x.len || left < i + n + 4 || (54 < left && left ≠ i + n + 4) then 3
  else if crc32c ((bs.drop i).take n) ≠ fld bs (i + n) 4 then 4
  else if !m.authOk bs x then 5
  else if x.dst ≠ m.shelf && x.dst ≠ 0xFFF then 6
  else if x.src = m.shelf && m.shelf ≠ 0xFFF && fld bs 6 6 = m.ownMac then 7
  else if !(pairsOf x.typ).all (fun o => pairOk (BitVec.ofNat 32 (fld bs (i + 16 + o) 4))) then 8
  else if x.src = 0xFFF && [1, 2, 3, 10].contains x.typ then 9
  else 0

/-- STATUS of a MGMT_REQ that no row of the table stands for: an OP that is none, or a LEN that does not fit
OP and COUNT (R434); 0 for the others. -/
def mgmtOdd (bs : List Byte) (x : Parsed) : Nat :=
  let op := fld bs (x.at' + 16) 1
  if x.typ ≠ 5 then 0
  else if x.len < 8 then 4
  else if op = 0 || 4 < op then 3
  else if x.len ≠ 8 + (if op % 2 = 0 then 4 * fld bs (x.at' + 20) 2 else 0) then 4
  else 0

/-- A frame passed the checks: it is counted, a frame with the module's own number is noted (R429), and an odd
MGMT_REQ is answered and not executed (R434, R436). -/
def delivered (m : Module) (bs : List Byte) : Module :=
  let x := parse bs (headerAt bs)
  let m := m.setReg pgBenuf BENUF_RX_OK (m.reg pgBenuf BENUF_RX_OK + 1)
  let m := m.heardOwn x.src
  let st := mgmtOdd bs x
  if st = 0 then m
  else
    let i := x.at'
    let mac := fld bs 6 6
    let seq := fld bs (i + 10) 2
    match m.bn.kept.find? (fun k => k.mac = mac && k.seq = seq) with
    | some k => m.mgmtSend k
    | none => m.mgmtAnswer ⟨mac, seq, toBytes 1 st ++ toBytes 1 0 ++ (bs.drop (i + 18)).take 4 ++ toBytes 2 seq,
        x.flags % 2 = 1, 0⟩

/-- A frame that the path delivers: a Benuf frame is checked and counted (R422, R445). -/
def deliver (m : Module) (bs : List Byte) : Module :=
  if !m.en pgBenuf && !m.inSapling then m
  else
    match m.benufCheck bs with
    | 0 => m.delivered bs
    | 1 => m
    | 2 => m.count pgBenuf ⟨BENUF_RX_BAD0, 0, 16⟩ 1
    | 3 => m.count pgBenuf ⟨BENUF_RX_BAD0, 0, 16⟩ 1
    | 4 => m.count pgBenuf ⟨BENUF_RX_BAD0, 16, 16⟩ 1
    | 5 => (m.count pgBenuf ⟨BENUF_RX_BAD1, 0, 16⟩ 1).raise pgBenuf BENUF_EV_AUTH_FAIL
    | 8 => m.count pgBenuf ⟨BENUF_RX_BAD1, 16, 16⟩ 1
    | 9 => m.count pgBenuf ⟨BENUF_RX_BAD0, 0, 16⟩ 1
    | _ => m.count pgBenuf ⟨BENUF_RX_BAD2, 0, 16⟩ 1

/-! ### The merge unit (R394 to R396) -/

/-- The frame at the head of a port's queue enters the stream. PTP frames take no part in duplicate
discard (R391); supervision frames are counted and no more (R390). -/
def mergeFrame (m : Module) (p : Nat) : Module :=
  match nth [] m.net.rxq p with
  | [] => m
  | bs :: q =>
    let m := (m.updNet (fun n => { n with rxq := upd n.rxq p (fun _ => q) })).replayFrame
    if fld bs 12 2 = 0x88F7 then m
    else if fld bs 0 5 = macSup then m.countReg pgNetpair NETPAIR_SUP_RX 1
    else
      let (m, pass) := m.dupPass p bs
      if pass then m.deliver bs else m

/-- An entry of the stream (R394 to R396, R398): what waits for it applies (R412). -/
def mergeEntry (m : Module) (e : Entry) (equal : Bool) : Module :=
  if m.net.rebuild then m
  else
    let m := m.boundary pgNetpair
    let m := m.updNet (fun n => { n with tag := (n.tag + 1) % 2 ^ 32 })
    let m := match e with
      | .strobe => m
      | .request _ => m
      | .frame p => if p < 2 then m.mergeFrame p else m
      | .gap n =>
        let m := m.updNet (fun x => { x with tag := (x.tag + n) % 2 ^ 32 })
        (m.countReg pgNetpair NETPAIR_MERGE_GAP n).recMake 0x0200 (pgNetpair * 256 + 0xFF)
          (12 + 4 * (m.ctxWords pgNetpair).length) 0
          (wordBytes ([0, m.stat pgNetpair, 0] ++ m.ctxWords pgNetpair)) false
    if equal then m else m.mismatch

end Module

/-- LINK_UP (R386). -/
def execLinkUp (p : Nat) (an fd : Bool) (s : State) : Host.Outcome State Fault Refusal :=
  actAt p (fun _ => 2) s (fun m => m.linkUp p an fd)

/-- LINK_DOWN (R386). -/
def execLinkDown (p : Nat) (s : State) : Host.Outcome State Fault Refusal :=
  actAt p (fun _ => 2) s (fun m => m.linkDown p)

/-- FRAME_RECEIVED (R388). -/
def execFrameReceived (p : Nat) (bytes : List Byte) (fcsOk : Bool) (s : State) :
    Host.Outcome State Fault Refusal :=
  actAt p (fun _ => 2) s (fun m => m.frameIn p bytes fcsOk)

/-- MERGE_ENTRY (R396). -/
def execMergeEntry (e : Entry) (equal : Bool) (s : State) : Host.Outcome State Fault Refusal :=
  actLive s (fun m => m.mergeEntry e equal)

/-- ENTRY_FORGET (R393). -/
def execEntryForget (i : Nat) (s : State) : Host.Outcome State Fault Refusal :=
  actLive s (fun m => m.setDup (m.net.dup.filter (fun d => d.slot ≠ i)))

end Sys2Proof.Machine
end

