-- ==== Sys2Proof/Machine/Fw.lean ====
section
/-! DEFINITION. The firmware restart (R24 to R31): request, halt, start of the clusters, end of the
freeze, and hardware-only service. -/

namespace Sys2Proof.Machine

/-- Byte `a` of the MRAM (R486), and `n` bytes from it on. -/
def mramByte (mram : List (Nat × W64)) (a : Nat) : Byte :=
  BitVec.ofNat 8 ((getK (fun _ => 0) mram (a / 8)).toNat / 2 ^ (8 * (a % 8)))
def mramBytes (mram : List (Nat × W64)) (a n : Nat) : List Byte :=
  (List.range n).map (fun i => mramByte mram (a + i))

namespace Module

/-- Firmware can be restarted: outputs have been released, not in Sapling, not SCRAPPED (R24). -/
def fwCan (m : Module) : Bool := m.get pgSys SYS_STATUS_PHASE = 4 && m.sys.life ≠ 4

/-- A RESTART record (R528). -/
def fwRecord (m : Module) (cause : Nat) : Module :=
  m.recMake 0x0007 (pgSys * 256 + 0xFF) 4 0 (toBytes 1 cause ++ toBytes 3 0) false

/-- A restart is requested (R25), or merged into the one in progress (R31): the cause is recorded. -/
def fwAsk (m : Module) (cause : Nat) : Module :=
  if !m.fwCan then m
  else
    let m := m.put pgSys SYS_RESTART_CAUSE cause
    match m.sys.restart with
    | .none =>
      let m := (m.put pgSys SYS_RESTART_MERGED 0).put pgSys SYS_STATUS_RESTART_PEND 1
      { m with sys := { m.sys with restart := .pending cause } }
    | _ => (m.put pgSys SYS_RESTART_MERGED 1).fwRecord cause

/-- Everything that a halt of the clusters stops besides the tasks (R29, R131, R361, R380). -/
def fwStopWork (m : Module) : Module :=
  let m := m.bistAbort.impAbortAll
  let m := (List.range 16).foldl (fun m i => m.tsReport i false) m
  m.updEp (fun x => { x with req := none, res := none, discard := false })

/-- The clusters halt (R25): called at the major frame after the finished tasks have committed. -/
def fwHalt (m : Module) : Module :=
  match m.sys.restart with
  | .pending cause =>
    let m := (List.range 12).foldl (fun m t => if (m.task t).started then m.taskAbort t 5 else m) m
    let m := (List.range 12).foldl (fun m t => m.updTask t (fun x => { x with first := false, clean := 0, cmts := false })) m
    let m := m.fwStopWork
    let m := (m.put pgSys SYS_STATUS_RESTART_PEND 0).count pgSys SYS_RESTART_COUNT 1
    let m := (m.raise pgSys SYS_EV_RESTARTED).fwRecord cause
    { m with sys := { m.sys with restart := .halted cause 0, fwRun := false } }
  | _ => m

/-- The code shadow takes the image in MRAM (R483): its words, its poison marks gone. Units 32 to 47. -/
def shadowLoad (m : Module) (mram : List (Nat × W64)) : Module :=
  let lo := 32 * 8192
  let hi := 48 * 8192
  let img := (mram.filter (fun x => x.1 < 131072)).map (fun x => (lo + x.1, x.2))
  { m with mem := { m.mem with
      sram := m.mem.sram.filter (fun x => x.1 < lo) ++ img ++ m.mem.sram.filter (fun x => hi ≤ x.1),
      poison := m.mem.poison.filter (fun k => k < lo || hi ≤ k), opened := false } }

/-- The running image is the one in the MRAM: its version and the plan format that it reads (R560, R577). -/
def fwImage (m : Module) (mram : List (Nat × W64)) : Module :=
  let m := m.setReg pgSys SYS_FW_VERSION (BitVec.ofNat 32 (ofBytes (mramBytes mram 8 4)))
  { m with up := { m.up with setFmt := ofBytes (mramBytes mram 18 2) } }

/-- A task whose stored state has another format than the firmware starts from its configured values;
the mismatch is recorded (R27). -/
def fwMismatch (m : Module) (fmtOk : List Bool) : Module :=
  (List.range 12).foldl (fun m t =>
    if nth true fmtOk t then m
    else m.recMake 0x0200 (pgSched * 256 + 0xFF) 12 0
      (wordBytes [0, m.stat pgSched, BitVec.ofNat 32 t]) false) m

/-- The declared costs of the image that runs (R121). -/
def fwCosts (m : Module) : Module :=
  let v := (m.reg pgSys SYS_FW_VERSION).toNat
  (List.range 12).foldl (fun m t => m.updTask t (fun x => { x with decl := min 65535 (Config.declCost v t) })) m

/-- The clusters start (R26, R27); their loads may ask for a repack (R121). -/
def fwStart (m : Module) (fmtOk : List Bool) : Module :=
  match m.sys.restart with
  | .halted cause ms =>
    let m := { m with sys := { m.sys with restart := .frozen cause ms, fwRun := true } }
    (((m.fwCosts).fwMismatch fmtOk).chResume).checkLoads
  | _ => m

/-- The freeze is to end (R28): every task that runs has committed a period. -/
def thawDue (m : Module) : Bool :=
  match m.sys.restart with
  | .frozen _ _ => !m.sched.run || m.sched.tasks.all (fun t => t.first)
  | _ => false

/-- The freeze ends (R28); the module may share in its grove again (R30). -/
def fwThaw (m : Module) : Module :=
  let m := { m with sys := { m.sys with restart := .none } }
  (((m.put pgSys SYS_STATUS_FW_LOST 0).groveEpoch).xingUnhold).packLate

/-- Hardware-only service (R30): the last allocations stay, the module is out of grove sharing. -/
def fwLose (m : Module) : Module :=
  let m := { m with sys := { m.sys with restart := .none, fwRun := false } }
  let m := (List.range 12).foldl (fun m t => m.updTask t (fun x => { x with started := false, buf := [] })) m
  let m := (m.put pgSys SYS_STATUS_FW_LOST 1).raiseRec pgSys SYS_EV_FW_LOST
  let m := m.latchNow pgSys SYS_FLT_FW_LOST
  ((m.groveLocal).xingUnhold).packLate

/-- Each ms of a restart. -/
def fwMs (m : Module) : Module :=
  match m.sys.restart with
  | .halted c n => { m with sys := { m.sys with restart := .halted c (n + 1) } }
  | .frozen c n => { m with sys := { m.sys with restart := .frozen c (n + 1) } }
  | _ => m

end Module

/-- CLUSTER_LOCKUP (R24). -/
def execClusterLockup (c : Nat) (s : State) : Host.Outcome State Fault Refusal :=
  actAt c nClusters s (fun m => m.fwAsk 3)

/-- CODE_SHADOW_LOADED (R26): after an activation. The shadow holds the image in MRAM again. -/
def execCodeShadowLoaded (fmtOk : List Bool) (s : State) : Host.Outcome State Fault Refusal :=
  actLive s (fun m =>
    match m.sys.restart with
    | .halted 1 _ => ((m.shadowLoad s.nv.mram).fwImage s.nv.mram).fwStart fmtOk
    | _ => m)

/-- CLUSTERS_START (R26): after the other causes the shadow stays as it stands. -/
def execClustersStart (fmtOk : List Bool) (s : State) : Host.Outcome State Fault Refusal :=
  actLive s (fun m =>
    match m.sys.restart with
    | .halted 1 _ => m
    | .halted _ _ => m.fwStart fmtOk
    | _ => m)

end Sys2Proof.Machine
end

