-- ==== Sys2Proof/Machine/Mem.lean ====
section
/-! DEFINITION. Memories (R96 to R99, R475 to R490): address map, arbitration, correction, poison,
row retirement and scrubbing. -/

namespace Sys2Proof.Machine

/-- A place in the memories: an SRAM word by 8,192 × unit + index, or an MRAM word. -/
inductive Place where
  | sram (k : Nat)
  | mram (w : Nat)
  deriving DecidableEq, Repr

/-- Who asks, in the order of R479: clusters, lanes, trace units, path engines, recorder, update loader,
placement copy engine, polling engine, scrub engine. A master has its ID of R504; 0x10 to 0x13 are
the lanes, 0x14 to 0x17 the trace units, 0x18 the copy engine, 0x19 the polling engine, 0x1A the
scrub engine. 99 for a master that has no way to the scratchpad. -/
def memRank (x : Nat) : Nat :=
  if 4 ≤ x && x < 8 then x - 4
  else if 0x10 ≤ x && x < 0x18 then x - 12
  else if x = 10 then 12
  else if x = 9 then 14
  else if x = 8 then 15
  else if x = 0x18 then 16
  else if x = 0x19 then 17
  else if x = 0x1A then 18
  else 99

def isCluster (x : Nat) : Bool := 4 ≤ x && x < 8

/-- Bits of the bank number in an interleaved offset (R476). -/
def bankBits (part : Nat) : Nat := if part = 0x9640 then 5 else if part = 0x9624 then 4 else 3

/-- Bank and index of an interleaved offset. -/
def bankOf (part a : Nat) : Nat × Nat :=
  let n := 2 ^ bankBits part
  (a / 8 % n, a / (8 * n))

/-- Where an address of master `x` leads (R475), if anywhere. -/
def placeOf (part x addr : Nat) : Option Place :=
  let w := addr / 8
  if addr < 0x100000 then if isCluster x then some (.sram (32 * 8192 + w)) else none
  else if 0x10000000 ≤ addr && addr < 0x10010000 then
    if isCluster x && x - 4 < nClusters part then some (.sram ((48 + (x - 4)) * 8192 + (addr - 0x10000000) / 8)) else none
  else if 0x20000000 ≤ addr && addr < 0x20000000 + nBanks part * 65536 then
    if memRank x = 99 then none
    else let b := bankOf part (addr - 0x20000000); some (.sram (b.1 * 8192 + b.2))
  else if 0x21000000 ≤ addr && addr < 0x21000000 + nBanks part * 65536 then
    if memRank x = 99 then none else some (.sram ((addr - 0x21000000) / 8))
  else if 0x30000000 ≤ addr && addr < 0x30010000 then some (.sram (52 * 8192 + (addr - 0x30000000) / 8))
  else if 0x30010000 ≤ addr && addr < 0x30020000 then some (.mram ((0x26C000 + (addr - 0x30010000)) / 8))
  else if 0x40000000 ≤ addr && addr < 0x40400000 then some (.mram ((addr - 0x40000000) / 8))
  else none

/-- The internal address of a word. -/
def addrOf : Place → Nat
  | .sram k =>
    let u := k / 8192
    let o := k % 8192 * 8
    if u < 32 then 0x21000000 + u * 65536 + o
    else if u < 48 then (u - 32) * 65536 + o
    else if u < 52 then 0x10000000 + o
    else 0x30000000 + o
  | .mram w => 0x40000000 + w * 8

/-- Memory unit and row of a word (R98, R488, R499). -/
def unitOf : Place → Nat
  | .sram k => k / 8192
  | .mram w => 64 + w / 32768
def rowOf' : Place → Nat
  | .sram k => k % 8192 / 128
  | .mram w => w % 32768 / 128

/-- Heartwood, in its SRAM or its NV half (R475). -/
def inHeart : Place → Bool
  | .sram k => k / 8192 = 52
  | .mram w => 0x26C000 / 8 ≤ w && w < 0x27C000 / 8

/-- The bytes `i` to `i + n − 1` of a word, and the word with them replaced; byte 0 is the least
significant. -/
def wordPart (w : W64) (i n : Nat) : Nat := w.toNat / 2 ^ (8 * i) % 2 ^ (8 * n)
def wordPut (w : W64) (i n x : Nat) : W64 :=
  BitVec.ofNat 64 (w.toNat % 2 ^ (8 * i) + x % 2 ^ (8 * n) * 2 ^ (8 * i)
    + w.toNat / 2 ^ (8 * (i + n)) * 2 ^ (8 * (i + n)))

/-- The words of the Root and Ring logs as the MRAM holds them (R486, R517): 64 bytes a slot, 8 words. -/
def logWord (nv : NonVol) (i : Nat) : W64 :=
  let slot := i / 8
  let bs := fun (x : Slot) =>
    let b := recBytes x.r
    let b := if x.good then b else b.take 60 ++ (b.drop 60).map (fun y => ~~~y)
    BitVec.ofNat 64 (ofBytes (((b.drop (i % 8 * 8)).take 8).reverse))
  if slot < 512 then match nv.root[slot]? with | some x => bs x | none => 0
  else match nv.ring.find? (fun y => y.1 = slot - 512) with | some y => bs y.2 | none => 0

namespace Module

def updMem (m : Module) (f : Mem → Mem) : Module := { m with mem := f m.mem }

/-! ### Correction and retirement (R97, R98) -/

/-- The tracking entry of an address: the one it has, a free one, or the one that was first corrected
longest ago. -/
def trackSlot (m : Module) (addr : Nat) : Nat × Bool :=
  match (List.range 256).find? (fun i =>
    bit (m.tbl pgMem 0 (2 * i + 1)) 31 && m.tbl pgMem 0 (2 * i) = BitVec.ofNat 32 addr) with
  | some i => (i, true)
  | none =>
    match (List.range 256).find? (fun i => !bit (m.tbl pgMem 0 (2 * i + 1)) 31) with
    | some i => (i, false)
    | none => (m.mem.order.headD 0, false)

/-- Spares of a unit that are used. -/
def sparesUsed (m : Module) (u : Nat) : Nat :=
  ((List.range 4).filter (fun i => bit (m.tbl pgMem 1 (4 * u + i)) 31)).length

/-- The row of a word reaches its threshold (R98): its copy begins, or the unit has no spare left that
is not used or being copied to, and placement excludes it. -/
def rowFails (m : Module) (u row : Nat) : Module :=
  if m.mem.copy.contains (u, row) then m
  else if m.sparesUsed u + (m.mem.copy.filter (fun y => y.1 = u)).length < 4 then m.updMem (fun x => { x with copy := x.copy ++ [(u, row)] })
  else
    let w := m.tbl pgMem 2 u
    let m := (m.raise pgMem MEM_EV_SPARES_OUT).latchNow pgMem MEM_FLT_SPARES_OUT
    let m := m.setTbl pgMem 2 u (setBit (if u < 32 then setBit w 8 else w) 9)
    if u < 32 && !bit (m.reg pgMem MEM_EXCL_MAP) u then
      let m := m.setReg pgMem MEM_EXCL_MAP (setBit (m.reg pgMem MEM_EXCL_MAP) u)
      let m := m.put pgSys SYS_STATUS_DEGRADED 1
      { m with sched := { m.sched with bankMove := insKey m.sched.bankMove u } }
    else m

/-- The record of a transient correction (R103, R529): its mask is the bit of CORRECTED, since the source has
no bit of FLT_STAT, and its counts are those of the address (DEDUCED, log entry 121). -/
def recCorrected (m : Module) (i : Nat) : Module :=
  let ctx := m.ctxWords pgMem
  m.recMake 0x0100 (pgMem * 256 + MEM_EV_CORRECTED) (12 + 4 * ctx.length) 0
    (wordBytes ([BitVec.ofNat 32 (2 ^ MEM_EV_CORRECTED), m.stat pgMem, m.ctrWord pgMem 32 i] ++ ctx)) false

/-- A corrected read (R97, R98): counted against its address in a window of its own. -/
def corrected (m : Module) (p : Place) (sym : Nat) : Module :=
  let addr := addrOf p
  let lo := match p with | .sram _ => 0 | .mram _ => 16
  let m := (m.count pgMem ⟨MEM_CORR_CNT, lo, 16⟩ 1).setReg pgMem MEM_LAST_CORR (BitVec.ofNat 32 addr)
  let m := m.raise pgMem MEM_EV_CORRECTED
  let m := m.usePair pgMem FLT_WIN
  let (i, old) := m.trackSlot addr
  let m := if old then m
    else
      let m := (m.setTbl pgMem 0 (2 * i) (BitVec.ofNat 32 addr)).setTbl pgMem 0 (2 * i + 1) (setBit 0 31)
      let m := m.updMem (fun x => { x with order := x.order.filter (fun j => j ≠ i) ++ [i] })
      { m with ctrs := m.ctrs.filter (fun c => !(c.page = pgMem && c.fbit = 32 && c.sub = i)) }
  let w := m.tbl pgMem 0 (2 * i + 1)
  let m := m.setTbl pgMem 0 (2 * i + 1) (setBits (setBits w 8 8 (satAdd 8 (bits w 8 8) 1)) 16 5 sym)
  let c := m.ctr pgMem 32 i (rkey pgMem FLT_WIN)
  let c := { c with buckets := upd c.buckets 0 (satAdd 8 1), quiet := 0 }
  let due := recDue c && decide (sumN c.buckets < m.winThr (rkey pgMem FLT_WIN))
  let m := m.putCtr (if due then { c with since := some 0 } else c)
  let m := if due then m.recCorrected i else m
  if m.winThr (rkey pgMem FLT_WIN) ≤ sumN c.buckets then m.rowFails (unitOf p) (rowOf' p) else m

/-- The copy of a row completes (R98): the row takes the first free spare. -/
def rowRetired (m : Module) (nv : NonVol) (u row : Nat) : NonVol × Module :=
  if !m.mem.copy.contains (u, row) then (nv, m)
  else
    let sp := m.sparesUsed u
    let m := m.updMem (fun x => { x with copy := x.copy.filter (fun y => y ≠ (u, row)) })
    let m := m.setTbl pgMem 1 (4 * u + sp) (BitVec.ofNat 32 (row % 512 + 2 ^ 31))
    let m := m.setTbl pgMem 2 u (setBits (m.tbl pgMem 2 u) 0 3 (3 - sp))
    (m.raiseRec pgMem MEM_EV_RETIRED).nvWrite nv (.remap u sp row)

/-! ### Poison (R99, R484) -/

/-- A word is poisoned. -/
def poisoned (m : Module) (nv : NonVol) (p : Place) : Bool :=
  match p with | .sram k => m.mem.poison.contains k | .mram w => nv.mpoison.contains w

/-- A poisoned code-shadow word that cannot be reloaded puts the module into hardware-only service
(R484). -/
def shadowPoison (m : Module) : Module :=
  if m.latched pgMem MEM_FLT_SHADOW_POISON then m
  else (m.latchNow pgMem MEM_FLT_SHADOW_POISON).fwLose

/-- An update window opens (R484): from here on the image no longer matches the code shadow, and a word that
waits for its reload stays poisoned. -/
def shadowOpen (m : Module) : Module :=
  let m := m.updMem (fun x => { x with opened := true })
  if m.mem.poison.any (fun k => 32 ≤ k / 8192 && k / 8192 < 48) then m.shadowPoison else m

/-- An uncorrectable word is marked (R99); a word of the code shadow waits for its reload unless an
update window has been opened since the load (R484). -/
def setPoison (m : Module) (nv : NonVol) (p : Place) : NonVol × Module :=
  let m := (m.countReg pgMem MEM_POISON_CNT 1).setReg pgMem MEM_LAST_POISON (BitVec.ofNat 32 (addrOf p))
  let m := m.raise pgMem MEM_EV_POISONED
  match p with
  | .sram k =>
    let m := m.updMem (fun x => { x with poison := insKey x.poison k })
    if 32 ≤ k / 8192 && k / 8192 < 48 && m.mem.opened then (nv, m.shadowPoison) else (nv, m)
  | .mram w => ({ nv with mpoison := insKey nv.mpoison w }, m)

/-- A mark is cleared by a full write (R99). -/
def unPoison (m : Module) (nv : NonVol) (p : Place) : NonVol × Module :=
  match p with
  | .sram k => (nv, m.updMem (fun x => { x with poison := delKey x.poison k }))
  | .mram w => ({ nv with mpoison := delKey nv.mpoison w }, m)

/-! ### Words -/

/-- What a word holds. The recorder's logs are words of the MRAM too; held writes are seen by readers. -/
def word (m : Module) (nv : NonVol) (p : Place) : W64 :=
  match p with
  | .sram k => getK zero64 m.mem.sram k
  | .mram w =>
    if 0x164000 / 8 ≤ w && w < 0x26C000 / 8 then logWord nv (w - 0x164000 / 8)
    else match m.mem.held.find? (fun x => x.1 = w) with
      | some x => x.2
      | none => getK zero64 nv.mram w

/-- A word is written; an MRAM write that is held waits in RAM (R381). -/
def setWord (m : Module) (nv : NonVol) (p : Place) (v : W64) : NonVol × Module :=
  match p with
  | .sram k => (nv, m.updMem (fun x => { x with sram := setK zero64 x.sram k v }))
  | .mram w =>
    if m.mramHeld then
      (nv, m.updMem (fun x => { x with held := x.held.filter (fun y => y.1 ≠ w) ++ [(w, v)] }))
    else ({ nv with mram := setK zero64 nv.mram w v }, m)

/-- Held MRAM writes are made in order (R21, R381). -/
def mramFlush (m : Module) (nv : NonVol) : NonVol × Module :=
  if m.mramHeld then (nv, m)
  else
    let nv := { nv with mram := m.mem.held.foldl (fun l x => setK zero64 l x.1 x.2) nv.mram }
    (m.mem.heldNv.foldl nvApply nv, m.updMem (fun x => { x with held := [], heldNv := [] }))

/-- A word of the Root or Ring log, whose words the recorder alone keeps. -/
def logPlace : Place → Bool
  | .sram _ => false
  | .mram w => 0x164000 / 8 ≤ w && w < 0x26C000 / 8

/-- A corrected word is written back (R97); a write to the MRAM waits in RAM while it is held. -/
def writeBack (m : Module) (nv : NonVol) (p : Place) : NonVol × Module :=
  if logPlace p then (nv, m) else m.setWord nv p (m.word nv p)

/-- A word is read with `bad` of its symbols in error (R96): the value, or none when the read takes a bus
error. -/
def readWord (m : Module) (nv : NonVol) (p : Place) (bad sym : Nat) : NonVol × Module × Option W64 :=
  if m.poisoned nv p then (nv, m, none)
  else
    let v := m.word nv p
    if bad = 0 then (nv, m, some v)
    else if bad = 1 then
      let (nv, m) := (m.corrected p sym).writeBack nv p
      (nv, m, some v)
    else if bad = 2 || Config.undetected (addrOf p) v then
      let (nv, m) := m.setPoison nv p
      (nv, m, none)
    else (nv, m, some (Config.undetectedRead (addrOf p) v))

/-! ### Who may (R475, R487, R491) -/

/-- Heartwood lets a master in (R491), and not during a wipe (R495). -/
def heartOk (m : Module) (x : Nat) (wr : Bool) : Bool :=
  m.hw.wipe.isNone && x < 16 && bit (m.liveReg pgHeart HEART_ACL) (if wr then 16 + x else x)

/-- A master is refused by Heartwood. -/
def heartDeny (m : Module) (x addr : Nat) : Module :=
  let m := m.setReg pgHeart HEART_DENY_LAST (BitVec.ofNat 32 (x % 16 * 2 ^ 28 + addr % 65536))
  (m.raise pgHeart HEART_EV_DENIED).countReg pgMem MEM_DENY_CNT 1

/-- A master may write an MRAM word (R486, R487). -/
def mramWriter (m : Module) (x w : Nat) : Bool :=
  let a := w * 8
  if a < 0x100000 then x = 8 && m.get pgUpdate UPDATE_STATUS_STATE = 2 && m.get pgUpdate UPDATE_STATUS_TARGET = 0
  else if a < 0x120000 then m.sys.life = 0 && x = 3
  else if a < 0x160000 then isCluster x || x = 8
  else if a < 0x164000 then x = 8
  else if a < 0x26C000 then x = 9
  else false

/-- A read of the MRAM while the NVM clock is lost (R19). -/
def nvmDark (m : Module) (p : Place) (wr : Bool) : Bool :=
  match p with
  | .sram _ => false
  | .mram _ => !wr && m.clk.lost.contains 7

/-- The access is allowed; false takes a bus error. -/
def memAllowed (m : Module) (p : Place) (x : Nat) (wr : Bool) : Bool :=
  if m.nvmDark p wr then false
  else if inHeart p then m.heartOk x wr
  else match p with
    | .sram k => if 32 ≤ k / 8192 && k / 8192 < 48 then !wr else true
    | .mram w => if wr then m.mramWriter x w else true

/-! ### Arbitration (R479 to R483) -/

/-- The master that a bank serves next, of those that ask with the cycles each has waited: the guard, the
clusters in rotation, then the others; on the smaller parts rotation over all. `reload` gives way to
nobody. -/
def grant (m : Module) (u : Nat) (asks : List (Nat × Nat)) : Option (Nat × Bool) :=
  let least := fun (l : List (Nat × Nat)) => l.foldl (fun b a => match b with
    | none => some a
    | some c => if a.2 < c.2 || (a.2 = c.2 && memRank a.1 < memRank c.1) then some a else some c) none
  let last := getK (fun _ => 99) m.mem.last u
  let turn := fun (l : List Nat) => ((List.range 20).map (fun i => (last + 1 + i) % 20)).findSome? (fun k =>
    l.find? (fun x => memRank x = k))
  let cl := asks.filter (fun a => isCluster a.1)
  let rest := asks.filter (fun a => !isCluster a.1)
  if m.sys.part ≠ 0x9640 && u < 32 then (turn (asks.map (·.1))).map (fun x => (x, false))
  else
    match least (rest.filter (fun a => 64 ≤ a.2)) with
    | some a => some (a.1, true)
    | none =>
      match turn (cl.map (·.1)) with
      | some x => some (x, false)
      | none => (least rest).map (fun a => (a.1, false))

/-- Whether this access is granted in its cycle. -/
def granted (m : Module) (p : Place) (q : MemReq) : Module × Bool :=
  match p with
  | .mram _ => (m, true)
  | .sram k =>
    let u := k / 8192
    if 48 ≤ u then (m, true)
    else
      match m.grant u ((q.m, q.waited) :: q.rivals) with
      | none => (m, true)
      | some (x, guard) =>
        let m := if guard && u < 32 then m.countReg pgMem MEM_GUARD_CNT 1 else m
        let m := if isCluster x || (m.sys.part ≠ 0x9640 && u < 32) then
            m.updMem (fun y => { y with last := putK y.last u (memRank x) }) else m
        (m, x = q.m)

/-! ### Accesses (R477, R478) -/

/-- A fetch of a word of the code shadow that is to be reloaded waits for the reload (R484). -/
def shadowWaits (m : Module) (p : Option Place) : Bool :=
  match p with
  | some (.sram k) => 32 ≤ k / 8192 && k / 8192 < 48 && !m.mem.opened && m.mem.poison.contains k
  | _ => false

/-- A bus error reaches its master: a task on a cluster whose local word is poisoned is aborted (R485), a
path engine flags (R497); a fetch that waits for a reload takes none. -/
def busError (m : Module) (p : Option Place) (x : Nat) : Module :=
  if m.shadowWaits p then m else
  let m := { m with out := { err := true } }
  match p with
  | some (.sram k) =>
    if 48 ≤ k / 8192 && k / 8192 < 52 && m.mem.poison.contains k then
      match (List.range 12).find? (fun t => (m.task t).started && (m.task t).owner = x - 4) with
      | some t => m.taskDrop t 1
      | none => m
    else if x = 10 && k / 8192 < 32 && m.mem.poison.contains k then m.engFlag (2 ^ m.engA) 2
    else m
  | _ => m

/-- The part of an access that lies in one word: `i` its first byte, `n` its bytes, `x` the data of a
write. The answer is the data read, none after a bus error. -/
def partAccess (m : Module) (nv : NonVol) (p : Place) (i n : Nat) (wr : Option Nat) (bad sym : Nat) :
    NonVol × Module × Option Nat :=
  match wr with
  | none =>
    let (nv, m, v) := m.readWord nv p bad sym
    (nv, m, v.map (fun v => wordPart v i n))
  | some x =>
    if n = 8 then
      let (nv, m) := m.unPoison nv p
      let (nv, m) := m.setWord nv p (BitVec.ofNat 64 x)
      (nv, m, some 0)
    else
      let (nv, m, v) := m.readWord nv p bad sym
      match v with
      | none => (nv, m, none)
      | some v =>
        let (nv, m) := m.setWord nv p (wordPut v i n x)
        (nv, m, some 0)

/-- An access of 1, 2, 4 or 8 bytes; one that crosses a word is split in two (R477), and a split write
changes neither word when either is poisoned (R478). -/
def memAccess (m : Module) (nv : NonVol) (q : MemReq) : NonVol × Module :=
  let n := if q.size = 8 || q.size = 4 || q.size = 2 then q.size else 1
  let i := q.addr % 8
  let n1 := min n (8 - i)
  let n2 := n - n1
  let wr := q.wr.isSome
  let deny := fun (m : Module) (p : Option Place) =>
    match p with
    | some p =>
      if m.nvmDark p wr then m
      else if inHeart p && m.hw.wipe.isNone then m.heartDeny q.m q.addr
      else (match p with | .mram _ => if wr then m.countReg pgMem MEM_DENY_CNT 1 else m | _ => m)
    | none => m
  let p1 := placeOf m.sys.part q.m q.addr
  let p2 := if n2 = 0 then p1 else placeOf m.sys.part q.m (q.addr + n1)
  match p1, p2 with
  | some a, some b =>
    if !m.memAllowed a q.m wr then (nv, (deny m p1).busError p1 q.m)
    else if !m.memAllowed b q.m wr then (nv, (deny m p2).busError p2 q.m)
    else
      let (m, go) := m.granted a q
      if !go then (nv, m)
      else if n2 ≠ 0 && wr && (m.poisoned nv a || m.poisoned nv b) then
        (nv, m.busError (if m.poisoned nv a then p1 else p2) q.m)
      else
        let x := match q.wr with | some v => v.toNat | none => 0
        let w1 := if wr then some (x % 2 ^ (8 * n1)) else none
        let (nv, m, r1) := m.partAccess nv a i n1 w1 q.bad q.sym
        match r1 with
        | none => (nv, m.busError p1 q.m)
        | some v1 =>
          if n2 = 0 then (nv, { m with out := { dword := if wr then none else some (BitVec.ofNat 64 v1) } })
          else
            let w2 := if wr then some (x / 2 ^ (8 * n1)) else none
            let (nv, m, r2) := m.partAccess nv b 0 n2 w2 0 0
            match r2 with
            | none => (nv, m.busError p2 q.m)
            | some v2 =>
              (nv, { m with out := { dword := if wr then none else some (BitVec.ofNat 64 (v1 + v2 * 2 ^ (8 * n1))) } })
  | _, _ => (nv, m.busError none q.m)

/-! ### Scrubbing (R490) -/

/-- An SRAM unit that the part has. -/
def sramUnit (m : Module) (u : Nat) : Bool :=
  u < nBanks m.sys.part || (32 ≤ u && u < 48) || (48 ≤ u && u < 48 + nClusters m.sys.part) || u = 52

/-- The next SRAM word, none at the end of a pass. -/
def scrubNext (m : Module) (k : Nat) : Option Nat :=
  if k % 8192 < 8191 then some (k + 1)
  else ((List.range 53).find? (fun u => k / 8192 < u && m.sramUnit u)).map (fun u => u * 8192)

/-- The scrub engine reads its next word. -/
def scrubStep (m : Module) (nv : NonVol) (sram : Bool) (bad sym : Nat) : NonVol × Module :=
  if !sram && m.clk.lost.contains 7 then (nv, m) else
  let k := if sram then m.mem.scrubS else m.mem.scrubM
  let p : Place := if sram then .sram k else .mram (k - 64 * 8192)
  let (nv, m) := if m.poisoned nv p then (nv, m) else let x := m.readWord nv p bad sym; (x.1, x.2.1)
  let next := if sram then m.scrubNext k else if k + 1 < 64 * 8192 + 524288 then some (k + 1) else none
  match next with
  | some k' => (nv, m.updMem (fun x => if sram then { x with scrubS := k' } else { x with scrubM := k' }))
  | none =>
    let m := m.updMem (fun x => if sram then { x with scrubS := 0 } else { x with scrubM := 64 * 8192 })
    let lo := if sram then 0 else 16
    let f : Fld := ⟨MEM_SCRUB_STAT, lo, 16⟩
    (nv, ((m.boundary pgMem).put pgMem f (m.get pgMem f + 1)).raise pgMem MEM_EV_SCRUB_DONE)

/-- A code-shadow word is reloaded from the image (R484). -/
def shadowReload (m : Module) (nv : NonVol) (addr : Nat) : Module :=
  let k := 32 * 8192 + addr / 8
  if 0x100000 ≤ addr || m.mem.opened || m.clk.lost.contains 7 || !m.mem.poison.contains k then m
  else m.updMem (fun x => { x with
    poison := delKey x.poison k, sram := setK zero64 x.sram k (getK zero64 nv.mram (addr / 8)) })

/-- A cluster clears its local memory before its next task when a word of it is poisoned (R485). -/
def localClear (m : Module) (c : Nat) : Module :=
  let own := fun k => decide (k / 8192 = 48 + c)
  if m.mem.poison.any own then
    m.updMem (fun x => { x with
      poison := x.poison.filter (fun k => !own k), sram := x.sram.filter (fun y => !own y.1) })
  else m

/-- The remap tables of the MEM page as module state holds them (R488). -/
def memTables (m : Module) (nv : NonVol) : Module :=
  nv.remap.foldl (fun m x =>
    let (u, sp, row) := x
    let m := m.setTbl pgMem 1 (4 * u + sp) (BitVec.ofNat 32 (row % 512 + 2 ^ 31))
    m.setTbl pgMem 2 u (setBits (m.tbl pgMem 2 u) 0 3 (3 - sp))) m

end Module

/-- RETIRED (R98). -/
def execRetired (unit row : Nat) (s : State) : Host.Outcome State Fault Refusal :=
  act2Live s (fun nv m => m.rowRetired nv unit row)

/-- SCRUB_STEP (R490). -/
def execScrubStep (sram : Bool) (bad sym : Nat) (s : State) : Host.Outcome State Fault Refusal :=
  act2Live s (fun nv m => m.scrubStep nv sram bad sym)

/-- SHADOW_RELOAD (R484). -/
def execShadowReload (addr : Nat) (s : State) : Host.Outcome State Fault Refusal :=
  actLive s (fun m => m.shadowReload s.nv addr)

/-- BANK_MOVE_DONE (R134): the points and buffers of an excluded bank have moved. -/
def execBankMoveDone (bank : Nat) (s : State) : Host.Outcome State Fault Refusal :=
  actLive s (fun m =>
    if m.sched.bankMove.contains bank then
      ({ m with sched := { m.sched with bankMove := delKey m.sched.bankMove bank } }).bankMoved bank
    else m)

end Sys2Proof.Machine
end

