-- ==== Sys2Proof/Machine/Heart.lean ====
section
/-! DEFINITION. Heartwood (R491 to R496): tamper, glitch detectors and wipes. -/

namespace Sys2Proof.Machine

namespace Module

def updHw (m : Module) (f : Heart → Heart) : Module := { m with hw := f m.hw }

/-- A wipe starts: access is refused, and the wipe-pending flag is written. A request during a wipe
merges into it (R495). -/
def wipeStart (m : Module) (nv : NonVol) (cause : Nat) : NonVol × Module :=
  match m.hw.wipe with
  | some _ => (nv, m)
  | none =>
    ({ nv with wipePending := true },
      (m.updHw (fun x => { x with wipe := some cause })).put pgHeart HEART_STATUS_WIPING 1)

/-- A word of the Heartwood NV half, and of the Heartwood SRAM (R475, R486). -/
def heartWord (w : Nat) : Bool := 0x26C000 / 8 ≤ w && w < 0x27C000 / 8
def heartCell (k : Nat) : Bool := k / 8192 = 52

/-- What a wipe leaves of the non-volatile part: every word of the NV half zero with valid check bits, the
pending flag clear, the count up (R495, R500). -/
def wipeNv (nv : NonVol) : NonVol :=
  { nv with
    keys := []
    mram := nv.mram.filter (fun x => !heartWord x.1)
    mpoison := nv.mpoison.filter (fun w => !heartWord w)
    wipePending := false
    wipeCnt := satAdd 32 nv.wipeCnt 1 }

/-- What a wipe leaves of the SRAM half and of Heartwood writes that are held. -/
def wipeSram (m : Module) : Module :=
  let m := m.updMem (fun x => { x with
    sram := x.sram.filter (fun y => !heartCell y.1)
    poison := x.poison.filter (fun k => !heartCell k)
    held := x.held.filter (fun y => !heartWord y.1) })
  m.updHw (fun x => { x with keys := [], wipe := none })

/-- A wipe with its cause completes (R495, R496): it is recorded and Heartwood is EMPTY. -/
def wiped (m : Module) (nv : NonVol) (cause : Nat) : NonVol × Module :=
  let nv := wipeNv nv
  let m := (m.wipeSram.put pgHeart HEART_STATUS_WIPING 0).put pgHeart HEART_STATUS_EMPTY 1
  let m := m.setReg pgHeart HEART_WIPE_CNT (BitVec.ofNat 32 nv.wipeCnt)
  let m := (m.put pgHeart HEART_WIPE_LAST_CAUSE cause).put pgHeart HEART_WIPE_LAST_FRAME
    (m.reg pgSched SCHED_MFRAME).toNat
  let m := m.raise pgHeart HEART_EV_WIPED
  (nv, m.recMake 0x0301 (pgHeart * 256 + 0xFF) 4 0
    (toBytes 2 (bits (m.reg pgHeart HEART_WIPE_LAST) 0 16) ++ toBytes 2 (nv.wipeCnt % 65536)) true)

/-- Tamper is asserted on an enabled input (R493). -/
def tampered (m : Module) (nv : NonVol) (j : Nat) : NonVol × Module :=
  if bit (m.liveReg pgHeart HEART_TAMPER_CFG) j then
    ((m.raise pgHeart HEART_EV_TAMPER).latchNow pgHeart HEART_FLT_TAMPER).wipeStart nv (1 + j)
  else (nv, m)

/-- The level of a TAMPER_n input. -/
def tamperPin (m : Module) (j : Nat) (hi : Bool) : Module :=
  m.put pgHeart ⟨HEART_STATUS, 2 + j, 1⟩ (if hi then 1 else 0)

/-- The cause of TAMPER is gone (R500). -/
def tamperGone (m : Module) : Bool :=
  (List.range 2).all (fun j => !bit (m.liveReg pgHeart HEART_TAMPER_CFG) j
    || (bit (m.reg pgHeart HEART_STATUS) (2 + j) && nth true m.hw.passed j))

/-- The glitch detector of a kind: 0 supply, 1 clock, 2 temperature (R494). -/
def glitched (m : Module) (nv : NonVol) (kind : Nat) : NonVol × Module :=
  if 3 ≤ kind then (nv, m)
  else ((m.raise pgHeart HEART_EV_GLITCH).latchNow pgHeart HEART_FLT_GLITCH).wipeStart nv (3 + kind)

end Module

/-- TAMPER (R493). -/
def execTamper (j : Nat) (s : State) : Host.Outcome State Fault Refusal :=
  act2Live s (fun nv m => if j < 2 then (m.tamperPin j false).tampered nv j else (nv, m))

/-- TAMPER_PULSE_CHECK (R493): the input reads low under the pull-down and high after it, or tamper is
asserted. -/
def execTamperPulseCheck (j : Nat) (wentLow wentHigh : Bool) (s : State) :
    Host.Outcome State Fault Refusal :=
  act2Live s (fun nv m =>
    if j < 2 && bit (m.liveReg pgHeart HEART_TAMPER_CFG) (8 + j) then
      let ok := wentLow && wentHigh
      let m := (m.tamperPin j wentHigh).updHw (fun x => { x with passed := upd x.passed j (fun _ => ok) })
      if ok then (nv, m) else m.tampered nv j
    else (nv, m))

/-- GLITCH (R494). -/
def execGlitch (kind : Nat) (s : State) : Host.Outcome State Fault Refusal :=
  act2Live s (fun nv m => m.glitched nv kind)

end Sys2Proof.Machine
end

