-- ==== Sys2Proof/Machine/Rec.lean ====
section
/-! DEFINITION. The event recorder (R517 to R538): drain, start-up scan, last breath, reading,
submission and streaming. -/

namespace Sys2Proof.Machine

/-! ### The logs (R518, R522, R524) -/

/-- The record that a Ring slot holds, if any. -/
def ringSlot (nv : NonVol) (i : Nat) : Option Slot := (nv.ring.find? (fun x => x.1 = i)).map (·.2)

/-- The first MRAM words of the Root log and of the Ring log (R486). -/
def rootWord0 : Nat := 0x164000 / 8
def ringWord0 : Nat := 0x164000 / 8 + 512 * 8

/-- A slot fails R518: its CHECK is not good, or a word of it is poisoned. -/
def slotFails (nv : NonVol) (w0 : Nat) (x : Slot) : Bool :=
  !x.good || (List.range 8).any (fun k => nv.mpoison.contains (w0 + k))

/-- The valid records of the Ring log, by slot. -/
def ringValid (nv : NonVol) : List Rec :=
  (nv.ring.filter (fun x => x.2.r.seq ≠ 0 && !slotFails nv (ringWord0 + 8 * x.1) x.2)).map (·.2.r)

/-- The valid records of the Root log. -/
def rootValid (nv : NonVol) : List Rec :=
  (nv.root.zipIdx.filter (fun x => x.1.r.seq ≠ 0 && !slotFails nv (rootWord0 + 8 * x.2) x.1)).map (·.1.r)

/-- The highest and the lowest SEQ of a list of records, 0 when it is empty. -/
def maxSeq (l : List Rec) : Nat := l.foldl (fun a r => max a r.seq) 0
def minSeq (l : List Rec) : Nat :=
  match l with
  | [] => 0
  | r :: l => l.foldl (fun a r => min a r.seq) r.seq

/-- Slots of both logs that fail R518 although their SEQ is not 0 (R526). -/
def badSlots (nv : NonVol) : Nat :=
  (nv.ring.filter (fun x => x.2.r.seq ≠ 0 && slotFails nv (ringWord0 + 8 * x.1) x.2)).length
    + (nv.root.zipIdx.filter (fun x => x.1.r.seq ≠ 0 && slotFails nv (rootWord0 + 8 * x.2) x.1)).length

/-- A record is written to its Ring slot (R522). -/
def ringPut (nv : NonVol) (r : Rec) : NonVol :=
  let i := r.seq % 16384
  let w0 := ringWord0 + 8 * i
  { nv with
    ring := putK nv.ring i ⟨r, true⟩
    mpoison := nv.mpoison.filter (fun w => !(w0 ≤ w && w < w0 + 8)) }

/-- Power ends before the record is committed: its Ring slot holds a torn one, which fails CHECK (R530). -/
def ringTorn (nv : NonVol) (r : Rec) : NonVol :=
  { nv with ring := putK nv.ring (r.seq % 16384) ⟨r, false⟩ }

/-- A record is written to the next free Root slot (R524), and what it marks is noted (R486). -/
def rootPut (nv : NonVol) (r : Rec) : NonVol :=
  let kind := ((match blkOf (r.src / 256) with | some (k, _) => blkType k | none => 0), r.src % 256)
  { nv with
    root := nv.root ++ [⟨r, true⟩]
    marks := if r.typ = 0x0101 then nv.marks ++ [kind] else nv.marks
    anchorMarked := nv.anchorMarked || r.typ = 0x0004 }

/-- Whether records can be lost only after a LAST_BREATH: the Ring log holds one of a power cycle
(R527). -/
def lastBreathOf (nv : NonVol) (pcc : Nat) : Bool :=
  (ringValid nv).any (fun r => r.typ = 0x0002 && r.pcc = pcc)

namespace Module

def updRc (m : Module) (f : RecSt → RecSt) : Module := { m with rc := f m.rc }

/-- The registers that show the logs: OLDEST, ROOT_USED (R537). -/
def recLogRegs (m : Module) (nv : NonVol) : Module :=
  let o := minSeq (ringValid nv)
  let m := m.setReg pgRec REC_OLDEST_H (BitVec.ofNat 32 (o / 2 ^ 32 % 65536))
  let m := m.setReg pgRec REC_OLDEST_L (BitVec.ofNat 32 o)
  let m := m.setReg pgRec REC_ROOT_USED (BitVec.ofNat 32 nv.root.length)
  m.updRc (fun x => { x with rootUsed := nv.root.length })

/-- The sequence reservation is rewritten when the next number comes within 2,048 of it (R526); not
while MRAM writes are held. -/
def recReserve (m : Module) (nv : NonVol) : NonVol × Module :=
  if m.rc.next + 2048 < nv.reserve || m.mramHeld then (nv, m)
  else
    ({ nv with reserve := m.rc.next + 4095 }, m.updRc (fun x => { x with reserve := x.next + 4095 }))

/-- A LOST record is accepted once the stage is below 512 (R523). -/
def recLostSay (m : Module) : Module :=
  if m.rc.lost = 0 || 512 ≤ m.staged then m
  else
    let pl := toBytes 4 (min (2 ^ 32 - 1) m.rc.lost) ++ toBytes 4 (min (2 ^ 32 - 1) m.rc.lostCrit)
    let m := m.updRc (fun x => { x with lost := 0, lostCrit := 0 })
    m.recMake 0x0005 (pgRec * 256 + REC_EV_LOST) 8 0 pl false

/-- The recorder writes to the MRAM: the scan has ended, the module runs, no hold (R522, R525, R530). -/
def recCanDrain (m : Module) : Bool := m.sys.scanDone && m.powered && !m.mramHeld

/-- The record as it is written: HELD after a hold, ROOT when it goes to the Root log too (R517). -/
def recFinal (m : Module) (r : Rec) (root : Bool) : Rec :=
  { r with flags := r.flags + (if r.seq ≤ m.rc.heldUpTo then 1 else 0) + (if root then 4 else 0) }

/-- One staged record is written (R522, R524). -/
def recDrain (m : Module) (nv : NonVol) : NonVol × Module :=
  if !m.recCanDrain then (nv, m)
  else
    match m.rc.stage with
    | [] => (nv, m)
    | r :: rest =>
      let root := r.mark && nv.root.length < 512
      let r' := m.recFinal r root
      let nv := ringPut nv r'
      let nv := if root then rootPut nv r' else nv
      let m := (m.updRc (fun x => { x with stage := rest })).recStageReg
      let m := m.recLogRegs nv
      let m := if root && nv.root.length = 512 then
          (m.raise pgRec REC_EV_ROOT_FULL).put pgRec REC_STATUS_ROOT_FULL 1 else m
      let m := m.recLostSay
      m.recReserve nv

/-! ### Start-up (R526, R527, R541) -/

/-- The START record (R528, R541). -/
def recStart (m : Module) : Module :=
  m.recMake 0x0001 (pgSys * 256 + 0xFF) 8 0
    (toBytes 1 (m.get pgSys SYS_RESET_CAUSE_CAUSE) ++ toBytes 1 m.sys.life
      ++ toBytes 2 (m.get pgBist BIST_SUMMARY_FAILED) ++ toBytes 4 m.sys.startVer) false

/-- The first records of a start: MISSED_LAST_BREATH when the previous power cycle has left no last
breath, START, and what arose before. Made once both the scan and the verdict of step 5 are in. -/
def recBegin (m : Module) (nv : NonVol) (missed : Bool) : Module :=
  if !(m.sys.scanDone && m.sys.verdict) || m.rc.started then m
  else
    let early := m.rc.early
    let m := m.updRc (fun x => { x with started := true, early := [] })
    let m := if missed then
        (m.raise pgRec REC_EV_MISSED_LB).recMake 0x0003 (pgRec * 256 + REC_EV_MISSED_LB) 10 0
          (toBytes 3 (m.rc.pcc - 1) ++ toBytes 1 0 ++ toBytes 6 nv.reserve) true
      else m
    early.foldl (fun m r => m.recPush r) m.recStart

/-- The previous power cycle left no LAST_BREATH (R527). -/
def recMissed (m : Module) (nv : NonVol) : Bool :=
  m.sys.fresh && 1 < m.rc.pcc && !lastBreathOf nv (m.rc.pcc - 1)

/-- The start-up scan (R526). -/
def recScan (m : Module) (nv : NonVol) : NonVol × Module :=
  if m.sys.scanDone then (nv, m)
  else
    let top := max (max (maxSeq (ringValid nv)) (maxSeq (rootValid nv))) (maxSeq m.rc.stage)
    let top := if m.recMissed nv then max top nv.reserve else top
    let m := m.updRc (fun x => { x with next := top + 1, reserve := nv.reserve })
    let m := { m with sys := { m.sys with scanDone := true } }
    let m := m.setReg pgRec REC_NEWEST_H (BitVec.ofNat 32 (top / 2 ^ 32 % 65536))
    let m := (m.setReg pgRec REC_NEWEST_L (BitVec.ofNat 32 top)).recLogRegs nv
    let bad := badSlots nv
    let m := m.put pgRec REC_STATUS_BAD_SLOTS (min 65535 bad)
    let m := m.put pgRec REC_STATUS_ROOT_FULL (if nv.root.length < 512 then 0 else 1)
    let m := if bad = 0 then m else m.latchNow pgRec REC_FLT_SLOT_BAD
    let m := m.recBegin nv (m.recMissed nv)
    m.recReserve nv

/-! ### Last breath (R530) -/

/-- Bytes 0 to 11 of the LAST_BREATH record, as the module stands. -/
def breathHead (m : Module) : List Byte :=
  let rails := (List.range 12).filter (fun r => m.get (pgRail + r) RAIL_STATUS_STATE = 2)
  let feeds := (List.range 8).filter (fun c =>
    let st := m.get (pgFeed + c) FEED_STATUS_STATE
    st = 3 || st = 5)
  toBytes 2 (min 65535 (m.sys.colVa / 10)) ++ toBytes 2 (min 65535 (m.sys.colVb / 10))
    ++ toBytes 2 (m.get pgTherm THERM_DIE_T_J)
    ++ toBytes 1 (m.get pgXing XING_STATUS_STATE)
    ++ toBytes 1 (m.get pgSeq SEQ_STATUS_STATE + (if m.pin.sysPg = .high then 128 else 0))
    ++ toBytes 2 (sumN (rails.map (2 ^ ·))) ++ toBytes 1 (sumN (feeds.map (2 ^ ·)))
    ++ toBytes 1 (m.get pgCap CAP_STATUS_CAP_ASSERTED)

/-- The LAST_BREATH record is made ahead of the stage and committed, or left torn, unless MRAM writes are held or the
scan has not ended. -/
def breathWrite (m : Module) (nv : NonVol) (us : Nat) (torn : Bool) : NonVol × Module :=
  let m := m.updRc (fun x => { x with breath := none })
  if m.mramHeld || !m.sys.scanDone then (nv, m)
  else
    let pl := m.rc.col ++ toBytes 4 us ++ toBytes 6 (minSeq m.rc.stage) ++ toBytes 2 m.staged
    let r := m.recHeader 0x0002 (pgRec * 256 + 0xFF) 24 0 pl false
    let m := m.updRc (fun x => { x with next := x.next + 1 })
    let m := m.setReg pgRec REC_NEWEST_H (BitVec.ofNat 32 (r.seq / 2 ^ 32 % 65536))
    (if torn then ringTorn nv r else ringPut nv r, m.setReg pgRec REC_NEWEST_L (BitVec.ofNat 32 r.seq))

/-- Entry to last breath: a wipe in progress finishes first (R496). -/
def breathEnter (m : Module) (nv : NonVol) (us : Nat) (torn : Bool) : NonVol × Module :=
  if m.hw.wipe.isSome then (nv, m.updRc (fun x => { x with breath := some (us, torn) }))
  else m.breathWrite nv us torn

/-! ### Reading (R531 to R533) -/

/-- The bytes of a Ring slot; a torn one fails CHECK. -/
def slotBytes (x : Slot) : List Byte :=
  let b := recBytes x.r
  if x.good then b else b.take 60 ++ (b.drop 60).map (fun y => ~~~y)

/-- The bytes that a reader of a SEQ finds: from the stage, or from its slot as it stands. -/
def recAt (m : Module) (nv : NonVol) (seq : Nat) : List Byte :=
  if m.rc.next ≤ seq then rep 64 0
  else
    match m.rc.stage.find? (fun r => r.seq = seq) with
    | some r => recBytes r
    | none =>
      match ringSlot nv (seq % 16384) with
      | some x => slotBytes x
      | none => rep 64 0

/-- Word `w` of the record at a position. -/
def recWord (m : Module) (nv : NonVol) (seq w : Nat) : W32 :=
  let b := m.recAt nv seq
  if w < 16 then nth 0 (bytesWords b) w
  else if w = 16 then BitVec.ofNat 32 (ofBytes (b.take 4))
  else BitVec.ofNat 32 (ofBytes ((b.drop 4).take 2) * 65536)

/-- A master reads RD_DATA; the position advances when the word is accepted. -/
def recRead (m : Module) (nv : NonVol) (x : Nat) (accepted : Bool) : W32 × Module :=
  let (seq, w) := nth (0, 0) m.rc.rdPos x
  let v := m.recWord nv seq w
  if !accepted then (v, m)
  else (v, m.updRc (fun y => { y with
    rdPos := upd y.rdPos x (fun _ => if w = 17 then ((seq + 1) % 2 ^ 48, 0) else (seq, w + 1)) }))

/-- A write of RD_SEQ_L places the master's position. -/
def recPlace (m : Module) (x : Nat) : Module :=
  let seq := bits (m.reg pgRec REC_RD_SEQ_H) 0 16 * 2 ^ 32 + (m.reg pgRec REC_RD_SEQ_L).toNat
  m.updRc (fun y => { y with rdPos := upd y.rdPos x (fun _ => (seq, 0)) })

/-- Word `i` of the Root log window; a slot that is empty to readers reads 0 (R518, R533). -/
def rootWord (nv : NonVol) (i : Nat) : W32 :=
  match nv.root[i / 16]? with
  | some x => if slotFails nv (rootWord0 + 8 * (i / 16)) x then 0 else nth 0 (bytesWords (slotBytes x)) (i % 16)
  | none => 0

/-! ### Submission (R535) -/

/-- The TYPE range of a submitter (R528). -/
def submitType (x typ : Nat) : Bool :=
  if isCluster x then 0x0400 ≤ typ && typ ≤ 0x0FFF
  else if x = 1 || x = 2 then 0xE000 ≤ typ && typ ≤ 0xEFFF
  else false

/-- One submission of 11 words; in the fallback of REC firmware makes no records (R117). -/
def submitOne (m : Module) (x : Nat) (ws : List W32) : Module :=
  let h := ws.headD 0
  let typ := bits h 16 16
  let len := bits h 0 8
  if isCluster x && (m.task 9).fallback then m
  else if submitType x typ && len ≤ 40 then
    m.recMake typ (0xFF00 + x) len 8 ((wordBytes (ws.drop 1)).take len) false
  else m.raise pgRec REC_EV_SUBMIT_REFUSED

/-- The words that one staged transaction of a master writes to SUBMIT; `n` bounds the submissions. -/
def submitAll (x : Nat) : Nat → List W32 → Module → Module
  | 0, _, m => m
  | n + 1, ws, m =>
    if ws.isEmpty then m
    else if ws.length < 11 then m.raise pgRec REC_EV_SUBMIT_REFUSED
    else submitAll x n (ws.drop 11) (m.submitOne x (ws.take 11))

/-! ### Streaming (R534) -/

/-- A REC_STREAM frame is built and sent. -/
def streamSend (m : Module) (nv : NonVol) : Module :=
  let dest := (m.liveReg pgBenuf BENUF_REC_DEST_H).toNat * 65536
    + bits (m.liveReg pgBenuf BENUF_REC_DEST_L) 16 16
  let m := m.boundary pgRec
  let from' := bits (m.liveReg pgRec REC_STREAM_NEXT_H) 0 16 * 2 ^ 32
    + (m.liveReg pgRec REC_STREAM_NEXT_L).toNat
  let oldest := minSeq (ringValid nv)
  let low := if oldest = 0 then minSeq m.rc.stage else oldest
  let start := max from' low
  let room := (m.net.txq.filter (fun f => f.cls = 5)).length < 16
  if !m.flag pgRec REC_CFG_STREAM_EN || dest = 0 || !m.en pgBenuf || !m.pathOn || !room
      || start = 0 || m.rc.next ≤ start then m
  else
    let m := if from' < oldest then m.raise pgRec REC_EV_STREAM_GAP else m
    let n := min (m.cfg pgRec REC_CFG_BATCH) (m.rc.next - start)
    let recs := (List.range n).flatMap (fun k => m.recAt nv (start + k))
    let m := m.release 5 8 dest 0xFFF 0 (toBytes 6 start ++ toBytes 1 n ++ toBytes 1 0 ++ recs) false
    let nx := start + n
    let m := m.setBoth (rkey pgRec REC_STREAM_NEXT_H) (BitVec.ofNat 32 (nx / 2 ^ 32 % 65536))
    m.setBoth (rkey pgRec REC_STREAM_NEXT_L) (BitVec.ofNat 32 nx)

end Module

/-- WIPED (R495); a wipe goes on in last breath (R496), and the LAST_BREATH record follows it (R530). The
wipe of a life-cycle step is followed by its first fuse group, so the step is half-blown from then on
(R556). -/
def execWiped (s : State) : Host.Outcome State Fault Refusal :=
  act2 s (fun nv m =>
    match m.hw.wipe with
    | some c =>
      if m.sys.pwr = .off || m.sys.pwr = .pinReset then (nv, m)
      else
        let t := m.lc.target
        let x := m.wiped nv c
        let m' := if t.isSome then { x.2 with lc := { x.2.lc with wiped := true } } else x.2
        let nv' := if t.isSome then { x.1 with otp := { x.1.otp with half := t } } else x.1
        match m.rc.breath with
        | some (us, torn) => m'.breathWrite nv' us torn
        | none => (nv', m')
    | none => (nv, m))

/-- THERM_ROUND (R371); MRAM writes that a hold kept are made when it ends (R381). -/
def execThermRound (x : TherRound) (s : State) : Host.Outcome State Fault Refusal :=
  act2Live s (fun nv m => (m.thermRound nv.otp.ringOfs x).mramFlush nv)

/-- RECORD_DRAIN (R522). -/
def execRecordDrain (s : State) : Host.Outcome State Fault Refusal :=
  act2Live s (fun nv m => m.recDrain nv)

/-- STREAM_FRAME (R534). -/
def execStreamFrame (s : State) : Host.Outcome State Fault Refusal :=
  actLive s (fun m => m.streamSend s.nv)

/-- OPTIME_STORE (R519). -/
def execOptimeStore (s : State) : Host.Outcome State Fault Refusal :=
  act2Live s (fun nv m => m.nvWrite nv (.optime m.rc.optime))

end Sys2Proof.Machine
end

