-- ==== Sys2Proof/Machine/Keys.lean ====
section
/-! DEFINITION. Mailbox service: who may bind, ring and write (R503 to R509), frames to a station
(R510), and the Rootstock key service (R512, R513). -/

namespace Sys2Proof.Machine

/-- A binding word names a sender and a receiver that R505 allows. -/
def bindOk (v : W32) : Bool :=
  let tx := bits v 16 4
  let rx := bits v 20 4
  (isCluster tx || tx = 9 || tx = 10) && isCluster rx && tx ≠ rx && bits v 24 8 = 0

/-- The masters that may bind (R505). -/
def mayBind (x : Nat) : Bool := x = 1 || x = 2 || isCluster x || x = 8

/-- The key length of a KIND (R513). -/
def keyLen (kind : Nat) : Option Nat :=
  if kind = 1 || kind = 2 then some 16 else if kind = 3 then some 33 else none

namespace Module

/-- The channel is bound (R505). -/
def chBound (m : Module) (c : Nat) : Bool := c < 4 || m.chSender c ≠ 0xF || m.chReceiver c ≠ 0xF

/-- A FULL channel whose receiver is the station sends its MBOX frame (R510, R426). -/
def chFrame (m : Module) (c : Nat) : Module :=
  match m.bn.mboxMac with
  | some mac =>
    if m.chReceiver c = 2 && m.chSt c = chFull then
      m.release 4 9 mac 0xFFF 0 (toBytes 1 c ++ toBytes 1 1 ++ toBytes 2 0 ++ wordBytes (m.chPayload c)) false
    else m
  | none => m

/-- A ring with its notification (R506, R508, R510). -/
def chRings (m : Module) (c : Nat) (v : W32) : Module := (m.chRing c v).chFrame c

/-- The code of a key-service message (R512), none when it is carried out. -/
def keyRefusal (m : Module) (op slot kind klen : Nat) : Option Nat :=
  if m.sys.life = 0 || m.sys.life = 4 then some 4
  else if m.hw.wipe.isSome then some 5
  else if op ≠ 1 && op ≠ 2 then some 1
  else if 16 ≤ slot then some 2
  else if op = 2 then (if klen = 0 then none else some 3)
  else if keyLen kind = some klen then none
  else some 3

/-- The keys with a slot installed or erased. -/
def keysWith (l : List Key) (op slot kind : Nat) (k : List Byte) : List Key :=
  let l := l.filter (fun x => x.slot ≠ slot)
  if op = 1 then l ++ [⟨slot, kind, k⟩] else l

/-- Rootstock answers the message that occupies channel `c` (R510, R513). -/
def keyService (m : Module) (nv : NonVol) (c : Nat) : NonVol × Module :=
  let b := wordBytes (m.chPayload c)
  let at' := fun i => (nth 0 b i : Byte).toNat
  let (op, slot, kind, klen) := (at' 0, at' 1, at' 2, at' 3)
  let ans := fun (m : Module) (code : Nat) =>
    (m.chSet c code (m.chTag c) chDone).raise (chPage c) (16 + c % 8)
  match m.keyRefusal op slot kind klen with
  | some code => (nv, ans m code)
  | none =>
    let k := (b.drop 4).take klen
    let nv := { nv with keys := keysWith nv.keys op slot kind k }
    let m := m.updHw (fun x => { x with keys := keysWith x.keys op slot kind k })
    let m := if op = 1 then m.put pgHeart HEART_STATUS_EMPTY 0 else m
    (nv, ans m 0)

/-- OP of the message on a channel. -/
def keyOp (m : Module) (c : Nat) : Nat := bits ((m.chPayload c).headD 0) 24 8

end Module

/-- MBOX_RESEND (R510). -/
def execMboxResend (ch : Nat) (s : State) : Host.Outcome State Fault Refusal :=
  actLive s (fun m => if ch < 32 then m.chFrame ch else m)

/-- INSTALL (R513): also answers a message whose OP is neither INSTALL nor ERASE. -/
def execInstall (ch : Nat) (s : State) : Host.Outcome State Fault Refusal :=
  act2Live s (fun nv m =>
    if ch < 2 && m.chOccupied ch && m.keyOp ch ≠ 2 then m.keyService nv ch else (nv, m))

/-- ERASE (R513). -/
def execErase (ch : Nat) (s : State) : Host.Outcome State Fault Refusal :=
  act2Live s (fun nv m =>
    if ch < 2 && m.chOccupied ch && m.keyOp ch = 2 then m.keyService nv ch else (nv, m))

end Sys2Proof.Machine
end

