-- ==== Sys2Proof/Machine/Power.lean ====
section
/-! DEFINITION. Supply (R46 to R50), module reset (R32, R33, R58) with the ROM start (R539 step 2),
and the clocks (R13 to R23). -/

namespace Sys2Proof.Machine

/-- The OPTIME of the newest valid record (R519). -/
def newestOptime (nv : NonVol) : Nat :=
  ((ringValid nv ++ rootValid nv).foldl (fun a r => if a.1 < r.seq then (r.seq, r.optime) else a)
    (0, 0)).2

/-- The outputs of a phase and of a feed channel at high impedance. -/
def phaseZ (x : Phase) : Phase := { x with phEn := .z, phPwm := .z }
def feedZ (x : Feed) : Feed := { x with gate := .z }

namespace Module

def updSys (m : Module) (f : SysSt → SysSt) : Module := { m with sys := f m.sys }

/-- PHASE of SYS.STATUS (R559). -/
def lifePhase (m : Module) : Nat := m.get pgSys SYS_STATUS_PHASE
def toPhase (m : Module) (x : Nat) : Module := m.put pgSys SYS_STATUS_PHASE x

/-! ### Reset (R33) -/

/-- Every output goes to its unpowered state (R49, R56). -/
def outputsZ (m : Module) : Module :=
  let m := { m with ph := m.ph.map phaseZ }
  let m := { m with fd := m.fd.map feedZ, pin := {} }
  m.put pgCap CAP_STATUS_CAP_ASSERTED 0

/-- What a module reset keeps of the recorder: the stage, counts and marks (R33, R523). -/
def keptRec (x : RecSt) : RecSt :=
  { stage := x.stage, early := x.early, next := x.next, reserve := x.reserve, optime := x.optime,
    pcc := x.pcc, marks := x.marks, anchorMarked := x.anchorMarked, rootUsed := x.rootUsed,
    heldUpTo := x.heldUpTo }

/-- The module with every register and work placement at its reset value, in the supply state `p`
(R33). The supply, the AON count of SELFTEST resets, the part and the recorder are kept. -/
def cleared (m : Module) (p : Power) : Module :=
  let brown := m.get pgSys SYS_STATUS_BROWN
  let a := m.get pgSys SYS_STATUS_VAUX_A_OK
  let b := m.get pgSys SYS_STATUS_VAUX_B_OK
  let z : Module := {
    sys := {
      pwr := p, va := m.sys.va, vb := m.sys.vb, colVa := m.sys.colVa, colVb := m.sys.colVb,
      hold := m.sys.hold, stRun := m.sys.stRun, strap := m.sys.strap, part := m.sys.part }
    nfree := m.nfree
    rc := keptRec m.rc }
  let z := (z.put pgSys SYS_STATUS_BROWN brown).put pgTwt TWT_STATUS_BROWN brown
  let z := (z.put pgSys SYS_STATUS_VAUX_A_OK a).put pgSys SYS_STATUS_VAUX_B_OK b
  z.put pgSys SYS_STATUS_HOLD_OK (if m.sys.hold then 1 else 0)

/-- A download that a reset ends is recorded (R574); an activation is past its download. -/
def updLost (m : Module) : Module :=
  let st := m.get pgUpdate UPDATE_STATUS_STATE
  if st = 0 || st = 5 then m else m.raiseRec pgUpdate UPDATE_EV_ABORTED

/-! ### ROM start -/

/-- A LIFE_CYCLE record (R528, R556). -/
def lifeRecord (m : Module) (old new : Nat) : Module :=
  m.recMake 0x0300 (pgLife * 256 + 0xFF) 2 0 (toBytes 1 old ++ toBytes 1 new) true

/-- A new life-cycle state is blown; the marks of first lasting faults begin with DEPLOYED (R103). -/
def lifeBlown (nv : NonVol) (target : Nat) : NonVol :=
  { nv with
    otp := { nv.otp with life := target, half := none }
    marks := if target = 2 then [] else nv.marks
    anchorMarked := if target = 2 then false else nv.anchorMarked }

/-- An interrupted wipe is completed, then an interrupted life-cycle step (R496, R556). -/
def romRepair (m : Module) (nv : NonVol) : NonVol × Module :=
  let (nv, m) := if nv.wipePending then m.wiped nv 8 else (nv, m)
  match nv.otp.half with
  | some target =>
    let old := nv.otp.life
    let (nv, m) := m.wiped nv 6
    (lifeBlown nv target, m.lifeRecord old target)
  | none => (nv, m)

/-- The identity of OTP is checked and shown (R551, R552). -/
def romIdent (m : Module) (nv : NonVol) : Module :=
  let m := nv.otp.ident.zipIdx.foldl (fun m x => m.setTbl pgSys 0 x.2 x.1) m
  let m := if nv.otp.ident.all pairOk then m
    else ((m.put pgSys SYS_STATUS_OTP_BAD 1).raise pgSys SYS_EV_OTP_BAD).latchNow pgSys SYS_FLT_OTP_BAD
  let x := m.identWord 16
  if x = 0x9640 || x = 0x9624 || x = 0x9612 then m.updSys (fun y => { y with part := x }) else m

/-- The MAC in use (R553). -/
def romMac (m : Module) : Module :=
  let mac := m.identWord 13 * 2 ^ 32 + m.identWord 14 * 2 ^ 16 + m.identWord 15
  let pass := (List.range 3).all (fun i => pairOk (m.tbl pgSys 0 (13 + i)))
  let ser := (m.identWord 9 % 256) * 2 ^ 32 + m.identWord 10 * 2 ^ 16 + m.identWord 11
  let (x, d) := if pass && mac ≠ 0 then (mac, 0) else (0x02 * 2 ^ 40 + ser, 1)
  let m := m.put pgSys SYS_STATUS_MAC_DERIVED d
  (m.setReg pgSys SYS_MAC_H (BitVec.ofNat 32 (x / 2 ^ 32))).setReg pgSys SYS_MAC_L (BitVec.ofNat 32 x)

/-- The registers that reset from OTP, the straps and module state (R443, R447, R500, R520, R558, R564,
R591). -/
def romRegs (m : Module) (nv : NonVol) : Module :=
  let m := m.put pgTwt TWT_STATUS_ADDR (0x48 + m.sys.strap % 8)
  let m := (m.setBoth (rkey pgPtp PTP_LAT_A) nv.otp.latA).setBoth (rkey pgPtp PTP_LAT_B) nv.otp.latB
  let m := m.setReg pgHeart HEART_WIPE_CNT (BitVec.ofNat 32 nv.wipeCnt)
  let m := m.put pgHeart HEART_STATUS_EMPTY (if nv.keys.isEmpty && 0 < nv.wipeCnt then 1 else 0)
  let m := m.put pgHeart HEART_STATUS_PIN 3
  let m := m.setReg pgRec REC_PCC (BitVec.ofNat 32 m.rc.pcc)
  let m := m.put pgSys SYS_STATUS_LIFE nv.otp.life
  let m := m.put pgLife LIFE_STATE_STATE nv.otp.life
  let m := m.setReg pgUpdate UPDATE_HIGH_VER (BitVec.ofNat 32 nv.highVer)
  let m := m.setReg pgUpdate UPDATE_EPOCH (BitVec.ofNat 32 nv.otp.epoch)
  let m := m.put pgUpdate UPDATE_STATUS_MARK (if nv.mark then 1 else 0)
  let m := (List.range (nStrings m.sys.part)).foldl (fun m b => m.put (pgBatt + b) BATT_STATUS_UNLEARNED 1) m
  let m := if m.sys.part = 0x9612 then
      m.setBoth (rkey pgCap CAP_EST_CFG) (m.reg pgCap CAP_EST_CFG ||| 1) else m
  (m.updSys (fun x => { x with life := nv.otp.life })).memTables nv

/-- The ROM starts (R539 step 2), after a reset with a cause word; the self-test follows. -/
def romStart (m : Module) (nv : NonVol) (cause : W32) : NonVol × Module :=
  let m := m.setReg pgSys SYS_RESET_CAUSE cause
  let m := m.updEp (fun x => { x with wear := nv.wear })
  let m := m.updRc (fun x => { x with marks := if x.marks.isEmpty then nv.marks else x.marks,
                                      anchorMarked := x.anchorMarked || nv.anchorMarked })
  let m := m.romIdent nv
  let (nv, m) := m.romRepair nv
  let m := (m.romMac).romRegs nv
  (nv, (m.wearWords).toPhase 1)

/-- The word of RESET_CAUSE (R559). -/
def causeWord (cause clk cmd run unit : Nat) : W32 :=
  BitVec.ofNat 32 (cause + clk * 2 ^ 8 + cmd * 2 ^ 12 + run * 2 ^ 16 + unit * 2 ^ 24)

/-- A module reset without loss of VAUX that restarts the module at once (R32). -/
def moduleReset (m : Module) (nv : NonVol) (cause clk cmd unit : Nat) : NonVol × Module :=
  let m := (m.updLost).cleared m.sys.pwr
  let m := m.updSys (fun x => { x with stRun := if cause = 5 then x.stRun + 1 else x.stRun,
                                       sapReq := decide (cause = 4 && cmd = 2) })
  m.romStart nv (causeWord cause clk cmd m.sys.stRun unit)

/-! ### Supply (R46 to R50) -/

/-- A VAUX input is inside its operating range (R52, R559). -/
def vauxOk (mv : Nat) : Nat := if 9000 ≤ mv ∧ mv ≤ 60000 then 1 else 0

/-- VAUX is newly applied (R32, R520): the operating time and counts come from module state. -/
def powerOn (m : Module) (nv : NonVol) (va vb straps : Nat) : NonVol × Module :=
  let pcc := satAdd 24 nv.pcc 1
  let nv := { nv with pcc := pcc }
  let z : Module := {
    sys := { pwr := .run, va := va, vb := vb, strap := straps, fresh := true, part := m.sys.part }
    nfree := m.nfree
    rc := { optime := max nv.optime (newestOptime nv), pcc := pcc, reserve := nv.reserve,
            rootUsed := nv.root.length } }
  let z := (z.put pgSys SYS_STATUS_VAUX_A_OK (vauxOk va)).put pgSys SYS_STATUS_VAUX_B_OK (vauxOk vb)
  z.romStart nv (causeWord 1 0 0 0 0)

/-- Brown-out begins or ends (R48). -/
def brown (m : Module) (on : Bool) : Module :=
  let x := if on then 1 else 0
  (m.put pgSys SYS_STATUS_BROWN x).put pgTwt TWT_STATUS_BROWN x

/-- The store is full, or no longer (R50). -/
def setHold (m : Module) (on : Bool) : Module :=
  (m.updSys (fun x => { x with hold := on })).put pgSys SYS_STATUS_HOLD_OK (if on then 1 else 0)

/-- Last-breath mode: every output unpowered, the record written (R49, R530). -/
def lastBreath (m : Module) (nv : NonVol) (us : Nat) (torn : Bool) : NonVol × Module :=
  ((m.outputsZ).updSys (fun x => { x with pwr := .lastBreath })).breathEnter nv us torn

/-- The reset after last breath: the module waits for VAUX (R49). What is in RAM is gone. -/
def unpowered (m : Module) : Module :=
  { sys := { part := m.sys.part }, nfree := m.nfree }

/-- The collapse (R49, R50): with less than a full store, last breath at once. -/
def collapse (m : Module) (nv : NonVol) (va vb : Nat) (torn : Bool) : NonVol × Module :=
  let full := m.sys.hold
  let m := m.updSys (fun x => { x with va := va, vb := vb, colVa := va, colVb := vb })
  let m := m.updRc (fun x => { x with col := m.breathHead })
  let m := (m.brown true).setHold false
  if full then (nv, m.updSys (fun x => { x with pwr := .ride })) else m.lastBreath nv 0 torn

/-- Service goes on after a dip (R49). -/
def vauxDip (m : Module) (lowest us : Nat) : Module :=
  let m := (m.updSys (fun x => { x with pwr := .run })).brown false
  m.recMake 0x0006 (pgSys * 256 + 0xFF) 6 0 (toBytes 2 (min 65535 (lowest / 10)) ++ toBytes 4 us) false

/-- An input is lost (R46): reported and recorded. -/
def inputLost (m : Module) (i : Nat) : Module :=
  (m.put pgSys ⟨SYS_STATUS, 6 + i, 1⟩ 0).raiseRec pgSys (SYS_EV_VAUX_A_LOST + i)

/-! ### Clocks (R19 to R22) -/

/-- A clock of CLK_STAT is lost or present. -/
def clkStat (m : Module) (c : Nat) (on : Bool) : Module :=
  m.put pgClk ⟨CLK_CLK_STAT, c, 1⟩ (if on then 1 else 0)

/-- The actions on the loss of NETA, NETB or TWI (R19). The loss of NVM acts through `mramHeld`. -/
def clkAct (m : Module) (c : Nat) : Module :=
  if c = 4 || c = 5 then m.linkDown (c - 4)
  else if c = 6 then (List.range 4).foldl (fun m p => m.twcStop p) m
  else m

/-- A clock that does not reset the module is lost (R19, R21). -/
def clkLost (m : Module) (c : Nat) : Module :=
  if m.clk.lost.contains c then { m with clk := { m.clk with back := delKey m.clk.back c } }
  else
    let was := m.latched pgClk CLK_FLT_CLK_LOST
    let m := { m with clk := { m.clk with lost := insKey m.clk.lost c } }
    let m := (m.clkStat c false).countReg pgClk CLK_LOSS_CNT 1
    let m := m.put pgClk CLK_LOSS_LAST_CLOCK (c + 1)
    let m := m.put pgClk CLK_LOSS_LAST_FRAME (m.reg pgSched SCHED_MFRAME).toNat
    let m := if was then m.raiseRec pgClk CLK_EV_CLK_LOST
      else (m.raise pgClk CLK_EV_CLK_LOST).latchNow pgClk CLK_FLT_CLK_LOST
    m.clkAct c

/-- A restart try finds the clock present: it resumes once it has been present for 10 ms (R21). -/
def clkTry (m : Module) (c : Nat) (present : Bool) : Module :=
  if m.clk.lost.contains c && present then { m with clk := { m.clk with back := insKey m.clk.back c } } else m

/-- The blocks of a clock resume (R21); MRAM writes that were held are made. -/
def clkBack (m : Module) (nv : NonVol) (c : Nat) : NonVol × Module :=
  if !m.clk.back.contains c then (nv, m)
  else
    let held := m.mramHeld
    let m := { m with clk := { lost := delKey m.clk.lost c, back := delKey m.clk.back c } }
    let m := m.clkStat c true
    let m := if held && !m.mramHeld then m.updRc (fun x => { x with heldUpTo := m.rc.next - 1 }) else m
    m.mramFlush nv

/-- SYNC_IN is in force and within ±100 ppm; `ferr` in 0.1 ppm (R20). -/
def syncOn (m : Module) (ferr : Int) : Bool :=
  m.flag pgClk CLK_SYNC_CFG_EN && decide (-1000 ≤ ferr) && decide (ferr ≤ 1000)

def syncLock (m : Module) (ferr : Int) : Module :=
  if m.syncOn ferr && m.get pgClk CLK_SYNC_STAT_PRESENT = 1 then
    let m := m.putI pgClk CLK_SYNC_STAT_FERR ferr
    if m.get pgClk CLK_SYNC_STAT_LOCKED = 1 then m
    else ((m.put pgClk CLK_SYNC_STAT_LOCKED 1).raise pgClk CLK_EV_SYNC_LOCK).tbUpdate false
  else m

/-- SYNC_IN is lost: the pull holds, and the loss is counted (R20). -/
def syncLost (m : Module) : Module :=
  if m.get pgClk CLK_SYNC_STAT_PRESENT = 0 then m
  else
    let m := (m.put pgClk CLK_SYNC_STAT_PRESENT 0).put pgClk CLK_SYNC_STAT_LOCKED 0
    let m := (m.raise pgClk CLK_EV_SYNC_LOST).tbUpdate false
    (m.fault pgClk CLK_FLT_SYNC_LOST 0 (rkey pgClk FLT_WIN)).1

/-- SYNC_IN has been measured against the free reference: FERR shows the error, in the band or out of it,
and SYNC_IN is present in the band and lost out of it (R20, R23). -/
def syncPresent (m : Module) (ferr : Int) : Module :=
  if !m.flag pgClk CLK_SYNC_CFG_EN then m
  else
    let m := m.putI pgClk CLK_SYNC_STAT_FERR ferr
    if m.syncOn ferr then m.put pgClk CLK_SYNC_STAT_PRESENT 1 else m.syncLost

/-- The pull of the reference, 0.001 ppm, moves by at most 1 ppm per second: toward SYNC_IN while it is
present, toward 0 once EN is 0 (R20). Each ms. -/
def pullStep (m : Module) : Module :=
  let now := sext 32 (m.reg pgClk CLK_PULL).toNat
  let goal := if !m.flag pgClk CLK_SYNC_CFG_EN then 0
    else if m.get pgClk CLK_SYNC_STAT_PRESENT = 1 then
      clampInt (-100000) 100000 (m.getI pgClk CLK_SYNC_STAT_FERR * 100)
    else now
  m.setReg pgClk CLK_PULL (BitVec.ofInt 32 (clampInt (now - 1) (now + 1) goal))

/-- SYNC_CFG applies at the major frame (R22); with EN at 0 there is no SYNC_IN. -/
def syncFrame (m : Module) : Module :=
  let m := m.boundary pgClk
  if m.flag pgClk CLK_SYNC_CFG_EN then m
  else ((m.put pgClk CLK_SYNC_STAT_PRESENT 0).put pgClk CLK_SYNC_STAT_LOCKED 0).tbUpdate false

end Module

/-- POWER_ON (R48). -/
def execPowerOn (va vb straps : Nat) (s : State) : Host.Outcome State Fault Refusal :=
  act2 s (fun nv m => if m.sys.pwr = .off then m.powerOn nv va vb straps else (nv, m))

/-- BROWN_OUT (R48). -/
def execBrownOut (s : State) : Host.Outcome State Fault Refusal := actSupply s (fun m => m.brown true)

/-- BROWN_OUT_END (R48). -/
def execBrownOutEnd (s : State) : Host.Outcome State Fault Refusal := actSupply s (fun m => m.brown false)

/-- VAUX_INPUT_LOST (R46). -/
def execVauxInputLost (inp : Nat) (s : State) : Host.Outcome State Fault Refusal :=
  actSupply s (fun m => if inp < 2 then m.inputLost inp else m)

/-- VAUX_INPUT_RETURN (R46). -/
def execVauxInputReturn (inp : Nat) (s : State) : Host.Outcome State Fault Refusal :=
  actSupply s (fun m => if inp < 2 then m.put pgSys ⟨SYS_STATUS, 6 + inp, 1⟩ 1 else m)

/-- COLLAPSE (R49); a module that RESET_n holds is unpowered. `torn`: last breath comes at once (R50), and power
ends before its record is committed (R530). -/
def execCollapse (va vb : Nat) (torn : Bool) (s : State) : Host.Outcome State Fault Refusal :=
  act2 s (fun nv m =>
    if m.sys.pwr = .run then m.collapse nv va vb torn
    else if m.sys.pwr = .pinReset then (nv, m.unpowered)
    else (nv, m))

/-- VAUX_DIP (R49); with RESET_n held low no service goes on, and the input is above 8.8 V again. -/
def execVauxDip (lowest us : Nat) (s : State) : Host.Outcome State Fault Refusal :=
  act s (fun m =>
    if m.sys.pwr = .ride then m.vauxDip lowest us
    else if m.sys.pwr = .pinReset then m.brown false
    else m)

/-- LAST_BREATH_ENTRY (R49); `torn`: power ends before the record is committed (R530). -/
def execLastBreathEntry (us : Nat) (torn : Bool) (s : State) : Host.Outcome State Fault Refusal :=
  act2 s (fun nv m =>
    if m.sys.pwr = .ride then m.lastBreath nv us torn
    else if m.sys.pwr = .pinReset then (nv, m.unpowered)
    else (nv, m))

/-- LAST_BREATH_RESET (R49). -/
def execLastBreathReset (s : State) : Host.Outcome State Fault Refusal :=
  act s (fun m => if m.sys.pwr = .lastBreath then m.unpowered else m)

/-- RESET_PIN (R58): the reset is taken; it holds until its release. -/
def execResetPin (s : State) : Host.Outcome State Fault Refusal :=
  actLive s (fun m => (m.updLost).cleared .pinReset)

/-- RESET_RELEASE (R58): only while the input is above the power-on threshold, which a brown-out or a
collapse has left and its end regains (R48). -/
def execResetRelease (straps : Nat) (s : State) : Host.Outcome State Fault Refusal :=
  act2 s (fun nv m =>
    if m.sys.pwr = .pinReset && m.get pgSys SYS_STATUS_BROWN = 0 then
      (m.updSys (fun x => { x with pwr := .run, strap := straps })).romStart nv
        (Module.causeWord 2 0 0 m.sys.stRun 0)
    else (nv, m))

/-- CLK_LOSS (R19). Clocks by their bit of CLK_STAT. -/
def execClkLoss (clk : Nat) (s : State) : Host.Outcome State Fault Refusal :=
  act2Live s (fun nv m =>
    if clk < 4 then m.moduleReset nv 3 (clk + 1) 0 0
    else if clk < 8 then (nv, m.clkLost clk)
    else (nv, m))

/-- CLK_RESTART_TRY (R21). -/
def execClkRestartTry (clk : Nat) (present : Bool) (s : State) : Host.Outcome State Fault Refusal :=
  actLive s (fun m => m.clkTry clk present)

/-- CLK_RESUME (R21). -/
def execClkResume (clk : Nat) (s : State) : Host.Outcome State Fault Refusal :=
  act2Live s (fun nv m => m.clkBack nv clk)

/-- SYNC_IN_PRESENT (R20). -/
def execSyncInPresent (ferr : Int) (s : State) : Host.Outcome State Fault Refusal :=
  actLive s (fun m => m.syncPresent ferr)

/-- SYNC_LOCK (R20). -/
def execSyncLock (ferr : Int) (s : State) : Host.Outcome State Fault Refusal :=
  actLive s (fun m => m.syncLock ferr)

/-- SYNC_LOST (R20). -/
def execSyncLost (s : State) : Host.Outcome State Fault Refusal := actLive s (fun m => m.syncLost)

end Sys2Proof.Machine
end

