-- ==== Sys2Proof/Machine/Encode.lean ====
section
/-! DEFINITION. Which values a register or table word refuses: reserved encodings and values outside the
range that its field table gives (R92, R100, R101). -/

namespace Sys2Proof.Machine

/-- Field `w` bits from `lo` lies from `a` to `b`. -/
def inRng (v : W32) (lo w a b : Nat) : Bool := decide (a ≤ bits v lo w) && decide (bits v lo w ≤ b)

/-- A window register holds a threshold and a window code that exist (R100, R101). -/
def winOk (v : W32) : Bool :=
  let c := bits v 16 8
  bits v 24 8 ≠ 0 && c < 0xB0 && !(0xA7 ≤ c)

/-- The counter-block registers: those named *_WIN that are RWP (R100). -/
def isWin (b : Blk) (off : Nat) : Bool :=
  off = FLT_WIN || (b = .integ && off = INTEG_PAIR_WIN) || (b = .rail && off = RAIL_SHORT_WIN)
    || (b = .xing && off = XING_RET_WIN)

/-- LOG_SYNC from −7 to 0 (R445). -/
def logSyncOk (x : Nat) : Bool := x = 0 || 9 ≤ x

/-- A code of a bus input names a GIN channel or a feed channel that the part has (R5, R249). -/
def busInput (part x : Nat) : Bool := x < nGin part || (8 ≤ x && x < 8 + nFeeds part)

/-- A value of a register of the supply, timebase, phase and rail pages is one that it takes. -/
def encA (part : Nat) (b : Blk) (off : Nat) (v : W32) : Bool :=
  match b with
  | .clk => off ≠ CLK_SYNC_CFG || inRng v 16 16 1 25000
  | .sys => off ≠ SYS_CMD || inRng v 16 16 1 3
  | .phase =>
    off ≠ PHASE_CFG
      || ((bits v 0 6 < nRails part || bits v 0 6 = 0x3F) && bits v 8 2 < 2 && bits v 16 2 ≠ 3)
  | .rail =>
    if off = RAIL_CFG then
      inRng v 16 12 100 3000 && bits v 4 3 < 5
        && (busInput part (bits v 28 4) || bits v 28 4 = 0xF)
    else if off = RAIL_SLOPE then inRng v 16 16 1 1000
    else if off = RAIL_UV_DELAY then inRng v 0 17 1 100000
    else if off = RAIL_SHED_CFG then bits v 8 6 ≠ 0
    else if off = RAIL_DT || off = RAIL_DT_LIM then bits v 0 10 ≤ 640 && bits v 16 10 ≤ 640
    else true
  | .trace =>
    if off = TRACE_CFG then bits v 0 4 < nRails part else if off = TRACE_TRIG then bits v 0 3 < 5 else true
  | .adccal =>
    !(ADCCAL_GIN_CFG0 ≤ off && off < ADCCAL_GIN_CFG0 + 16) || (bits v 0 2 ≠ 3 && bits v 4 3 < 5)
  | _ => true

/-- The same for the energy, Crossing, feed and supervision pages. -/
def encB (part : Nat) (b : Blk) (off : Nat) (v : W32) : Bool :=
  match b with
  | .epe =>
    if off = EPE_CFG then inRng v 0 5 3 12 && busInput part (bits v 8 4)
    else if off = EPE_WEIGHTS then bits v 0 4 + bits v 8 4 + bits v 16 4 ≤ 31
    else true
  | .cap =>
    if off = CAP_EST_CFG then bits v 0 2 < 2 else if off = CAP_QUAL then bits v 0 2 ≠ 0 else true
  | .feed =>
    if off = FEED_INS_DELAY then inRng v 0 14 10 10000
    else if off = FEED_ILIM then inRng v 16 16 50 1000
    else if off = FEED_GATE_CFG then inRng v 0 7 5 100 && bits v 8 8 ≠ 0 && bits v 16 8 ≠ 0
    else if off = FEED_RETRY_GAP then inRng v 0 16 1 6000
    else if off = FEED_FWD_ON then inRng v 0 8 5 100
    else true
  | .xing =>
    if off = XING_SLOPE_CFG then bits v 0 4 ≠ 0
    else if off = XING_RETURN_QUAL then inRng v 0 16 1 60000
    else if off = XING_RETURN_SLEW then inRng v 0 8 1 100
    else true
  | .wdog =>
    if off = WDOG_CFG then
      bits v 0 2 ≠ 3 && bits v 4 2 ≠ 3 && bits v 12 4 ≠ 0 && bits v 16 8 ≠ 0
    else if off = WDOG_WIN then inRng v 0 16 1 10000 && bits v 16 16 < bits v 0 16
    else if off = WDOG_BOOT_WIN then inRng v 0 16 1 60000
    else true
  | .batt =>
    if off = BATT_CFG then (bits v 0 4 < nRails part || bits v 0 4 = 15) && bits v 16 2 ≠ 3
    else if off = BATT_IMP_CFG then bits v 8 8 ≠ 0
    else true
  | .therm => off ≠ THERM_RR_CFG || inRng v 0 16 1 600
  | _ => true

/-- The same for the network, two-wire, memory and module pages. -/
def encC (b : Blk) (off : Nat) (v : W32) : Bool :=
  match b with
  | .net => off ≠ NET_CFG || (bits v 0 2 < 2 && bits v 12 2 ≠ 3)
  | .netpair => off ≠ NETPAIR_CFG || bits v 16 8 ≠ 0
  | .ptp =>
    if off = PTP_CFG then
      bits v 0 8 < 128 && logSyncOk (bits v 16 4) && bits v 20 4 < 4 && 2 ≤ bits v 24 4
    else if off = PTP_LOCK_CFG then bits v 16 8 ≠ 0
    else if off = PTP_PPS_CFG then bits v 16 16 ≠ 0
    else true
  | .benuf =>
    if off = BENUF_CFG then
      0x600 ≤ bits v 16 16 && bits v 16 16 ≠ 0x8100 && bits v 16 16 ≠ 0x88F7
    else if off = BENUF_HELLO_CFG then bits v 0 8 ≠ 0 && 2 * bits v 0 8 ≤ bits v 8 8
    else if off = BENUF_HEALTH_CFG then bits v 0 8 ≠ 0
    else true
  | .twt => off ≠ TWT_CFG || inRng v 20 12 1 2500
  | .twc =>
    if off = TWC_CFG then bits v 0 2 ≠ 3 && bits v 16 4 ≠ 0
    else if off = TWC_POLL_CFG then bits v 0 8 ≠ 0 && bits v 8 4 ≠ 0 && inRng v 16 8 1 35
    else true
  | .mem => off ≠ MEM_SCRUB_CFG || inRng v 0 8 1 49
  | .heart => off ≠ HEART_ACL || (bits v 1 3 = 0 && bits v 17 3 = 0)
  | .recd => off ≠ REC_CFG || (inRng v 16 5 1 16 && bits v 24 8 ≠ 0)
  | .life => off ≠ LIFE_CMD || (inRng v 28 4 1 2 && bits v 16 3 < 5)
  | .update => off ≠ UPDATE_CMD || inRng v 16 16 1 5
  | _ => true

/-- A register takes the value on a part (R5). -/
def encOk (part : Nat) (b : Blk) (off : Nat) (v : W32) : Bool :=
  (!isWin b off || winOk v) && encA part b off v && encB part b off v && encC b off v

/-- A word of a table takes the value. -/
def encTblOk (b : Blk) (t i : Nat) (v : W32) : Bool :=
  match b, t with
  | .cle, 0 => i % 8 ≠ 2 || bits v 31 1 = 0
  | .epe, 0 =>
    i % 16 ≠ 0 || bits v 8 8 < 16 || bits v 8 8 = 0x80 || bits v 8 8 = 0xFF
  | .seq, 0 => (32 ≤ i || inRng v 0 14 1 10240) && bits v 24 2 ≠ 3
  | .seqtbl, _ => i % 4 ≠ 0 || (bits v 28 4 ≤ 6 && bits v 25 3 ≤ 4)
  | .therm, 0 => i % 4 ≠ 0 || bits v 0 2 ≠ 3
  | .twc, 0 => i % 4 ≠ 0 || bits v 8 2 ≠ 3
  | _, _ => true

/-- The registers of which each holds half of a critical 32-bit value, by the offset of the upper half
(R90): the local cap and the grove values. -/
def pair32Hi (b : Blk) (off : Nat) : Option Nat :=
  match b with
  | .cap => if off = CAP_LOCAL_CAP_H || off = CAP_LOCAL_CAP_L then some CAP_LOCAL_CAP_H else none
  | .grove => if GROVE_FLOOR_W_H ≤ off && off < GROVE_GMAX_L + 4 then some (off - off % 8) else none
  | _ => none

end Sys2Proof.Machine
end

