-- ==== Sys2Proof/Machine/Profile.lean ====
section
/-! DEFINITION. Operating profiles (R34 to R37). -/

namespace Sys2Proof.Machine

/-- The entry of a profile in a row of R35; SEL has two bits. -/
def ofProfile (a b c d : Nat) (sel : Nat) : Nat := nth a [a, b, c, d] sel

/-- The defaults that a profile gives the registers of a rail (R35): frequency, overshoot, dwell. -/
def profRail (sel : Nat) : List (Nat × W32) :=
  [(RAIL_CFG, BitVec.ofNat 32 (0x00001010 + ofProfile 600 400 1000 500 sel * 2 ^ 16)),
   (RAIL_OVS, mkPair (ofProfile 0x20 0x20 0x14 0x28 sel * 256 + 8)),
   (RAIL_SHED_CFG, BitVec.ofNat 32 (0x0101 + ofProfile 50 20 200 100 sel * 2 ^ 16))]

/-- The add and drop points that a profile gives a rail (R35), as `pctKey` holds them. -/
def profPct (sel : Nat) : W32 :=
  BitVec.ofNat 32 (ofProfile 70 85 50 60 sel * 2 ^ 16 + ofProfile 55 70 35 45 sel)

/-- The defaults that a profile gives EPE (R35): solver weights, battery floor, standby. -/
def profEpe (sel : Nat) : List (Nat × W32) :=
  [(EPE_WEIGHTS, BitVec.ofNat 32 (ofProfile 4 8 4 2 sel + ofProfile 2 1 2 4 sel * 2 ^ 8
      + ofProfile 2 1 2 4 sel * 2 ^ 16)),
   (EPE_POLICY, BitVec.ofNat 32 (1 + ofProfile 50 40 60 70 sel * 2 ^ 8)),
   (EPE_STBY_CFG, BitVec.ofNat 32 (0x00501E00 + ofProfile 1 1 0 1 sel))]

namespace Module

/-- A profile leaves a key alone: it is overridden, or its page is locked (R36, R89). -/
def profSkips (m : Module) (k : Nat) : Bool :=
  m.ovr.contains k || bit (m.reg (pageOfKey k) LOCK) 0

/-- A new default reaches a field by its class (R37); a group's as a snapshot of the module's own. -/
def profKey (m : Module) (k : Nat) (v : W32) : Module :=
  if m.profSkips k then m
  else
    match effOf k with
    | .now => m.setBoth k v
    | .stop =>
      if m.en (pageOfKey k) then { m with defer := putK m.defer k v }
      else { m.setBoth k v with defer := m.defer.filter (fun kv => kv.1 ≠ k) }
    | .live =>
      if m.waits k then { m.setKey k v with pend := insKey m.pend k } else m.setBoth k v
    | .group _ =>
      if m.waits k then { m.setKey k v with snap := putK m.snap k v } else m.setBoth k v

/-- The add and drop points of a rail's derived tables change in the group SHED (R37, R175). -/
def profShed (m : Module) (r : Nat) (w dwell : W32) : Module :=
  if bit (m.reg (pgRail + r) LOCK) 0 then m
  else
    let entry := fun t n =>
      if m.live.any (fun kv => kv.1 = tkey (pgRail + r) t n) then m.tblVal (pgRail + r) t n
      else m.val (pgRail + r) RAIL_PH_RATING * pctOf w t / 100
    match shedBad (m.val (pgRail + r) RAIL_PH_RATING) (entry 0) (entry 1) with
    | some n => (m.put (pgRail + r) RAIL_CAPACITY_SHED_BAD n).raise (pgRail + r) RAIL_EV_SHED_REFUSED
    | none =>
      let m := m.profKey (rkey (pgRail + r) RAIL_SHED_CFG) dwell
      if m.waits (pctKey r) then { m.setKey (pctKey r) w with snap := putK m.snap (pctKey r) w }
      else m.setBoth (pctKey r) w

/-- The defaults of a profile on one rail. -/
def profOnRail (sel : Nat) (m : Module) (r : Nat) : Module :=
  let m := (profRail sel).foldl (fun m x =>
    if x.1 = RAIL_SHED_CFG then m else m.profKey (rkey (pgRail + r) x.1) x.2) m
  let m := m.profShed r (profPct sel) (nth (0, 0) (profRail sel) 2).2
  if m.rlRuns r then m else m.perTaps r

/-- A profile is selected (R34, R37). -/
def profile (m : Module) (sel : Nat) : Module :=
  let m := (List.range (nRails m.sys.part)).foldl (profOnRail sel) m
  (profEpe sel).foldl (fun m x => m.profKey (rkey pgEpe x.1) x.2) m

end Module

end Sys2Proof.Machine
end

