-- ==== Sys2Proof/Machine/Update.lean ====
section
/-! DEFINITION. Downloads of images and shelf plans (R566 to R582): header checks, blocks, the state
machine, activation, and the store of a plan. -/

namespace Sys2Proof.Machine

/-- Download states (R592). -/
def usIdle : Nat := 0
def usReady : Nat := 1
def usOpen : Nat := 2
def usVerify : Nat := 3
def usVerified : Nat := 4
def usActivating : Nat := 5
def usFailed : Nat := 6

/-- The settings copies and the limp region in the MRAM (R486). -/
def copyBase (c : Nat) : Nat := 0x120000 + c * 0x20000
def limpBase : Nat := 0x160000

/-- A number in the bytes `bs` from byte `i` on. -/
def numAt (bs : List Byte) (i n : Nat) : Nat := ofBytes ((bs.drop i).take n)

/-! ### Headers (R566, R567, R579) -/

/-- Every byte from `i` to `j − 1` is 0. -/
def zeroAt (bs : List Byte) (i j : Nat) : Bool := ((bs.drop i).take (j - i)).all (fun b => b = 0)

/-- The bit of FAMILY that stands for a part (R566). -/
def familyBit (part : Nat) : Nat := if part = 0x9640 then 0 else if part = 0x9624 then 1 else 2

/-- The reason for which an image header is refused, 0 when it passes (R567). -/
def imageHeader (m : Module) (nv : NonVol) (h : List Byte) : Nat :=
  let len := numAt h 12 4
  let fam := numAt h 16 2
  let ver := numAt h 8 4
  if numAt h 0 4 ≠ 0x4648494D || numAt h 4 2 ≠ 1 || numAt h 6 2 ≠ 256 || len = 0 || 1048320 < len
      || 8 ≤ fam || 16 ≤ numAt h 20 1 || !zeroAt h 21 24 || !zeroAt h 56 192 then 3
  else if !fam.testBit (familyBit m.sys.part) then 4
  else
    match m.hw.keys.find? (fun k => k.slot = numAt h 20 1 && k.kind = 3) with
    | none => 5
    | some k =>
      if !Config.ecdsaOk k.bytes (Config.sha256 (h.take 192)) ((h.drop 192).take 64) then 6
      else if ver < nv.highVer then 7
      else if ver / 2 ^ 24 < nv.otp.epoch then 8
      else 0

/-- The header of a plan, with its MAGIC (R579, R585). -/
def planHeader (magic : Nat) (h : List Byte) : Bool :=
  let len := numAt h 8 4
  numAt h 0 4 = magic && zeroAt h 6 8 && 20 ≤ len && len ≤ 131068 && len % 4 = 0

def magicPlan : Nat := 0x46485350
def magicLimp : Nat := 0x46484C50

/-! ### Plans (R580, R581) -/

/-- A record of a plan (R580). -/
structure PlanRec where
  kind : Nat
  flags : Nat
  page : Nat
  arg : Nat
  index : Nat
  words : List W32
  deriving DecidableEq, Repr

/-- The bytes of a record. -/
def planRecBytes (r : PlanRec) : List Byte :=
  toBytes 1 r.kind ++ toBytes 1 r.flags ++ toBytes 1 r.page ++ toBytes 1 r.arg ++ toBytes 2 r.index
    ++ toBytes 2 r.words.length ++ wordBytes r.words

/-- The records in a run of bytes; none when one of them does not fit. `n` bounds their number. -/
def planRecs : Nat → List Byte → Option (List PlanRec)
  | 0, bs => if bs.isEmpty then some [] else none
  | n + 1, bs =>
    if bs.isEmpty then some []
    else
      let count := numAt bs 6 2
      if bs.length < 8 + 4 * count || count = 0 then none
      else
        let r : PlanRec := ⟨numAt bs 0 1, numAt bs 1 1, numAt bs 2 1, numAt bs 3 1, numAt bs 4 2,
          bytesWords ((bs.drop 8).take (4 * count))⟩
        (planRecs n (bs.drop (8 + 4 * count))).map (fun l => r :: l)

/-- A record may belong to the limp subset (R581). -/
def limpOk (r : PlanRec) : Bool :=
  match blkOf r.page with
  | some (b, _) =>
    (b = .rail || b = .phase || b = .cle || b = .adccal || b = .feed || b = .seq || b = .seqtbl
        || b = .benuf)
      && r.kind < 3
      && (b ≠ .cle || (r.kind = 2 && r.arg < 2))
      && !(b = .rail && r.kind = 1 && r.arg ≤ RAIL_CFG && RAIL_CFG < r.arg + 4 * r.words.length
            && bit (nth 0 r.words ((RAIL_CFG - r.arg) / 4)) 0)
  | none => false

/-- A record meets R580 and R581. -/
def planRecOk (r : PlanRec) : Bool :=
  let n := r.words.length
  r.flags < 2 && (r.flags = 0 || limpOk r)
    && (if r.kind = 1 then r.arg % 4 = 0 && decide (r.arg + 4 * n ≤ 256) && decide (r.index = 0)
        else if r.kind = 2 then true
        else if r.kind = 3 then decide (r.arg < 8) && decide (r.index = 0)
        else if r.kind = 4 then
          decide (r.page < 4) && decide (r.arg = 0) && decide (r.index = 0) && decide (n % 2 = 0)
        else false)

/-- The records of a plan whose header, CRC and records pass R581 but for the comparison of FMT. -/
def planOf (magic : Nat) (bs : List Byte) : Option (List PlanRec) :=
  let len := numAt bs 8 4
  if planHeader magic bs && len ≤ bs.length && crc32 (bs.take (len - 4)) = numAt bs (len - 4) 4 then
    match planRecs len ((bs.take (len - 4)).drop 16) with
    | some rs => if rs.all planRecOk then some rs else none
    | none => none
  else none

/-- The limp region made from the LIMP records of a plan (R585). -/
def limpBytes (plan : List Byte) (rs : List PlanRec) : List Byte :=
  let body := (rs.filter (fun r => r.flags = 1)).flatMap planRecBytes
  let h := toBytes 4 magicLimp ++ toBytes 2 1 ++ toBytes 2 0 ++ toBytes 4 (20 + body.length)
    ++ ((plan.drop 12).take 4)
  h ++ body ++ toBytes 4 (crc32 (h ++ body))

namespace Module

/-! ### The MRAM of a download -/

/-- Bytes of the MRAM as they read, held writes included. -/
def readBytes (m : Module) (nv : NonVol) (a n : Nat) : List Byte :=
  (List.range n).map (fun i =>
    BitVec.ofNat 8 (wordPart (m.word nv (.mram ((a + i) / 8))) ((a + i) % 8) 1))

/-- A word of a run of bytes is poisoned, so that no check of it passes (R99). -/
def bytesBad (nv : NonVol) (a n : Nat) : Bool := nv.mpoison.any (fun w => decide (a / 8 ≤ w) && decide (8 * w < a + n))

/-- Bytes are written to the MRAM, one after the other. -/
def writeBytes (m : Module) (nv : NonVol) (a : Nat) (bs : List Byte) : NonVol × Module :=
  bs.zipIdx.foldl (fun s x =>
    let p := Place.mram ((a + x.2) / 8)
    let (nv, m) := s.2.unPoison s.1 p
    m.setWord nv p (wordPut (m.word nv p) ((a + x.2) % 8) 1 x.1.toNat)) (nv, m)

/-- GEN of a settings copy, 0 when its copy word is not a good pair (R578). -/
def copyGen (m : Module) (nv : NonVol) (c : Nat) : Nat :=
  let w : W32 := BitVec.ofNat 32 (ofBytes (m.readBytes nv (copyBase c) 4))
  if pairOk w then bits w 16 16 else 0

/-- The plan that a region holds, as many bytes as its header says. -/
def planBytes (m : Module) (nv : NonVol) (a : Nat) : List Byte :=
  m.readBytes nv a (min 131068 (max 16 (numAt (m.readBytes nv a 16) 8 4)))

/-- A settings copy is valid; FMT is compared when the plan is loaded (R578, R584). -/
def copyValid (m : Module) (nv : NonVol) (c : Nat) : Bool :=
  let plan := m.planBytes nv (copyBase c + 4)
  m.copyGen nv c ≠ 0 && !bytesBad nv (copyBase c) (4 + plan.length) && (planOf magicPlan plan).isSome

/-- The copy that start-up uses (R578). -/
def copyPick (m : Module) (nv : NonVol) : Option Nat :=
  let a := m.copyValid nv 0
  let b := m.copyValid nv 1
  if a && b then
    let d := (m.copyGen nv 1 + 65536 - m.copyGen nv 0) % 65536
    some (if 0 < d && d < 32768 then 1 else 0)
  else if a then some 0 else if b then some 1 else none

/-- FMT of the plan in a copy. -/
def copyFmt (m : Module) (nv : NonVol) (c : Nat) : Nat := ofBytes (m.readBytes nv (copyBase c + 8) 2)

/-! ### The state machine (R574) -/

def updSt (m : Module) : Nat := m.get pgUpdate UPDATE_STATUS_STATE
def updOwner (m : Module) : Nat := m.get pgUpdate UPDATE_STATUS_OWNER
def updPlan (m : Module) : Bool := m.get pgUpdate UPDATE_STATUS_TARGET = 1
def updUp (m : Module) (f : Upd → Upd) : Module := { m with up := f m.up }

/-- An EVENT record of the page that no event bit stands for. -/
def updNote (m : Module) : Module :=
  let ctx := m.ctxWords pgUpdate
  m.recMake 0x0200 (pgUpdate * 256 + 0xFF) (12 + 4 * ctx.length) 0
    (wordBytes ([0, m.stat pgUpdate, 0] ++ ctx)) false

/-- A transition, recorded with its event where it has one; CFG applies (R574, R591). -/
def updTo (m : Module) (st : Nat) (ev : Option Nat) : Module :=
  let m := (m.boundary pgUpdate).put pgUpdate UPDATE_STATUS_STATE st
  let m := if st = usIdle then m.put pgUpdate UPDATE_STATUS_OWNER 0xF else m
  match ev with
  | some b => m.raiseRec pgUpdate b
  | none => m.updNote

/-- A block or command is refused (R567 to R574). -/
def updRefuse (m : Module) (reason ofs : Nat) : Module :=
  let m := m.put pgUpdate UPDATE_REFUSE_REASON reason
  (m.put pgUpdate UPDATE_REFUSE_OFFSET ofs).raise pgUpdate UPDATE_EV_REFUSED

/-- Outside the update temperature range (R381, R573). -/
def updHot (m : Module) : Bool := m.get pgTherm THERM_RANGE_UPD_BLOCK = 1

/-- A download is open (R574). -/
def updIsOpen (m : Module) : Bool := usOpen ≤ m.updSt && m.updSt ≤ usActivating

/-- The window mark in module state (R575). -/
def setMark (m : Module) (nv : NonVol) (on : Bool) : NonVol × Module :=
  ({ nv with mark := on }, m.put pgUpdate UPDATE_STATUS_MARK (if on then 1 else 0))

/-- The granule map is cleared. -/
def clearMap (m : Module) : Module := (List.range 128).foldl (fun m w => m.setTbl pgUpdate 0 w 0) m

/-- Granule `g` has been received. -/
def granule (m : Module) (g : Nat) : Bool := bit (m.tbl pgUpdate 0 (g / 32)) (g % 32)

/-- Granules that the image or plan needs. -/
def needed (m : Module) : Nat := ceilDiv m.up.len 256

/-- Granules are marked, and PROGRESS follows. -/
def markGranules (m : Module) (ofs n : Nat) : Module :=
  let m := (List.range (ceilDiv n 256)).foldl (fun m i =>
    let g := ofs / 256 + i
    if m.granule g then m
    else
      (m.setTbl pgUpdate 0 (g / 32) (setBit (m.tbl pgUpdate 0 (g / 32)) (g % 32))).count pgUpdate
        UPDATE_PROGRESS_RECEIVED 1) m
  m.put pgUpdate UPDATE_PROGRESS_NEEDED m.needed

/-- The address in the MRAM of offset 0 of the download (R566, R582). -/
def updBase (m : Module) : Nat := if m.updPlan then copyBase m.up.copy + 4 else 0

/-- A block's offset and length fit the image or plan (R569). -/
def blockFits (m : Module) (ofs n : Nat) : Bool :=
  ofs % 256 = 0 && decide (ofs + n ≤ m.up.len) && (n % 256 = 0 || ofs + n = m.up.len) && n ≠ 0

/-- The key of the staged header (R573). -/
def updKeyOk (m : Module) : Bool :=
  m.updPlan || m.hw.keys.any (fun k => k.slot = bits (m.tbl pgUpdate 1 5) 24 8 && k.kind = 3)

/-- The copy that a plan download writes: the one that does not hold the plan in force (R582). -/
def planCopy (m : Module) : Nat :=
  if m.get pgUpdate UPDATE_PLAN_STAT_VALID = 1 || m.get pgUpdate UPDATE_STATUS_PLAN_OLD = 1 then
    1 - m.get pgUpdate UPDATE_PLAN_STAT_COPY
  else 0

/-- The data of an accepted block are written, and the download is verified once it is whole. -/
def blockWrite (m : Module) (nv : NonVol) (ofs : Nat) (data : List Byte) : NonVol × Module :=
  let (nv, m) := m.writeBytes nv (m.updBase + ofs) data
  let m := m.markGranules ofs data.length
  if (List.range m.needed).all m.granule then (nv, m.updTo usVerify none) else (nv, m)

/-- The header of a download is taken: the map cleared, the header staged (R570). -/
def takeHeader (m : Module) (h : List Byte) : Module :=
  let plan := m.updPlan
  let m := m.updUp (fun x => { x with
    len := if plan then numAt h 8 4 else 256 + numAt h 12 4, copy := m.planCopy })
  let m := (m.clearMap).setReg pgUpdate UPDATE_PROGRESS 0
  let ws := bytesWords (h.take (if plan then 16 else 256))
  let m := (List.range 64).foldl (fun m i => m.setTbl pgUpdate 1 i (nth 0 ws i)) m
  m.setReg pgUpdate UPDATE_STAGED_VER (if plan then 0 else nth 0 ws 2)

/-- A first block (R570): the reason of its refusal, or the download opens with it. -/
def blockFirst (m : Module) (nv : NonVol) (data : List Byte) : NonVol × Module × Nat :=
  let plan := m.updPlan
  let why := if plan then (if planHeader magicPlan data then 0 else 3) else imageHeader m nv data
  if data.length < (if plan then 16 else 256) then (nv, m, 9)
  else if why ≠ 0 then (nv, m, why)
  else
    let m' := m.takeHeader data
    if !m'.blockFits 0 data.length then (nv, m, 9)
    else
      let ev := if m.updSt = usReady then some UPDATE_EV_OPENED else none
      let (nv, m') :=
        if plan then m'.writeBytes nv (copyBase m'.up.copy) (toBytes 4 0x0000FFFF)
        else
          let x := m'.setMark nv true
          (x.1, x.2.shadowOpen)
      let (nv, m') := (m'.updTo usOpen ev).blockWrite nv 0 data
      (nv, m', 0)

/-- A block of a master (R569 to R573): the reason of its refusal, 0 when it is written. -/
def blockTake (m : Module) (nv : NonVol) (x ofs : Nat) (data : List Byte) : NonVol × Module × Nat :=
  let st := m.updSt
  if (m.task 11).fallback || (st ≠ usReady && st ≠ usOpen && !(st = usFailed && ofs = 0)) then (nv, m, 1)
  else if m.updOwner ≠ x then (nv, m, 2)
  else if m.updHot then (nv, m, 10)
  else if ofs = 0 then m.blockFirst nv data
  else if st = usReady then (nv, m, 9)
  else if !m.updKeyOk then (nv, m, 5)
  else if !m.blockFits ofs data.length then (nv, m, 9)
  else
    let (nv, m) := (m.updTo usOpen none).blockWrite nv ofs data
    (nv, m, 0)

/-- A block, with its refusal shown. -/
def block (m : Module) (nv : NonVol) (x ofs : Nat) (data : List Byte) : NonVol × Module × Nat :=
  let (nv, m, why) := m.blockTake nv x ofs data
  (nv, if why = 0 then m else m.updRefuse why ofs, why)

/-! ### Activation (R568, R576, R582) -/

/-- An image is made to run (R568). -/
def makeRun (m : Module) (nv : NonVol) (ver : Nat) : NonVol × Module :=
  let nv := { nv with highVer := max nv.highVer ver,
                      otp := { nv.otp with epoch := max nv.otp.epoch (ver / 2 ^ 24) } }
  let m := m.setReg pgUpdate UPDATE_HIGH_VER (BitVec.ofNat 32 nv.highVer)
  (nv, m.setReg pgUpdate UPDATE_EPOCH (BitVec.ofNat 32 nv.otp.epoch))

/-- The stored plan has another format than the image that runs (R577). -/
def fmtDiff (m : Module) (nv : NonVol) (fmt : Nat) : Module :=
  let d := match m.copyPick nv with | some c => decide (m.copyFmt nv c ≠ fmt) | none => false
  m.put pgUpdate UPDATE_STATUS_FMT_DIFF (if d then 1 else 0)

/-- A VERIFIED download is activated, or the reason why not (R573, R576). In Sapling start-up goes on
(R589). -/
def updActivate (m : Module) (nv : NonVol) : NonVol × Module × Nat :=
  if m.updSt ≠ usVerified then (nv, m, 11)
  else if m.updHot then (nv, m, 10)
  else if !m.updKeyOk then (nv, m, 5)
  else if m.updPlan then (nv, m.updTo usActivating none, 0)
  else if !m.sys.hold || m.restarting then (nv, m, 11)
  else
    let ver := (m.tbl pgUpdate 1 2).toNat
    let (nv, m) := m.makeRun nv ver
    let m := (m.fmtDiff nv (bits (m.tbl pgUpdate 1 4) 0 16)).updTo usActivating none
    if m.lifePhase = 5 then (nv, m.updSys (fun y => { y with goOn := true }), 0)
    else (nv, m.fwAsk 1, 0)

/-- The check of a download completes (R574). -/
def updVerify (m : Module) (nv : NonVol) : NonVol × Module :=
  if m.updSt ≠ usVerify then (nv, m)
  else if m.updPlan then
    let bs := m.readBytes nv m.updBase m.up.len
    let why := if (planOf magicPlan bs).isNone || bytesBad nv m.updBase m.up.len then 13 else if numAt bs 4 2 ≠ m.up.setFmt then 12 else 0
    if why ≠ 0 then
      (nv, (m.put pgUpdate UPDATE_REFUSE_REASON why).updTo usFailed (some UPDATE_EV_FAILED))
    else
      let m := m.updTo usVerified (some UPDATE_EV_VERIFIED)
      if m.flag pgUpdate UPDATE_CFG_AUTO_ACT then
        let (nv, m, why) := m.updActivate nv
        (nv, if why = 0 then m else m.updRefuse why 0)
      else (nv, m)
  else
    let sum := (List.range 8).flatMap (fun i => toBytes 4 (m.tbl pgUpdate 1 (6 + i)).toNat)
    if bytesBad nv 0 m.up.len || Config.sha256 (m.readBytes nv 256 (m.up.len - 256)) ≠ sum then
      (nv, m.updTo usFailed (some UPDATE_EV_FAILED))
    else
      let (nv, m) := m.setMark nv false
      let m := m.updTo usVerified (some UPDATE_EV_VERIFIED)
      if m.flag pgUpdate UPDATE_CFG_AUTO_ACT then
        let (nv, m, why) := m.updActivate nv
        (nv, if why = 0 then m else m.updRefuse why 0)
      else (nv, m)

/-- The download returns to IDLE without activation; an image that was being written stays broken
(R574, R575). -/
def updAbort (m : Module) : Module :=
  let st := m.updSt
  if st = usIdle || st = usActivating then m
  else
    let broken := !m.updPlan && (st = usOpen || st = usVerify || st = usFailed)
    let m := m.updTo usIdle (some UPDATE_EV_ABORTED)
    if broken then m.latchNow pgUpdate UPDATE_FLT_BROKEN else m

/-- The store of a plan is complete (R582). -/
def planStored (m : Module) (nv : NonVol) : NonVol × Module :=
  if m.updSt ≠ usActivating || !m.updPlan then (nv, m)
  else
    let c := m.up.copy
    let plan := m.readBytes nv (copyBase c + 4) m.up.len
    let inForce := m.get pgUpdate UPDATE_PLAN_STAT_VALID = 1 || m.get pgUpdate UPDATE_STATUS_PLAN_OLD = 1
    let g := if inForce then m.copyGen nv (1 - c) else 0
    let g := if g = 0xFFFF then 1 else g + 1
    let (nv, m) := m.writeBytes nv limpBase (limpBytes plan ((planOf magicPlan plan).getD []))
    let (nv, m) := m.writeBytes nv (copyBase c) (toBytes 4 (mkPair g).toNat)
    (nv, (m.fmtDiff nv m.up.setFmt).updTo usIdle (some UPDATE_EV_ACTIVATED))

/-- The activation of an image is over (R574): the restart's freeze has ended. -/
def updRan (m : Module) : Module :=
  if m.updSt = usActivating && !m.updPlan then m.updTo usIdle (some UPDATE_EV_ACTIVATED) else m

/-- The image in the MRAM passes the header check and its SHA-256 (R539 step 5, R589). -/
def imageGood (m : Module) (nv : NonVol) : Bool :=
  let h := m.readBytes nv 0 256
  imageHeader m nv h = 0 && !bytesBad nv 0 (256 + numAt h 12 4)
    && Config.sha256 (m.readBytes nv 256 (numAt h 12 4)) = (h.drop 24).take 32

/-! ### Commands (R569, R574, R588, R589) -/

/-- A START: the reason of its refusal, or READY for its owner. -/
def updStart (m : Module) (x : Nat) (plan : Bool) : Module × Nat :=
  if m.sys.noLoad || (plan && m.lifePhase = 5) then (m, 14)
  else if x ≠ 1 && x ≠ 2 then (m, 2)
  else if m.updSt ≠ usIdle then (m, if m.updOwner = x then 11 else 2)
  else if m.updHot then (m, 10)
  else
    let m := (m.put pgUpdate UPDATE_STATUS_TARGET (if plan then 1 else 0)).put pgUpdate
      UPDATE_STATUS_OWNER x
    let m := ((m.clearMap).setReg pgUpdate UPDATE_PROGRESS 0).setReg pgUpdate UPDATE_STAGED_VER 0
    let m := (List.range 64).foldl (fun m i => m.setTbl pgUpdate 1 i 0) m
    ((m.updUp (fun y => { y with len := 0 })).updTo usReady none, 0)

/-- The OP of UPDATE.CMD (R592): the module, and the reason of a refusal. -/
def updOp (m : Module) (nv : NonVol) (x op : Nat) : NonVol × Module × Nat :=
  if op = 1 then let r := m.updStart x false; (nv, r.1, r.2)
  else if op = 2 then let r := m.updStart x true; (nv, r.1, r.2)
  else if op = 3 then m.updActivate nv
  else if op = 4 then
    if m.updSt = usIdle || m.updSt = usActivating then (nv, m, 11)
    else if m.updOwner ≠ x then (nv, m, 2)
    else if m.updHot then (nv, m, 10)
    else (nv, m.updAbort, 0)
  else if m.lifePhase ≠ 5 || nv.mark then (nv, m, 11)
  else if m.updHot then (nv, m, 10)
  else if !m.imageGood nv then (nv, m, 11)
  else (nv, m.updSys (fun y => { y with goOn := true }), 0)

/-- A command, with its refusal shown. -/
def updCommand (m : Module) (nv : NonVol) (x op : Nat) : NonVol × Module × Nat :=
  let (nv, m, why) := m.updOp nv x op
  (nv, if why = 0 then m else m.updRefuse why 0, why)

end Module

/-- VERIFY_DONE (R574). -/
def execVerifyDone (s : State) : Host.Outcome State Fault Refusal :=
  act2Live s (fun nv m => m.updVerify nv)

/-- PLAN_STORE_DONE (R582). -/
def execPlanStoreDone (s : State) : Host.Outcome State Fault Refusal :=
  act2Live s (fun nv m => m.planStored nv)

/-- FREEZE_END (R28): every task has committed its first period. -/
def execFreezeEnd (s : State) : Host.Outcome State Fault Refusal :=
  actLive s (fun m => if m.thawDue then m.fwThaw.updRan else m)

/-- FW_LOST (R30): 50 ms after the halt the freeze has not ended, and the module ends it; not while SCHED is
stopped (R120). -/
def execFwLost (s : State) : Host.Outcome State Fault Refusal :=
  actLive s (fun m => if m.halted && m.sched.run then m.fwLose.updRan else m)

end Sys2Proof.Machine
end

