-- ==== Sys2Proof/Machine/Life.lean ====
section
/-! DEFINITION. The life cycle (R554 to R556, R564, R565). -/

namespace Sys2Proof.Machine

/-- A transition moves to the next state, or from any state to SCRAPPED (R555). -/
def lifeNext (now target : Nat) : Bool := now < 4 && (target = now + 1 || target = 4)

namespace Module

def updLc (m : Module) (f : LifeSt → LifeSt) : Module := { m with lc := f m.lc }

/-- Why an ARM is refused, 0 when it is not: target, then master (R555, R565). -/
def lifeArmBad (m : Module) (x : Nat) (auth : Bool) (target : Nat) : Nat :=
  if !lifeNext m.sys.life target || m.lc.target.isSome then 1
  else if x = 1 || (x = 2 && auth && m.sys.life = 1 && target = 2) then 0
  else 2

/-- Why a COMMIT is refused, 0 when it is not (R555, R557, R565). -/
def lifeBad (m : Module) (x : Nat) (auth : Bool) (target : Nat) : Nat :=
  let a := m.lifeArmBad x auth target
  if a ≠ 0 then a
  else if m.lc.arm ≠ some target then 3
  else if m.sys.restart ≠ .none then 8
  else if m.get pgSys SYS_STATUS_HOLD_OK = 0 then 4
  else if m.updHot then 5
  else if m.get pgSys SYS_STATUS_BROWN = 1 then 6
  else if m.updIsOpen || (3 ≤ target && m.get pgSeq SEQ_STATUS_STATE ≠ 0) then 7
  else 0

/-- A refusal is reported (R565). -/
def lifeRefuse (m : Module) (why : Nat) : Module :=
  (m.put pgLife LIFE_STATE_REFUSE why).raise pgLife LIFE_EV_REFUSED

/-- The arm stands for 1,000 ms. -/
def lifeArm (m : Module) (x : Nat) (auth : Bool) (target : Nat) : Module :=
  let a := m.lifeArmBad x auth target
  if a ≠ 0 then m.lifeRefuse a
  else (m.updLc (fun y => { y with arm := some target })).setReg pgLife LIFE_ARM_LEFT 1000

/-- The arm lapses. -/
def lifeDisarm (m : Module) : Module :=
  (m.updLc (fun y => { y with arm := none })).setReg pgLife LIFE_ARM_LEFT 0

/-- An accepted COMMIT begins with a wipe, cause life cycle (R495, R556). -/
def lifeCommit (m : Module) (nv : NonVol) (x : Nat) (auth : Bool) (target : Nat) : NonVol × Module :=
  let a := m.lifeBad x auth target
  if a ≠ 0 then (nv, m.lifeRefuse a)
  else
    let m := (m.lifeDisarm).updLc (fun y => { y with target := some target, wiped := false })
    (m.put pgLife LIFE_STATE_BUSY 1).wipeStart nv 6

/-- A valid write of LIFE.CMD: OP 1 ARM, 2 COMMIT (R565). -/
def lifeCmd (m : Module) (nv : NonVol) (x : Nat) (auth : Bool) (v : W32) : NonVol × Module :=
  let target := bits v 16 3
  if bits v 28 4 = 1 then (nv, m.lifeArm x auth target) else m.lifeCommit nv x auth target

/-- The fuse groups are blown and read back: the new state is in force (R556). -/
def lifeChanged (m : Module) (nv : NonVol) (target : Nat) : NonVol × Module :=
  let old := m.sys.life
  let nv := lifeBlown nv target
  let m := (m.updSys (fun x => { x with life := target })).updLc (fun _ => {})
  let m := (m.put pgSys SYS_STATUS_LIFE target).put pgLife LIFE_STATE_STATE target
  let m := (m.put pgLife LIFE_STATE_BUSY 0).put pgLife LIFE_LAST_FROM old
  let m := (m.put pgLife LIFE_LAST_TO target).put pgLife LIFE_LAST_FRAME (m.reg pgSched SCHED_MFRAME).toNat
  let m := if target = 2 then m.updRc (fun x => { x with marks := [], anchorMarked := false }) else m
  let m := (m.lifeRecord old target).raise pgLife LIFE_EV_CHANGED
  if target = 4 then m.moduleReset nv 4 0 3 0 else (nv, m)

end Module

/-- ARM_EXPIRY (R555). -/
def execArmExpiry (s : State) : Host.Outcome State Fault Refusal :=
  actLive s (fun m => if m.lc.arm.isSome then m.lifeDisarm else m)

/-- CHANGED (R556). -/
def execChanged (s : State) : Host.Outcome State Fault Refusal :=
  act2Live s (fun nv m =>
    match m.lc.target with
    | some target => if m.lc.wiped then m.lifeChanged nv target else (nv, m)
    | none => (nv, m))

end Sys2Proof.Machine
end

