-- ==== Sys2Proof/Machine/Blocks.lean ====
section
/-! DEFINITION. What the registers of each block do when the register fabric reaches them: EN going to
1 and to 0 (R76), COMMIT bits (R85), commands, SOFT_RST, and the clearing of fault latches (R79). -/

namespace Sys2Proof.Machine

/-- Refusal reasons of CFG_LAST (R107); 6 stands for a refused pair. -/
def whyStop : Nat := 1
def whyLock : Nat := 2
def whyEnc : Nat := 3
def whyBrown : Nat := 4
def whyAuto : Nat := 5
def whyPair : Nat := 6
def whyNoFw : Nat := 7

/-- The bits of EVT_EN that a page has (R78 and each chapter). -/
def evMask : Blk → Nat
  | .sys => 0x00003F1F
  | .clk => 0x0000071F
  | .sched => 0x0000071F
  | .place => 0x00007F1F
  | .phase => 0x00001F1F
  | .rail => 0x0003FF1F
  | .cle => 0x0000071F
  | .trace => 0x0000071F
  | .adccal => 0x003FF71F
  | .epe => 0x0000FF1F
  | .cap => 0x00001F1F
  | .grove => 0x00001F1F
  | .feed => 0x0003FF1F
  | .xing => 0x0001FF1F
  | .seq => 0x0000FF1F
  | .seqtbl => 0x0000011F
  | .wdog => 0x00000F1F
  | .batt => 0x003FFF1F
  | .therm => 0x0003FF1F
  | .net => 0x00000F1F
  | .netpair => 0x0000FF1F
  | .ptp => 0x00000F1F
  | .benuf => 0x0001FF1F
  | .twt => 0x00003F1F
  | .twc => 0x0001FF1F
  | .mem => 0x00001F1F
  | .heart => 0x00000F1F
  | .mbox => 0x03FFFF1F
  | .recd => 0x00001F1F
  | .bist => 0x0000071F
  | .life => 0x0000031F
  | .update => 0x00007F1F
  | _ => 0x0000001F

/-- CTRL bits beyond EN and SOFT_RST: AUTO_REL of SCHED (R139). -/
def ctrlBits (b : Blk) : Nat := if b = .sched then 0x100 else 0

/-- What a SOFT_RST leaves of the RO registers of a stopped block: those that other units own or that run
regardless of EN (DESIGN CHOICE, log entry 19). -/
def softKeeps (b : Blk) (off : Nat) : Bool :=
  match b with
  | .sched => off = SCHED_MFRAME || off = SCHED_TB_STAT
  | .place => off = PLACE_POINTS
  | .phase => off = PHASE_STATUS
  | .adccal => off = ADCCAL_FAIL_MAP0 || off = ADCCAL_FAIL_MAP1 || off = ADCCAL_SPARE_STAT
  | .therm => true
  | .seqtbl => true
  | .twc => off = TWC_STATUS
  | _ => false

/-- A key of an RWP register or table word. -/
def isPairKey (k : Nat) : Bool :=
  match blkOf (pageOfKey k) with
  | some (b, n) =>
    if k < 65536 then (match rowOf b (k % 256) with | some r => r.acc = .rwp | none => false)
    else (match tblRow b n ((k / 65536 - 1) % 16) (k % 65536) with
      | some r => r.acc = .rwp
      | none => false)
  | none => false

namespace Module

/-! ### EN (R76, R86) -/

/-- Why a write of EN is refused, 0 when it is not: `m0` is the module before the transaction (R137, R238,
R240, R310, R316, R326, R328). -/
def enBad (m m0 : Module) (b : Blk) (n : Nat) (on : Bool) : Nat :=
  match b with
  | .cle => if !on && (List.range 12).any (fun r => m0.rlSt r ≠ rsOff) then whyStop else 0
  | .xing => if !on && m0.xingSt ≠ xsIdle then whyStop else 0
  | .seq =>
    if on then (if m.seqMaskBad then whyEnc else 0)
    else if m0.seqSt ≠ sqOff && m0.seqSt ≠ sqOn then whyStop else 0
  | .rail => if m0.seqOwns (32 + n) then whyStop else 0
  | .trace => if on && m.traceBank.isNone then whyStop else 0
  | _ => 0

/-- EN goes from 0 to 1. -/
def blkStart (m : Module) (b : Blk) (p n : Nat) : Module :=
  match b with
  | .phase => (m.applyDefer p).phaseEnable n
  | .rail => m.railEnable n
  | _ =>
    let m := (m.applyDefer p).setReg p CTRL (setBit (m.reg p CTRL) 0)
    match b with
    | .sched => { m with sched := { m.sched with run := true, stopDue := false } }
    | .trace => let t := m.traceBank; m.updTr n (fun x => { x with bank := t })
    | .grove => m.groveOn
    | .benuf => m.groveUpdate
    | .feed => m.fdStart n
    | .xing => m.xingStart
    | .seq => m.seqStart
    | .wdog => m.wdStart
    | .batt => m.battStart n
    | .therm => m.thermRestart
    | _ => m

/-- EN goes from 1 to 0: pending values apply (R83) and the block stops. -/
def blkStop (m : Module) (b : Blk) (p n : Nat) : Module :=
  match b with
  | .phase => m.phaseDisable n
  | .rail => m.railDisable n
  | _ =>
    let m := m.setReg p CTRL (clrBit (m.reg p CTRL) 0)
    match b with
    | .sched => { m.applyOnStop p with sched := { m.sched with stopDue := m.sched.run } }
    | .trace => ((m.applyOnStop p).trStop n).updTr n (fun x => { x with bank := none })
    | .epe => (m.epeDrop).applyOnStop p
    | .cap => (m.capStop).applyOnStop p
    | .grove => m.groveOff
    | .benuf => (m.groveUpdate).applyOnStop p
    | .feed => m.fdStop n
    | .xing => m.xingStop
    | .wdog => (m.wdStop).applyOnStop p
    | .batt => m.battStop n
    | .ptp => m.ptpStop
    | .net => m.netStop n
    | .twc => (m.twcStop n).twcApply n
    | .place =>
      let was := m.flag p PLACE_CFG_LEAN
      let m := m.applyOnStop p
      if was && !m.flag p PLACE_CFG_LEAN then m.cluWakeAll else m
    | _ => m.applyOnStop p

/-! ### SOFT_RST (R76, R105) -/

/-- The hidden state of a stopped block as after a reset. -/
def softUnit (m : Module) (b : Blk) (n : Nat) : Module :=
  match b with
  | .sched => (List.range 12).foldl (fun m t => m.updTask t (fun x => { x with hw := rep 8 0 })) m
  | .phase => m.updPh n (fun x => { phEn := x.phEn, phPwm := x.phPwm })
  | .rail => (m.updRl n (fun _ => {})).railUpd n
  | .trace => m.updTr n (fun _ => {})
  | .adccal => { m with adc := { carried := m.adc.carried, spareBad := m.adc.spareBad } }
  | .epe => m.updEp (fun x => { wear := x.wear })
  | .cap => m.updCp (fun _ => {})
  | .grove => m.updGr (fun _ => {})
  | .feed => m.updFd n (fun x => { gate := x.gate })
  | .xing => m.updXg (fun _ => {})
  | .seq => m.updSq (fun x => { pg := x.pg })
  | .batt => m.updBt n (fun x => { first := x.first })
  | .ptp => m.updPt (fun _ => {})
  | .benuf => m.updBn (fun _ => {})
  | .twc => m.updPort n (fun _ => {})
  | .net => m.updNet (fun x => { x with rxq := upd x.rxq n (fun _ => []) })
  | .therm => m.thermSoft
  | _ => m

/-- SOFT_RST of a stopped block: its counter blocks, its RO registers and its hidden state are cleared;
its configuration and latches stay. -/
def softReset (m : Module) (b : Blk) (p n : Nat) : Module :=
  let m := m.clearCtrs p
  let ro := fun k => k < 65536 && decide (k / 256 = p) && decide (0x20 ≤ k % 256) && !softKeeps b (k % 256)
    && (match rowOf b (k % 256) with | some r => decide (r.acc = .ro) | none => false)
  ({ m with regs := m.regs.filter (fun kv => !ro kv.1) }).softUnit b n

/-! ### COMMIT (R85) -/

/-- COMMIT.SHED of a rail (R176): a snapshot whose tables miss the hysteresis is discarded. -/
def commitShed (m : Module) (r : Nat) : Module :=
  let p := pgRail + r
  match shedBad (m.val p RAIL_PH_RATING) (fun n => bits (m.shedWord r 0 n) 16 16)
      (fun n => bits (m.shedWord r 1 n) 16 16) with
  | some n => (m.put p RAIL_CAPACITY_SHED_BAD n).raise p RAIL_EV_SHED_REFUSED
  | none => m.commit p (inGroup p 2)

/-- COMMIT.POLL of a controller port (R473). -/
def commitPoll (m : Module) (p : Nat) : Module :=
  let old := (List.range 16).map (fun e => m.entW p e 0)
  let m := m.commit (pgTwc + p) (inGroup (pgTwc + p) 0)
  if m.en (pgTwc + p) then m else m.twcTable p old

/-- The bits of a COMMIT register: a group of which nothing has been written is left alone (R85); `wrote`
holds the keys that the transaction wrote (R357). -/
def blkCommit (m : Module) (b : Blk) (p n : Nat) (v : W32) (wrote : List Nat) : Module :=
  let on := fun (m : Module) (i : Nat) (f : Module → Module) => if bit v i && m.unc.any (inGroup p i) then f m else m
  match b with
  | .rail =>
    let m := on m 0 (fun m => m.commit p (inGroup p 0))
    let m := on m 1 (fun m => m.commit p (inGroup p 1))
    let m := on m 2 (fun m => m.commitShed n)
    if m.rlRuns n then m else m.railUpd n
  | .cle => (List.range (nRails m.sys.part)).foldl (fun m r => on m r (fun m => m.commit p (inGroup p r))) m
  | .epe => on m 0 (fun m => m.commitSrc)
  | .feed =>
    let m := on m 0 (fun m => m.commit p (inGroup p 0))
    on m 1 (fun m => m.commit p (inGroup p 1))
  | .xing => on m 0 (fun m => m.commit p (inGroup p 0))
  | .seqtbl =>
    let m := on m 0 (fun m => m.seqCommit 0)
    on m 1 (fun m => m.seqCommit 1)
  | .batt =>
    let m := on m 0 (fun m => m.commitOcv n)
    let m := on m 1 (fun m => m.commit p (inGroup p 1))
    let m := on m 2 (fun m => m.commit p (inGroup p 2))
    if bit v 3 then m.commitLearn n wrote else m
  | .twc => on m 0 (fun m => m.commitPoll n)
  | _ => m

/-! ### Commands -/

/-- FORGET and HELLO_NOW of BENUF.CMD (R430, R431). -/
def benufCmd (m : Module) (v : W32) : Module :=
  let m := if bit v 0 then m.memFree (bits v 8 6) else m
  let st := m.get pgBenuf BENUF_STATUS_STATE
  if bit v 16 && (st = 1 || st = 2) then m.sendHello 0 else m

/-- A write of a command register that acts on the module alone. -/
def blkCmd (m : Module) (b : Blk) (n : Nat) (v : W32) : Module :=
  let on := fun (m : Module) (i : Nat) (f : Module → Module) => if bit v i then f m else m
  match b with
  | .place => on m 8 (fun m => (m.bistAsk (bits v 0 2)).1)
  | .trace =>
    let m := on m 0 (fun m => m.trArm n)
    let m := on m 1 (fun m => m.trTrigger n 4)
    on m 2 (fun m => m.trStop n)
  | .adccal => m.calAsk v
  | .seq =>
    let m := on m 0 (fun m => m.seqRequest true 1)
    on m 1 (fun m => m.seqRequest false 1)
  | .wdog => m.wdKickWrite v
  | .batt =>
    let m := on m 0 (fun m => m.battAccept n)
    on m 1 (fun m => m.impAsk n)
  | .therm => on m 0 (fun m => m.calStart)
  | .netpair =>
    let m := on m 0 (fun m => m.netSwitch)
    on m 1 (fun m => m.netRepair (bits v 8 1))
  | .benuf => m.benufCmd v
  | _ => m

/-- The offset of a block's COMMIT register. -/
def commitOff : Blk → Option Nat
  | .rail => some RAIL_COMMIT
  | .cle => some CLE_COMMIT
  | .epe => some EPE_COMMIT
  | .feed => some FEED_COMMIT
  | .xing => some XING_COMMIT
  | .seqtbl => some SEQTBL_COMMIT
  | .batt => some BATT_COMMIT
  | .twc => some TWC_COMMIT
  | _ => none

/-! ### After a write -/

/-- What follows at once from a write that has been accepted; `old` is the value that the register read
before. -/
def wroteHook (m : Module) (b : Blk) (p n off : Nat) (old : W32) : Module :=
  match b with
  | .rail =>
    if off = RAIL_CFG then m.perTaps n
    else if off = RAIL_PH_RATING then m.railUpd n
    else if m.rlRuns n then m
    else if off = RAIL_DT then m.dtApply n
    else m.capUpd n
  | .phase =>
    if off = PHASE_CFG then m.phaseMoved n (bits old 0 6)
    else if off = PHASE_ISNS_SCALE then m.railUpd (m.railOf n) else m
  | .adccal =>
    if off = ADCCAL_MON_DIV then m.monWritten old
    else if off = ADCCAL_MON_CFG || off = ADCCAL_MON_EN then m.monWritten (m.reg p ADCCAL_MON_DIV)
    else m
  | .ptp => if off = PTP_PPS_CFG then m.ppsIdle else m
  | .sched =>
    if off = SCHED_TB_CFG then
      m.tbWritten (m.get pgPtp PTP_STATUS_LOCKED = 1 && bits old SCHED_TB_CFG_PTP_DISC.lo 1 = 1)
    else m
  | .place =>
    if off = PLACE_CFG && bit old 0 && !m.flag p PLACE_CFG_LEAN then m.cluWakeAll else m
  | .feed => if off = FEED_CFG then m.fdPairSee n else m
  | .cap => if off = CAP_LOCAL_CAP_H || off = CAP_LOCAL_CAP_L then m.capForce else m
  | _ => m

/-! ### Fault latches (R79) -/

/-- The cause of a latched fault is gone (R79 and each chapter). -/
def causeGone (m : Module) (b : Blk) (p n i : Nat) : Bool :=
  if i = FLT_PAIR then
    (m.live.filter (fun kv => pageOfKey kv.1 = p && isPairKey kv.1)).all (fun kv => pairOk kv.2)
  else if i = 1 then true
  else
    match b with
    | .sys => i = SYS_FLT_FW_LOST && m.get pgSys SYS_STATUS_FW_LOST = 0
    | .clk => if i = CLK_FLT_CLK_LOST then m.clk.lost.isEmpty
        else m.get pgClk CLK_SYNC_STAT_LOCKED = 1 || !m.flag pgClk CLK_SYNC_CFG_EN
    | .integ => decide (m.inWindow p i 0 < m.winThr (rkey p FLT_WIN))
    | .sched => 9 ≤ (m.task (i - 8)).clean && (m.task (i - 8)).cmts
    | .phase =>
      if i = PHASE_FLT_CBC then decide (9 ≤ (m.ctr p i 0 0).quiet)
      else if i = PHASE_FLT_SENSE then m.senseGround n ((m.phase n).ground = 1) = 0
      else !psSwitches (m.phSt n)
    | .rail =>
      let off := m.rlSt n = rsOff || m.rlSt n = rsLatched
      if i = RAIL_FLT_UV then off || !(m.rail n).uvLow else off
    | .cle => false
    | .epe => m.get pgEpe EPE_STATUS_DEFICIT = 0
    | .cap => decide (m.capPin < m.capC)
    | .grove => decide ((m.reg p GROVE_LAST_SEND).toNat ≤ 4000)
    | .feed => !fsDrive (m.fdSt n)
    | .xing => m.xingSt = xsIdle
    | .seq => if i = SEQ_FLT_HALT then m.seqSt ≠ sqHalted else m.seqSt = sqOff
    | .wdog => !m.autonomous
    | .batt =>
      if i = BATT_FLT_ID_BAD then (m.batt n).code ≠ 31 else m.btTsOk n
    | .therm =>
      if i = THERM_FLT_RING_EXCL then m.ringBack
      else if i = THERM_FLT_HOT then m.reg p THERM_HOT_MAP = 0
      else (List.range 16).all (fun j => m.tsMode j = 0 || m.tsValid j)
    | .net => m.portUp n
    | .netpair =>
      if i = NETPAIR_FLT_DOUBLE then m.eng 0 = esActive || m.eng 1 = esActive
      else m.eng (i - NETPAIR_FLT_ENG0) = esFailed
    | .ptp => m.ptpLocked
    | .benuf => !m.bn.dupHeard
    | .twc => !(m.port n).stuck
    | .mem => i = MEM_FLT_SHADOW_POISON && !m.mem.poison.any (fun k => 32 ≤ k / 8192 && k / 8192 < 48)
    | .heart => i = HEART_FLT_GLITCH || m.tamperGone
    | .bist => false
    | .update => m.get p UPDATE_STATUS_MARK = 0
    | _ => true

/-- What the clearing of a latch releases. -/
def latchGone (m : Module) (b : Blk) (n i : Nat) : Module :=
  match b with
  | .sched =>
    if i < 8 then m
    else (m.updTask (i - 8) (fun x => { x with
      fallback := false, watched := false, moveDue := false, fallDue := false })).groveEpoch
  | .phase => m.phaseRelease n i
  | .rail => if RAIL_FLT_UV ≤ i then m.railRelease n else m
  | .cap => if i = CAP_FLT_SUSTAINED then m.capDrive else m
  | .feed => m.fdRelease n i
  | .xing =>
    if i = XING_FLT_INPUT_UNSTABLE then (m.put pgXing XING_STATUS_UNSTABLE 0).xingJudge else m
  | .therm => if i = THERM_FLT_RING_EXCL then m.ringReadmit else m
  | .netpair => if i = NETPAIR_FLT_ENG0 || i = NETPAIR_FLT_ENG1 then m.netRepair (i - NETPAIR_FLT_ENG0) else m
  | .benuf => if i = BENUF_FLT_DUP_SHELF then (m.put pgBenuf BENUF_STATUS_DUP 0).groveUpdate else m
  | .adccal =>
    if i = ADCCAL_FLT_CONV_FAIL then m.convRelease
    else if i = ADCCAL_FLT_SPARE_FAIL then m.spareRelease else m
  | _ => m

/-- A latch bit whose cause is gone is cleared: its counter block is emptied, the clearing recorded
(R79, R528). -/
def clearLatch (m : Module) (b : Blk) (p n i : Nat) : Module :=
  if !m.latched p i || !m.causeGone b p n i then m
  else
    let m := (m.setReg p FLT_STAT (clrBit (m.reg p FLT_STAT) i)).clearCtr p i
    (m.recFault 0x0102 p i 0 false).latchGone b n i

/-- A write of FLT_STAT. -/
def clearLatches (m : Module) (b : Blk) (p n : Nat) (v : W32) : Module :=
  (List.range 32).foldl (fun m i => if bit v i then m.clearLatch b p n i else m) m

end Module

end Sys2Proof.Machine
end

