-- ==== Sys2Proof/Machine/Bus.lean ====
section
/-! DEFINITION. The register fabric: staged transactions and their judging (R69 to R92, R337, R453), and
reads with the ports that latch, pop or advance (R80, R443, R531, R537). -/

namespace Sys2Proof.Machine

/-- A register or table window that a write reaches: its row. -/
def regAt (m : Module) (p off : Nat) : Option (Blk × Nat × RegRow) :=
  if !pagePresent m.sys.part p then none
  else
    match blkOf p with
    | none => none
    | some (b, n) =>
      if regAbsent m.sys.part b off then none
      else match rowOf b off with
        | some r => some (b, n, r)
        | none => none

/-- The block has a table window at 0x20 (R80). -/
def hasTbl (b : Blk) : Bool := (tblRow b 0 0 0).isSome

/-- What a write leaves of a value: bits that do not exist are ignored (R7); a pair stays a pair. -/
def maskVal (acc : Acc) (mask : Nat) (v : W32) : W32 :=
  let w := v &&& BitVec.ofNat 32 mask
  if acc = .rwp then mkPair (bits w 16 16) else w

/-- What a write of a register of the part leaves of a value: bits of absent resources are ignored, and fixed
bits stay (R2, R281). -/
def regVal (part : Nat) (b : Blk) (off : Nat) (row : RegRow) (v : W32) : W32 :=
  maskVal row.acc (row.mask &&& partBits part b off) v ||| BitVec.ofNat 32 (partFixed part b off)

/-- The position of a master in the window of a page (R81). -/
def selOf (m : Module) (p x : Nat) : Nat := getK (fun _ => 0) m.sel (16 * p + x)
def idxOf (m : Module) (p x : Nat) : Nat := getK (fun _ => 0) m.idx (16 * p + x)

/-- A staged transaction while its writes are judged (R86): the module before it and as it stands, the
writing master, whether its frame was authenticated (R437), all its writes, whether brown-out refuses
it whole, the first refusal, and what applies after every other write: CTRL, LOCK, rings and answers of
mailboxes, a placed read position, and the words of the SUBMIT and BLK_DATA ports. `wrote` are the
keys of accepted writes. -/
structure Txn where
  nv : NonVol
  m : Module
  m0 : Module
  x : Nat
  auth : Bool
  all : List RegWr
  brown : Bool
  why : Nat := 0
  ctrl : List (Nat × W32) := []
  locks : List (Nat × W32) := []
  rings : List (Nat × W32) := []
  acks : List (Nat × W32 × W32) := []
  place : Bool := false
  words : List W32 := []
  blk : List W32 := []
  wrote : List Nat := []
  deriving DecidableEq, Repr

namespace Module

/-- A refused write is reported and counted; CFG_REFUSED is recorded once per window of INTEG.FLT_WIN
(R84, R87, R107). -/
def cfgRefused (m : Module) (x addr why : Nat) : Module :=
  let m := m.raise (addr / 256) EV_CFG_REFUSED
  let m := m.setReg pgInteg INTEG_CFG_LAST (BitVec.ofNat 32 (x * 2 ^ 28 + why * 2 ^ 24 + addr))
  let m := m.countReg pgInteg INTEG_CFG_CNT 1
  let due := match m.cfgRec with | some n => decide (9 ≤ n) | none => true
  if due then
    { m.recMake 0x0103 (addr / 256 * 256) 8 0
        (wordBytes [m.reg pgInteg INTEG_CFG_LAST, m.reg pgInteg INTEG_CFG_CNT]) false with cfgRec := some 0 }
  else m

/-- A refused pair is reported and counted against INTEG.FLT_WIN (R91, R106). -/
def pairRefused (m : Module) (x addr : Nat) : Module :=
  let m := m.raise (addr / 256) EV_PAIR_REFUSED
  let m := m.count pgInteg ⟨INTEG_PAIR_ERR, 16, 16⟩ 1
  let m := m.setReg pgInteg INTEG_PAIR_LAST (BitVec.ofNat 32 (x * 2 ^ 28 + addr))
  (m.fault pgInteg INTEG_FLT_PAIR_WRITE 0 (rkey pgInteg FLT_WIN)).1

/-- A new fault window waits for the bucket boundary; the value in force cancels a waiting one (R104). -/
def winWrite (m : Module) (k : Nat) (v : W32) : Module :=
  let m := { m.setKey k v with ovr := insKey m.ovr k }
  if m.liveKey k = v then { m with winWait := m.winWait.filter (fun kv => kv.1 ≠ k) }
  else { m with winWait := putK m.winWait k v }

end Module

namespace Txn

/-- The module after an effect. -/
def on (t : Txn) (f : Module → Module) : Txn := { t with m := f t.m }

/-- A write is refused for a reason; the transaction remembers its first one. -/
def refuse (t : Txn) (addr why : Nat) : Txn :=
  { t with
    m := if why = whyPair then t.m.pairRefused t.x addr else t.m.cfgRefused t.x addr why
    why := if t.why = 0 then why else t.why }

/-- Another write of the transaction is a valid pair for an address. -/
def hasPair (t : Txn) (addr : Nat) : Bool := t.all.any (fun w => w.addr = addr && pairOk w.val)

/-- The pair rule (R91): the halves complement, and of a critical 32-bit value both registers are written
with valid pairs. -/
def pairFits (t : Txn) (b : Blk) (p off : Nat) (v : W32) : Bool :=
  pairOk v && (match pair32Hi b off with
    | some hi => t.hasPair (rkey p hi) && t.hasPair (rkey p (hi + 4))
    | none => true)

/-- The reason that refuses a write of a register or table word, 0 for none: locked, Stop, pair, encoding, in
this order (DEDUCED, log entry 12: the spec gives no order) (R84, R88, R91, R92). -/
def judge (t : Txn) (p : Nat) (acc : Acc) (eff : Eff) (pairs locks enc : Bool) : Nat :=
  if locks && (acc = .rw || acc = .rwp) && bit (t.m.reg p LOCK) 0 then whyLock
  else if eff = .stop && t.m0.en p then whyStop
  else if acc = .rwp && !pairs then whyPair
  else if !enc then whyEnc
  else 0

/-- A write that `judge` refuses: a bad pair is reported as such whatever else refuses it (R84, R89, R91). -/
def turnDown (t : Txn) (addr : Nat) (acc : Acc) (pairs : Bool) (why : Nat) : Txn :=
  let t := t.refuse addr why
  if why ≠ whyPair && acc = .rwp && !pairs then t.refuse addr whyPair else t

/-- An accepted write of a key takes effect. -/
def accept (t : Txn) (k : Nat) (v : W32) : Txn :=
  { t with m := t.m.applyWrite k v, wrote := t.wrote ++ [k] }

/-! ### Mailboxes (R503 to R509) -/

/-- The payload of a channel is written by its sender while it is free. -/
def mailWord (t : Txn) (p c i : Nat) (v : W32) : Txn :=
  if t.m0.chSender c ≠ t.x then t.on (fun m => m.chDenied p)
  else if t.m0.chOccupied c then t.on (fun m => m.chBusy p)
  else t.on (fun m => m.setBoth (tkey p (c % 8) i) v)

/-- A binding write (R505). -/
def mailBind (t : Txn) (p c addr : Nat) (v : W32) : Txn :=
  if !mayBind t.x then t.on (fun m => m.chDenied p)
  else if t.m.chBound c then t.refuse addr whyLock
  else if !bindOk v then t.refuse addr whyEnc
  else t.on (fun m => m.setBoth (tkey p 8 (c % 8)) v)

/-- A ring (R506, R509), and the registers of an answer (R507). -/
def mailReg (t : Txn) (p n addr : Nat) (v : W32) : Txn :=
  let k := (addr % 256 - MBOX_DOORBELL0) / 12
  let c := 8 * n + k
  let h := MBOX_ACK_H0 + 12 * k
  let l := MBOX_ACK_L0 + 12 * k
  let val := fun off => match t.all.find? (fun w => w.addr = rkey p off) with | some w => w.val | none => 0
  if addr % 256 = MBOX_DOORBELL0 + 12 * k then
    if t.m0.chSender c ≠ t.x then t.on (fun m => m.chDenied p)
    else if t.m0.chOccupied c then t.on (fun m => m.chBusy p)
    else if !inRng v 16 7 1 64 then t.refuse addr whyEnc
    else { t with rings := t.rings ++ [(c, v)] }
  else if t.m0.chReceiver c ≠ t.x then t.on (fun m => m.chDenied p)
  else if !t.m0.chAckOk c (val l) then t.refuse addr whyEnc
  else if addr % 256 = l then { t with acks := t.acks ++ [(c, val h, val l)] }
  else t

/-! ### Single writes -/

/-- A write of TBL_DATA (R80 to R82). -/
def tblWrite (t : Txn) (b : Blk) (p n addr : Nat) (v : W32) : Txn :=
  let s := selOf t.m p t.x
  let i := idxOf t.m p t.x
  match tblRow b n s i with
  | none => t.on (fun m => m.raise p EV_TBL_RANGE)
  | some row =>
    let t := t.on (fun m => { m with idx := putK m.idx (16 * p + t.x) (i + 1) })
    if tblAbsent t.m.sys.part b s i || row.acc = .ro then t
    else
      let w := maskVal row.acc row.mask v
      let why := t.judge p row.acc row.eff (pairOk v) true (encTblOk b s i w)
      if why ≠ 0 then t.turnDown addr row.acc (pairOk v) why
      else if b = .mbox then (if s = 8 then t.mailBind p (8 * n + i) addr w else t.mailWord p (8 * n + s) i w)
      else
        let t := t.accept (tkey p s i) w
        if b = .adccal then t.on (fun m => m.monWritten (m.reg p ADCCAL_MON_DIV)) else t

/-- SYS.CMD (R561). -/
def sysCmd (t : Txn) (addr : Nat) (v : W32) : Txn :=
  let op := bits v 16 16
  if op = 1 then
    if t.m.fwCan then t.on (fun m => m.fwAsk 2) else t.refuse addr whyNoFw
  else t.on (fun m => m.updSys (fun x => { x with resetDue := some (4, op - 1) }))

/-- A write of a WO register. -/
def cmdWrite (t : Txn) (b : Blk) (p n addr : Nat) (v : W32) : Txn :=
  let off := addr % 256
  if Module.commitOff b = some off then t.on (fun m => m.blkCommit b p n v t.wrote)
  else
    match b with
    | .sys =>
      if !pairOk v then t.refuse addr whyPair
      else if !encOk t.m.sys.part b off v then t.refuse addr whyEnc
      else t.sysCmd addr v
    | .heart =>
      if v = 0x5A5AA5A5 then
        let r := t.m.wipeStart t.nv 7
        { t with nv := r.1, m := r.2 }
      else t
    | .recd => { t with words := t.words ++ [v] }
    | .update => { t with blk := t.blk ++ [v] }
    | _ => t.on (fun m => m.blkCmd b n v)

/-- A write of a register that holds its value. -/
def regWrite (t : Txn) (b : Blk) (p n addr : Nat) (row : RegRow) (v : W32) : Txn :=
  let off := addr % 256
  let old := t.m.reg p off
  let w := regVal t.m.sys.part b off row v
  let free := b = .recd && (off = REC_RD_SEQ_H || off = REC_RD_SEQ_L)
  let pairs := if b = .mbox && off ≠ FLT_WIN then
      pairOk v && ((off - MBOX_DOORBELL0) % 12 = 0
        || (t.hasPair (rkey p (off - (off - MBOX_DOORBELL0) % 12 + 4))
          && t.hasPair (rkey p (off - (off - MBOX_DOORBELL0) % 12 + 8))))
    else t.pairFits b p off v
  let why := t.judge p row.acc row.eff pairs (!free) (encOk t.m.sys.part b off w)
  if why ≠ 0 then t.turnDown addr row.acc pairs why
  else if isWin b off then t.on (fun m => m.winWrite (rkey p off) w)
  else if b = .mbox then t.mailReg p n addr w
  else if b = .life ∧ off = LIFE_CMD then
    let r := t.m.lifeCmd t.nv t.x t.auth w
    { t with nv := r.1, m := r.2 }
  else if b = .update ∧ off = UPDATE_CMD then
    let r := t.m.updCommand t.nv t.x (bits w 16 16)
    { t with nv := r.1, m := r.2.1 }
  else if b = .sys ∧ off = SYS_PROFILE then
    t.on (fun m => (m.setBoth (rkey p off) w).profile (bits w 0 2))
  else
    let t := (t.accept (rkey p off) w).on (fun m => m.wroteHook b p n off old)
    if free && off = REC_RD_SEQ_L then { t with place := true } else t

/-- A word for the SUBMIT port that is refused refuses its submission (R535). -/
def submitGone (t : Txn) (addr : Nat) : Txn :=
  if addr = rkey pgRec REC_SUBMIT then t.on (fun m => m.raise pgRec REC_EV_SUBMIT_REFUSED) else t

/-- One write of a transaction: what the fabric refuses first, then the register (R69 to R92). -/
def write (t : Txn) (w : RegWr) : Txn :=
  let p := w.addr / 256
  let off := w.addr % 256
  match regAt t.m p off with
  | none => t
  | some (b, n, row) =>
    if t.brown then (t.refuse w.addr whyBrown).submitGone w.addr
    else if t.m0.autonomous && (t.x = 1 || t.x = 2) && b ≠ .sys && b ≠ .wdog then
      (t.refuse w.addr whyAuto).submitGone w.addr
    else if hasTbl b && off = TBL_DATA then t.tblWrite b p n w.addr w.val
    else if row.acc = .ro then t
    else if hasTbl b && off = TBL_SEL then
      t.on (fun m => { m with sel := putK m.sel (16 * p + t.x) w.val.toNat })
    else if hasTbl b && off = TBL_IDX then
      t.on (fun m => { m with idx := putK m.idx (16 * p + t.x) w.val.toNat })
    else if off = EVT_RAW then t.on (fun m => m.setReg p EVT_RAW (m.reg p EVT_RAW &&& ~~~w.val))
    else if off = EVT_EN then
      t.on (fun m => m.setReg p EVT_EN (w.val &&& BitVec.ofNat 32 (evMask b &&& partBits m.sys.part b off)))
    else if off = FLT_STAT then t.on (fun m => m.clearLatches b p n w.val)
    else if off = LOCK then { t with locks := t.locks ++ [(p, w.val)] }
    else if off = CTRL then { t with ctrl := t.ctrl ++ [(p, w.val)] }
    else if row.acc = .wo then t.cmdWrite b p n w.addr w.val
    else t.regWrite b p n w.addr row w.val

/-! ### What applies after every other write -/

/-- A write of CTRL: SOFT_RST of a stopped block, block bits, then EN (R76, R86, R88). -/
def ctrlWrite (t : Txn) (p : Nat) (v : W32) : Txn :=
  match blkOf p with
  | none => t
  | some (b, n) =>
    let addr := rkey p CTRL
    let was := t.m.en p
    let want := if alwaysOn b then true else bit v 0
    let soft := bit v 1
    if bit (t.m.reg p LOCK) 1 && (want ≠ was || soft) then t.refuse addr whyLock
    else
      let t :=
        if !soft then t
        else if bit (t.m.reg p LOCK) 0 then t.refuse addr whyLock
        else if t.m0.en p || was then t.refuse addr whyStop
        else t.on (fun m => m.softReset b p n)
      let old := (t.m.reg p CTRL).toNat &&& ctrlBits b
      let new := v.toNat &&& ctrlBits b
      let t :=
        if old = new then t
        else if bit (t.m.reg p LOCK) 0 then t.refuse addr whyLock
        else t.on (fun m => m.setReg p CTRL (BitVec.ofNat 32 ((m.reg p CTRL).toNat - old + new)))
      if want = was then t
      else
        let why := t.m.enBad t.m0 b n want
        if why ≠ 0 then t.refuse addr why
        else t.on (fun m => if want then m.blkStart b p n else m.blkStop b p n)

/-- EN of the engine and of the phases come into force with those of the rails that need them (R86). -/
def ctrlOrder (l : List (Nat × W32)) : List (Nat × W32) :=
  let cle := fun (x : Nat × W32) => decide (x.1 = pgCle) && bit x.2 0
  let ph := fun (x : Nat × W32) => decide (pgPhase ≤ x.1) && decide (x.1 < pgPhase + 48) && bit x.2 0
  l.filter cle ++ l.filter ph ++ l.filter (fun x => !cle x && !ph x)

/-- The words that a transaction wrote to BLK_DATA are one block of master 0x1 (R571). -/
def takeBlock (t : Txn) : Txn :=
  if t.blk.isEmpty || t.x ≠ 1 then t
  else
    let ofs := t.m.get pgUpdate ⟨UPDATE_BLK_OFS, 0, 20⟩
    let r := t.m.block t.nv t.x ofs (wordBytes (t.blk.take 64))
    let t := { t with nv := r.1, m := r.2.1 }
    if r.2.2 = 0 then
      t.on (fun m => m.setBoth (rkey pgUpdate UPDATE_BLK_OFS)
        (BitVec.ofNat 32 ((ofs + 4 * (t.blk.take 64).length) % 2 ^ 20)))
    else t

/-- The end of a transaction: ports, mailboxes, then CTRL, and LOCK last (R86, R506, R548). -/
def finish (t : Txn) : Txn :=
  let t := t.on (fun m => Module.submitAll t.x t.words.length t.words m)
  let t := if t.place then t.on (fun m => m.recPlace t.x) else t
  let t := t.takeBlock
  let t := t.on (fun m => t.rings.foldl (fun m r => m.chRings r.1 r.2) m)
  let t := t.on (fun m => t.acks.foldl (fun m a => m.chAck a.1 a.2.1 a.2.2) m)
  let t := (ctrlOrder t.ctrl).foldl (fun t c => t.ctrlWrite c.1 c.2) t
  t.locks.foldl (fun t l =>
    t.on (fun m => m.setReg l.1 LOCK (m.reg l.1 LOCK ||| (l.2 &&& 3)))) t

end Txn

/-! ### Access (R48, R70, R554) -/

namespace Module

/-- A cluster under test is isolated from the scratchpad and the register fabric (R128). -/
def cluServed (m : Module) (x : Nat) : Bool := !isCluster x || nth 0 m.sched.clu (x - 4) ≠ 3

/-- A master that the part has (R81), and that the fabric reaches. -/
def masterHere (m : Module) (x : Nat) : Bool :=
  1 ≤ x && x ≤ 10 && (!isCluster x || x < 4 + nClusters m.sys.part) && m.cluServed x

/-- The register fabric serves a master: Rootstock always, the others once start-up is past (DESIGN
CHOICE). -/
def busOpen (m : Module) (x : Nat) : Bool :=
  m.powered && m.masterHere x && (x = 8 || m.lifePhase = 4 || m.lifePhase = 5)

/-- The fabric serves a master at some addresses: the SYS page is served from the self-test on, so that a
restart command is answered where no firmware runs (R24, R561). -/
def busServes (m : Module) (x : Nat) (as : List Nat) : Bool :=
  m.busOpen x || (m.powered && m.masterHere x && 1 ≤ m.lifePhase && as.all (fun a => a / 256 = pgSys))

/-- Debug access is refused in this life-cycle state (R554). -/
def busDenied (m : Module) (x : Nat) : Bool := x = 3 && m.sys.life ≠ 0 && m.sys.life ≠ 3

/-- A staged transaction of a master (R86): the first refusal is 0 when none of its writes was refused.
`brown` is whether brown-out held at any moment of it (R453). -/
def transact (m : Module) (nv : NonVol) (x : Nat) (auth brown : Bool) (ws : List RegWr) :
    NonVol × Module × Nat :=
  let bad := (x = 1 || x = 2 || x = 3) && (brown || m.get pgSys SYS_STATUS_BROWN = 1)
  let t : Txn := { nv := nv, m := m, m0 := m, x := x, auth := auth, all := ws, brown := bad }
  let t := (ws.foldl (fun t w => t.write w) t).finish
  (t.nv, t.m, t.why)

/-- One write of a master that no wider transaction holds: a bus error for refused debug access and for an
unaligned address (R70). `auth` is whether the frame that carries it was authenticated (R437). -/
def busWrite (m : Module) (nv : NonVol) (x : Nat) (auth : Bool) (ws : List RegWr) : NonVol × Module :=
  if !m.busServes x (ws.map (·.addr)) then (nv, m)
  else if m.busDenied x || ws.any (fun w => w.addr % 4 ≠ 0 || 65536 ≤ w.addr) then
    (nv, { m with out := { err := true } })
  else
    let r := m.transact nv x auth false ws
    (r.1, r.2.1)

/-! ### Reads -/

/-- A word of CLE table 3, the loop state of a slot (R239). -/
def slotWord (m : Module) (i : Nat) : W32 :=
  match m.cle.slots.find? (fun s => s.idx = i / 4) with
  | none => 0
  | some s =>
    let kind := s.kind
    let j := s.inst
    let st := if kind = 1 then (m.rail j).vInt else if kind = 2 then (m.phase j).bState else (m.rail j).cInt
    let ds := if kind = 1 then (m.rail j).vDer else 0
    let out := if kind = 1 then (m.rail j).u else if kind = 2 then (m.phase j).db else (m.rail j).dRail
    match i % 4 with
    | 0 => BitVec.ofNat 32 (wrapInt 40 st / 2 ^ 32)
    | 1 => BitVec.ofNat 32 (wrapInt 40 st)
    | 2 => BitVec.ofNat 32 (wrapInt 32 (satInt 32 ds))
    | _ => BitVec.ofNat 32 (wrapInt 16 (satInt 16 out))

/-- A word of the duplicate table (R413). -/
def dupWord (m : Module) (i : Nat) : W32 :=
  match m.net.dup.find? (fun d => d.slot = i / 4) with
  | none => 0
  | some d =>
    match i % 4 with
    | 0 => BitVec.ofNat 32 (d.mac / 65536)
    | 1 => BitVec.ofNat 32 (d.mac % 65536 * 65536 + d.h % 65536)
    | 2 => d.w
    | _ => BitVec.ofNat 32 (min 65535 d.age + (if d.seenA then 2 ^ 16 else 0)
        + (if d.seenB then 2 ^ 17 else 0) + 2 ^ 31)

/-- A word of a table as master `x` reads it. -/
def tblRead (m : Module) (nv : NonVol) (b : Blk) (p n x t i : Nat) : W32 :=
  if tblAbsent m.sys.part b t i then 0
  else
    match b, t with
    | .sched, 0 => m.taskWord i
    | .cle, 3 => m.slotWord i
    | .trace, 0 => m.trWord n i
    | .rail, 0 => if i = 0 then 0 else m.shedWord n 0 i
    | .rail, 1 => if i = 0 then 0 else m.shedWord n 1 i
    | .integ, 0 => setBits (m.tbl p 0 i) 8 8 (min 255 (m.inWindow i FLT_PAIR 0))
    | .mem, 0 =>
      if i % 2 = 1 && bit (m.tbl p 0 i) 31 then setBits (m.tbl p 0 i) 0 8 (min 255 (m.inWindow p 32 (i / 2)))
      else m.tbl p 0 i
    | .place, 2 => m.pointVal i
    | .netpair, 0 => m.dupWord i
    | .recd, 0 => rootWord nv i
    | .recd, 1 =>
      match blkOf (i / 8) with
      | some (c, _) => BitVec.ofNat 32 (nth 0 (ctxOffsets c) (i % 8))
      | none => 0
    | .mbox, 8 => m.tbl p 8 i
    | .mbox, _ =>
      if m.chSender (8 * n + t) = x || m.chReceiver (8 * n + t) = x then m.tbl p t i else 0
    | _, _ => m.tbl p t i

/-- A word that a master reads from TBL_DATA, and the module after the access (R80). R80 speaks of an index
beyond the selected table; a TBL_SEL value that selects no table of the block is taken as a table of no
words: TBL_RANGE, reads 0, no advance (DESIGN CHOICE, log entry 141). -/
def tblPop (m : Module) (nv : NonVol) (b : Blk) (p n x : Nat) : W32 × Module :=
  let s := selOf m p x
  let i := idxOf m p x
  match tblRow b n s i with
  | none => (0, m.raise p EV_TBL_RANGE)
  | some _ =>
    let m' := { m with idx := putK m.idx (16 * p + x) (i + 1) }
    (m.tblRead nv b p n x s i, if b = .trace && s = 0 then m'.trRead n i else m')

/-- A word latched for a master by the read that latches it (R443, R537). -/
def latched32 (m : Module) (x addr : Nat) : W32 := getK (fun _ => 0) m.latch (65536 * x + addr)
def setLatch (m : Module) (x addr : Nat) (v : W32) : Module :=
  { m with latch := putK m.latch (65536 * x + addr) v }

/-- A read of a register by a master, with what it pops or latches; `accepted` is whether the reader took
the word (R455). -/
def busRead (m : Module) (nv : NonVol) (x addr : Nat) (accepted : Bool) : W32 × Module :=
  let p := addr / 256
  let off := addr % 256
  match regAt m p off with
  | none => (0, m)
  | some (b, n, row) =>
    if row.acc = .wo then (0, m)
    else if hasTbl b && off = TBL_DATA then
      (if accepted then m.tblPop nv b p n x else ((m.tblPop nv b p n x).1, m))
    else if hasTbl b && off = TBL_SEL then (BitVec.ofNat 32 (selOf m p x), m)
    else if hasTbl b && off = TBL_IDX then (BitVec.ofNat 32 (idxOf m p x), m)
    else if b = .recd && off = REC_RD_DATA then m.recRead nv x accepted
    else if b = .recd && off = REC_OPTIME_H then
      (m.peek p off, m.setLatch x (rkey p REC_OPTIME_L) (BitVec.ofNat 32 m.rc.optime))
    else if b = .recd && off = REC_OPTIME_L then (m.latched32 x addr, m)
    else if b = .ptp && off = PTP_TAI_S then
      (m.peek p off, m.setLatch x (rkey p PTP_TAI_NS) (m.reg p PTP_TAI_NS))
    else if b = .ptp && off = PTP_TAI_NS then (m.latched32 x addr, m)
    else (m.peek p off, m)

/-- The register reads a word of MRAM that is poisoned (R99, R454), or while the NVM clock is lost (R19): a
record that is not in the stage, or a word of the Root log. -/
def busPoison (m : Module) (nv : NonVol) (x addr : Nat) : Bool :=
  let dark := m.clk.lost.contains 7
  if addr = rkey pgRec REC_RD_DATA then
    let (seq, w) := nth (0, 0) m.rc.rdPos x
    !m.rc.stage.any (fun r => r.seq = seq) && seq < m.rc.next
      && (dark || nv.mpoison.contains (ringWord0 + 8 * (seq % 16384) + (if w < 16 then w / 2 else 0)))
  else if addr = rkey pgRec TBL_DATA then
    selOf m pgRec x = 0 && idxOf m pgRec x < 8192
      && (dark || nv.mpoison.contains (rootWord0 + idxOf m pgRec x / 2))
  else false

end Module

end Sys2Proof.Machine
end

