-- ==== Sys2Proof/Machine/Startup.lean ====
section
/-! DEFINITION. Start-up (R539 to R552): self-test report, image check, plan load, Sapling,
adopt-then-drive and release, and what follows a transaction that asked for a reset or for start-up to
go on (R561, R589). -/

namespace Sys2Proof.Machine

/-! ### Self-test (R542 to R545) -/

/-- A failed unit exists on the part (R2, R3). -/
def unitHere (part : Nat) : UnitFail → Bool
  | .cluster c => c < nClusters part
  | .bank b => b < nBanks part
  | .shadow b => b < 16
  | .mram b => b < 16
  | .lane k => k < nLanes part
  | .solver => true
  | .conv c => chanPresent part c
  | .spareConv => true
  | .phase n => n < nPhases part
  | .vsns r => r < nRails part
  | .feed c => c < nFeeds part
  | .engine e => e < 2

/-- The ESS_CODE that a kind of unit can bring about, 0 for kinds that never are essential (R544, R563). -/
def unitCode : UnitFail → Nat
  | .cluster _ => 1
  | .bank _ => 2
  | .shadow _ => 3
  | .mram _ => 4
  | .lane _ => 5
  | .solver => 6
  | .engine _ => 7
  | _ => 0

/-- How many failures of the kind make an essential failure (R544). -/
def essLimit (part code : Nat) : Nat :=
  match code with
  | 1 => 2
  | 2 => nBanks part / 8 + 1
  | 5 => nLanes part
  | 7 => 2
  | _ => 1

/-- A code stands for an essential failure among the failed units. -/
def essential (part : Nat) (fs : List UnitFail) (code : Nat) : Bool :=
  code ≠ 0 && essLimit part code ≤ (fs.filter (fun u => unitCode u = code)).length

/-- The codes of the essential failures, rising. -/
def essCodes (part : Nat) (fs : List UnitFail) : List Nat :=
  [1, 2, 3, 4, 5, 6, 7].filter (essential part fs)

/-- UNIT of a SELFTEST reset: the lowest MRAM bank that failed, from 64 on (R499, R559). -/
def mramUnit (fs : List UnitFail) : Nat :=
  fs.foldl (fun a u => match u with | .mram b => min a (64 + b) | _ => a) 255

namespace Module

/-- A unit is reported in BIST and excluded (R544, R563). Converters follow in `selfUnits`. -/
def failUnit (m : Module) : UnitFail → Module
  | .cluster c =>
    let m := m.put pgBist ⟨BIST_CLUSTERS, c, 1⟩ 1
    { m with sched := { m.sched with clu := upd m.sched.clu c (fun _ => 4) } }
  | .bank b =>
    let m := (m.put pgBist ⟨BIST_BANK_FAIL, b, 1⟩ 1).put pgMem ⟨MEM_EXCL_MAP, b, 1⟩ 1
    m.setTbl pgMem 2 b (setBit (m.tbl pgMem 2 b) 8)
  | .shadow _ => m.put pgBist BIST_MISC_SHADOW 1
  | .mram _ => m.put pgBist BIST_MISC_MRAM 1
  | .lane k =>
    let m := m.put pgBist ⟨BIST_MISC, 4 + k, 1⟩ 1
    let m := m.put pgCle ⟨CLE_LANE_USE0 + 4 * k, 31, 1⟩ 1
    let m := { m with cle := { m.cle with bad := m.cle.bad ++ [k] } }
    (m.raise pgCle CLE_EV_LANE_FAIL).latchNow pgCle CLE_FLT_LANE_FAIL
  | .solver => m.put pgBist BIST_MISC_SOLVER 1
  | .conv c => m.put pgBist ⟨BIST_CONV_FAIL0 + 4 * (c / 32), c % 32, 1⟩ 1
  | .spareConv => (m.put pgBist BIST_MISC_SPARE 1).spareFail
  | .phase n =>
    (m.put pgBist ⟨BIST_PHASE_FAIL0 + 4 * (n / 32), n % 32, 1⟩ 1).put (pgPhase + n) PHASE_STATUS_STATE psFailed
  | .vsns r => m.put pgBist ⟨BIST_PHASE_FAIL1, 16 + r, 1⟩ 1
  | .feed c => m.put pgBist ⟨BIST_MISC, 16 + c, 1⟩ 1
  | .engine e => m.put pgBist ⟨BIST_MISC, 9 + e, 1⟩ 1

/-- Every failed unit; of the converters the spare carries the lowest (R162, R543). -/
def selfUnits (m : Module) (fs : List UnitFail) : Module :=
  let m := fs.foldl failUnit m
  (List.range 64).foldl (fun m c => if fs.contains (.conv c) then m.convFail c else m) m

/-- The report of a self-test of `ms` (R545, R563). -/
def selfReport (m : Module) (fs : List UnitFail) (ms : Nat) (ro : Bool) : Module :=
  let codes := essCodes m.sys.part fs
  let excl := fs.any (fun u => !essential m.sys.part fs (unitCode u))
  let m := m.put pgBist BIST_SUMMARY_DONE 1
  let m := m.put pgBist BIST_SUMMARY_PASS (if fs.isEmpty then 1 else 0)
  let m := m.put pgBist BIST_SUMMARY_DEGRADED (if excl then 1 else 0)
  let m := m.put pgBist BIST_SUMMARY_ESSENTIAL (if codes.isEmpty then 0 else 1)
  let m := m.put pgBist BIST_SUMMARY_FAILED (min 255 fs.length)
  let m := m.put pgBist BIST_SUMMARY_ESS_CODE (codes.headD 0)
  let m := m.put pgBist BIST_COMPAT_COVERAGE (if ro then 919 else 964)
  let m := m.put pgBist BIST_COMPAT_DURATION (min 65535 ms)
  let m := m.put pgBist BIST_MISC_MRAM_RO (if ro then 1 else 0)
  let m := m.raise pgBist BIST_EV_DONE
  let m := if fs.isEmpty then m else m.raise pgBist BIST_EV_UNIT_FAIL
  if excl then (m.put pgSys SYS_STATUS_DEGRADED 1).latchNow pgBist BIST_FLT_UNIT else m

/-! ### Heartwood at start-up (R491, R539, R587) -/

/-- The Heartwood SRAM takes the keys and words of the NV half. -/
def heartReload (m : Module) (nv : NonVol) : Module :=
  let ws := (nv.mram.filter (fun x => heartWord x.1)).map (fun x => (52 * 8192 + (x.1 - 0x26C000 / 8), x.2))
  let m := m.updHw (fun x => { x with keys := nv.keys })
  m.updMem (fun x => { x with
    sram := (x.sram.filter (fun y => y.1 < 52 * 8192)) ++ ws
      ++ x.sram.filter (fun y => 53 * 8192 ≤ y.1)
    poison := x.poison.filter (fun k => !heartCell k) })

/-- HEART.ACL is set and locked: Rootstock keeps its access, masters 1 to 3 have none (R491). -/
def heartAclSet (m : Module) : Module :=
  let a := (Config.heartAcl &&& ~~~(0x000E000E : W32)) ||| 0x01000100
  (m.setBoth (rkey pgHeart HEART_ACL) a).setReg pgHeart LOCK 1

/-! ### The shelf plan (R546, R578 to R584) -/

/-- Writes that the load withholds for step 11: CTRL as a whole word, and LOCK (R546). -/
def planHeld (w : RegWr) : Bool := w.addr % 256 = CTRL || w.addr % 256 = LOCK

/-- The writes of a PAGE record and of a TABLE record (R580). -/
def pageWrites (r : PlanRec) : List RegWr :=
  r.words.zipIdx.map (fun x => ⟨r.page * 256 + r.arg + 4 * x.2, x.1⟩)
def tableWrites (page t i : Nat) (ws : List W32) : List RegWr :=
  ⟨page * 256 + TBL_SEL, BitVec.ofNat 32 t⟩ :: ⟨page * 256 + TBL_IDX, BitVec.ofNat 32 i⟩
    :: ws.map (fun w => ⟨page * 256 + TBL_DATA, w⟩)

/-- A Stop field of a block that runs takes the plan's value at the next EN 0 to 1 (R589); the plan marks
it as overridden (R36). -/
def deferStop (m : Module) (p k : Nat) (acc : Acc) (eff : Eff) (v : W32) (ok : Bool) : Module :=
  if eff = .stop && m.en p && ok && !(acc = .rwp && !pairOk v) && !bit (m.reg p LOCK) 0 then
    { m with defer := putK m.defer k v, ovr := insKey m.ovr k }
  else m

/-- The Stop fields that a PAGE or a TABLE record reaches while their block runs. -/
def deferPage (m : Module) (w : RegWr) : Module :=
  let p := w.addr / 256
  let off := w.addr % 256
  match regAt m p off with
  | some (b, _, row) =>
    m.deferStop p (rkey p off) row.acc row.eff (regVal m.sys.part b off row w.val)
      (encOk m.sys.part b off (regVal m.sys.part b off row w.val))
  | none => m
def deferWord (m : Module) (p t i : Nat) (v : W32) : Module :=
  match blkOf p with
  | some (b, n) =>
    match tblRow b n t i with
    | some row =>
      m.deferStop p (tkey p t i) row.acc row.eff (maskVal row.acc row.mask v)
        (encTblOk b t i (maskVal row.acc row.mask v))
    | none => m
  | none => m

/-- A staged transaction of Rootstock (R6, R83). -/
def rootWrite (s : NonVol × Module) (ws : List RegWr) : NonVol × Module :=
  let r := s.2.transact s.1 8 false false ws
  (r.1, r.2.1)

/-- The polling entries of a TARGETS record, from entry `e` on: the first 16 of a port are entered (R462). -/
def targetWrites (p : Nat) : Nat → List W32 → List RegWr
  | e, a :: b :: ws =>
    (if e < 16 then tableWrites (pgTwc + p) 0 (4 * e) [a, b] else []) ++ targetWrites p (e + 1) ws
  | _, _ => []

/-- The records of a plan, in order; `cnt` are the targets that each port has so far (R583). POINTS records
follow in `planPoints`. -/
def planRun : List PlanRec → List Nat → NonVol × Module → NonVol × Module
  | [], cnt, s =>
    (s.1, (List.range 4).foldl (fun m p =>
      let c := nth 0 cnt p
      if c = 0 || !pagePresent m.sys.part (pgTwc + p) then m
      else
        let m := m.put (pgTwc + p) TWC_STATUS_DECLARED (min 255 c)
        if 16 < c then m.raise (pgTwc + p) TWC_EV_TABLE_FULL else m) s.2)
  | r :: rs, cnt, s =>
    if r.kind = 1 then
      let ws := (pageWrites r).filter (fun w => w.addr ≠ rkey pgSeq SEQ_REQ)
      let m := s.2.updSys (fun x => { x with withheld := x.withheld ++ ws.filter planHeld })
      let now := ws.filter (fun w => !planHeld w)
      planRun rs cnt (rootWrite (s.1, now.foldl deferPage m) now)
    else if r.kind = 2 then
      let m := r.words.zipIdx.foldl (fun m x => m.deferWord r.page r.arg (r.index + x.2) x.1) s.2
      planRun rs cnt (rootWrite (s.1, m) (tableWrites r.page r.arg r.index r.words))
    else if r.kind = 4 then
      let ws := targetWrites r.page (nth 0 cnt r.page) r.words
      planRun rs (upd cnt r.page (· + r.words.length / 2)) (rootWrite s ws)
    else planRun rs cnt s

/-- The points of a plan: address and priority, in order of declaration (R580). -/
def planDecl (rs : List PlanRec) : List (Nat × Nat) :=
  (rs.filter (fun r => r.kind = 3)).flatMap (fun r => r.words.map (fun w => (bits w 0 16, r.arg)))

/-- Points are numbered by priority, then by declaration, and spread over the banks (R132, R133). -/
def planPoints (m : Module) (ps : List (Nat × Nat)) : Module :=
  let order : List (Nat × Nat) := (List.range 8).flatMap (fun q =>
    (ps.zipIdx.filter (fun (x : (Nat × Nat) × Nat) => x.1.2 = q)).map (fun x => (x.2, q)))
  let banks := m.banksOn
  let m := { m with sched := { m.sched with points := ps.map (fun (x : Nat × Nat) => x.1) } }
  let m := (order.take 4096).zipIdx.foldl (fun m x =>
    m.setTbl pgPlace 0 x.2 (BitVec.ofNat 32 (x.1.1 * 65536
      + nth 0 banks (x.2 % max 1 banks.length) * 256 + x.1.2))) m
  let m := (order.drop 4096).zipIdx.foldl (fun m x => m.setTbl pgPlace 1 x.2 (BitVec.ofNat 32 x.1.1)) m
  let m := m.put pgPlace PLACE_POINTS_DECLARED (min 65535 ps.length)
  let m := m.put pgPlace PLACE_POINTS_NUMBERED (min 4096 ps.length)
  if ps.length ≤ 4096 then m
  else (m.put pgPlace ⟨STAT, PLACE_ST_POINTS_FULL, 1⟩ 1).raise pgPlace PLACE_EV_POINTS_FULL

/-- Every bit of a COMMIT register, as a plan load ends with it (R583); LEARN, which no plan can restore, is
refused like any commit without its four values (R357). -/
def commitAll : Blk → Nat
  | .rail => 7
  | .cle => 0xFFF
  | .feed => 3
  | .seqtbl => 3
  | .batt => 15
  | _ => 1

/-- Every COMMIT register of every present page (R583). -/
def planCommit (s : NonVol × Module) : NonVol × Module :=
  pages.foldl (fun s p =>
    if !pagePresent s.2.sys.part p then s
    else
      match blkOf p with
      | some (b, _) =>
        match commitOff b with
        | some off => rootWrite s [⟨p * 256 + off, BitVec.ofNat 32 (commitAll b)⟩]
        | none => s
      | none => s) s

/-- The records of a plan or of the limp region are loaded. -/
def planLoad (m : Module) (nv : NonVol) (rs : List PlanRec) : NonVol × Module :=
  let s := planCommit (planRun rs [0, 0, 0, 0] (nv, m))
  (s.1, s.2.planPoints (planDecl rs))

/-- The records of the limp region, when it passes its check (R585, R587). -/
def limpRecs (m : Module) (nv : NonVol) : Option (List PlanRec) :=
  let plan := m.planBytes nv limpBase
  if bytesBad nv limpBase plan.length then none else planOf magicLimp plan

/-- Step 6 (R546, R578, R584). -/
def settings (m : Module) (nv : NonVol) : NonVol × Module :=
  match m.copyPick nv with
  | none => (nv, m)
  | some c =>
    let fmt := m.copyFmt nv c
    let m := m.put pgUpdate UPDATE_PLAN_STAT_COPY c
    let m := m.put pgUpdate UPDATE_PLAN_STAT_GEN (m.copyGen nv c)
    let m := m.put pgUpdate UPDATE_PLAN_STAT_FMT fmt
    if fmt = m.up.setFmt then
      let m := m.put pgUpdate UPDATE_PLAN_STAT_VALID 1
      m.planLoad nv ((planOf magicPlan (m.planBytes nv (copyBase c + 4))).getD [])
    else
      let m := (m.put pgUpdate UPDATE_PLAN_STAT_LIMP_ONLY 1).put pgUpdate UPDATE_STATUS_FMT_DIFF 1
      let m := (m.put pgUpdate UPDATE_STATUS_PLAN_OLD 1).raiseRec pgUpdate UPDATE_EV_PLAN_OLD
      m.planLoad nv ((m.limpRecs nv).getD [])

/-! ### The adopt window (R539 steps 8 to 10) -/

/-- Outputs may be adopted: settings are loaded, the scan and the calibration have ended, or Sapling has
loaded its limp subset; never in SCRAPPED (R539, R554, R587). -/
def adoptReady (m : Module) : Bool :=
  m.sys.loaded && m.sys.scanDone && m.sys.life ≠ 4 && (m.lifePhase = 5 || !m.th.cal)

/-- The window opens, or start-up waits for HOLD_OK (R50, R547, R557). -/
def tryAdopt (m : Module) : Module :=
  if !m.adoptReady || m.sys.window || m.lifePhase = 3 then m
  else if m.sys.hold then m.updSys (fun x => { x with window := true })
  else if m.lifePhase = 2 then m.toPhase 3 else m

/-- HOLD_OK has come while start-up waits for it. -/
def holdRelease (m : Module) : Module :=
  if m.adoptReady && m.sys.hold && (m.lifePhase = 3 || m.lifePhase = 5) then
    m.updSys (fun x => { x with window := true })
  else m

/-! ### Sapling and the image check (R540, R541, R587) -/

/-- START is made, or made again when start-up goes on from Sapling (R541). -/
def verdictRecords (m : Module) (nv : NonVol) (ver : Nat) : Module :=
  let m := m.updSys (fun x => { x with verdict := true, startVer := ver })
  if m.rc.started then m.recStart else m.recBegin nv (m.recMissed nv)

/-- The pages, and from 0x10000 on the identities, that limp records own (R587). -/
def limpOwns (rs : List PlanRec) : List Nat :=
  rs.map (·.page) ++ (rs.filter (fun r => r.page = pgSeq && r.kind = 2 && r.arg = 0)).flatMap (fun r =>
    (List.range r.words.length).map (fun i => 65536 + r.index + i))

/-- Path engines that failed the self-test. -/
def badEngines (m : Module) : List Nat := (List.range 2).filter (fun e => bit (m.reg pgBist BIST_MISC) (9 + e))

/-- Entry to Sapling. Without a lane, or with every download refused, no limp output is driven (R59,
R544, R550). -/
def sapling (m : Module) (nv : NonVol) : NonVol × Module :=
  let m := ((m.toPhase 5).put pgUpdate UPDATE_STATUS_SAPLING 1).heartReload nv
  let m := m.updTh (fun x => { x with cal := false })
  let h := m.readBytes nv 0 256
  let m := m.verdictRecords nv (if imageHeader m nv h = 0 then numAt h 8 4 else 0)
  let m := m.pathStart m.badEngines true
  let none' := m.sys.noLoad || m.sys.life = 4 || (List.range (nLanes m.sys.part)).all m.cle.bad.contains
  match (if none' then none else m.limpRecs nv) with
  | none => (nv, m)
  | some rs =>
    let m := m.put pgUpdate UPDATE_PLAN_STAT_LIMP_ONLY 1
    let m := m.updSys (fun x => { x with limp := limpOwns rs })
    let (nv, m) := m.planLoad nv rs
    (nv, (m.updSys (fun x => { x with loaded := true })).tryAdopt)

/-- Steps 5 and 6, with the ring calibration of step 7 begun. -/
def imageStep (m : Module) (nv : NonVol) : NonVol × Module :=
  let m := (((m.toPhase 2).heartReload nv).heartAclSet).calStart
  if m.imageGood nv then
    let ver := numAt (m.readBytes nv 0 256) 8 4
    let (nv, m) := m.makeRun nv ver
    let m := (((m.fwImage nv.mram).shadowLoad nv.mram).fwCosts).verdictRecords nv ver
    let (nv, m) := m.settings nv
    (nv, (m.updSys (fun x => { x with loaded := true })).tryAdopt)
  else m.sapling nv

/-- A faulty row that the self-test finds is retired at once (R542); with no spare left R98 applies. -/
def retireNow (s : NonVol × Module) (row : Nat × Nat) : NonVol × Module :=
  (s.2.rowFails row.1 row.2).rowRetired s.1 row.1 row.2

/-- The self-test ends after `ms`, with the rows that it retired (R540, R544, R550). -/
def selfTest (m : Module) (nv : NonVol) (fails : List UnitFail) (rows : List (Nat × Nat)) (ms : Nat)
    (ro : Bool) : NonVol × Module :=
  let part := m.sys.part
  let (nv, m) := (rows.filter (fun x => m.sramUnit x.1 || 64 ≤ x.1)).foldl retireNow (nv, m)
  let fs := (fails.filter (unitHere part)).eraseDups
  let m := (m.selfUnits fs).selfReport fs ms ro
  let m := m.updRc (fun x => { x with optime := x.optime + ms })
  let m := m.updSys (fun x => { x with stMs := ms, selfDone := true })
  let mramBad := essential part fs 4
  if mramBad && m.sys.stRun < 3 then m.moduleReset nv 5 0 0 (mramUnit fs)
  else if !(essCodes part fs).isEmpty || m.sys.sapReq || nv.mark then
    (m.updSys (fun x => { x with noLoad := mramBad })).sapling nv
  else m.imageStep nv

/-! ### Adopt-then-drive (R60 to R62, R547) -/

/-- The level of a push-pull output as sensed, and of PH_PWM. -/
def lvlOf (mv : Nat) : Option Lvl := if mv ≤ 800 then some .low else if 2000 ≤ mv then some .high else none
def pwmOf (mv : Nat) : Option Pwm :=
  if mv ≤ 800 then some .low else if 1200 ≤ mv ∧ mv ≤ 2100 then some .tri else none

/-- An output is adopted in this window: in Sapling those that limp records own, else the others (R587,
R589). -/
def adopts (m : Module) (owned : Bool) : Bool := if m.lifePhase = 5 then owned else !owned

/-- The outputs of phase `n`, each judged alone (R60); with either of them failed the phase is unavailable
(R62). One that failed the self-test stays Z. -/
def adoptPhase (m : Module) (lv : List Sensed) (n : Nat) : Module :=
  if !m.adopts (m.sys.limp.contains (pgPhase + n)) || m.phSt n = psFailed then m
  else
    let en := (lv.findSome? (fun s => match s with
      | .phEn i v => if i = n then some v else none | _ => none)).getD 0
    let pw := (lv.findSome? (fun s => match s with
      | .phPwm i v => if i = n then some v else none | _ => none)).getD 1650
    let m := m.updPh n (fun x => { x with phEn := (lvlOf en).getD .z, phPwm := (pwmOf pw).getD .z })
    if (lvlOf en).isSome && (pwmOf pw).isSome then m
    else
      (m.put pgSys ⟨SYS_OUT_FAIL0 + 4 * (n / 32), n % 32, 1⟩ 1).put (pgPhase + n) PHASE_STATUS_STATE psFailed

/-- RAIL_EN[i]: in open-drain mode it is released, otherwise it takes the level sensed; adopted high its
identity counts as enabled (R60, R315). -/
def adoptRail (m : Module) (lv : List Sensed) (i : Nat) : Module :=
  if !m.adopts (m.limpId i) then m
  else
    let v := (lv.findSome? (fun s => match s with
      | .railEn j v => if j = i then some v else none | _ => none)).getD 0
    let pin := fun (m : Module) (l : Lvl) => { m with pin := { m.pin with railEn := upd m.pin.railEn i (fun _ => l) } }
    if bits (m.idW i) 15 1 = 1 then (pin m .z).seqMapPut SEQ_EN_MAP0 i (decide (2000 ≤ v))
    else
      match lvlOf v with
      | some l => (pin m l).seqMapPut SEQ_EN_MAP0 i (l = .high)
      | none => m.put pgSys ⟨SYS_OUT_FAIL2, i, 1⟩ 1

/-- SYS_PG and PPS_OUT. -/
def adoptSysPg (m : Module) (lv : List Sensed) : Module :=
  if !m.adopts (m.sys.limp.contains pgSeq) then m
  else
    match lvlOf ((lv.findSome? (fun s => match s with | .sysPg v => some v | _ => none)).getD 0) with
    | some l => { m with pin := { m.pin with sysPg := l } }
    | none => m.put pgSys ⟨SYS_OUT_FAIL1, 16, 1⟩ 1
def adoptPps (m : Module) (lv : List Sensed) : Module :=
  if !m.adopts false then m
  else
    match lvlOf ((lv.findSome? (fun s => match s with | .ppsOut v => some v | _ => none)).getD 0) with
    | some l => { m with pin := { m.pin with pps := l } }
    | none => m.put pgSys ⟨SYS_OUT_FAIL1, 17, 1⟩ 1

/-- FD_GATE of a channel: held on, or pulled down (R60). -/
def adoptGate (m : Module) (lv : List Sensed) (c : Nat) : Module :=
  if !m.adopts (m.sys.limp.contains (pgFeed + c)) then m
  else
    let v := (lv.findSome? (fun s => match s with
      | .fdGate j v => if j = c then some v else none | _ => none)).getD 0
    m.updFd c (fun x => { x with gate := if 3000 ≤ v then .hold else .down, adopted := decide (3000 ≤ v) })

/-- Every output that this window adopts. -/
def adopt (m : Module) (lv : List Sensed) : Module :=
  let f := fun (m : Module) => (m.reg pgSys SYS_OUT_FAIL0, m.reg pgSys SYS_OUT_FAIL1, m.reg pgSys SYS_OUT_FAIL2)
  let was := f m
  let m := (List.range (nPhases m.sys.part)).foldl (fun m n => m.adoptPhase lv n) m
  let m := (List.range 32).foldl (fun m i => m.adoptRail lv i) m
  let m := (List.range (nFeeds m.sys.part)).foldl (fun m c => m.adoptGate lv c) m
  let m := (m.adoptSysPg lv).adoptPps lv
  if f m = was then m else m.raiseRec pgSys SYS_EV_OUT_FAIL

/-! ### Release (R548) -/

/-- Own rails whose EN is 1 at the release count as enabled (R315). -/
def seqOwnOn (m : Module) : Module :=
  (List.range (nRails m.sys.part)).foldl (fun m r =>
    if m.en (pgRail + r) then m.seqMapPut SEQ_EN_MAP0 (32 + r) true else m) m

/-- The window ends `ms` after the start of step 1; EN and LOCK apply, and the blocks act (R547, R548). -/
def release' (m : Module) (nv : NonVol) (lv : List Sensed) (ms : Nat) : NonVol × Module :=
  let m := m.adopt lv
  let m := m.put pgSys ⟨SYS_START_TIME, 0, 16⟩ (min 65535 ms)
  let m := if m.sys.released then m
    else m.updRc (fun x => { x with optime := x.optime + (ms - m.sys.stMs) })
  let ws := m.sys.withheld
  let m := m.updSys (fun x => { x with window := false, loaded := false, released := true, withheld := [] })
  let sap := m.lifePhase = 5
  let m := if sap then m
    else ((m.toPhase 4).updSys (fun x => { x with fwRun := true, limp := [] })).packNow
  let (nv, m) := rootWrite (nv, m) ws
  let m := (m.seqOwnOn).fdAdoptAll
  let m := if sap then m
    else (((List.range (nPhases m.sys.part)).foldl (fun m n => if m.phSt n = psOff then m else m.phPins n)
      (m.pathStart m.badEngines false)).ppsIdle).capDrive
  (nv, if m.flag pgSeq SEQ_CFG_AUTO_ON then m.seqRequest true 2 else m)

/-! ### After a transaction (R561, R589) -/

/-- Start-up goes on at step 5 from Sapling. Limp outputs that are not driven yet are adopted with the
others. -/
def leaveSapling (m : Module) (nv : NonVol) : NonVol × Module :=
  let m := m.updSys (fun x => { x with
    goOn := false, loaded := false, window := false, withheld := [],
    limp := if x.released then x.limp else [] })
  let m := (m.put pgUpdate UPDATE_STATUS_SAPLING 0).put pgUpdate UPDATE_PLAN_STAT_LIMP_ONLY 0
  (m.updRan).imageStep nv

/-- A reset that a transaction asked for, and start-up that it continued, happen at its end. -/
def settle (s : NonVol × Module) : NonVol × Module :=
  let s := if s.2.sys.goOn then s.2.leaveSapling s.1 else s
  match s.2.sys.resetDue with
  | some (cause, cmd) => s.2.moduleReset s.1 cause 0 cmd 0
  | none => s

/-- A write of a master and what follows it. -/
def busDo (m : Module) (nv : NonVol) (x : Nat) (auth : Bool) (ws : List RegWr) : NonVol × Module :=
  settle (m.busWrite nv x auth ws)

/-- A read of a master: the word, or a bus error (R70, R554). -/
def busFetch (m : Module) (nv : NonVol) (x addr : Nat) (accepted : Bool) : Module :=
  if !m.busServes x [addr] then m
  else if m.busDenied x || addr % 4 ≠ 0 || 65536 ≤ addr || m.busPoison nv x addr then
    { m with out := { err := true } }
  else
    let r := m.busRead nv x addr accepted
    { r.2 with out := { words := [r.1] } }

end Module

/-- HOLD_OK (R50). -/
def execHoldOk (s : State) : Host.Outcome State Fault Refusal := actSupply s (fun m => m.setHold true)

/-- SCAN_DONE (R526). -/
def execScanDone (s : State) : Host.Outcome State Fault Refusal :=
  act2Live s (fun nv m =>
    if m.lifePhase = 0 then (nv, m)
    else
      let x := m.recScan nv
      (x.1, x.2.tryAdopt))

/-- CAL_DONE (R375). -/
def execCalDone (s : State) : Host.Outcome State Fault Refusal :=
  actLive s (fun m => (m.ringCal s.nv.otp.ringOfs).tryAdopt)

/-- SELFTEST_DONE (R542). -/
def execSelftestDone (fails : List UnitFail) (rows : List (Nat × Nat)) (ms : Nat) (readOnly : Bool) (s : State) :
    Host.Outcome State Fault Refusal :=
  act2Live s (fun nv m =>
    if m.lifePhase = 1 && !m.sys.selfDone then m.selfTest nv fails rows ms readOnly else (nv, m))

/-- START_HOLD_RELEASE (R539). -/
def execStartHoldRelease (s : State) : Host.Outcome State Fault Refusal := actLive s (fun m => m.holdRelease)

/-- ADOPT_WINDOW_END (R547). -/
def execAdoptWindowEnd (lv : List Sensed) (ms : Nat) (s : State) : Host.Outcome State Fault Refusal :=
  act2Live s (fun nv m => if m.sys.window then m.release' nv lv ms else (nv, m))

end Sys2Proof.Machine
end

