-- ==== Sys2Proof/Machine/Commands.lean ====
section
/-! DEFINITION. The rows that are an access of a master to the register space (R69 to R92): each is the
write or the read that its rule names. -/

namespace Sys2Proof.Machine

/-- The outcome of a staged transaction of a master. -/
def busCmd (s : State) (x : Nat) (ws : List RegWr) : Host.Outcome State Fault Refusal :=
  act2 s (fun nv m => m.busDo nv x false ws)

/-- The outcome of one write to a register of instance `i` of a block of which `n` pages exist. -/
def busAt (s : State) (x i n base off : Nat) (v : W32) : Host.Outcome State Fault Refusal :=
  act2 s (fun nv m => if i < n then m.busDo nv x false [⟨(base + i) * 256 + off, v⟩] else (nv, m))

/-- The outcome of a read. -/
def busGet (s : State) (x addr : Nat) (accepted : Bool) : Host.Outcome State Fault Refusal :=
  act s (fun m => m.busFetch s.nv x addr accepted)

/-! ### Module -/

/-- FW_RESTART (R24, R561). -/
def execFwRestart (m : Nat) (s : State) : Host.Outcome State Fault Refusal :=
  busCmd s m [⟨rkey pgSys SYS_CMD, 0x0001FFFE⟩]

/-- MODULE_RESET_CMD (R561). -/
def execModuleResetCmd (m : Nat) (s : State) : Host.Outcome State Fault Refusal :=
  busCmd s m [⟨rkey pgSys SYS_CMD, 0x0002FFFD⟩]

/-- SAPLING_CMD (R561). -/
def execSaplingCmd (m : Nat) (s : State) : Host.Outcome State Fault Refusal :=
  busCmd s m [⟨rkey pgSys SYS_CMD, 0x0003FFFC⟩]

/-- PROFILE_CHANGE (R37). -/
def execProfileChange (m : Nat) (v : W32) (s : State) : Host.Outcome State Fault Refusal :=
  busCmd s m [⟨rkey pgSys SYS_PROFILE, v⟩]

/-! ### Registers -/

/-- A write takes its place among those that arrived with it, by its master's ID (R73). -/
def insMaster (w : Nat × RegWr) : List (Nat × RegWr) → List (Nat × RegWr)
  | [] => [w]
  | w' :: l => if w.1 ≤ w'.1 then w :: w' :: l else w' :: insMaster w l

/-- REGISTER_WRITE (R83); writes that arrive together are applied in ascending master ID (R73). -/
def execRegisterWrite (m addr : Nat) (v : W32) (others : List (Nat × RegWr)) (s : State) :
    Host.Outcome State Fault Refusal :=
  act2 s (fun nv x =>
    (others.foldr insMaster [(m, ⟨addr, v⟩)]).foldl (fun z w => z.2.busDo z.1 w.1 false [w.2]) (nv, x))

/-- SOFT_RST (R76): CTRL is written with SOFT_RST, its other bits as they stand. -/
def execSoftRst (m page : Nat) (s : State) : Host.Outcome State Fault Refusal :=
  busAt s m page 256 0 CTRL (s.m.reg page CTRL ||| 2)

/-- LOCK (R88). -/
def execLock (m page : Nat) (v : W32) (s : State) : Host.Outcome State Fault Refusal :=
  busAt s m page 256 0 LOCK v

/-- EVT_RAW_CLEAR (R78). -/
def execEvtRawClear (m page : Nat) (v : W32) (s : State) : Host.Outcome State Fault Refusal :=
  busAt s m page 256 0 EVT_RAW v

/-- FLT_STAT_CLEAR (R79). -/
def execFltStatClear (m page : Nat) (v : W32) (s : State) : Host.Outcome State Fault Refusal :=
  busAt s m page 256 0 FLT_STAT v

/-- The address is that of a fault-window register (R100). -/
def isWinAddr (addr : Nat) : Bool :=
  match blkOf (addr / 256) with
  | some (b, _) => isWin b (addr % 256)
  | none => false

/-- FLT_WIN_WRITE (R104). -/
def execFltWinWrite (m addr : Nat) (v : W32) (s : State) : Host.Outcome State Fault Refusal :=
  act2 s (fun nv x => if isWinAddr addr then x.busDo nv m false [⟨addr, v⟩] else (nv, x))

/-- TBL_DATA_ACCESS (R80). -/
def execTblDataAccess (m page : Nat) (wr : Option W32) (s : State) : Host.Outcome State Fault Refusal :=
  match wr with
  | some v => busAt s m page 256 0 TBL_DATA v
  | none => busGet s m (rkey page TBL_DATA) true

/-- An access to the register space (R70): an aligned word, or two words that a cluster writes at once; the
lower address holds the lower word (PRESUMED, log entry 89). -/
def Module.regSpace (m : Module) (nv : NonVol) (q : MemReq) : NonVol × Module :=
  let a := q.addr - 0x50000000
  match q.wr with
  | none =>
    if q.size = 4 then (nv, m.busFetch nv q.m a true) else (nv, { m with out := { err := true } })
  | some v =>
    let w := fun i => BitVec.ofNat 32 (v.toNat / 2 ^ (32 * i))
    if q.size = 4 then m.busDo nv q.m false [⟨a, w 0⟩]
    else if q.size = 8 && isCluster q.m then m.busDo nv q.m false [⟨a, w 0⟩, ⟨a + 4, w 1⟩]
    else (nv, { m with out := { err := true } })

/-- The first address of the register space (R475). -/
def regBase : Nat := 0x50000000

/-- The address lies in the register space. -/
def inRegs (a : Nat) : Bool := regBase ≤ a && a < regBase + 65536

/-- Byte `a` as a task has staged it last, if it has. -/
def stagedByte (buf : List Staged) (a : Nat) : Option Nat :=
  ((buf.filter (fun e => e.addr ≤ a && a < e.addr + e.size)).getLast?).map (fun e =>
    e.val / 2 ^ (8 * (a - e.addr)) % 256)

/-- The bytes at the addresses `as`, staged where they are, else those of `base`, lowest first. -/
def stagedOver (buf : List Staged) (as : List Nat) (base : Nat) : Nat :=
  (List.range as.length).foldl (fun x j =>
    x + (match stagedByte buf (nth 0 as j) with | some b => b | none => base / 2 ^ (8 * j) % 256) * 2 ^ (8 * j)) 0

namespace Module

/-- The internal addresses of the bytes that an access reaches, where all of them lie in the scratchpad or
all in the register space. -/
def stagePlace (m : Module) (q : MemReq) : Option (List Nat) :=
  let as := (List.range q.size).map (q.addr + ·)
  if as.all inRegs then some as
  else as.mapM (fun a =>
    match placeOf m.sys.part q.m a with
    | some (.sram k) => if k / 8192 < 32 then some (addrOf (.sram k) + a % 8) else none
    | _ => none)

/-- The task of a cluster's access, while its period is in progress (R113). -/
def stageTask (m : Module) (q : MemReq) : Option Nat :=
  q.task.filter (fun t => t < 12 && (m.task t).started && q.m = 4 + (m.task t).owner)

/-- A write of a task enters its commit buffer, as one entry for each word that it reaches; a 513th entry
aborts the task at once (R113, R114). -/
def stage (m : Module) (t : Nat) (q : MemReq) (as : List Nat) (v : Nat) : Module :=
  let n1 := if as.all inRegs then q.size else min q.size (8 - q.addr % 8)
  let es : List Staged := [⟨nth 0 as 0, n1, v % 2 ^ (8 * n1)⟩]
    ++ (if q.size ≤ n1 then [] else [⟨nth 0 as n1, q.size - n1, v / 2 ^ (8 * n1)⟩])
  let buf := (m.task t).buf ++ es
  if 512 < buf.length then m.taskDrop t 2 else m.updTask t (fun x => { x with buf := buf })

/-- An access that no task makes, or that none stages. -/
def memDirect (m : Module) (nv : NonVol) (q : MemReq) : NonVol × Module :=
  if inRegs q.addr then m.regSpace nv q else m.memAccess nv q

/-- The size and alignment that the register space takes of a cluster (R70, R475). -/
def regFits (q : MemReq) : Bool := (q.size = 4 || (q.size = 8 && q.wr.isSome)) && q.addr % 4 = 0

/-- A read of a task: its own staged values, the committed ones where it has staged none (R113). -/
def stageRead (m : Module) (nv : NonVol) (t : Nat) (q : MemReq) (as : List Nat) : NonVol × Module :=
  let buf := (m.task t).buf
  let give := fun (m : Module) (x : Nat) =>
    if as.all inRegs then { m with out := { words := [BitVec.ofNat 32 x] } }
    else { m with out := { dword := some (BitVec.ofNat 64 x) } }
  if as.all (fun a => (stagedByte buf a).isSome) then (nv, give m (stagedOver buf as 0))
  else
    let (nv, m) := m.memDirect nv q
    match m.out.dword with
    | some d => if m.out.err then (nv, m) else (nv, give m (stagedOver buf as d.toNat))
    | none => (nv, m)

/-- An access of a master (R475): a task of a cluster stages its writes and reads what it has staged
(R113). A cluster under test is isolated from the scratchpad and the fabric (R128). -/
def memCommand (m : Module) (nv : NonVol) (q : MemReq) : NonVol × Module :=
  if !m.cluServed q.m then (nv, m)
  else if m.busDenied q.m then (nv, { m with out := { err := true } })
  else
    match m.stageTask q, m.stagePlace q with
    | some t, some as =>
      if inRegs q.addr && !regFits q then (nv, { m with out := { err := true } })
      else
        match q.wr with
        | some v => (nv, m.stage t q as v.toNat)
        | none => m.stageRead nv t q as
    | _, _ => m.memDirect nv q

end Module

/-- WIPE_CMD (R495). -/
def execWipeCmd (m : Nat) (v : W32) (s : State) : Host.Outcome State Fault Refusal :=
  busCmd s m [⟨rkey pgHeart HEART_WIPE_CMD, v⟩]

/-! ### Enables (R76) -/

/-- SCHED_EN (R120). -/
def execSchedEn (m : Nat) (v : W32) (s : State) : Host.Outcome State Fault Refusal :=
  busCmd s m [⟨rkey pgSched CTRL, v⟩]

/-- RAIL_EN (R186). -/
def execRailEn (m r : Nat) (v : W32) (s : State) : Host.Outcome State Fault Refusal :=
  busAt s m r 12 pgRail CTRL v

/-- PHASE_EN (R200). -/
def execPhaseEn (m n : Nat) (v : W32) (s : State) : Host.Outcome State Fault Refusal :=
  busAt s m n 48 pgPhase CTRL v

/-- CLE_EN (R238). -/
def execCleEn (m : Nat) (v : W32) (s : State) : Host.Outcome State Fault Refusal :=
  busCmd s m [⟨rkey pgCle CTRL, v⟩]

/-- TRACE_EN (R135). -/
def execTraceEn (m k : Nat) (v : W32) (s : State) : Host.Outcome State Fault Refusal :=
  busAt s m k 4 pgTrace CTRL v

/-- GROVE_EN (R280). -/
def execGroveEn (m : Nat) (v : W32) (s : State) : Host.Outcome State Fault Refusal :=
  busCmd s m [⟨rkey pgGrove CTRL, v⟩]

/-- XING_EN (R310). -/
def execXingEn (m : Nat) (v : W32) (s : State) : Host.Outcome State Fault Refusal :=
  busCmd s m [⟨rkey pgXing CTRL, v⟩]

/-- FEED_EN (R309). -/
def execFeedEn (m c : Nat) (v : W32) (s : State) : Host.Outcome State Fault Refusal :=
  busAt s m c 8 pgFeed CTRL v

/-- SEQ_EN (R328). -/
def execSeqEn (m : Nat) (v : W32) (s : State) : Host.Outcome State Fault Refusal :=
  busCmd s m [⟨rkey pgSeq CTRL, v⟩]

/-- WDOG_EN (R335). -/
def execWdogEn (m : Nat) (v : W32) (s : State) : Host.Outcome State Fault Refusal :=
  busCmd s m [⟨rkey pgWdog CTRL, v⟩]

/-- BATT_EN (R346). -/
def execBattEn (m b : Nat) (v : W32) (s : State) : Host.Outcome State Fault Refusal :=
  busAt s m b 8 pgBatt CTRL v

/-- BENUF_EN (R431). -/
def execBenufEn (m : Nat) (v : W32) (s : State) : Host.Outcome State Fault Refusal :=
  busCmd s m [⟨rkey pgBenuf CTRL, v⟩]

/-! ### COMMIT (R85) -/

/-- RAIL_COMMIT_REF (R85, R204). -/
def execRailCommitRef (m r : Nat) (s : State) : Host.Outcome State Fault Refusal :=
  busAt s m r 12 pgRail RAIL_COMMIT 1

/-- RAIL_COMMIT_PROT (R85, R204). -/
def execRailCommitProt (m r : Nat) (s : State) : Host.Outcome State Fault Refusal :=
  busAt s m r 12 pgRail RAIL_COMMIT 2

/-- RAIL_COMMIT_SHED (R176). -/
def execRailCommitShed (m r : Nat) (s : State) : Host.Outcome State Fault Refusal :=
  busAt s m r 12 pgRail RAIL_COMMIT 4

/-- CLE_COMMIT (R225). -/
def execCleCommit (m : Nat) (v : W32) (s : State) : Host.Outcome State Fault Refusal :=
  busCmd s m [⟨rkey pgCle CLE_COMMIT, v⟩]

/-- EPE_COMMIT_SRC (R246). -/
def execEpeCommitSrc (m : Nat) (s : State) : Host.Outcome State Fault Refusal :=
  busCmd s m [⟨rkey pgEpe EPE_COMMIT, 1⟩]

/-- XING_COMMIT_BUS (R85, R310). -/
def execXingCommitBus (m : Nat) (s : State) : Host.Outcome State Fault Refusal :=
  busCmd s m [⟨rkey pgXing XING_COMMIT, 1⟩]

/-- FEED_COMMIT_WIN (R85, R311). -/
def execFeedCommitWin (m c : Nat) (s : State) : Host.Outcome State Fault Refusal :=
  busAt s m c 8 pgFeed FEED_COMMIT 1

/-- FEED_COMMIT_TRIP (R85, R311). -/
def execFeedCommitTrip (m c : Nat) (s : State) : Host.Outcome State Fault Refusal :=
  busAt s m c 8 pgFeed FEED_COMMIT 2

/-- SEQTBL_COMMIT_UP (R322). -/
def execSeqtblCommitUp (m : Nat) (s : State) : Host.Outcome State Fault Refusal :=
  busCmd s m [⟨rkey pgSeqtbl SEQTBL_COMMIT, 1⟩]

/-- SEQTBL_COMMIT_DOWN (R322). -/
def execSeqtblCommitDown (m : Nat) (s : State) : Host.Outcome State Fault Refusal :=
  busCmd s m [⟨rkey pgSeqtbl SEQTBL_COMMIT, 2⟩]

/-- BATT_COMMIT_OCV (R354). -/
def execBattCommitOcv (m b : Nat) (s : State) : Host.Outcome State Fault Refusal :=
  busAt s m b 8 pgBatt BATT_COMMIT 1

/-- BATT_COMMIT_CHG (R85, R368). -/
def execBattCommitChg (m b : Nat) (s : State) : Host.Outcome State Fault Refusal :=
  busAt s m b 8 pgBatt BATT_COMMIT 2

/-- BATT_COMMIT_LVL (R85, R368). -/
def execBattCommitLvl (m b : Nat) (s : State) : Host.Outcome State Fault Refusal :=
  busAt s m b 8 pgBatt BATT_COMMIT 4

/-- BATT_COMMIT_LEARN (R357): the learned values, the expected ID and the COMMIT in one transaction. -/
def execBattCommitLearn (m b : Nat) (cap res cyc soh idExp : W32) (s : State) :
    Host.Outcome State Fault Refusal :=
  act2 s (fun nv x =>
    let at' := fun off => rkey (pgBatt + b) off
    if b < 8 then
      x.busDo nv m false [⟨at' BATT_ID_EXPECT, idExp⟩, ⟨at' BATT_LRN_CAP, cap⟩, ⟨at' BATT_LRN_R, res⟩,
        ⟨at' BATT_LRN_CYC, cyc⟩, ⟨at' BATT_LRN_SOH, soh⟩, ⟨at' BATT_COMMIT, 8⟩]
    else (nv, x))

/-- TWC_COMMIT_POLL (R473). -/
def execTwcCommitPoll (m p : Nat) (s : State) : Host.Outcome State Fault Refusal :=
  busAt s m p 4 pgTwc TWC_COMMIT 1

/-! ### Commands of blocks -/

/-- BIST_REQ (R128). -/
def execBistReq (m : Nat) (v : W32) (s : State) : Host.Outcome State Fault Refusal :=
  busCmd s m [⟨rkey pgPlace PLACE_BIST_REQ, v⟩]

/-- CAL_REQ (R161). -/
def execCalReq (m : Nat) (v : W32) (s : State) : Host.Outcome State Fault Refusal :=
  busCmd s m [⟨rkey pgAdccal ADCCAL_CAL_REQ, v⟩]

/-- ARM of a trace unit (R236). -/
def execArm (m k : Nat) (s : State) : Host.Outcome State Fault Refusal :=
  busAt s m k 4 pgTrace TRACE_ARM 1

/-- FORCE of a trace unit (R235), arriving in CORE cycle `cyc` of the major frame. -/
def execForce (m k cyc : Nat) (s : State) : Host.Outcome State Fault Refusal :=
  act2 s (fun nv x =>
    if k < 4 then (if x.powered then x.arriveAt cyc else x).busDo nv m false [⟨(pgTrace + k) * 256 + TRACE_ARM, 2⟩] else (nv, x))

/-- STOP of a trace unit (R236). -/
def execStop (m k : Nat) (s : State) : Host.Outcome State Fault Refusal :=
  busAt s m k 4 pgTrace TRACE_ARM 4

/-- SEQ_REQ_ON (R326). -/
def execSeqReqOn (m : Nat) (s : State) : Host.Outcome State Fault Refusal :=
  busCmd s m [⟨rkey pgSeq SEQ_REQ, 1⟩]

/-- SEQ_REQ_OFF (R326). -/
def execSeqReqOff (m : Nat) (s : State) : Host.Outcome State Fault Refusal :=
  busCmd s m [⟨rkey pgSeq SEQ_REQ, 2⟩]

/-- KICK (R334). -/
def execKick (m : Nat) (v : W32) (s : State) : Host.Outcome State Fault Refusal :=
  busCmd s m [⟨rkey pgWdog WDOG_KICK, v⟩]

/-- ACCEPT (R351). -/
def execAccept (m b : Nat) (s : State) : Host.Outcome State Fault Refusal :=
  busAt s m b 8 pgBatt BATT_CMD 1

/-- IMP_GO (R360). -/
def execImpGo (m b : Nat) (s : State) : Host.Outcome State Fault Refusal :=
  busAt s m b 8 pgBatt BATT_CMD 2

/-- CAL of the ring sensors (R375). -/
def execCal (m : Nat) (s : State) : Host.Outcome State Fault Refusal :=
  busCmd s m [⟨rkey pgTherm THERM_CMD, 1⟩]

/-- SWITCH (R405), arriving in CORE cycle `cyc` of the major frame. -/
def execSwitch (m cyc : Nat) (s : State) : Host.Outcome State Fault Refusal :=
  act2 s (fun nv x => (if x.powered then x.arriveAt cyc else x).busDo nv m false [⟨rkey pgNetpair NETPAIR_CMD, 1⟩])

/-- REPAIR (R406). -/
def execRepair (m e : Nat) (s : State) : Host.Outcome State Fault Refusal :=
  busCmd s m [⟨rkey pgNetpair NETPAIR_CMD, BitVec.ofNat 32 (2 + e % 2 * 256)⟩]

/-- FORGET (R430). -/
def execForget (m mem : Nat) (s : State) : Host.Outcome State Fault Refusal :=
  busCmd s m [⟨rkey pgBenuf BENUF_CMD, BitVec.ofNat 32 (1 + mem % 64 * 256)⟩]

/-- HELLO_NOW (R431). -/
def execHelloNow (m : Nat) (s : State) : Host.Outcome State Fault Refusal :=
  busCmd s m [⟨rkey pgBenuf BENUF_CMD, 0x00010000⟩]

/-! ### Mailboxes -/

/-- DOORBELL (R506). -/
def execDoorbell (m ch : Nat) (v : W32) (s : State) : Host.Outcome State Fault Refusal :=
  busAt s m (ch / 8) 4 pgMbox (MBOX_DOORBELL0 + 12 * (ch % 8)) v

/-- An answer: both acknowledge registers in one transaction (R507). -/
def answer (m ch : Nat) (h l : W32) (s : State) : Host.Outcome State Fault Refusal :=
  act2 s (fun nv x =>
    let p := pgMbox + ch / 8
    if ch < 32 then
      x.busDo nv m false [⟨rkey p (MBOX_ACK_H0 + 12 * (ch % 8)), h⟩, ⟨rkey p (MBOX_ACK_L0 + 12 * (ch % 8)), l⟩]
    else (nv, x))

/-- TAKEN (R508). -/
def execTaken (m ch : Nat) (h l : W32) (s : State) : Host.Outcome State Fault Refusal := answer m ch h l s

/-- DONE (R508). -/
def execDone (m ch : Nat) (h l : W32) (s : State) : Host.Outcome State Fault Refusal := answer m ch h l s

/-- MBOX_BIND (R505). -/
def execMboxBind (m ch : Nat) (v : W32) (s : State) : Host.Outcome State Fault Refusal :=
  act2 s (fun nv x =>
    if ch < 32 then x.busDo nv m false (Module.tableWrites (pgMbox + ch / 8) 8 (ch % 8) [v]) else (nv, x))

/-! ### Recorder and time -/

/-- RD_SEQ (R531): both halves in one transaction. -/
def execRdSeq (m : Nat) (h l : W32) (s : State) : Host.Outcome State Fault Refusal :=
  busCmd s m [⟨rkey pgRec REC_RD_SEQ_H, h⟩, ⟨rkey pgRec REC_RD_SEQ_L, l⟩]

/-- RD_DATA (R531). -/
def execRdData (m : Nat) (accepted : Bool) (s : State) : Host.Outcome State Fault Refusal :=
  busGet s m (rkey pgRec REC_RD_DATA) accepted

/-- SUBMIT (R535): the words that one transaction writes. -/
def execSubmit (m : Nat) (words : List W32) (s : State) : Host.Outcome State Fault Refusal :=
  busCmd s m (words.map (fun w => ⟨rkey pgRec REC_SUBMIT, w⟩))

/-- OPTIME_H_READ (R537). -/
def execOptimeHRead (m : Nat) (s : State) : Host.Outcome State Fault Refusal :=
  busGet s m (rkey pgRec REC_OPTIME_H) true

/-- TAI_S_READ (R443): the time at the read; the read latches the nanosecond for its reader. -/
def execTaiSRead (m sec ns : Nat) (s : State) : Host.Outcome State Fault Refusal :=
  act s (fun x =>
    if !x.busOpen m then x
    else if x.busDenied m then { x with out := { err := true } }
    else
      let x := (x.setReg pgPtp PTP_TAI_S (BitVec.ofNat 32 sec)).setReg pgPtp PTP_TAI_NS (BitVec.ofNat 32 ns)
      x.busFetch s.nv m (rkey pgPtp PTP_TAI_S) true)

/-! ### Life cycle and update -/

/-- LIFE_ARM (R555). -/
def execLifeArm (m : Nat) (v : W32) (auth : Bool) (s : State) : Host.Outcome State Fault Refusal :=
  act2 s (fun nv x => x.busDo nv m auth [⟨rkey pgLife LIFE_CMD, v⟩])

/-- LIFE_COMMIT (R555). -/
def execLifeCommit (m : Nat) (v : W32) (auth : Bool) (s : State) : Host.Outcome State Fault Refusal :=
  act2 s (fun nv x => x.busDo nv m auth [⟨rkey pgLife LIFE_CMD, v⟩])

/-- START_IMAGE (R569). -/
def execStartImage (m : Nat) (s : State) : Host.Outcome State Fault Refusal :=
  busCmd s m [⟨rkey pgUpdate UPDATE_CMD, 0x0001FFFE⟩]

/-- START_PLAN (R569). -/
def execStartPlan (m : Nat) (s : State) : Host.Outcome State Fault Refusal :=
  busCmd s m [⟨rkey pgUpdate UPDATE_CMD, 0x0002FFFD⟩]

/-- ACTIVATE (R576, R582). -/
def execActivate (m : Nat) (s : State) : Host.Outcome State Fault Refusal :=
  busCmd s m [⟨rkey pgUpdate UPDATE_CMD, 0x0003FFFC⟩]

/-- ABORT (R574). -/
def execAbort (m : Nat) (s : State) : Host.Outcome State Fault Refusal :=
  busCmd s m [⟨rkey pgUpdate UPDATE_CMD, 0x0004FFFB⟩]

/-- RESUME (R589). -/
def execResume (m : Nat) (s : State) : Host.Outcome State Fault Refusal :=
  busCmd s m [⟨rkey pgUpdate UPDATE_CMD, 0x0005FFFA⟩]

/-- UPDATE_BLOCK (R571): the words that one TWT transaction writes. -/
def execUpdateBlock (words : List W32) (s : State) : Host.Outcome State Fault Refusal :=
  busCmd s 1 (words.map (fun w => ⟨rkey pgUpdate UPDATE_BLK_DATA, w⟩))

end Sys2Proof.Machine
end

