-- ==== Sys2Proof/Machine/Twt.lean ====
section
/-! DEFINITION. The two-wire target (R447 to R460): staging of writes, snapshots of reads, and the ways in
which a transaction is refused. -/

namespace Sys2Proof.Machine

/-- A data port (R452): every TBL_DATA, and the ports of the recorder and of UPDATE. -/
def isPort (addr : Nat) : Bool :=
  match blkOf (addr / 256) with
  | some (b, _) =>
    let off := addr % 256
    (hasTbl b && off = TBL_DATA) || (b = .recd && (off = REC_RD_DATA || off = REC_SUBMIT))
      || (b = .update && off = UPDATE_BLK_DATA)
  | none => false

/-- The pointer after the byte at `a` of a write: it stays in a data port and in its page (R450, R452). -/
def twtNext (a : Nat) : Nat :=
  if a % 4 ≠ 3 then a + 1
  else if isPort (a - 3) then a - 3
  else a / 256 * 256 + (a + 1) % 256

/-- The pointer after `n` bytes. -/
def twtSkip : Nat → Nat → Nat
  | 0, a => a
  | n + 1, a => twtSkip n (twtNext a)

/-- The whole words that data bytes from an aligned pointer reach, in order (R449, R451). -/
def twtWords : Nat → List Byte → List RegWr
  | a, b0 :: b1 :: b2 :: b3 :: bs =>
    ⟨a, BitVec.ofNat 32 (ofBytes [b0, b1, b2, b3])⟩ :: twtWords (if isPort a then a else a / 256 * 256 + (a + 4) % 256) bs
  | _, _ => []

/-- The staging (R450, R452): a register written again keeps its later value and place; each word for a data
port is kept. -/
def twtStage (ws : List RegWr) : List RegWr :=
  ws.foldl (fun l w => if isPort w.addr then l ++ [w] else l.filter (fun x => x.addr ≠ w.addr) ++ [w]) []

/-- The staged words of data bytes from a pointer: those before the first boundary are discarded. -/
def twtStaged (ptr : Nat) (data : List Byte) : List RegWr :=
  let k := (4 - ptr % 4) % 4
  twtStage (twtWords (twtSkip k ptr) (data.drop k))

namespace Module

/-- The target answers: start-up is past, and the two-wire clock runs (R19, R56). -/
def twtOn (m : Module) : Bool := m.busOpen 1 && !m.clk.lost.contains 6

/-- The pointer in force (R448). -/
def twtPoint (m : Module) (a : Nat) : Module :=
  { m.setReg pgTwt TWT_POINTER (BitVec.ofNat 32 (a % 65536)) with twtPtr := a % 65536 }

/-- An error of the target: its kind, and the pointer at it (R472). -/
def twtErr (m : Module) (kind addr : Nat) : Module :=
  (m.put pgTwt TWT_LAST_ERR_KIND kind).put pgTwt TWT_LAST_ERR_ADDR addr

/-- A transaction is refused. -/
def twtRefused (m : Module) (kind : Nat) : Module :=
  ((m.twtErr kind m.twtPtr).count pgTwt ⟨TWT_ERR_CNT, 0, 8⟩ 1).raise pgTwt TWT_EV_REFUSED

/-- A field of TXN_CNT, which wraps. -/
def twtCount (m : Module) (lo : Nat) : Module :=
  m.put pgTwt ⟨TWT_TXN_CNT, lo, 16⟩ (m.get pgTwt ⟨TWT_TXN_CNT, lo, 16⟩ + 1)

/-! ### Writes -/

/-- The staged words are judged and applied as one transaction of master 0x1 (R450, R453). -/
def twtCommit (m : Module) (nv : NonVol) (brown : Bool) (ws : List RegWr) : NonVol × Module :=
  let bad := brown || m.get pgSys SYS_STATUS_BROWN = 1
  if ws.isEmpty then
    if bad then (nv, (m.cfgRefused 1 (m.twtPtr / 4 * 4) whyBrown).twtRefused 1) else (nv, m)
  else
    let r := m.transact nv 1 false brown ws
    let m := r.2.1
    if bad then (r.1, m.twtRefused 1)
    else if r.2.2 = whyAuto then (r.1, (m.twtRefused 2).twtCount 0)
    else (r.1, m.twtCount 0)

/-- The data bytes of a transaction, after its pointer (R450 to R453, R458); the first byte of a 65th word
overflows the staging (R452). -/
def twtData (m : Module) (nv : NonVol) (x : TwtWr) (acked : List Byte) : NonVol × Module :=
  let ptr := m.twtPtr
  let data := acked.drop 2
  let pec := m.flag pgTwt TWT_CFG_PEC_EN
  let body := if pec then data.dropLast else data
  let ws := twtStaged ptr body
  let sent := if pec then (x.bytes.drop 2).dropLast else x.bytes.drop 2
  let full := 64 < (twtStaged ptr (sent ++ rep 3 0)).length
  let sum := crc8 (toBytes 1 ((0x48 + m.sys.strap % 8) * 2) ++ acked.dropLast)
  let ok := data.length % 4 = 1 && BitVec.ofNat 8 sum = data.getLastD 0
  let m := m.twtPoint (twtSkip body.length ptr)
  if x.brown || m.get pgSys SYS_STATUS_BROWN = 1 then m.twtCommit nv x.brown ws
  else if full then (nv, (m.raise pgTwt TWT_EV_STAGE_OVF).twtRefused 6)
  else if x.restart && !x.lastAcked then (nv, m.twtRefused 3)
  else if pec && !ok then
    (nv, ((m.raise pgTwt TWT_EV_PEC_ERR).count pgTwt ⟨TWT_ERR_CNT, 16, 8⟩ 1).twtRefused 5)
  else m.twtCommit nv x.brown ws

/-- A write transaction ends (R448, R450). -/
def twtWrite (m : Module) (nv : NonVol) (x : TwtWr) : NonVol × Module :=
  let m := m.boundary pgTwt
  let acked := if x.lastAcked then x.bytes else x.bytes.dropLast
  if acked.length < 2 then (nv, m)
  else
    let m := m.twtPoint (ofBytes (acked.take 2))
    if x.bytes.length ≤ 2 then (nv, m) else m.twtData nv x acked

/-! ### Reads -/

/-- The bytes that a read of `n` bytes sends from the pointer `a`, and the module after it; `fuel` bounds the
registers. `last` is whether the last byte was accepted (R454, R455). -/
def twtSend (m : Module) (nv : NonVol) (last : Bool) : Nat → Nat → Nat → List Byte × Module
  | 0, a, _ => ([], m.twtPoint a)
  | fuel + 1, a, n =>
    if n = 0 then ([], m.twtPoint a)
    else
      let k := a % 4
      let c := min (4 - k) n
      let took := n ≠ c || last
      let bad := m.busPoison nv 1 (a - k)
      let (v, m) := m.busRead nv 1 (a - k) (k = 0 && c = 4 && took)
      let m := if bad then (m.raise pgTwt TWT_EV_RD_POISON).twtErr 8 a else m
      let bs := (((wordBytes [if bad then 0 else v])).drop k).take c
      let a' := if !took then a + c - 1
        else if k + c < 4 then a + c
        else if isPort (a - k) then a - k else (a + c) % 65536
      let r := twtSend m nv last fuel a' (n - c)
      (bs ++ r.1, r.2)

/-- A transaction is in progress, as a read during it sees (R472). -/
def twtBusy (m : Module) (on : Bool) : Module := m.put pgTwt TWT_STATUS_BUSY (if on then 1 else 0)

/-- A read transaction. -/
def twtRead (m : Module) (nv : NonVol) (ptr : Option Nat) (n : Nat) (last : Bool) : Module :=
  let m := (m.boundary pgTwt).twtBusy true
  let a := (ptr.getD m.twtPtr) % 65536
  let r := (m.twtPoint a).twtSend nv last (n + 1) a n
  { (r.2.twtBusy false).twtCount 16 with out := { bytes := r.1 } }

end Module

/-- TWT_WRITE (R450). -/
def execTwtWrite (x : TwtWr) (s : State) : Host.Outcome State Fault Refusal :=
  act2 s (fun nv m => if m.twtOn then Module.settle (m.twtWrite nv x) else (nv, m))

/-- TWT_READ (R454). -/
def execTwtRead (ptr : Option Nat) (n : Nat) (lastAcc : Bool) (s : State) :
    Host.Outcome State Fault Refusal :=
  act s (fun m => if m.twtOn then m.twtRead s.nv ptr n lastAcc else m)

/-- TIMEOUT (R457): the transaction in progress is abandoned. -/
def execTimeout (s : State) : Host.Outcome State Fault Refusal :=
  act s (fun m =>
    if m.twtOn && m.flag pgTwt TWT_CFG_SMB_TMO then
      ((m.twtErr 4 m.twtPtr).count pgTwt ⟨TWT_ERR_CNT, 8, 8⟩ 1).raise pgTwt TWT_EV_TIMEOUT
    else m)

/-- STRETCH_LIMIT (R456): a write is refused whole, a read sends 0xFF from then on. -/
def execStretchLimit (reading : Bool) (s : State) : Host.Outcome State Fault Refusal :=
  act s (fun m =>
    if !m.twtOn then m
    else
      let m := (m.count pgTwt ⟨TWT_ERR_CNT, 24, 8⟩ 1).raise pgTwt TWT_EV_STRETCH_LIMIT
      if reading then m.twtErr 7 m.twtPtr else m.twtRefused 7)

end Sys2Proof.Machine
end

