-- ==== Sys2Proof/Machine/Mgmt.lean ====
section
/-! DEFINITION. What frames ask of the module as master 0x2: MGMT_REQ (R434 to R436), UPDATE_BLK (R572), MBOX
(R511) and CAPSET (R433). -/

namespace Sys2Proof.Machine

/-- What a request comes to: STATUS, DETAIL, and the words of its answer (R435). -/
structure MgmtRes where
  status : Nat := 0
  detail : Nat := 0
  words : List W32 := []
  deriving DecidableEq, Repr

/-- The answer to a write transaction whose first refusal is `why` (R435). -/
def mgmtWhy (why : Nat) : MgmtRes :=
  if why = 0 then {} else if why = whyBrown then { status := 1, detail := 4 } else { status := 2, detail := why }

/-- The payload of a MGMT_RSP (R435). -/
def mgmtRsp (q : MgmtHdr) (addr count : Nat) (r : MgmtRes) : List Byte :=
  toBytes 1 r.status ++ toBytes 1 r.detail ++ toBytes 2 addr ++ toBytes 2 count ++ toBytes 2 q.seq
    ++ wordBytes r.words

namespace Module

/-- A request runs once: a repeat of a kept one only sends its answer again; one that finds eight waiting is
answered BUSY and not executed (R436). -/
def mgmtOnce (m : Module) (nv : NonVol) (q : MgmtHdr) (addr count : Nat)
    (run : NonVol → Module → NonVol × Module × MgmtRes) : NonVol × Module :=
  if !m.busOpen 2 then (nv, m)
  else
    match m.bn.kept.find? (fun k => k.mac = q.mac && k.seq = q.seq) with
    | some k => (nv, m.mgmtSend k)
    | none =>
      let ans := fun (r : MgmtRes) => (⟨q.mac, q.seq, mgmtRsp q addr count r, q.auth, 0⟩ : KeptReq)
      if q.full then (nv, (m.mgmtCount true).mgmtSend (ans { status := 1, detail := 7 }))
      else
        let (nv, m, r) := run nv m
        settle (nv, m.mgmtAnswer (ans r))

/-- The words of a read, in order; a poisoned one reads 0. `i` is the index of the next word. -/
def mgmtReads (m : Module) (nv : NonVol) : Nat → List Nat → MgmtRes × Module
  | _, [] => ({}, m)
  | i, a :: as =>
    let bad := m.busPoison nv 2 a
    let (v, m) := m.busRead nv 2 a true
    let (r, m) := mgmtReads m nv (i + 1) as
    let r := { r with words := (if bad then 0 else v) :: r.words }
    (if bad then { r with status := 5, detail := i } else r, m)

/-- READ and READ_FIXED: `step` is 4 or 0 (R434). -/
def mgmtRead (m : Module) (nv : NonVol) (q : MgmtHdr) (addr count step : Nat) : NonVol × Module :=
  m.mgmtOnce nv q addr count (fun nv m =>
    if addr % 4 ≠ 0 || 65536 ≤ addr || count = 0 || 256 < count then (nv, m, { status := 4 })
    else
      let r := m.mgmtReads nv 0 ((List.range count).map (fun i => addr + step * i))
      (nv, r.2, r.1))

/-- WRITE and WRITE_FIXED: one staged transaction of master 0x2. -/
def mgmtWrite (m : Module) (nv : NonVol) (q : MgmtHdr) (addr step : Nat) (data : List W32) : NonVol × Module :=
  m.mgmtOnce nv q addr data.length (fun nv m =>
    let n := data.length
    if addr % 4 ≠ 0 || 65536 ≤ addr || n = 0 || 64 < n || (step = 4 && 256 < addr % 256 + 4 * n) then
      (nv, m, { status := 4 })
    else
      let r := m.transact nv 2 q.auth false (data.zipIdx.map (fun x => ⟨addr + step * x.2, x.1⟩))
      (r.1, r.2.1, mgmtWhy r.2.2))

/-- An UPDATE_BLK frame is one block of master 0x2 (R572, R573). -/
def mgmtBlock (m : Module) (nv : NonVol) (q : MgmtHdr) (ofs : Nat) (data : List Byte) : NonVol × Module :=
  m.mgmtOnce nv q (pgUpdate * 256) 0 (fun nv m =>
    let at' := rkey pgUpdate UPDATE_BLK_DATA
    if m.get pgSys SYS_STATUS_BROWN = 1 then (nv, m.cfgRefused 2 at' whyBrown, mgmtWhy whyBrown)
    else if m.autonomous then (nv, m.cfgRefused 2 at' whyAuto, mgmtWhy whyAuto)
    else if 1024 < data.length then (nv, m, { status := 4 })
    else
      let r := m.block nv 2 ofs data
      (r.1, r.2.1, if r.2.2 = 0 then {} else { status := 2, detail := 0x10 + r.2.2 }))

/-- A SEND on a channel (R511). -/
def mboxSend (m : Module) (q : MgmtHdr) (ch : Nat) (payload : List W32) : Module × MgmtRes :=
  let p := chPage ch
  let at' := rkey p (MBOX_DOORBELL0 + 12 * (ch % 8))
  if 32 ≤ ch then (m, { status := 4 })
  else if m.get pgSys SYS_STATUS_BROWN = 1 then (m.cfgRefused 2 at' whyBrown, mgmtWhy whyBrown)
  else if m.autonomous then (m.cfgRefused 2 at' whyAuto, mgmtWhy whyAuto)
  else if m.chSender ch ≠ 2 then (m.chDenied p, { status := 2, detail := 8 })
  else if m.chOccupied ch then (m.chBusy p, { status := 1, detail := 8 })
  else
    let m := ((payload ++ rep 16 0).take 16).zipIdx.foldl (fun (m : Module) (x : W32 × Nat) =>
      m.setBoth (tkey p (ch % 8) x.2) x.1) m
    (m.chRings ch (mkPair (q.seq % 256 * 256 + 64)), {})

/-- The source of the last MBOX frame accepted (R510). -/
def mboxFrom (m : Module) (q : MgmtHdr) : Module := m.updBn (fun x => { x with mboxMac := some q.mac })

/-- A SEND frame; on channel 1 it must be authenticated while Heartwood holds keys (R511). -/
def mgmtMbox (m : Module) (nv : NonVol) (q : MgmtHdr) (ch : Nat) (payload : List W32) : NonVol × Module :=
  if ch = 1 && !q.auth && m.get pgHeart HEART_STATUS_EMPTY = 0 && m.busOpen 2 then
    (nv, (m.count pgBenuf ⟨BENUF_RX_BAD1, 0, 16⟩ 1).raise pgBenuf BENUF_EV_AUTH_FAIL)
  else
    m.mgmtOnce nv q (chPage ch * 256) 0 (fun nv m =>
      let r := (m.mboxFrom q).mboxSend q ch payload
      (nv, r.1, r.2))

/-- ACK_READ (R511). -/
def mgmtAck (m : Module) (nv : NonVol) (q : MgmtHdr) (ch : Nat) : NonVol × Module :=
  m.mgmtOnce nv q (chPage ch * 256) 0 (fun nv m =>
    if 32 ≤ ch then (nv, m, { status := 4 })
    else
      let k := ch % 8
      let own := if m.chReceiver ch = 2 then m.chPayload ch else []
      (nv, m.mboxFrom q, { words :=
        [m.reg (chPage ch) (MBOX_ACK_H0 + 12 * k), m.reg (chPage ch) (MBOX_ACK_L0 + 12 * k)] ++ own }))

/-! ### CAPSET (R433) -/

/-- CAPSET_LAST. -/
def capsetNote (m : Module) (f : Capset) (late refused : Bool) : Module :=
  m.setReg pgBenuf BENUF_CAPSET_LAST (BitVec.ofNat 32 (f.target % 2 + (if late then 16 else 0)
    + (if refused then 32 else 0) + f.effective % 65536 * 65536))

/-- The cap of a CAPSET is written as one staged transaction of master 0x2, and reported. -/
def capsetWrite (m : Module) (nv : NonVol) (f : Capset) (late : Bool) : NonVol × Module :=
  let off := if f.target = 0 then GROVE_GCAP_H else GROVE_CCAP_H
  let r := m.transact nv 2 false false
    [⟨rkey pgGrove off, mkPair (f.cap / 65536)⟩, ⟨rkey pgGrove (off + 4), mkPair f.cap⟩]
  let m := r.2.1.capsetNote f late (r.2.2 ≠ 0)
  let m := m.raise pgBenuf BENUF_EV_CAPSET
  (r.1, if late then m.raise pgBenuf BENUF_EV_CAPSET_LATE else m)

/-- A CAPSET is for this module. -/
def capsetMine (m : Module) (f : Capset) : Bool :=
  m.busOpen 2 && m.en pgBenuf && m.shelf ≠ 0xFFF
    && (f.grove = 0xFF || f.grove = m.shelf / 64 || (f.target = 1 && m.flag pgGrove GROVE_CFG_CANOPY_EN))

/-- How far EPE period `e` lies ahead of the current one, modulo 2^32 (R418). -/
def periodsTo (m : Module) (e : Nat) : Nat := (e % 2 ^ 32 + 2 ^ 32 - m.epePeriodNo % 2 ^ 32) % 2 ^ 32

/-- A CAPSET waits for its period; a TARGET that is none is refused (R423); one that is not after the current period is written at once. -/
def capset (m : Module) (nv : NonVol) (f : Capset) : NonVol × Module :=
  let d := m.periodsTo f.effective
  if !m.capsetMine f then (nv, m)
  else if 2 ≤ f.target then (nv, ((m.capsetNote f false true).raise pgBenuf BENUF_EV_CAPSET).raise pgGrove EV_CFG_REFUSED)
  else if 0 < d && d < 2 ^ 31 then (nv, m.updBn (fun x => { x with capsets := x.capsets ++ [f] }))
  else m.capsetWrite nv f true

/-- The next EPE period starts at a 10 ms boundary. -/
def nextTen (m : Module) : Bool :=
  let us := periodUs (m.taskPer 0)
  ((if us < 1000 then m.sched.epeK else m.sched.frame * 1000 / us) + 1) * us % 10000 = 0

/-- A CAPSET must be written now, to be in force from the next period start on: a grove cap for its own
period, a canopy cap for the first 10 ms boundary at or after its start. -/
def capsetDue (m : Module) (f : Capset) : Bool :=
  let d := m.periodsTo f.effective
  (decide (d ≤ 1) || decide (2 ^ 31 ≤ d)) && (f.target = 0 || m.nextTen)

/-- The CAPSETs that must be in force from the next period start are written, in order of arrival. -/
def capsetApply (m : Module) (nv : NonVol) : NonVol × Module :=
  let fs := m.bn.capsets.filter m.capsetDue
  let keep := m.bn.capsets.filter (fun f => !m.capsetDue f)
  fs.foldl (fun s f => s.2.capsetWrite s.1 f false) (nv, m.updBn (fun x => { x with capsets := keep }))

end Module

/-- READ (R434). -/
def execRead (q : MgmtHdr) (addr count : Nat) (s : State) : Host.Outcome State Fault Refusal :=
  act2 s (fun nv m => m.mgmtRead nv q addr count 4)

/-- WRITE (R435). -/
def execWrite (q : MgmtHdr) (addr : Nat) (data : List W32) (s : State) : Host.Outcome State Fault Refusal :=
  act2 s (fun nv m => m.mgmtWrite nv q addr 4 data)

/-- READ_FIXED (R434). -/
def execReadFixed (q : MgmtHdr) (addr count : Nat) (s : State) : Host.Outcome State Fault Refusal :=
  act2 s (fun nv m => m.mgmtRead nv q addr count 0)

/-- WRITE_FIXED (R434). -/
def execWriteFixed (q : MgmtHdr) (addr : Nat) (data : List W32) (s : State) :
    Host.Outcome State Fault Refusal :=
  act2 s (fun nv m => m.mgmtWrite nv q addr 0 data)

/-- UPDATE_BLK (R572). -/
def execUpdateBlk (q : MgmtHdr) (ofs : Nat) (data : List Byte) (s : State) :
    Host.Outcome State Fault Refusal :=
  act2 s (fun nv m => m.mgmtBlock nv q ofs data)

/-- SEND (R511). -/
def execSend (q : MgmtHdr) (ch : Nat) (payload : List W32) (s : State) :
    Host.Outcome State Fault Refusal :=
  act2 s (fun nv m => m.mgmtMbox nv q ch payload)

/-- ACK_READ (R511). -/
def execAckRead (q : MgmtHdr) (ch : Nat) (s : State) : Host.Outcome State Fault Refusal :=
  act2 s (fun nv m => m.mgmtAck nv q ch)

/-- CAPSET (R433). -/
def execCapset (f : Capset) (s : State) : Host.Outcome State Fault Refusal :=
  act2 s (fun nv m => m.capset nv f)

/-- CAPSET_APPLY (R433). -/
def execCapsetApply (s : State) : Host.Outcome State Fault Refusal :=
  act2 s (fun nv m => if m.busOpen 2 then m.capsetApply nv else (nv, m))

end Sys2Proof.Machine
end

