-- ==== Sys2Proof/Machine/Frame.lean ====
section
/-! DEFINITION. The period timebase at work: bucket boundaries (R102, R104), the major frame (R109 to
R112, R120, R126), and the start, deadline and overflow of a task (R113 to R119). The deadlines of
a boundary come before its major frame, and the starts after it. -/

namespace Sys2Proof.Machine

/-- A list of buckets, newest first, at a boundary: the oldest one is emptied (R102). -/
def bucketShift (bs : List Nat) : List Nat := (0 :: bs).take 8

/-- A counter block at a bucket boundary of its window; with a new window its buckets are emptied
(R102, R104). -/
def ctrShift (fresh : Bool) (c : Ctr) : Ctr :=
  { c with buckets := if fresh then rep 8 0 else bucketShift c.buckets,
           since := c.since.map (fun n => min 9 (n + 1))
           quiet := min 9 (c.quiet + 1) }

/-- A task at a bucket boundary of SCHED.FLT_WIN (R118, R119). -/
def taskClean (x : Task) : Task :=
  let n := min 9 (x.clean + 1)
  { x with clean := n, watched := x.watched && !(n = 9 && x.next.isNone) }

/-- The high-water buckets of a task after 1.25 s (R121). -/
def hwShift (x : Task) : Task := { x with hw := bucketShift x.hw }

/-- The run of a task is timed in the newest bucket (R121), and its period is committed (R28). -/
def taskTimed (cyc : Nat) (x : Task) : Task :=
  { x with started := false, first := true, buf := [], cmts := true, hw := upd x.hw 0 (fun a => max a cyc) }

namespace Module

/-! ### Bucket boundaries (R102, R104) -/

/-- AUTO_REL: the module releases the drop latches whose cause is gone (R119). -/
def autoRelease (m : Module) : Module :=
  if bit (m.reg pgSched CTRL) 8 then
    (List.range 12).foldl (fun m t => m.clearLatch .sched pgSched 0 (8 + t)) m
  else m

/-- A bucket boundary of the window register with key `win`. -/
def bucketEnd (m : Module) (win : Nat) : Module :=
  let wait := m.winWait.find? (fun kv => kv.1 = win)
  let m := { m with ctrs := m.ctrs.map (fun c => if c.win = win then ctrShift wait.isSome c else c) }
  let m := match wait with
    | some kv =>
      let m' := m.force win kv.2
      { m' with winWait := m.winWait.filter (fun x => x.1 ≠ win) }
    | none => m
  let m := if win = rkey pgInteg FLT_WIN then { m with cfgRec := m.cfgRec.map (fun n => min 9 (n + 1)) } else m
  if win = rkey pgSched FLT_WIN then
    if m.sched.run && m.sys.fwRun then
      ({ m with sched := { m.sched with tasks := m.sched.tasks.map taskClean } }).autoRelease
    else m.autoRelease
  else m

/-! ### Fallbacks (R117, R118) -/

/-- ALL_ON: every phase that a running rail can add is added (R117). -/
def allOn (m : Module) : Module :=
  (List.range (nRails m.sys.part)).foldl (fun m r =>
    if !m.rlRuns r then m
    else (m.namedBy r).foldl (fun m _ => if (m.addPick r).isSome then m.addPhase r else m) m) m

/-- No probe runs: SUSPECT phases stay flagged (R191). -/
def probeHold (m : Module) : Module :=
  let m := (List.range (nRails m.sys.part)).foldl (fun m r => m.probeAbort r) m
  (List.range (nPhases m.sys.part)).foldl (fun m n => m.updPh n (fun x => { x with probeDue := false })) m

/-- The last readings of every polled entry are stale (R117). -/
def pollStale (m : Module) : Module :=
  (List.range 64).foldl (fun m i =>
    let p := i / 16
    let e := i % 16
    if m.entSt p e = enOk then m.rdPut p e 3 0 3 enStale else m) m

/-- What a fallback does when it begins. -/
def fallbackActs (m : Module) (t : Nat) : Module :=
  match t with
  | 0 => m.epeDrop
  | 1 => m.groveEpoch
  | 2 => m.allOn
  | 3 => m.probeHold
  | 4 => m.battHold
  | 7 => m.pollStale
  | 8 => (List.range 16).foldl (fun m i => m.tsReport i false) m
  | 10 => m.groveEpoch
  | 11 => m.updAbort
  | _ => m

/-- A task enters its fallback (R118). -/
def taskFallback (m : Module) (t : Nat) : Module :=
  let m := m.updTask t (fun x => { x with fallback := true, watched := false, moveDue := false, fallDue := false })
  (m.raise pgSched SCHED_EV_FALLBACK).fallbackActs t

/-- A watched task that has dropped enters its fallback (R118). -/
def fallNow (m : Module) : Module :=
  ((List.range 12).filter (fun t => (m.task t).fallDue)).foldl (fun m t => m.taskFallback t) m

/-- A drop of a task (R113, R114): one that is watched after a policy move enters its fallback. -/
def taskDropped (m : Module) (t reason : Nat) : Module := (m.taskDrop t reason).fallNow

/-- A drop that became lasting acts at the major frame: the task moves, or enters its fallback
(R118). -/
def taskPolicy (m : Module) (t : Nat) : Module :=
  if !(m.task t).moveDue then m
  else
    match m.policyCluster t with
    | some c => m.policyMove t c
    | none => m.taskFallback t

/-- The policies of a major frame; a move asks for a repack (R124). -/
def policies (m : Module) : Module :=
  if m.halted then m
  else
    let moves := (List.range 12).any (fun t => (m.task t).moveDue)
    let m := (List.range 12).foldl (fun m t => m.taskPolicy t) m
    if moves then m.repack else m

/-! ### Changes of owner (R126) -/

/-- The period of a task in µs. -/
def taskUs (m : Module) (t : Nat) : Nat := periodUs (m.taskPer t)

/-- The period of the task in progress ends at a major-frame boundary. -/
def endsFrame (m : Module) (t : Nat) : Bool :=
  1000 ≤ m.taskUs t || ((m.sched.epeK + 1) * m.taskUs t) % 1000 = 0

/-- A task at its period boundary takes its new owner; placement stands still in a restart (R131). -/
def taskTake (m : Module) (t : Nat) (due : Bool) : Module :=
  match (m.task t).next with
  | some c => if !m.halted && (due || (m.task t).armed) then m.taskMove t c else m
  | none => m

/-- At a major frame a task that has no period in progress takes its new owner when its period
begins there; any other does so at its next period boundary. -/
def taskArm (m : Module) (t : Nat) : Module :=
  if (m.task t).next.isNone then m
  else if !(m.task t).started && (m.taskUs t < 1000 || m.sched.frame * 1000 % m.taskUs t = 0) then
    m.taskTake t true
  else m.updTask t (fun x => { x with armed := true })

/-! ### The major frame -/

/-- The started tasks that have not finished are aborted for a reason that is no drop; `done` names those
that have finished and wait for their deadline (R113). -/
def abortAll (m : Module) (reason : Nat) (done : List Nat) : Module :=
  ((List.range 12).filter (fun t => (m.task t).started && !done.contains t)).foldl (fun m t =>
    (if t = 0 then m.epeDrop else m).taskAbort t reason) m

/-- EN written 0 takes effect (R120): no period of any task is committed until it starts again (R119). -/
def schedStop (m : Module) (done : List Nat) : Module :=
  if !m.sched.stopDue then m
  else
    let m := m.abortAll 4 done
    let m := { m with sched := { m.sched with run := false, stopDue := false } }
    let m := (List.range 12).foldl (fun m t => m.updTask t (fun x => { x with clean := 0, cmts := false })) m
    (List.range 16).foldl (fun m i => m.tsReport i false) m

/-- The time that the frame begins at, after a step of the timebase (R110, R111, R519). -/
def frameTime (m : Module) (done : List Nat) : Module :=
  let per := m.taskUs 0
  let sub := fun (f : Nat) (x : SchedSt) =>
    { x with frame := f, stepTo := none, tb := true, epeSub := false,
             epeK := if per < 1000 then f * 1000 / per else x.epeK }
  let m :=
    if !m.sched.tb then
      let f := match m.sched.stepTo with | some t => t | none => 0
      ({ m with sched := sub f m.sched }).setReg pgSched SCHED_MFRAME 0
    else
      let m := m.setReg pgSched SCHED_MFRAME (m.reg pgSched SCHED_MFRAME + 1)
      match m.sched.stepTo with
      | none => { m with sched := sub (m.sched.frame + 1) m.sched }
      | some t =>
        let m := m.abortAll 3 done
        let m := { m with sched := sub t m.sched }
        let m := (m.count pgSched SCHED_TB_STAT_STEPS 1).raise pgSched SCHED_EV_STEP
        m.anchorNow 3
  m.updRc (fun x => { x with optime := (x.optime + 1) % 2 ^ 42 })

/-- The placement at a major frame (R124 to R130, R142). -/
def placeFrame (m : Module) : Module :=
  let lean := m.flag pgPlace PLACE_CFG_LEAN
  let rot := m.cfg pgPlace PLACE_CFG_ROT_TEST
  let m := m.boundary pgPlace
  let m := if rot = m.cfg pgPlace PLACE_CFG_ROT_TEST then m else m.rotChange rot
  if m.halted then m
  else
    let m := (List.range 12).foldl (fun m t => m.taskArm t) m
    let m := m.policies
    let m := if lean && !m.flag pgPlace PLACE_CFG_LEAN then m.cluWakeAll else m
    (m.cluGate).rotRetry

/-- The 1.25 s buckets of the high-water times (R121). -/
def hwFrame (m : Module) : Module :=
  if m.sched.hwMs + 1 < 1250 then { m with sched := { m.sched with hwMs := m.sched.hwMs + 1 } }
  else ({ m with sched := { m.sched with hwMs := 0, tasks := m.sched.tasks.map hwShift } }).checkLoads

/-- The ms left for a COMMIT of the life cycle counts down (R555). -/
def armFrame (m : Module) : Module :=
  let n := (m.reg pgLife LIFE_ARM_LEFT).toNat
  if n ≤ 1 then m else m.setReg pgLife LIFE_ARM_LEFT (BitVec.ofNat 32 (n - 1))

/-- The settings that apply at a major frame (R22, R206, R446): for the GIN channels, which sample all the
time, those that no command has applied before. -/
def settingsFrame (m : Module) : Module :=
  let m := (List.range (nGin m.sys.part)).foldl (fun m i => (m.ginApply i).ginThr i) m
  ((m.truncSyncAll.syncFrame).pullStep).boundary pgBenuf

/-- The restart halts the clusters; no probe runs until it has ended (R25, R191). -/
def haltFrame (m : Module) : Module :=
  match m.sys.restart with
  | .pending _ => (m.fwHalt).probeHold
  | _ => m.fwMs

/-- What begins with a period of the EPE (R274, R431) and of the canopy (R276). -/
def groveFrame (m : Module) : Module :=
  let us := m.taskUs 0
  let m := if us < 1000 || m.sched.frame * 1000 % us = 0 then m.groveStart else m
  if m.sched.frame % 10 = 0 then m.canopyStart else m

/-- A major frame. -/
def majorFrame (m : Module) (nv : NonVol) (done : List Nat) : NonVol × Module :=
  let m := (m.schedStop done).haltFrame.frameTime done
  let m := (m.placeFrame.hwFrame).autoRelease
  let m := (m.settingsFrame.armFrame).tbSlew
  let m := (m.xingFrame.rectMs).battMs
  let m := m.netMs.groveFrame
  m.mramFlush nv

/-! ### The start of a period (R113, R138) -/

/-- Number of the EPE period that begins, when it is shorter than a major frame (R110). -/
def epeNext (m : Module) : Module :=
  if 1000 ≤ m.taskUs 0 then m
  else if m.sched.epeSub then { m with sched := { m.sched with epeK := m.sched.epeK + 1 } }
  else { m with sched := { m.sched with epeSub := true } }

/-- The task can start: SCHED runs, the clusters run and its own one is in service (R25, R120, R128). -/
def taskCan (m : Module) (t : Nat) : Bool :=
  let x := m.task t
  let c := nth 0 m.sched.clu x.owner
  t < 12 && m.sched.run && m.sys.fwRun && m.sched.tb && !x.started
    && x.owner < nClusters m.sys.part && c ≠ 3 && c ≠ 4

/-- A task's period starts; what the task gives out within it is given out (R251, R270, R275). -/
def taskStart (m : Module) (t jit : Nat) (gin : List Int) (acok late : Nat) : Module :=
  let m := if t = 0 && m.sched.tb then m.epeNext else m
  let m := if (m.task t).started then m else m.taskTake t false
  if !m.taskCan t then m
  else
    let m := m.localClear (m.task t).owner
    let m := m.updTask t (fun x => { x with started := true, buf := [] })
    let m := m.setReg pgSched SCHED_JIT_MAX
      (BitVec.ofNat 32 (min (2 ^ 32 - 1) (max (m.reg pgSched SCHED_JIT_MAX).toNat jit)))
    if t = 0 then if m.halted then m else m.epeRequest gin acok
    else if t = 1 then m.groveSend late
    else if t = 10 then m.canopySend late
    else m

/-! ### SHED (R179) and SENSE_CHK (R188 to R196) -/

/-- The SHED task commits on a rail: one phase drops at the next period boundary, if the dwell condition
still holds; the dwell starts again. -/
def shedRail (m : Module) (r : Nat) : Module :=
  if m.get (pgRail + r) RAIL_STATUS_DROP_READY = 0 then m
  else
    let m' := (m.put (pgRail + r) RAIL_STATUS_DROP_READY 0).updRl r (fun x => { x with dwell := false })
    if !m.dwellCond r (m.rail r).cur then m'
    else
      match m.dropPick r with
      | some n => m'.updPh n (fun x => { x with dropDue := true })
      | none => m'

/-- Sensed current of a phase, 0.1 A / 32,768 (R155). -/
def sensed (m : Module) (n : Nat) : Int := (m.phase n).code * m.val (pgPhase + n) PHASE_ISNS_SCALE

/-- The conditions of R188 on a phase that switches: the mean is over its sensed siblings. -/
def suspect (m : Module) (n : Nat) : Bool :=
  let r := m.railOf n
  let sib := (m.actives r).filter (fun j => j ≠ n && m.get (pgPhase + j) PHASE_STATUS_OBS = 0)
  let thr := m.val (pgPhase + n) PHASE_OPEN_THR
  let need := max (2 * thr) (m.cfg (pgRail + r) RAIL_PROBE_CFG_PROBE_THR) * 32768 * sib.length
  decide (m.sensed n < ((thr * 32768 : Nat) : Int))
    && decide (((m.val (pgRail + r) RAIL_DUTY_MIN : Nat) : Int) < (m.phase n).d)
    && !sib.isEmpty && decide ((need : Int) ≤ sumI (sib.map m.sensed))

/-- SENSE_CHK judges a phase (R188, R192, R196), with the ground that the firmware has found on it, 1 for
STUCK; the pairs that it reads are checked (R94). -/
def sensePhase (m : Module) (n : Nat) (g : Int) : Module :=
  let r := m.railOf n
  let st := m.phSt n
  let m := if psSwitches st then
      (m.usePair (pgPhase + n) PHASE_OPEN_THR).usePair (pgRail + r) RAIL_DUTY_MIN else m
  let k := m.senseGround n (g = 1)
  let m := m.updPh n (fun x => { x with ground := k })
  if st = psActive then
    if k ≠ 0 then m.senseFail n k
    else if !m.suspect n then m.updPh n (fun x => { x with suspN := 0 })
    else
      let c := (m.phase n).suspN + 1
      if c < m.cfg (pgRail + r) RAIL_PROBE_CFG_OPEN_T then m.updPh n (fun x => { x with suspN := c })
      else
        let m := ((m.setPh n psSuspect).put (pgPhase + n) PHASE_PROBE_TRIES 0).raise (pgPhase + n) PHASE_EV_SUSPECT
        m.updPh n (fun x => { x with suspN := 0, inconcl := 0, probeDue := true })
  else if st = psSuspect then
    if (m.phase n).openDue then m
    else if m.suspect n then m.updPh n (fun x => { x with probeDue := true })
    else (m.setPh n psActive).updPh n (fun x => { x with suspN := 0, probeDue := false })
  else if st = psDerated then
    if m.shedTest r then m.updPh n (fun x => { x with shedDue := true }) else m
  else m.updPh n (fun x => { x with suspN := 0 })

/-- SENSE_CHK commits. -/
def senseCheck (m : Module) (obs : List (Nat × Int × Int)) : Module :=
  (List.range (nPhases m.sys.part)).foldl (fun m n =>
    m.sensePhase n (match obs.find? (fun x => x.1 = n) with | some x => x.2.1 | none => 0)) m

/-! ### THERM (R379) -/

/-- THERM commits: the rates of rise, which count outside a restart and its fallback (R380). -/
def thermCommit (m : Module) (obs : List (Nat × Int × Int)) : Module :=
  if m.riseActs then obs.foldl (fun m x => m.thermRise x.1 x.2.1 x.2.2) m else m

/-! ### The deadline (R113) -/

/-- What the rules make of the commit of a task. -/
def taskActs (m : Module) (r : TaskRun) : Module :=
  match r.id with
  | 0 => (if m.epeCommits then m.epeCommit.xingSolved else m.epeCommit).xingBatt
  | 1 => m.groveCommit
  | 2 => if m.halted then m else (List.range (nRails m.sys.part)).foldl (fun m i => m.shedRail i) m
  | 3 => if m.halted then m else m.senseCheck r.obs
  | 4 => (m.battTick !m.halted).xingBatt
  | 6 => if m.halted then m else m.shareTrim
  | 8 => m.thermCommit r.obs
  | _ => m

/-- In fallback a task's outputs do not apply; its fallback stands in for them (R118). -/
def taskStandIn (m : Module) (t : Nat) : Module :=
  match t with
  | 0 => m.epeDrop
  | 2 => m.allOn
  | 7 => m.pollStale
  | _ => m

/-- The entries of a commit buffer that are register writes, in order (R113, R115). -/
def bufRegs (buf : List Staged) : List RegWr :=
  (buf.filter (fun e => regBase ≤ e.addr)).flatMap (fun e =>
    let a := e.addr - regBase
    if e.size = 8 then [⟨a, BitVec.ofNat 32 e.val⟩, ⟨a + 4, BitVec.ofNat 32 (e.val / 2 ^ 32)⟩]
    else [⟨a, BitVec.ofNat 32 e.val⟩])

/-- The entries that lie in the scratchpad are written by the owner of the task. -/
def bufWrites (m : Module) (nv : NonVol) (x : Nat) (buf : List Staged) : NonVol × Module :=
  (buf.filter (fun e => e.addr < regBase)).foldl (fun a e =>
    a.2.memAccess a.1 { m := x, addr := e.addr, size := e.size, wr := some (BitVec.ofNat 64 e.val), bad := 0,
                        sym := 0, waited := 0, rivals := [], task := none }) (nv, m)

/-- A finished task commits (R113, R115, R118): what the rules make of it, its change of owner, and its
commit buffer: the words of the scratchpad, and the register writes as one transaction of its cluster. In
its fallback its state alone is committed. -/
def taskCommit (m : Module) (nv : NonVol) (r : TaskRun) : NonVol × Module :=
  let x := m.task r.id
  let ends := m.endsFrame r.id
  let m := m.updTask r.id (taskTimed r.cyc)
  let m := if x.fallback then m.taskStandIn r.id else m.taskActs r
  let m := (m.taskTake r.id ends).checkLoads
  let (nv, m) := m.bufWrites nv (4 + x.owner) x.buf
  if x.fallback || (bufRegs x.buf).isEmpty then (nv, m) else m.busDo nv (4 + x.owner) false (bufRegs x.buf)

/-- Why an unfinished task is aborted at its deadline: what takes effect at the same boundary comes before a
drop (R25, R111, R120). -/
def lateReason (m : Module) (t : Nat) : Nat :=
  if !m.endsFrame t then 1
  else
    match m.sys.restart with
    | .pending _ => 5
    | _ => if m.sched.stopDue then 4 else if m.sched.stepTo.isSome then 3 else 1

/-- A task that has not finished at its deadline. -/
def taskLate (m : Module) (t : Nat) : Module :=
  let ends := m.endsFrame t
  let why := m.lateReason t
  let m := if why = 1 then m.taskDropped t 1 else (if t = 0 then m.epeDrop else m).taskAbort t why
  m.taskTake t ends

/-- A deadline. -/
def taskDeadline (m : Module) (nv : NonVol) (r : TaskRun) : NonVol × Module :=
  if 12 ≤ r.id || !(m.task r.id).started then (nv, m)
  else if r.fin then m.taskCommit nv r
  else (nv, m.taskLate r.id)

end Module

/-- BUCKET_BOUNDARY (R102): `win` is the address of the window register. -/
def execBucketBoundary (win : Nat) (s : State) : Host.Outcome State Fault Refusal :=
  actLive s (fun m => m.bucketEnd win)

/-- MAJOR_FRAME (R109): the timebase counts from the release of the outputs on (R110); `done` names the tasks
that have finished and wait for a later deadline. -/
def execMajorFrame (done : List Nat) (s : State) : Host.Outcome State Fault Refusal :=
  act2Live s (fun nv m => if m.sys.released then m.majorFrame nv done else (nv, m))

/-- TASK_START (R113): `jit` is how late it is, in CORE cycles; EPE_REQ reads the GIN channels and the
ACOK inputs (R247, R250); `late` is when SHARE or SUMMARY is sent, in 100 ns after the start (R270). -/
def execTaskStart (id jit : Nat) (gin : List Int) (acok late : Nat) (s : State) :
    Host.Outcome State Fault Refusal :=
  actAt id (fun _ => 12) s (fun m => m.taskStart id jit gin acok late)

/-- TASK_DEADLINE (R113, R118). -/
def execTaskDeadline (r : TaskRun) (s : State) : Host.Outcome State Fault Refusal :=
  act2Live s (fun nv m => let x := m.taskDeadline nv r; (x.1, x.2.fallNow))

/-- MEMORY_ACCESS (R475 to R482, R113). -/
def execMemoryAccess (q : MemReq) (s : State) : Host.Outcome State Fault Refusal :=
  act2Live s (fun nv m => let r := m.memCommand nv q; (r.1, r.2.fallNow))

/-- OVERFLOW (R114): at once, and counted as a drop. -/
def execOverflow (id : Nat) (s : State) : Host.Outcome State Fault Refusal :=
  actAt id (fun _ => 12) s (fun m => if (m.task id).started then m.taskDropped id 2 else m)

end Sys2Proof.Machine
end

