-- ==== Sys2Proof/Machine/Dispatch.lean ====
section
/-! DEFINITION. One arm per command: each calls its meaning. -/

namespace Sys2Proof.Machine

def exec (i : Instr) (s : State) : Host.Outcome State Fault Refusal :=
  match i with
  | .powerOn va vb straps => Sys2Proof.Machine.execPowerOn va vb straps s
  | .brownOut => Sys2Proof.Machine.execBrownOut s
  | .brownOutEnd => Sys2Proof.Machine.execBrownOutEnd s
  | .vauxInputLost inp => Sys2Proof.Machine.execVauxInputLost inp s
  | .collapse va vb torn => Sys2Proof.Machine.execCollapse va vb torn s
  | .vauxDip lowest us => Sys2Proof.Machine.execVauxDip lowest us s
  | .lastBreathEntry us torn => Sys2Proof.Machine.execLastBreathEntry us torn s
  | .lastBreathReset => Sys2Proof.Machine.execLastBreathReset s
  | .holdOk => Sys2Proof.Machine.execHoldOk s
  | .resetPin => Sys2Proof.Machine.execResetPin s
  | .resetRelease straps => Sys2Proof.Machine.execResetRelease straps s
  | .clkLoss clk => Sys2Proof.Machine.execClkLoss clk s
  | .clkRestartTry clk present => Sys2Proof.Machine.execClkRestartTry clk present s
  | .clkResume clk => Sys2Proof.Machine.execClkResume clk s
  | .syncLock ferr => Sys2Proof.Machine.execSyncLock ferr s
  | .syncLost => Sys2Proof.Machine.execSyncLost s
  | .fwRestart m => Sys2Proof.Machine.execFwRestart m s
  | .moduleResetCmd m => Sys2Proof.Machine.execModuleResetCmd m s
  | .saplingCmd m => Sys2Proof.Machine.execSaplingCmd m s
  | .clusterLockup c => Sys2Proof.Machine.execClusterLockup c s
  | .codeShadowLoaded fmtOk => Sys2Proof.Machine.execCodeShadowLoaded fmtOk s
  | .freezeEnd => Sys2Proof.Machine.execFreezeEnd s
  | .fwLost => Sys2Proof.Machine.execFwLost s
  | .profileChange m v => Sys2Proof.Machine.execProfileChange m v s
  | .registerWrite m addr v others => Sys2Proof.Machine.execRegisterWrite m addr v others s
  | .softRst m page => Sys2Proof.Machine.execSoftRst m page s
  | .lock m page v => Sys2Proof.Machine.execLock m page v s
  | .evtRawClear m page v => Sys2Proof.Machine.execEvtRawClear m page v s
  | .fltStatClear m page v => Sys2Proof.Machine.execFltStatClear m page v s
  | .fltWinWrite m addr v => Sys2Proof.Machine.execFltWinWrite m addr v s
  | .bucketBoundary win => Sys2Proof.Machine.execBucketBoundary win s
  | .tblDataAccess m page wr => Sys2Proof.Machine.execTblDataAccess m page wr s
  | .memoryAccess q => Sys2Proof.Machine.execMemoryAccess q s
  | .retired unit row => Sys2Proof.Machine.execRetired unit row s
  | .scrubStep sram bad sym => Sys2Proof.Machine.execScrubStep sram bad sym s
  | .shadowReload addr => Sys2Proof.Machine.execShadowReload addr s
  | .tamper j => Sys2Proof.Machine.execTamper j s
  | .tamperPulseCheck j wentLow wentHigh => Sys2Proof.Machine.execTamperPulseCheck j wentLow wentHigh s
  | .glitch kind => Sys2Proof.Machine.execGlitch kind s
  | .wipeCmd m v => Sys2Proof.Machine.execWipeCmd m v s
  | .wiped => Sys2Proof.Machine.execWiped s
  | .majorFrame done => Sys2Proof.Machine.execMajorFrame done s
  | .taskStart id jit gin acok late => Sys2Proof.Machine.execTaskStart id jit gin acok late s
  | .taskDeadline r => Sys2Proof.Machine.execTaskDeadline r s
  | .overflow id => Sys2Proof.Machine.execOverflow id s
  | .schedEn m v => Sys2Proof.Machine.execSchedEn m v s
  | .clusterReady c => Sys2Proof.Machine.execClusterReady c s
  | .bistReq m v => Sys2Proof.Machine.execBistReq m v s
  | .clusterIsolated c => Sys2Proof.Machine.execClusterIsolated c s
  | .bistDone c pass => Sys2Proof.Machine.execBistDone c pass s
  | .rotTest => Sys2Proof.Machine.execRotTest s
  | .bankMoveDone bank => Sys2Proof.Machine.execBankMoveDone bank s
  | .railEn m r v => Sys2Proof.Machine.execRailEn m r v s
  | .phaseEn m n v => Sys2Proof.Machine.execPhaseEn m n v s
  | .loopSample r x => Sys2Proof.Machine.execLoopSample r x s
  | .dutyRelease r t => Sys2Proof.Machine.execDutyRelease r t s
  | .railPeriodBoundary r t => Sys2Proof.Machine.execRailPeriodBoundary r t s
  | .trunc r x t => Sys2Proof.Machine.execTrunc r x t s
  | .truncExit r x t => Sys2Proof.Machine.execTruncExit r x t s
  | .ov r cyc => Sys2Proof.Machine.execOv r cyc s
  | .cbcTrip n x t => Sys2Proof.Machine.execCbcTrip n x t s
  | .negLimitTrip n x t => Sys2Proof.Machine.execNegLimitTrip n x t s
  | .uvComparatorLow r x => Sys2Proof.Machine.execUvComparatorLow r x s
  | .uv r cyc => Sys2Proof.Machine.execUv r cyc s
  | .ginHi c x t => Sys2Proof.Machine.execGinHi c x t s
  | .ginLo c x cyc => Sys2Proof.Machine.execGinLo c x cyc s
  | .rollSlotEnd off gain span => Sys2Proof.Machine.execRollSlotEnd off gain span s
  | .calReq m v => Sys2Proof.Machine.execCalReq m v s
  | .refCalDone off gain spareOk => Sys2Proof.Machine.execRefCalDone off gain spareOk s
  | .monReading c val => Sys2Proof.Machine.execMonReading c val s
  | .dtAdapt r mean => Sys2Proof.Machine.execDtAdapt r mean s
  | .dropReady r => Sys2Proof.Machine.execDropReady r s
  | .ssStall r cyc => Sys2Proof.Machine.execSsStall r cyc s
  | .ssCbcShort r cyc => Sys2Proof.Machine.execSsCbcShort r cyc s
  | .shortRetry r => Sys2Proof.Machine.execShortRetry r s
  | .probeStart n => Sys2Proof.Machine.execProbeStart n s
  | .probeDone n => Sys2Proof.Machine.execProbeDone n s
  | .railCommitRef m r => Sys2Proof.Machine.execRailCommitRef m r s
  | .railCommitProt m r => Sys2Proof.Machine.execRailCommitProt m r s
  | .railCommitShed m r => Sys2Proof.Machine.execRailCommitShed m r s
  | .cleCommit m v => Sys2Proof.Machine.execCleCommit m v s
  | .cleEn m v => Sys2Proof.Machine.execCleEn m v s
  | .traceEn m k v => Sys2Proof.Machine.execTraceEn m k v s
  | .arm m k => Sys2Proof.Machine.execArm m k s
  | .force m k cyc => Sys2Proof.Machine.execForce m k cyc s
  | .stop m k => Sys2Proof.Machine.execStop m k s
  | .solveDone => Sys2Proof.Machine.execSolveDone s
  | .wake slot => Sys2Proof.Machine.execWake slot s
  | .droopWake gin => Sys2Proof.Machine.execDroopWake gin s
  | .wearAccumulate => Sys2Proof.Machine.execWearAccumulate s
  | .wearSave => Sys2Proof.Machine.execWearSave s
  | .capEstimate gin => Sys2Proof.Machine.execCapEstimate gin s
  | .assistStep mean gin => Sys2Proof.Machine.execAssistStep mean gin s
  | .hardLimit => Sys2Proof.Machine.execHardLimit s
  | .released => Sys2Proof.Machine.execReleased s
  | .sustained => Sys2Proof.Machine.execSustained s
  | .groveCutoff => Sys2Proof.Machine.execGroveCutoff s
  | .shareRise canopy => Sys2Proof.Machine.execShareRise canopy s
  | .canopyCutoff => Sys2Proof.Machine.execCanopyCutoff s
  | .epeCommitSrc m => Sys2Proof.Machine.execEpeCommitSrc m s
  | .groveEn m v => Sys2Proof.Machine.execGroveEn m v s
  | .feedDetect cyc gin => Sys2Proof.Machine.execFeedDetect cyc gin s
  | .slopeDetect cyc gin => Sys2Proof.Machine.execSlopeDetect cyc gin s
  | .acokDetect cyc gin => Sys2Proof.Machine.execAcokDetect cyc gin s
  | .full tx => Sys2Proof.Machine.execFull tx s
  | .busLoopSample gin => Sys2Proof.Machine.execBusLoopSample gin s
  | .stringShedResume => Sys2Proof.Machine.execStringShedResume s
  | .inGoodChange acok => Sys2Proof.Machine.execInGoodChange acok s
  | .returning => Sys2Proof.Machine.execReturning s
  | .cutoffExit => Sys2Proof.Machine.execCutoffExit s
  | .xingEn m v => Sys2Proof.Machine.execXingEn m v s
  | .xingCommitBus m => Sys2Proof.Machine.execXingCommitBus m s
  | .feedEn m c v => Sys2Proof.Machine.execFeedEn m c v s
  | .feedInsDelay c => Sys2Proof.Machine.execFeedInsDelay c s
  | .feedExcursion c hi => Sys2Proof.Machine.execFeedExcursion c hi s
  | .feedOn c => Sys2Proof.Machine.execFeedOn c s
  | .feedSample c vin vout vs vgs => Sys2Proof.Machine.execFeedSample c vin vout vs vgs s
  | .fastTrip c => Sys2Proof.Machine.execFastTrip c s
  | .feedRetry c => Sys2Proof.Machine.execFeedRetry c s
  | .feedConduct c => Sys2Proof.Machine.execFeedConduct c s
  | .reverse c => Sys2Proof.Machine.execReverse c s
  | .damaged c => Sys2Proof.Machine.execDamaged c s
  | .noConduct c => Sys2Proof.Machine.execNoConduct c s
  | .degraded c => Sys2Proof.Machine.execDegraded c s
  | .feedCommitWin m c => Sys2Proof.Machine.execFeedCommitWin m c s
  | .feedCommitTrip m c => Sys2Proof.Machine.execFeedCommitTrip m c s
  | .seqTick acok => Sys2Proof.Machine.execSeqTick acok s
  | .seqWaitDone => Sys2Proof.Machine.execSeqWaitDone s
  | .stepFault => Sys2Proof.Machine.execStepFault s
  | .seqRetry => Sys2Proof.Machine.execSeqRetry s
  | .downLead => Sys2Proof.Machine.execDownLead s
  | .seqMinOff => Sys2Proof.Machine.execSeqMinOff s
  | .railFail id => Sys2Proof.Machine.execRailFail id s
  | .railPgDeglitch id level => Sys2Proof.Machine.execRailPgDeglitch id level s
  | .seqReqOn m => Sys2Proof.Machine.execSeqReqOn m s
  | .seqReqOff m => Sys2Proof.Machine.execSeqReqOff m s
  | .seqEn m v => Sys2Proof.Machine.execSeqEn m v s
  | .seqtblCommitUp m => Sys2Proof.Machine.execSeqtblCommitUp m s
  | .seqtblCommitDown m => Sys2Proof.Machine.execSeqtblCommitDown m s
  | .wdiKick => Sys2Proof.Machine.execWdiKick s
  | .kick m v => Sys2Proof.Machine.execKick m v s
  | .winMinEnd => Sys2Proof.Machine.execWinMinEnd s
  | .expired => Sys2Proof.Machine.execExpired s
  | .hostRstEnd => Sys2Proof.Machine.execHostRstEnd s
  | .wdogEn m v => Sys2Proof.Machine.execWdogEn m v s
  | .batIdRead b rid => Sys2Proof.Machine.execBatIdRead b rid s
  | .accept m b => Sys2Proof.Machine.execAccept m b s
  | .impGo m b => Sys2Proof.Machine.execImpGo m b s
  | .impPeriod b => Sys2Proof.Machine.execImpPeriod b s
  | .impFreqStep b zmag zph zreal => Sys2Proof.Machine.execImpFreqStep b zmag zph zreal s
  | .battVoltageJudge b mv => Sys2Proof.Machine.execBattVoltageJudge b mv s
  | .battLevelTimer b lvl enter => Sys2Proof.Machine.execBattLevelTimer b lvl enter s
  | .battEn m b v => Sys2Proof.Machine.execBattEn m b v s
  | .battCommitOcv m b => Sys2Proof.Machine.execBattCommitOcv m b s
  | .battCommitChg m b => Sys2Proof.Machine.execBattCommitChg m b s
  | .battCommitLvl m b => Sys2Proof.Machine.execBattCommitLvl m b s
  | .battCommitLearn m b cap res cyc soh idExp => Sys2Proof.Machine.execBattCommitLearn m b cap res cyc soh idExp s
  | .thermRound x => Sys2Proof.Machine.execThermRound x s
  | .excluded c => Sys2Proof.Machine.execExcluded c s
  | .cal m => Sys2Proof.Machine.execCal m s
  | .calDone => Sys2Proof.Machine.execCalDone s
  | .linkUp p an fd => Sys2Proof.Machine.execLinkUp p an fd s
  | .linkDown p => Sys2Proof.Machine.execLinkDown p s
  | .frameReceived p bytes fcsOk => Sys2Proof.Machine.execFrameReceived p bytes fcsOk s
  | .mergeEntry e equal => Sys2Proof.Machine.execMergeEntry e equal s
  | .engineFlag mask reason cyc => Sys2Proof.Machine.execEngineFlag mask reason cyc s
  | .supervisionSend => Sys2Proof.Machine.execSupervisionSend s
  | .entryForget c => Sys2Proof.Machine.execEntryForget c s
  | .repairStageDone e ok => Sys2Proof.Machine.execRepairStageDone e ok s
  | .switch m cyc => Sys2Proof.Machine.execSwitch m cyc s
  | .repair m e => Sys2Proof.Machine.execRepair m e s
  | .rebuildDone e => Sys2Proof.Machine.execRebuildDone e s
  | .helloReceived f => Sys2Proof.Machine.execHelloReceived f s
  | .shareReceived f => Sys2Proof.Machine.execShareReceived f s
  | .summaryReceived f => Sys2Proof.Machine.execSummaryReceived f s
  | .capset f => Sys2Proof.Machine.execCapset f s
  | .capsetApply => Sys2Proof.Machine.execCapsetApply s
  | .read q addr count => Sys2Proof.Machine.execRead q addr count s
  | .write q addr data => Sys2Proof.Machine.execWrite q addr data s
  | .readFixed q addr count => Sys2Proof.Machine.execReadFixed q addr count s
  | .writeFixed q addr data => Sys2Proof.Machine.execWriteFixed q addr data s
  | .updateBlk q ofs data => Sys2Proof.Machine.execUpdateBlk q ofs data s
  | .send q ch payload => Sys2Proof.Machine.execSend q ch payload s
  | .ackRead q ch => Sys2Proof.Machine.execAckRead q ch s
  | .helloSend => Sys2Proof.Machine.execHelloSend s
  | .joinDone => Sys2Proof.Machine.execJoinDone s
  | .leavingHello => Sys2Proof.Machine.execLeavingHello s
  | .memberDrop mem => Sys2Proof.Machine.execMemberDrop mem s
  | .dupShelfGone => Sys2Proof.Machine.execDupShelfGone s
  | .healthSend => Sys2Proof.Machine.execHealthSend s
  | .forget m mem => Sys2Proof.Machine.execForget m mem s
  | .helloNow m => Sys2Proof.Machine.execHelloNow m s
  | .benufEn m v => Sys2Proof.Machine.execBenufEn m v s
  | .ptpMessage x => Sys2Proof.Machine.execPtpMessage x s
  | .announceTimeout p => Sys2Proof.Machine.execAnnounceTimeout p s
  | .ppsEdge rise => Sys2Proof.Machine.execPpsEdge rise s
  | .taiSRead m sec ns => Sys2Proof.Machine.execTaiSRead m sec ns s
  | .twtWrite x => Sys2Proof.Machine.execTwtWrite x s
  | .twtRead ptr n lastAcc => Sys2Proof.Machine.execTwtRead ptr n lastAcc s
  | .timeout => Sys2Proof.Machine.execTimeout s
  | .stretchLimit reading => Sys2Proof.Machine.execStretchLimit reading s
  | .pollRound p => Sys2Proof.Machine.execPollRound p s
  | .twcTransactionStart p => Sys2Proof.Machine.execTwcTransactionStart p s
  | .twcTransactionEnd p res => Sys2Proof.Machine.execTwcTransactionEnd p res s
  | .arbBackoffEnd p => Sys2Proof.Machine.execArbBackoffEnd p s
  | .twcStretchTmo p => Sys2Proof.Machine.execTwcStretchTmo p s
  | .busStuck p => Sys2Proof.Machine.execBusStuck p s
  | .busRecoveryRetry p free => Sys2Proof.Machine.execBusRecoveryRetry p free s
  | .alert p addr => Sys2Proof.Machine.execAlert p addr s
  | .twcCommitPoll m p => Sys2Proof.Machine.execTwcCommitPoll m p s
  | .doorbell m ch v => Sys2Proof.Machine.execDoorbell m ch v s
  | .taken m ch h l => Sys2Proof.Machine.execTaken m ch h l s
  | .done m ch h l => Sys2Proof.Machine.execDone m ch h l s
  | .mboxBind m ch v => Sys2Proof.Machine.execMboxBind m ch v s
  | .mboxResend ch => Sys2Proof.Machine.execMboxResend ch s
  | .install ch => Sys2Proof.Machine.execInstall ch s
  | .erase ch => Sys2Proof.Machine.execErase ch s
  | .recordDrain => Sys2Proof.Machine.execRecordDrain s
  | .rdSeq m h l => Sys2Proof.Machine.execRdSeq m h l s
  | .rdData m accepted => Sys2Proof.Machine.execRdData m accepted s
  | .submit m words => Sys2Proof.Machine.execSubmit m words s
  | .streamFrame => Sys2Proof.Machine.execStreamFrame s
  | .optimeStore => Sys2Proof.Machine.execOptimeStore s
  | .anchorInterval => Sys2Proof.Machine.execAnchorInterval s
  | .optimeHRead m => Sys2Proof.Machine.execOptimeHRead m s
  | .scanDone => Sys2Proof.Machine.execScanDone s
  | .selftestDone fails rows ms readOnly => Sys2Proof.Machine.execSelftestDone fails rows ms readOnly s
  | .startHoldRelease => Sys2Proof.Machine.execStartHoldRelease s
  | .adoptWindowEnd lv ms => Sys2Proof.Machine.execAdoptWindowEnd lv ms s
  | .lifeArm m v auth => Sys2Proof.Machine.execLifeArm m v auth s
  | .lifeCommit m v auth => Sys2Proof.Machine.execLifeCommit m v auth s
  | .armExpiry => Sys2Proof.Machine.execArmExpiry s
  | .changed => Sys2Proof.Machine.execChanged s
  | .startImage m => Sys2Proof.Machine.execStartImage m s
  | .startPlan m => Sys2Proof.Machine.execStartPlan m s
  | .activate m => Sys2Proof.Machine.execActivate m s
  | .abort m => Sys2Proof.Machine.execAbort m s
  | .resume m => Sys2Proof.Machine.execResume m s
  | .updateBlock words => Sys2Proof.Machine.execUpdateBlock words s
  | .verifyDone => Sys2Proof.Machine.execVerifyDone s
  | .planStoreDone => Sys2Proof.Machine.execPlanStoreDone s
  | .syncInPresent ferr => Sys2Proof.Machine.execSyncInPresent ferr s
  | .vauxInputReturn inp => Sys2Proof.Machine.execVauxInputReturn inp s
  | .clustersStart fmtOk => Sys2Proof.Machine.execClustersStart fmtOk s
  | .syncInterval p => Sys2Proof.Machine.execSyncInterval p s
  | .ginHiEnd c x t => Sys2Proof.Machine.execGinHiEnd c x t s
  | .uvComparatorHigh r x => Sys2Proof.Machine.execUvComparatorHigh r x s

end Sys2Proof.Machine
end

