-- ==== Sys2Proof/Machine/Step.lean ====
section
/-! DEFINITION. One step: the command at the front of the queue runs with the rest of the queue behind
it. With no command waiting the ports transmit (R421), and a block with nothing to send idles. -/

namespace Sys2Proof.Machine

/-- What the block does of itself when no command waits: the ports send what is queued (R421). -/
def idle (s : State) : State :=
  if s.m.powered then
    match s.m.txStep with
    | some m => { s with m := m }
    | none => s
  else s

/-- One step of the block. -/
def step (s : State) : Host.Outcome State Fault Refusal :=
  match s.pending with
  | [] => .next (idle s)
  | c :: cs => exec c { s with pending := cs }

/-- The state with the command that a word spells in front of its queue; unchanged where it spells none. -/
def State.withFetchWord (s : State) (nbits w : Nat) : State :=
  match Sys2Proof.decodeTableWord nbits w with
  | some c => { s with pending := c :: s.pending }
  | none => s

end Sys2Proof.Machine
end

