-- ==== Sys2Proof/Safety.lean ====
section
/-! DEFINITION. What counts as a safe step: one that answers a next state. The spec gives every command
an effect in every state, so the model has no fault and no refusal to avoid beyond that. -/

namespace Sys2Proof.Machine

/-- The outcome is a next state. -/
def goesOn (o : Host.Outcome State Fault Refusal) : Bool :=
  match o with
  | .next _ => true
  | .fault _ => false
  | .refused _ => false

/-- A state from which the block goes on. -/
def Safe (s : State) : Prop := goesOn (step s) = true

end Sys2Proof.Machine
end

