-- ==== Sys2Proof/Certificates/Slice0/Obligations.lean ====
section
/-! DEFINITION. The statements for the provers. The tables before them say, row by row, when a command has its
effect and what that effect is; the statements say that the block does exactly that and nothing else. -/

namespace Sys2Proof.Machine

/-! ### Vocabulary -/

/-- The module as a command finds it: powered, the reply of the command before it gone. -/
def On (s : State) (m : Module) : Prop := m = { s.m with out := {} } ∧ m.powered = true

/-- The command goes on with the module `m`: the queue and the non-volatile part stay as they were. -/
def Turns (c : Instr) (s : State) (m : Module) : Prop := exec c s = .next { s with m := m }

/-- The command goes on with a non-volatile part and a module: the queue stays as it was. -/
def Turns2 (c : Instr) (s : State) (r : NonVol × Module) : Prop :=
  exec c s = .next { s with nv := r.1, m := r.2 }

/-- The command goes on, leaves the queue alone, and what follows has a property. -/
def Runs (c : Instr) (s : State) (P : State → Prop) : Prop :=
  ∃ t, exec c s = .next t ∧ t.pending = s.pending ∧ P t

/-- A row of a table: when the command has its effect, and the module after it. -/
abbrev Row := Option ((Module → Bool) × (Module → Module))

/-- The same for a command that also reaches the non-volatile part. -/
abbrev Row2 := Option ((NonVol → Module → Bool) × (NonVol → Module → NonVol × Module))

/-! ### Rails and phases (R149 to R198) -/

/-- The hardware events of a rail. -/
def railRow (c : Instr) : Row :=
  match c with
  | .loopSample r x => some (fun m => r < nRails m.sys.part && m.rlRuns r, fun m => m.loopSample r x)
  | .dutyRelease r t => some (fun m => r < nRails m.sys.part && (m.arrive t).rlRuns r && ((m.arrive t).rail r).duties,
      fun m =>
        let m := (m.arrive t).updRl r (fun x => { x with duties := false })
        (m.actives r).foldl (fun m n => m.updPh n (fun x => { x with dRel := x.dNext })) m)
  | .railPeriodBoundary r t => some (fun m => r < nRails m.sys.part && (m.arrive t).rlRuns r,
      fun m => (m.arrive t).railPeriod r)
  | .trunc r x t => some (fun m => r < nRails m.sys.part && (m.arrive t).rlRuns r && !((m.arrive t).rail r).trunc
        && Module.above x ((m.arrive t).thrA (48 + r)),
      fun m => ((((m.arrive t).updRl r (fun y => { y with trunc := true })).railThr r).truncSync r))
  | .truncExit r x t => some (fun m => r < nRails m.sys.part && ((m.arrive t).rail r).trunc
        && Module.below x ((m.arrive t).thrA (48 + r)),
      fun m => ((((m.arrive t).updRl r (fun y => { y with trunc := false })).railThr r).truncSync r))
  | .ov r cyc => some (fun m => r < nRails m.sys.part && m.rlRuns r && (m.rail r).trunc, fun m =>
      let f := ((m.arriveAt cyc).raise (pgRail + r) RAIL_EV_OV).fault (pgRail + r) RAIL_FLT_OV 0
        (rkey (pgRail + r) FLT_WIN)
      if f.2 then (f.1.trFault r 4).railLatch r else f.1.trFault r 4)
  | .uvComparatorLow r x => some (fun m => r < nRails m.sys.part && Module.below x (m.thrB (48 + r)),
      fun m => m.updRl r (fun y => { y with uvLow := true }))
  | .uvComparatorHigh r x => some (fun m => r < nRails m.sys.part && !Module.below x (m.thrB (48 + r)),
      fun m => (m.updRl r (fun y => { y with uvLow := false })).put (pgRail + r) RAIL_STATUS_UV 0)
  | .uv r cyc => some (fun m => r < nRails m.sys.part && m.rlSt r = rsReg && (m.rail r).uvLow
        && m.val (pgRail + r) RAIL_UV_THR ≠ 0,
      fun m =>
        let f := (((m.arriveAt cyc).raise (pgRail + r) RAIL_EV_UV).put (pgRail + r) RAIL_STATUS_UV 1).fault (pgRail + r)
          RAIL_FLT_UV 0 (rkey (pgRail + r) FLT_WIN)
        let m := f.1.trFault r 2
        if f.2 && !m.flag (pgRail + r) RAIL_CFG_UV_POL then m.railLatch r else m)
  | .dtAdapt r mean => some (fun m => r < nRails m.sys.part && m.rlSt r = rsReg
        && m.flag (pgRail + r) RAIL_DT_ADAPT && !m.truncating r
        && decide (((m.actives r).length * m.val (pgRail + r) RAIL_PH_RATING * 32768 : Nat) ≤ (m.rail r).cur * 10),
      fun m => m.dtAdapt r mean)
  | .dropReady r => some (fun m => r < nRails m.sys.part && (m.rail r).dwell && m.rlRuns r,
      fun m => m.put (pgRail + r) RAIL_STATUS_DROP_READY 1)
  | .ssStall r cyc => some (fun m => r < nRails m.sys.part && m.rlSt r = rsSoft && (m.rail r).stall,
      fun m => (m.arriveAt cyc).shortDeclared r)
  | .ssCbcShort r cyc => some (fun m => r < nRails m.sys.part && m.rlSt r = rsSoft && !(m.actives r).isEmpty
        && (m.actives r).all (fun n => (m.phase n).cut || m.get (pgPhase + n) PHASE_STATUS_IN_CBC = 1),
      fun m => (m.arriveAt cyc).shortDeclared r)
  | .shortRetry r => some (fun m => r < nRails m.sys.part && m.rlSt r = rsRetry, fun m => m.softStart r)
  | _ => none

/-- A phase trips its limit (R169, R170, R172): its pulse ends, the trip is counted as a fault, and a lasting one
holds or removes it. -/
def tripped (m : Module) (n : Nat) : Module :=
  let r := m.railOf n
  let m := (m.updPh n (fun x => { x with cut := true })).countReg (pgPhase + n) PHASE_CBC_CNT 1
  let f := (m.probeAbort r).fault (pgPhase + n) PHASE_FLT_CBC 0 (rkey (pgPhase + n) FLT_WIN)
  let m := f.1.trFault r 1
  if !f.2 then m
  else
    let m := m.raise (pgPhase + n) PHASE_EV_CBC_LASTING
    if m.flag (pgPhase + n) PHASE_CFG_CBC_POL then ((m.setPh n psRemoved).spareIn r).railUpd r else m.railUpd r

/-- The hardware events of a phase. -/
def phaseRow (c : Instr) : Row :=
  match c with
  | .cbcTrip n x t => some (fun m => n < nPhases m.sys.part && psSwitches ((m.arrive t).phSt n)
        && (m.arrive t).get (pgPhase + n) PHASE_STATUS_OBS = 0 && Module.above x.x ((m.arrive t).thrA n)
        && (m.arrive t).cfg (pgRail + (m.arrive t).railOf n) RAIL_CFG_LEB ≤ x.pwm,
      fun m => tripped (m.arrive t) n)
  | .negLimitTrip n x t => some (fun m => n < nPhases m.sys.part && psSwitches ((m.arrive t).phSt n)
        && (m.arrive t).get (pgPhase + n) PHASE_STATUS_OBS = 0 && Module.below x.x ((m.arrive t).thrB n)
        && ((m.arrive t).bidi ((m.arrive t).railOf n) || ((m.arrive t).phase n).onTaps ≤ 32 * x.pwm),
      fun m =>
        let m := m.arrive t
        let m' := (m.updPh n (fun y => { y with negTri := true })).phPins n
        if m.bidi (m.railOf n) then tripped m' n else m')
  | .probeStart n => some (fun m =>
        let r := m.railOf n
        n < nPhases m.sys.part && !m.inSapling
          && ((m.namedBy r).filter (fun j => m.phSt j = psSuspect && (m.phase j).probeDue)).head? = some n
          && m.rlRuns r && !m.truncating r && !(m.rail r).ramping
          && !(m.namedBy r).any (fun j => m.phSt j = psProbing),
      fun m => ((m.setPh n psProbing).updPh n (fun x => { x with
        probeDue := false, probeN := 0, prSumA := 0, prCntA := 0, prSumB := 0, prCntB := 0 })).pulseStart n)
  | .probeDone n => some (fun m => n < nPhases m.sys.part && m.phSt n = psProbing && 20 ≤ (m.phase n).probeN,
      fun m =>
        let thr : Int := m.cfg (pgRail + m.railOf n) RAIL_PROBE_CFG_PROBE_THR
        let resp := (m.probeResp n).1
        let m := ((m.probeResp n).2.setPh n psSuspect).putI (pgPhase + n) PHASE_PROBE_RESP resp
        let m := m.put (pgPhase + n) PHASE_PROBE_TRIES (satAdd 8 (m.get (pgPhase + n) PHASE_PROBE_TRIES) 1)
        let m := m.raise (pgPhase + n) PHASE_EV_PROBE_DONE
        if thr ≤ resp then (m.put (pgPhase + n) PHASE_PROBE_RESULT 1).senseFail n 5
        else if 4 * resp < thr || 2 ≤ (m.phase n).inconcl then
          (m.put (pgPhase + n) PHASE_PROBE_RESULT 2).phaseOpen n
        else
          (m.put (pgPhase + n) PHASE_PROBE_RESULT 3).updPh n (fun x => { x with inconcl := x.inconcl + 1 }))
  | _ => none

/-! ### Converters (R156 to R164) -/

/-- The events of the converters. -/
def adcRow (c : Instr) : Row :=
  match c with
  | .ginHi i x t => some (fun m => i < nGin (m.arrive t).sys.part && (m.arrive t).en pgAdccal
        && Module.above x ((m.arrive t).thrA (60 + i)),
      fun m => ((((m.arrive t).raise pgAdccal (12 + i)).ginSet i true).trGin i))
  | .ginHiEnd i x t => some (fun m => i < nGin (m.arrive t).sys.part && !Module.above x ((m.arrive t).thrA (60 + i)),
      fun m => (m.arrive t).ginSet i false)
  | .ginLo i x cyc => some (fun m => i < nGin m.sys.part && m.en pgAdccal && Module.below x (m.thrB (60 + i)),
      fun m => ((m.arriveAt cyc).raise pgAdccal (16 + i)).trGin (4 + i))
  | .rollSlotEnd off gain span => some (fun m => m.en pgAdccal && m.flag pgAdccal ADCCAL_CFG_ROLL_EN
        && m.adc.calOn.isNone && m.adc.carried.isNone && !m.adc.spareBad,
      fun m => m.rollSlotEnd off gain span)
  | .refCalDone off gain ok => some (fun m => m.adc.calOn.isSome, fun m => m.refCalDone off gain ok)
  | .monReading i val => some (fun m => m.get pgSys SYS_STATUS_PHASE = 4 && m.en pgAdccal && i < 32
        && (m.monTake i).monOn i,
      fun m => m.monReading i val)
  | _ => none

/-! ### Clusters and tasks (R109 to R134) -/

/-- The module at the start of a period of task `id`: EPE_REQ begins the next EPE period (R109), and a task that
is to move does so (R126). -/
def taskDue (m : Module) (id : Nat) : Module :=
  let m := if id = 0 && m.sched.tb then m.epeNext else m
  if (m.task id).started then m else m.taskTake id false

/-- The events of work placement. -/
def placeRow (c : Instr) : Row :=
  match c with
  | .clusterReady c => some (fun m => m.sched.waking.contains c, fun m =>
      let testing := m.sched.bist = some c
      let m := { m with sched := { m.sched with
        waking := delKey m.sched.waking c, clu := upd m.sched.clu c (fun _ => if testing then 6 else 0) } }
      if testing then m else m.repack)
  | .clusterIsolated c => some (fun m => m.sched.bist = some c && !m.sched.bistOn && !m.cluBusy c
        && nth 0 m.sched.clu c = 6,
      fun m => { m with sched := { m.sched with bistOn := true, clu := upd m.sched.clu c (fun _ => 3) } })
  | .bistDone c pass => some (fun m => m.sched.bist = some c && m.sched.bistOn, fun m =>
      let st := if pass then (if m.sched.bistGated then 2 else 0) else 4
      let m := { m with sched := { m.sched with
        bist := none, bistOn := false, bistGated := false, clu := upd m.sched.clu c (fun _ => st) } }
      let m := m.setReg pgBist BIST_IS_LAST (BitVec.ofNat 32
        (c + (if pass then 256 else 0) + (m.reg pgSched SCHED_MFRAME).toNat % 65536 * 65536))
      let m := m.put pgBist ⟨BIST_CLUSTERS, (if pass then 16 else 8) + c, 1⟩ 1
      let m := m.raise pgBist BIST_EV_IS_DONE
      if pass then
        let m := m.raise pgPlace PLACE_EV_BIST_DONE
        (if m.cluMail c then m.cluWake c else m).evalN1
      else
        let m := (m.put pgSys SYS_STATUS_DEGRADED 1).latchNow pgBist BIST_FLT_UNIT
        ((m.raiseRec pgBist BIST_EV_UNIT_FAIL).cluMailFail c).repack)
  | .rotTest => some (fun m => m.cfg pgPlace PLACE_CFG_ROT_TEST ≠ 0 && m.en pgPlace, fun m =>
      ({ m with sched := { m.sched with rotNext := (m.sched.rotNext + 1) % nClusters m.sys.part } }).rotAsk
        m.sched.rotNext)
  | .bankMoveDone bank => some (fun m => m.sched.bankMove.contains bank, fun m =>
      ({ m with sched := { m.sched with bankMove := delKey m.sched.bankMove bank } }).bankMoved bank)
  | .taskStart id jit gin acok late => some (fun m => id < 12 && (taskDue m id).taskCan id, fun m =>
      let m := taskDue m id
      let m := (m.localClear (m.task id).owner).updTask id (fun x => { x with started := true, buf := [] })
      let m := m.setReg pgSched SCHED_JIT_MAX
        (BitVec.ofNat 32 (min (2 ^ 32 - 1) (max (m.reg pgSched SCHED_JIT_MAX).toNat jit)))
      if id = 0 then (if m.halted then m else m.epeRequest gin acok)
      else if id = 1 then m.groveSend late
      else if id = 10 then m.canopySend late
      else m)
  | .overflow id => some (fun m => id < 12 && (m.task id).started, fun m => m.taskDropped id 2)
  | .bucketBoundary win => some (fun _ => true, fun m => m.bucketEnd win)
  | .clusterLockup c => some (fun m => c < nClusters m.sys.part && m.fwCan && m.sys.restart = .none, fun m =>
      let m := m.put pgSys SYS_RESTART_CAUSE 3
      let m := (m.put pgSys SYS_RESTART_MERGED 0).put pgSys SYS_STATUS_RESTART_PEND 1
      { m with sys := { m.sys with restart := .pending 3 } })
  | .freezeEnd => some (fun m => m.thawDue, fun m =>
      ((((({ m with sys := { m.sys with restart := .none } }).put pgSys SYS_STATUS_FW_LOST 0).groveEpoch).xingUnhold).packLate).updRan)
  | .fwLost => some (fun m => m.halted && m.sched.run, fun m => (m.fwLose).updRan)
  | .clustersStart ok => some (fun m => (match m.sys.restart with | .halted c _ => decide (c ≠ 1) | _ => false),
      fun m => m.fwStart ok)
  | _ => none

/-! ### Controller ports (R463 to R473) -/

/-- The events of a controller port. -/
def twcRow (c : Instr) : Row :=
  match c with
  | .pollRound p => some (fun m => p < 4 && m.en (pgTwc + p) && !m.clk.lost.contains 6, fun m =>
      if (m.port p).round.isEmpty then m.roundStart p
      else
        let m := m.put (pgTwc + p) ⟨TWC_ROUND_CNT, 16, 16⟩ (m.get (pgTwc + p) ⟨TWC_ROUND_CNT, 16, 16⟩ + 1)
        (m.updPort p (fun x => { x with due := true })).raise (pgTwc + p) TWC_EV_ROUND_LATE)
  | .twcTransactionStart p => some (fun m => p < 4 && m.portFree p
        && !((m.port p).work.isEmpty && (m.port p).alerts.isEmpty && (m.port p).round.isEmpty),
      fun m => m.twcStart p)
  | .twcTransactionEnd p (.ok v) => some (fun m => p < 4 && (m.port p).cur.isSome && !(m.port p).wait, fun m =>
      match (m.port p).cur with
      | some (.read e 0) => (m.twcFinish p (some v)).rectSeen p e
      | _ => m.twcFinish p (some v))
  | .twcTransactionEnd p .addrNack => some (fun m => p < 4 && (m.port p).cur.isSome && !(m.port p).wait,
      fun m => ((m.twcErr p 0).raise (pgTwc + p) TWC_EV_NACK).twcFinish p none)
  | .twcTransactionEnd p .dataNack => some (fun m => p < 4 && (m.port p).cur.isSome && !(m.port p).wait,
      fun m => ((m.twcErr p 8).raise (pgTwc + p) TWC_EV_NACK).twcFinish p none)
  | .twcTransactionEnd p .pecErr => some (fun m => p < 4 && (m.port p).cur.isSome && !(m.port p).wait,
      fun m => ((m.twcErr p 16).raise (pgTwc + p) TWC_EV_PEC_ERR).twcFinish p none)
  | .twcTransactionEnd p (.arbLost pos) => some (fun m => p < 4 && (m.port p).cur.isSome && !(m.port p).wait,
      fun m => m.twcEnd p (.arbLost pos))
  | .arbBackoffEnd p => some (fun m => p < 4 && (m.port p).wait,
      fun m => m.updPort p (fun x => { x with wait := false }))
  | .twcStretchTmo p => some (fun m => p < 4 && (m.port p).cur.isSome,
      fun m => (m.twcErr p 24).twcFinish p none)
  | .busStuck p => some (fun m => p < 4 && m.en (pgTwc + p) && !(m.port p).stuck, fun m =>
      ((((m.raise (pgTwc + p) TWC_EV_BUS_STUCK).latchNow (pgTwc + p) TWC_FLT_BUS_STUCK).updPort p
        (fun x => { x with stuck := true }))).twcFinish p none)
  | .busRecoveryRetry p true => some (fun m => p < 4 && (m.port p).stuck,
      fun m => m.updPort p (fun x => { x with stuck := false }))
  | .alert p addr => some (fun m => p < 4 && m.en (pgTwc + p) && m.flag (pgTwc + p) TWC_CFG_ALERT_EN
        && (m.port p).alertN < 16 && !(m.port p).stuck,
      fun m =>
        let m := m.updPort p (fun x => { x with alertN := x.alertN + 1 })
        match (List.range 16).find? (fun e => m.entValid p e && bits (m.entW p e 0) 0 7 = addr) with
        | some e => (m.updPort p (fun x => { x with alerts := x.alerts ++ [e] })).raise (pgTwc + p) TWC_EV_ALERT
        | none => m.twcErr p 24)
  | _ => none

/-! ### Energy placement and the cap (R243 to R281) -/

/-- The events of energy placement. -/
def epeRow (c : Instr) : Row :=
  match c with
  | .solveDone => some (fun m => m.ep.req.isSome,
      fun m => m.updEp (fun x => { x with res := m.ep.req.map solve }))
  | .wake slot => some (fun m => slot < 32 && nth 0 m.ep.mode slot = 3, fun m =>
      ((m.updEp (fun x => { x with mode := upd x.mode slot (fun _ => 5) })).srcPut slot 16 4 5).raise pgEpe
        EPE_EV_WAKE)
  | .droopWake gin => some (fun m => (m.vbusTake gin).vbusNow.isSome, fun m => (m.vbusTake gin).droopWake)
  | .wearAccumulate => some (fun _ => true, fun m =>
      ((List.range (nPhases m.sys.part)).foldl (fun x n =>
        if m.rlRuns (m.railOf n) && psSwitches (m.phSt n) then
          x.updEp (fun e => { e with wear := upd e.wear n (· + (m.curOf n).natAbs / 32768) })
        else x) m).wearWords)
  | _ => none

/-- The module with the input samples of a command taken, and V_bus judged on them (R250). -/
def voltSeen (m : Module) (gin : List Int) : Module := (m.ginNow gin).vbusSeen (m.ginNow gin).vbusNow

/-- The events of the cap. -/
def capRow (c : Instr) : Row :=
  match c with
  | .capEstimate gin => some (fun m => (m.ginNow gin).en pgCap && !(m.ginNow gin).inSapling,
      fun m => m.capEstimate gin)
  | .assistStep mean gin => some (fun m => (m.ginNow gin).en pgCap && (m.ginNow gin).cp.assist
        && !(m.ginNow gin).crossing && (voltSeen m gin).vbusNow.isSome, fun m =>
      let m := voltSeen m gin
      let v := m.vbusNow.getD 0
      let low := m.capC * (400 - m.cfg pgCap CAP_QUAL_HYS) / 400
      if m.capC < mean then m.assistSet (m.cp.a + m.assistAmps (mean - m.capC) v) true
      else if mean < low then
        m.assistSet (m.cp.a - m.assistAmps (low - mean) v)
          (decide (m.cp.a - m.assistAmps (low - mean) v ≠ 0) || m.cp.qual)
      else m)
  | .hardLimit => some (fun m => m.en pgCap && m.flag pgCap CAP_HL_CFG_EN && m.cp.qual
        && m.get pgCap CAP_STATUS_HL_ON ≠ 1,
      fun m =>
        ((m.rectsOn.foldl (fun m' s =>
            m'.limitSend s ((m'.srcShare s * m.get pgEpe ⟨EPE_VBUS, 0, 16⟩
              * (100 + m.cfg pgCap CAP_HL_CFG_MARGIN) / 10000000 : Nat) : Int)) m).put pgCap CAP_STATUS_HL_ON 1).raise
          pgCap CAP_EV_HARD_LIMIT)
  | .released => some (fun m => m.capPin < m.capC && m.get pgCap CAP_STATUS_HL_ON ≠ 0, fun m =>
      ((((List.range 32).filter m.srcEn).foldl (fun m s =>
        let w := bits (m.entW (m.rectPort s) (m.rectEntry s) 1) 0 16
        if w = 0 then m else m.limitSend s w) m).put pgCap CAP_STATUS_HL_ON 0).raise pgCap CAP_EV_RELEASED)
  | .sustained => some (fun m => m.en pgCap && m.cp.qual,
      fun m => (m.fault pgCap CAP_FLT_SUSTAINED 0 (rkey pgCap FLT_WIN)).1.capDrive)
  | _ => none

/-! ### Crossing and feeds (R282 to R312) -/

/-- The module of the Crossing logic with the input samples of a command taken: a valid V_bus is what the last
sample of it was (R250, R289). -/
def busSeen (m : Module) (gin : List Int) : Module :=
  let m := (voltSeen m gin).boundary pgXing
  if m.vbusNow.isSome then m.updXg (fun x => { x with vbus := m.vbusNow.getD 0 }) else m

/-- The detectors are served (R284): XING runs and the module is not in Sapling. -/
def detects (m : Module) : Bool := m.xg.run && !m.inSapling

/-- The events of the Crossing logic. -/
def xingRow (c : Instr) : Row :=
  match c with
  | .feedDetect cyc gin => some (fun m => detects (busSeen m gin) && (busSeen m gin).flag pgXing XING_DET_FEED_EN
        && (busSeen m gin).cfg pgXing XING_DET_FEED_MASK ≠ 0,
      fun m => (busSeen m gin).xingDetect 0 cyc)
  | .slopeDetect cyc gin => some (fun m => detects (busSeen m gin) && (busSeen m gin).flag pgXing XING_DET_SLOPE_EN
        && (busSeen m gin).vbusNow.isSome
        && ((busSeen m gin).cfg pgXing XING_SLOPE_CFG_VBUS_ARM = 0xFFFF
          || (busSeen m gin).vbusNow.getD 0 < (busSeen m gin).cfg pgXing XING_SLOPE_CFG_VBUS_ARM),
      fun m => (busSeen m gin).xingDetect 1 cyc)
  | .acokDetect cyc gin => some (fun m => detects (busSeen m gin) && (busSeen m gin).flag pgXing XING_DET_ACOK_EN
        && (busSeen m gin).cfg pgXing XING_DET_ACOK_MASK ≠ 0,
      fun m => (busSeen m gin).xingDetect 2 cyc)
  | .full tx => some (fun m => m.crossing && m.xg.fullWait, fun m =>
      ((m.updXg (fun x => { x with fullWait := false })).put pgXing XING_DROOP_TX (min 65535 tx)).raise pgXing
        XING_EV_FULL)
  | .busLoopSample gin => some (fun m => (busSeen m gin).vbusNow.isSome && (busSeen m gin).crossing, fun m =>
      let m := busSeen m gin
      let v := m.vbusNow.getD 0
      let m := m.put pgXing XING_DROOP_VMIN (min v (m.get pgXing XING_DROOP_VMIN))
      if m.xg.fullWait then m else m.busLoop v)
  | .stringShedResume => some (fun _ => true, fun m =>
      (List.range 12).foldl (fun m r => m.updRl r (fun x => { x with noShed := false })) m)
  | .inGoodChange acok => some (fun m => ((m.boundary pgXing).get pgXing XING_STATUS_IN_GOOD = 1)
        ≠ ((m.boundary pgXing).inGood acok = true),
      fun m => (m.boundary pgXing).xingGood ((m.boundary pgXing).inGood acok))
  | .returning => some (fun m => m.xingSt = xsQual && m.get pgXing XING_STATUS_IN_GOOD ≠ 0 && !m.restarting,
      fun m => m.xingReturn)
  | .cutoffExit => some (fun m => m.xingSt = xsCutoff && m.get pgXing XING_STATUS_IN_GOOD ≠ 0, fun m =>
      let m := (((m.boundary pgXing).xingTo xsIdle).setReg pgXing XING_QUAL_LEFT 0).vlowEnd.stringPoints
      if m.flag pgXing XING_RET_CFG_AUTO_ON then m.seqRequest true 3 else m)
  | _ => none

/-- The events of a feed channel. -/
def feedRow (c : Instr) : Row :=
  match c with
  | .feedInsDelay c => some (fun m => c < nFeeds m.sys.part
        && m.get (pgFeed + m.fdHead c) FEED_STATUS_IN_WIN ≠ 0 && m.fdEn c
        && (if m.fdPaired c then m.fdSt (m.fdHead c) = fsQual && m.fdSt (m.fdHead c + 1) = fsQual
          else m.fdSt c = fsQual),
      fun m =>
        if m.fdPaired c then (m.fdTo (m.fdHead c + 1) fsRamp).fdTo (m.fdHead c) fsBlock
        else m.fdTo c (if m.fdMode c = 1 then fsRamp else fsBlock))
  | .feedExcursion c hi => some (fun m => c < nFeeds m.sys.part
        && (fsDrive ((m.put (pgFeed + c) FEED_STATUS_IN_WIN 0).fdSt c)
          || (m.put (pgFeed + c) FEED_STATUS_IN_WIN 0).fdSt c = fsBlock),
      fun m =>
        let m := m.put (pgFeed + c) FEED_STATUS_IN_WIN 0
        let m := (m.raise (pgFeed + c) (if hi then FEED_EV_OV_EXC else FEED_EV_UV_EXC)).fdLast c
          (if hi then 4 else 3)
        (m.fdTo c fsQual).fdMateOff c)
  | .feedOn c => some (fun m => c < nFeeds m.sys.part && m.fdSt c = fsRamp,
      fun m => (m.fdTo c fsOn).raise (pgFeed + c) FEED_EV_ON)
  | .feedSample c vin vout vs vgs => some (fun m => c < nFeeds m.sys.part, fun m => m.fdSample c vin vout vs vgs)
  | .fastTrip c => some (fun m => c < nFeeds m.sys.part && (m.fdSt c = fsRamp || m.fdSt c = fsOn),
      fun m => m.fdTrip c 1)
  | .feedRetry c => some (fun m => c < nFeeds m.sys.part && m.fdSt c = fsRetry, fun m => m.fdTo c fsQual)
  | .feedConduct c => some (fun m => c < nFeeds m.sys.part && m.fdSt c = fsBlock
        && m.get (pgFeed + c) FEED_STATUS_IN_WIN = 1 && (!m.fdPaired c || m.fdSt (Module.fdMate c) = fsOn),
      fun m => m.fdTo c fsConduct)
  | .reverse c => some (fun m => c < nFeeds m.sys.part && m.fdSt c = fsConduct, fun m =>
      (((m.fdTo c fsBlock).put (pgFeed + c) FEED_STATUS_REVERSE 1).countReg (pgFeed + c) FEED_REV_CNT 1).raise
        (pgFeed + c) FEED_EV_REVERSE)
  | .damaged c => some (fun m => c < nFeeds m.sys.part && fsDrive (m.fdSt c) && !(m.feed c).vgsOn, fun m =>
      let m := ((m.raise (pgFeed + c) FEED_EV_DAMAGED).latchNow (pgFeed + c) FEED_FLT_DAMAGED).fdLast c 5
      (m.fdTo c fsDamaged).fdMateOff c)
  | .noConduct c => some (fun m => c < nFeeds m.sys.part && fsDrive (m.fdSt c) && (m.feed c).vgsOn, fun m =>
      let m := ((m.raise (pgFeed + c) FEED_EV_NO_CONDUCT).latchNow (pgFeed + c) FEED_FLT_NO_CONDUCT).fdLast c 6
      (m.fdTo c fsDamaged).fdMateOff c)
  | .degraded c => some (fun m => c < nFeeds m.sys.part && (m.fdSt c = fsOn || m.fdSt c = fsConduct)
        && m.fdRsense c ≠ 0,
      fun m =>
        let m := ((m.raise (pgFeed + c) FEED_EV_DEGRADED).latchNow (pgFeed + c) FEED_FLT_DEGRADED).fdLast c 7
        if m.flag (pgFeed + c) FEED_CFG_DEG_POL then (m.fdTo c fsLatched).fdMateOff c else m)
  | _ => none

/-! ### Sequencing and supervision (R313 to R342) -/

/-- The events of the sequencer. -/
def seqRow (c : Instr) : Row :=
  match c with
  | .seqTick acok => some (fun m => m.en pgSeq && m.sys.released, fun m =>
      let m := (m.applyPend (fun k => decide (pageOfKey k = pgSeq))).updSq (fun x => { x with acok := acok })
      ((((m.seqSample).seqTimers).seqMachine acok m.sq.reqs.length).seqGroups).seqDrive)
  | .seqWaitDone => some (fun m => (m.seqSt = sqUp || m.seqSt = sqDown) && m.sq.waiting && m.sq.seen
        && m.stepKind m.seqTable m.seqStep ≠ kWaitCond,
      fun m => m.stepDone m.seqStep)
  | .stepFault => some (fun m => (m.seqSt = sqUp || m.seqSt = sqDown) && m.sq.waiting
        && m.stepTmo m.seqTable m.seqStep ≠ 0,
      fun m => (m.stepFail 1).seqSettle)
  | .seqRetry => some (fun m => m.seqSt = sqUp && m.sq.gap, fun m =>
      (m.idEnable (m.stepTgt 0 m.seqStep) true).updSq (fun x => { x with
        gap := false, waiting := true, seen := false, retries := x.retries + 1 }))
  | .downLead => some (fun m => m.seqSt = sqDown && m.sq.lead, fun m =>
      ((m.updSq (fun x => { x with lead := false })).stepRun m.sq.acok 1 65).seqSettle)
  | .seqMinOff => some (fun m => m.seqSt = sqMinOff, fun m =>
      (((m.updSq (fun x => { x with rest := false })).seqEnterUp).stepRun m.sq.acok 0 65).seqSettle)
  | .railFail id => some (fun m => id < 44 && m.idTimed id, fun m =>
      let m := (m.seqMapPut SEQ_TMR_MAP0 id false).seqMapPut SEQ_FAIL_MAP0 id true
      let m := (m.raise pgSeq SEQ_EV_RAIL_FAIL).latchNow pgSeq SEQ_FLT_RAIL_FAIL
      (if bits (m.idW id) 24 2 = 1 then m.idEnable id false
        else if bits (m.idW id) 24 2 = 2 then m.seqRequest false 6 else m).seqSettle)
  | .railPgDeglitch id level => some (fun m => id < 32 && nth false m.sq.pg id ≠ level, fun m =>
      let m := m.updSq (fun x => { x with pg := upd x.pg id (fun _ => level) })
      if m.idOut id ≠ 0 || bits (m.idW id) 26 1 = 1 || !m.en pgSeq then m else m.seqEdge id)
  | _ => none

/-- The events of the watchdog. -/
def wdogRow (c : Instr) : Row :=
  match c with
  | .wdiKick => some (fun m => m.get pgSys SYS_STATUS_PHASE = 4 && m.cfg pgWdog WDOG_CFG_SRC ≠ 1, fun m => m.wdKick)
  | .winMinEnd => some (fun m => m.wdSt = wdClosed, fun m => m.wdTo wdOpen)
  | .expired => some (fun m => m.wdSt = wdBoot || m.wdSt = wdOpen,
      fun m => m.wdExpire (if m.wdSt = wdBoot then 3 else 1))
  | .hostRstEnd => some (fun _ => true, fun m => { m with pin := { m.pin with hostRst := .z } })
  | _ => none

/-! ### Batteries and temperature (R343 to R384) -/

/-- The events of a battery string. -/
def battRow (c : Instr) : Row :=
  match c with
  | .batIdRead b rid => some (fun m => b < nStrings m.sys.part && (m.batt b).run, fun m => m.battIdRead b rid)
  | .impPeriod b => some (fun m => b < nStrings m.sys.part && (m.batt b).run
        && m.flag (pgBatt + b) BATT_IMP_CFG_EN && !(m.batt b).imp,
      fun m => m.updBt b (fun x => { x with impReq := true }))
  | .impFreqStep b zmag zph zreal => some (fun m => b < nStrings m.sys.part && (m.batt b).imp, fun m =>
      let x := m.batt b
      let m := m.setTbl (pgBatt + b) 1 x.impF
        (BitVec.ofNat 32 (wrapInt 16 (satInt 16 zph) * 65536 + min 65535 zmag))
      let m := m.updBt b (fun y => { y with
        impF := y.impF + 1, impK := 0, zReal := if x.impF = 0 then zreal else y.zReal })
      if x.impF < 7 then m
      else
        let m := (m.updBt b (fun y => { y with imp := false })).put (pgBatt + b) BATT_STATUS_IMP_RUN 0
        let m := m.raise (pgBatt + b) BATT_EV_IMP_DONE
        m.learnTo b BATT_LRN_R (m.batt b).zReal)
  | .battVoltageJudge b mv => some (fun m => b < nStrings m.sys.part && (m.batt b).run,
      fun m => m.battVoltage b mv)
  | .battLevelTimer b lvl true => some (fun m => b < nStrings m.sys.part && (m.batt b).run && 1 ≤ lvl && lvl ≤ 3
        && m.lvlVIn b (lvl - 1) (m.batt b).mv,
      fun m => (m.updBt b (fun x => { x with vIn := upd x.vIn (lvl - 1) (fun _ => true) })).battLevels b)
  | .battLevelTimer b lvl false => some (fun m => b < nStrings m.sys.part && (m.batt b).run && 1 ≤ lvl && lvl ≤ 3
        && m.lvlVOut b (lvl - 1) (m.batt b).mv,
      fun m => (m.updBt b (fun x => { x with vOut := upd x.vOut (lvl - 1) (fun _ => true) })).battLevels b)
  | _ => none

/-- The events of the temperature unit. -/
def thermRow (c : Instr) (nv : NonVol) : Row :=
  match c with
  | .excluded i => some (fun m => i < 16 && m.ringIn i && m.th.beyond.contains i, fun m =>
      let m := m.setReg pgTherm THERM_RING_INC (clrBit (m.reg pgTherm THERM_RING_INC) i)
      let m := m.setTbl pgTherm 2 (2 * i + 1) (clrBit (m.tbl pgTherm 2 (2 * i + 1)) 0)
      let m := (m.updTh (fun x => { x with beyond := x.beyond.filter m.ringBeyond })).raise pgTherm
        THERM_EV_EXCLUDED
      (m.fault pgTherm THERM_FLT_RING_EXCL 0 (rkey pgTherm FLT_WIN)).1)
  | .calDone => some (fun m => m.th.cal, fun m => (m.ringCal nv.otp.ringOfs).tryAdopt)
  | _ => none

/-! ### Network and federation (R385 to R445) -/

/-- The events of the Network Path Lockstep Pair and its ports. -/
def netRow (c : Instr) : Row :=
  match c with
  | .linkUp p an fd => some (fun m => p < 2 && m.en (pgNet + p) && !m.clk.lost.contains (4 + p)
        && (an || !(m.flag (pgNet + p) NET_CFG_AN && m.cfg (pgNet + p) NET_CFG_SPEED = 0)) && !m.portUp p,
      fun m =>
        let pg := pgNet + p
        let use := m.flag pg NET_CFG_AN && m.cfg pg NET_CFG_SPEED = 0
        let m' := (m.put pg NET_STATUS_UP 1).put pg NET_STATUS_SYNC 1
        let m' := m'.put pg NET_STATUS_AN_DONE (if use then 1 else 0)
        let m' := m'.put pg NET_STATUS_LP_FD (if use && fd then 1 else 0)
        let m' := m'.put pg NET_STATUS_SPEED_NOW (m.cfg pg NET_CFG_SPEED)
        (m'.put pg NET_STATUS_EQ_NOW (m'.cfg pg NET_CFG_RX_EQ)).raise pg NET_EV_LINK_UP)
  | .linkDown p => some (fun m => p < 2 && m.portUp p, fun m =>
      let pg := pgNet + p
      let m := (m.put pg NET_STATUS_UP 0).put pg NET_STATUS_SYNC 0
      let m := (m.put pg NET_STATUS_AN_DONE 0).put pg NET_STATUS_LP_FD 0
      let m := (m.countReg pg NET_LINK_CNT 1).raise pg NET_EV_LINK_DOWN
      ((m.fault pg NET_FLT_LINK 0 (rkey pg FLT_WIN)).1).ptpPortLost p)
  | .frameReceived p bs ok => some (fun m => p < 2 && m.portUp p && ok && bs.length ≤ 1532
        && m.daOk (fld bs 0 6) && !m.net.rebuild && (nth [] m.net.rxq p).length < 32,
      fun m => (m.setReg (pgNet + p) NET_RX_FRAMES (m.reg (pgNet + p) NET_RX_FRAMES + 1)).updNet
        (fun n => { n with rxq := upd n.rxq p (fun q => q ++ [bs]) }))
  | .mergeEntry e equal => some (fun m => !m.net.rebuild, fun m =>
      let m := (m.boundary pgNetpair).updNet (fun n => { n with tag := (n.tag + 1) % 2 ^ 32 })
      let m := match e with
        | .strobe => m
        | .request _ => m
        | .frame p => if p < 2 then m.mergeFrame p else m
        | .gap n =>
          let m := m.updNet (fun x => { x with tag := (x.tag + n) % 2 ^ 32 })
          (m.countReg pgNetpair NETPAIR_MERGE_GAP n).recMake 0x0200 (pgNetpair * 256 + 0xFF)
            (12 + 4 * (m.ctxWords pgNetpair).length) 0
            (wordBytes ([0, m.stat pgNetpair, 0] ++ m.ctxWords pgNetpair)) false
      if equal then m else m.mismatch)
  | .engineFlag mask reason cyc => some (fun m => !m.net.rebuild && 1 ≤ mask && mask ≤ 3, fun m =>
      let m := m.arriveAt cyc
      if mask = 3 && m.eng (1 - m.engA) = esStep then ((m.engCount 0).1.engCount 1).1.doubleFault
      else
        let m := if mask.testBit 0 then m.engFlag1 0 reason else m
        if mask.testBit 1 && !m.net.rebuild then m.engFlag1 1 reason else m)
  | .supervisionSend => some (fun m => m.cfg pgNetpair NETPAIR_CFG_LIFE_CHECK ≠ 0 && m.pathOn, fun m =>
      let t := m.takeTrailer.1
      let m := m.takeTrailer.2
      let m := m.portsUp.foldl (fun (m : Module) p =>
        m.setReg (pgNet + p) NET_TX_FRAMES (m.reg (pgNet + p) NET_TX_FRAMES + 1)) m
      let x := toBytes 6 0x01154E000100 ++ toBytes 6 m.ownMac ++ toBytes 2 0x88FB ++ toBytes 2 1
        ++ toBytes 2 t ++ toBytes 1 20 ++ toBytes 1 6 ++ toBytes 6 m.ownMac ++ toBytes 2 0
      let x := x ++ rep (54 - x.length) 0
      { m with out := { bytes := x ++ toBytes 2 t ++ toBytes 2 (0xA000 + (x.length - 8)) ++ toBytes 2 0x88FB } })
  | .entryForget i => some (fun _ => true, fun m => m.setDup (m.net.dup.filter (fun d => d.slot ≠ i)))
  | .repairStageDone e ok => some (fun m => e < 2 && !m.net.rebuild
        && (m.eng e = esReset || m.eng e = esTest || m.eng e = esCopy || m.eng e = esCatch),
      fun m =>
        if m.eng e = esReset then m.setEng e esTest
        else if m.eng e = esTest then
          if ok then (m.updNet (fun n => { n with replay := 0 })).setEng e esCopy else m.setEng e esFailed
        else if m.eng e = esCopy then m.setEng e esCatch
        else
          let m := ((m.updNet (fun n => { n with replay := 0 })).setEng e esStep).pathSimplex
          (m.count pgNetpair ⟨NETPAIR_REPAIR_CNT, 0, 16⟩ 1).raise pgNetpair NETPAIR_EV_REPAIRED)
  | .rebuildDone e => some (fun m => e < 2 && m.net.rebuild && m.eng e = esTest, fun m =>
      let m := (m.setEng e esActive).put pgNetpair NETPAIR_STATUS_ACTIVE e
      let m := m.updNet (fun n => { n with rebuild := false, dup := [], txq := [], fly := none })
      (m.put pgNetpair NETPAIR_STATUS_ENTRIES 0).pathSimplex)
  | _ => none

/-- The events of Benuf membership and of the shares. -/
def groveRow (c : Instr) : Row :=
  match c with
  | .helloReceived f => some (fun m => m.en pgBenuf && m.shelf ≠ 0xFFF && f.src / 64 = m.shelf / 64
        && (f.src ≠ m.shelf || f.mac ≠ m.ownMac),
      fun m => if f.src = m.shelf then m.helloOwn f else m.helloMember f (f.src % 64))
  | .shareReceived f => some (fun m =>
        let i := f.src % 64
        m.en pgBenuf && m.ptpLocked && m.shelf ≠ 0xFFF && f.src / 64 = m.shelf / 64 && f.src ≠ m.shelf
          && m.memSt i = 1 && f.good && f.period = m.epePeriodNo && f.sendOfs ≤ 4000 && f.arrival ≤ 600
          && !m.gr.reports.any (fun c => c.who = i),
      fun m =>
        let i := f.src % 64
        let m := m.setMemMax i (max (m.memMax i) f.maxW)
        m.updGr (fun x => { x with reports := x.reports ++ [⟨i, f.demand, f.floor, m.memMax i, f.prio, i⟩] }))
  | .summaryReceived f => some (fun m => m.en pgBenuf && m.ptpLocked && m.flag pgGrove GROVE_CFG_CANOPY_EN
        && f.good && f.period = m.tenMs && f.sendOfs ≤ 20000 && f.arrival ≤ 3000
        && !m.gr.sums.any (fun c => c.who = f.src / 64 && c.src = f.src % 64),
      fun m => m.updGr (fun x => { x with sums := x.sums ++ [⟨f.src / 64, f.sumD, f.sumF, f.gmax, 0, f.src % 64⟩] }))
  | .helloSend => some (fun m => m.get pgBenuf BENUF_STATUS_STATE = 1 || m.get pgBenuf BENUF_STATUS_STATE = 2,
      fun m => m.sendHello 0)
  | .joinDone => some (fun m => m.get pgBenuf BENUF_STATUS_STATE = 1, fun m =>
      let m := (m.put pgBenuf BENUF_STATUS_STATE 2).raise pgBenuf BENUF_EV_JOIN_DONE
      (m.raise pgGrove GROVE_EV_SHARING).groveLocal)
  | .leavingHello => some (fun m => m.bn.leave ≠ 0,
      fun m => (m.sendHello 4).updBn (fun x => { x with leave := x.leave - 1 }))
  | .memberDrop i => some (fun m => i < 64 && m.cfg pgBenuf BENUF_HELLO_CFG_DROP_T ≠ 0 && m.memSt i ≠ 0
        && i ≠ m.shelf % 64,
      fun m => (m.memFree i).raise pgBenuf BENUF_EV_LEFT)
  | .dupShelfGone => some (fun _ => true, fun m => m.updBn (fun x => { x with dupHeard := false }))
  | .healthSend => some (fun m => m.en pgBenuf,
      fun m => m.release 2 10 macAll 0xFFF 0 m.healthPayload false)
  | .groveCutoff => some (fun m => m.gr.run && m.mayShare, fun m => m.groveCut)
  | .shareRise false => some (fun m => m.gr.rise.isSome,
      fun m => (m.updGr (fun g => { g with rise := none })).setShare (m.gr.rise.getD 0))
  | .shareRise true => some (fun m => m.gr.grise.isSome,
      fun m => (m.updGr (fun g => { g with grise := none })).setGroveCap (m.gr.grise.getD 0))
  | .canopyCutoff => some (fun m => m.gr.run && m.mayShare && m.flag pgGrove GROVE_CFG_CANOPY_EN,
      fun m => m.canopyCut)
  | _ => none

/-- The events of the clock of the Precision Time Protocol. -/
def ptpRow (c : Instr) : Row :=
  match c with
  | .ptpMessage x => some (fun m => m.en pgPtp && m.portUp (if x.port = 1 then 1 else 0)
        && bit (m.liveReg pgPtp PTP_CFG) (10 + if x.port = 1 then 1 else 0),
      fun m => m.ptpMessage x)
  | .announceTimeout p => some (fun m => p < 2 && m.en pgPtp, fun m =>
      let m := m.updPt (fun x => { x with master := upd x.master p (fun _ => false) })
      if m.ptpSel = p then m.ptpChoose (1 - p) none else m)
  | .ppsEdge rise => some (fun m => m.inService && !bit (m.reg pgSys SYS_OUT_FAIL1) 17 && m.en pgPtp
        && m.flag pgPtp PTP_PPS_CFG_EN && (m.ptpLocked || m.flag pgPtp PTP_PPS_CFG_FREE),
      fun m => { m with pin := { m.pin with pps := if rise then .high else .low } })
  | .syncInterval p => some (fun m => p < 2 && m.en pgPtp && bit (m.liveReg pgPtp PTP_CFG) (10 + p) && m.portUp p,
      fun m =>
        let st := m.get pgPtp (if p = 0 then PTP_STATUS_STATE_A else PTP_STATUS_STATE_B)
        m.setReg (pgNet + p) NET_TX_FRAMES (m.reg (pgNet + p) NET_TX_FRAMES + BitVec.ofNat 32
          ((if st = 6 then 3 else 0) + (if m.flag pgPtp PTP_CFG_DELAY || st = 8 || st = 9 then 1 else 0))))
  | .anchorInterval => some (fun m => (m.boundary pgRec).cfg pgRec REC_CFG_ANCHOR_INT ≠ 0,
      fun m => (m.boundary pgRec).anchorNow 2)
  | _ => none

/-! ### Mailboxes, records, clocks, supplies (R19 to R60, R500 to R560) -/

/-- The record at which the next stream frame is to begin (R534). -/
def streamNext (m : Module) : Nat :=
  bits (m.liveReg pgRec REC_STREAM_NEXT_H) 0 16 * 2 ^ 32 + (m.liveReg pgRec REC_STREAM_NEXT_L).toNat

/-- The record at which it begins: no earlier than the oldest that is kept (R534). -/
def streamStart (nv : NonVol) (m : Module) : Nat :=
  max (streamNext m) (if minSeq (ringValid nv) = 0 then minSeq m.rc.stage else minSeq (ringValid nv))

/-- Events that touch the module alone. -/
def moduleRow (c : Instr) (nv : NonVol) : Row :=
  match c with
  | .mboxResend ch => some (fun m => ch < 32 && m.bn.mboxMac.isSome && m.chReceiver ch = 2 && m.chSt ch = chFull,
      fun m => match m.bn.mboxMac with
        | some mac => m.release 4 9 mac 0xFFF 0
            (toBytes 1 ch ++ toBytes 1 1 ++ toBytes 2 0 ++ wordBytes (m.chPayload ch)) false
        | none => m)
  | .streamFrame => some (fun m =>
        let dest := (m.liveReg pgBenuf BENUF_REC_DEST_H).toNat * 65536
          + bits (m.liveReg pgBenuf BENUF_REC_DEST_L) 16 16
        let m := m.boundary pgRec
        m.flag pgRec REC_CFG_STREAM_EN && dest ≠ 0 && m.en pgBenuf && m.pathOn
          && (m.net.txq.filter (fun f => f.cls = 5)).length < 16
          && 1 ≤ streamStart nv m && streamStart nv m < m.rc.next,
      fun m =>
        let dest := (m.liveReg pgBenuf BENUF_REC_DEST_H).toNat * 65536
          + bits (m.liveReg pgBenuf BENUF_REC_DEST_L) 16 16
        let m := m.boundary pgRec
        let start := streamStart nv m
        let m := if streamNext m < minSeq (ringValid nv) then m.raise pgRec REC_EV_STREAM_GAP else m
        let n := min (m.cfg pgRec REC_CFG_BATCH) (m.rc.next - start)
        let recs := (List.range n).flatMap (fun k => m.recAt nv (start + k))
        let m := m.release 5 8 dest 0xFFF 0 (toBytes 6 start ++ toBytes 1 n ++ toBytes 1 0 ++ recs) false
        let m := m.setBoth (rkey pgRec REC_STREAM_NEXT_H) (BitVec.ofNat 32 ((start + n) / 2 ^ 32 % 65536))
        m.setBoth (rkey pgRec REC_STREAM_NEXT_L) (BitVec.ofNat 32 (start + n)))
  | .armExpiry => some (fun m => m.lc.arm.isSome,
      fun m => (m.updLc (fun y => { y with arm := none })).setReg pgLife LIFE_ARM_LEFT 0)
  | .holdOk => some (fun _ => true,
      fun m => (m.updSys (fun x => { x with hold := true })).put pgSys SYS_STATUS_HOLD_OK 1)
  | .startHoldRelease => some (fun m => m.adoptReady && m.sys.hold && (m.lifePhase = 3 || m.lifePhase = 5),
      fun m => m.updSys (fun x => { x with window := true }))
  | .clkRestartTry clk true => some (fun m => m.clk.lost.contains clk,
      fun m => { m with clk := { m.clk with back := insKey m.clk.back clk } })
  | .syncInPresent ferr => some (fun m => m.flag pgClk CLK_SYNC_CFG_EN
        && (m.putI pgClk CLK_SYNC_STAT_FERR ferr).syncOn ferr,
      fun m => (m.putI pgClk CLK_SYNC_STAT_FERR ferr).put pgClk CLK_SYNC_STAT_PRESENT 1)
  | .syncLock ferr => some (fun m => m.syncOn ferr && m.get pgClk CLK_SYNC_STAT_PRESENT = 1
        && (m.putI pgClk CLK_SYNC_STAT_FERR ferr).get pgClk CLK_SYNC_STAT_LOCKED ≠ 1,
      fun m => (((m.putI pgClk CLK_SYNC_STAT_FERR ferr).put pgClk CLK_SYNC_STAT_LOCKED 1).raise pgClk
        CLK_EV_SYNC_LOCK).tbUpdate false)
  | .syncLost => some (fun m => m.get pgClk CLK_SYNC_STAT_PRESENT ≠ 0, fun m =>
      let m := (m.put pgClk CLK_SYNC_STAT_PRESENT 0).put pgClk CLK_SYNC_STAT_LOCKED 0
      let m := (m.raise pgClk CLK_EV_SYNC_LOST).tbUpdate false
      (m.fault pgClk CLK_FLT_SYNC_LOST 0 (rkey pgClk FLT_WIN)).1)
  | .brownOut => some (fun _ => true, fun m => (m.put pgSys SYS_STATUS_BROWN 1).put pgTwt TWT_STATUS_BROWN 1)
  | .brownOutEnd => some (fun _ => true, fun m => (m.put pgSys SYS_STATUS_BROWN 0).put pgTwt TWT_STATUS_BROWN 0)
  | .vauxInputLost i => some (fun _ => i < 2,
      fun m => (m.put pgSys ⟨SYS_STATUS, 6 + i, 1⟩ 0).raiseRec pgSys (SYS_EV_VAUX_A_LOST + i))
  | .vauxInputReturn i => some (fun _ => i < 2, fun m => m.put pgSys ⟨SYS_STATUS, 6 + i, 1⟩ 1)
  | .vauxDip lowest us => some (fun m => m.sys.pwr = .ride, fun m =>
      let m := m.updSys (fun x => { x with pwr := .run })
      let m := (m.put pgSys SYS_STATUS_BROWN 0).put pgTwt TWT_STATUS_BROWN 0
      m.recMake 0x0006 (pgSys * 256 + 0xFF) 6 0 (toBytes 2 (min 65535 (lowest / 10)) ++ toBytes 4 us) false)
  | .shadowReload addr => some (fun m => addr < 0x100000 && !m.mem.opened && !m.clk.lost.contains 7
        && m.mem.poison.contains (32 * 8192 + addr / 8),
      fun m => m.updMem (fun x => { x with
        poison := delKey x.poison (32 * 8192 + addr / 8)
        sram := setK zero64 x.sram (32 * 8192 + addr / 8) (getK zero64 nv.mram (addr / 8)) }))
  | .codeShadowLoaded ok => some (fun m => (match m.sys.restart with | .halted 1 _ => true | _ => false),
      fun m => ((m.shadowLoad nv.mram).fwImage nv.mram).fwStart ok)
  | .resetPin => some (fun _ => true, fun m => (if m.updSt = 0 || m.updSt = 5 then m
      else m.raiseRec pgUpdate UPDATE_EV_ABORTED).cleared .pinReset)
  | _ => none

/-- Events that reach the non-volatile part. -/
def nvRow (c : Instr) : Row2 :=
  match c with
  | .collapse va vb torn => some (fun _ m => m.sys.pwr = .run, fun nv m =>
      let full := m.sys.hold
      let m := m.updSys (fun x => { x with va := va, vb := vb, colVa := va, colVb := vb })
      let m := m.updRc (fun x => { x with col := m.breathHead })
      let m := (m.put pgSys SYS_STATUS_BROWN 1).put pgTwt TWT_STATUS_BROWN 1
      let m := (m.updSys (fun x => { x with hold := false })).put pgSys SYS_STATUS_HOLD_OK 0
      if full then (nv, m.updSys (fun x => { x with pwr := .ride }))
      else ((m.outputsZ).updSys (fun x => { x with pwr := .lastBreath })).breathEnter nv 0 torn)
  | .lastBreathEntry us torn => some (fun _ m => m.sys.pwr = .ride,
      fun nv m => ((m.outputsZ).updSys (fun x => { x with pwr := .lastBreath })).breathEnter nv us torn)
  | .clkLoss clk => some (fun _ m => clk < 4 || (clk < 8 && !m.clk.lost.contains clk), fun nv m =>
      if clk < 4 then m.moduleReset nv 3 (clk + 1) 0 0
      else
        let was := m.latched pgClk CLK_FLT_CLK_LOST
        let m := { m with clk := { m.clk with lost := insKey m.clk.lost clk } }
        let m := (m.clkStat clk false).countReg pgClk CLK_LOSS_CNT 1
        let m := m.put pgClk CLK_LOSS_LAST_CLOCK (clk + 1)
        let m := m.put pgClk CLK_LOSS_LAST_FRAME (m.reg pgSched SCHED_MFRAME).toNat
        let m := if was then m.raiseRec pgClk CLK_EV_CLK_LOST
          else (m.raise pgClk CLK_EV_CLK_LOST).latchNow pgClk CLK_FLT_CLK_LOST
        (nv, m.clkAct clk))
  | .clkResume clk => some (fun _ m => m.clk.back.contains clk, fun nv m =>
      let held := m.mramHeld
      let m := { m with clk := { lost := delKey m.clk.lost clk, back := delKey m.clk.back clk } }
      let m := m.clkStat clk true
      let m := if held && !m.mramHeld then m.updRc (fun x => { x with heldUpTo := m.rc.next - 1 }) else m
      m.mramFlush nv)
  | .wearSave => some (fun _ _ => true, fun nv m =>
      if m.mramHeld then (nv, m.updMem (fun x => { x with heldNv := x.heldNv ++ [.wear m.ep.wear] }))
      else ({ nv with wear := m.ep.wear }, m))
  | .retired u row => some (fun _ m => m.mem.copy.contains (u, row), fun nv m =>
      let sp := m.sparesUsed u
      let m := m.updMem (fun x => { x with copy := x.copy.filter (fun y => y ≠ (u, row)) })
      let m := m.setTbl pgMem 1 (4 * u + sp) (BitVec.ofNat 32 (row % 512 + 2 ^ 31))
      let m := m.setTbl pgMem 2 u (setBits (m.tbl pgMem 2 u) 0 3 (3 - sp))
      let m := m.raiseRec pgMem MEM_EV_RETIRED
      if m.mramHeld then (nv, m.updMem (fun x => { x with heldNv := x.heldNv ++ [.remap u sp row] }))
      else ({ nv with remap := nv.remap ++ [(u, sp, row)] }, m))
  | .scrubStep sram bad sym => some (fun _ m => sram || !m.clk.lost.contains 7,
      fun nv m =>
        let k := if sram then m.mem.scrubS else m.mem.scrubM
        let p : Place := if sram then .sram k else .mram (k - 64 * 8192)
        let r := if m.poisoned nv p then (nv, m) else ((m.readWord nv p bad sym).1, (m.readWord nv p bad sym).2.1)
        match if sram then r.2.scrubNext k else if k + 1 < 64 * 8192 + 524288 then some (k + 1) else none with
        | some k' =>
          (r.1, r.2.updMem (fun x => if sram then { x with scrubS := k' } else { x with scrubM := k' }))
        | none =>
          let m := r.2.updMem (fun x => if sram then { x with scrubS := 0 } else { x with scrubM := 64 * 8192 })
          let f : Fld := ⟨MEM_SCRUB_STAT, if sram then 0 else 16, 16⟩
          (r.1, ((m.boundary pgMem).put pgMem f (m.get pgMem f + 1)).raise pgMem MEM_EV_SCRUB_DONE))
  | .tamper j => some (fun _ m => j < 2
        && bit ((m.put pgHeart ⟨HEART_STATUS, 2 + j, 1⟩ 0).liveReg pgHeart HEART_TAMPER_CFG) j
        && m.hw.wipe.isNone,
      fun nv m => (((m.put pgHeart ⟨HEART_STATUS, 2 + j, 1⟩ 0).raise pgHeart HEART_EV_TAMPER).latchNow pgHeart
        HEART_FLT_TAMPER).wipeStart nv (1 + j))
  | .tamperPulseCheck j lo hi => some (fun _ m => j < 2
        && bit (m.liveReg pgHeart HEART_TAMPER_CFG) (8 + j),
      fun nv m =>
        let m := (m.put pgHeart ⟨HEART_STATUS, 2 + j, 1⟩ (if hi then 1 else 0)).updHw (fun x => { x with
          passed := upd x.passed j (fun _ => lo && hi) })
        if lo && hi then (nv, m) else m.tampered nv j)
  | .glitch kind => some (fun _ m => kind < 3 && m.hw.wipe.isNone,
      fun nv m => ((m.raise pgHeart HEART_EV_GLITCH).latchNow pgHeart HEART_FLT_GLITCH).wipeStart nv (3 + kind))
  | .wiped => some (fun _ m => m.hw.wipe.isSome && m.lc.target.isNone && m.rc.breath.isNone,
      fun nv m => m.wiped nv (m.hw.wipe.getD 0))
  | .thermRound x => some (fun _ _ => true, fun nv m => (m.thermRound nv.otp.ringOfs x).mramFlush nv)
  | .recordDrain => some (fun _ m => m.recCanDrain && !m.rc.stage.isEmpty, fun nv m =>
      match m.rc.stage with
      | [] => (nv, m)
      | r :: rest =>
        let root := r.mark && decide (nv.root.length < 512)
        let r' := m.recFinal r root
        let nv := if root then rootPut (ringPut nv r') r' else ringPut nv r'
        let m := (((m.updRc (fun x => { x with stage := rest })).recStageReg)).recLogRegs nv
        let m := if root && nv.root.length = 512 then
            (m.raise pgRec REC_EV_ROOT_FULL).put pgRec REC_STATUS_ROOT_FULL 1 else m
        (m.recLostSay).recReserve nv)
  | .optimeStore => some (fun _ _ => true, fun nv m =>
      if m.mramHeld then (nv, m.updMem (fun x => { x with heldNv := x.heldNv ++ [.optime m.rc.optime] }))
      else ({ nv with optime := m.rc.optime }, m))
  | .install ch => some (fun _ m => ch < 2 && m.chOccupied ch && m.keyOp ch ≠ 2, fun nv m => m.keyService nv ch)
  | .erase ch => some (fun _ m => ch < 2 && m.chOccupied ch && m.keyOp ch = 2, fun nv m => m.keyService nv ch)
  | .verifyDone => some (fun _ m => m.updSt = usVerify, fun nv m => m.updVerify nv)
  | .planStoreDone => some (fun _ m => m.updSt = usActivating && m.updPlan, fun nv m =>
      let c := m.up.copy
      let plan := m.readBytes nv (copyBase c + 4) m.up.len
      let inForce := m.get pgUpdate UPDATE_PLAN_STAT_VALID = 1 || m.get pgUpdate UPDATE_STATUS_PLAN_OLD = 1
      let g := if inForce then m.copyGen nv (1 - c) else 0
      let g := if g = 0xFFFF then 1 else g + 1
      let a := m.writeBytes nv limpBase (limpBytes plan ((planOf magicPlan plan).getD []))
      let b := a.2.writeBytes a.1 (copyBase c) (toBytes 4 (mkPair g).toNat)
      (b.1, (b.2.fmtDiff b.1 b.2.up.setFmt).updTo usIdle (some UPDATE_EV_ACTIVATED)))
  | .changed => some (fun _ m => m.lc.target.isSome && m.lc.wiped,
      fun nv m => match m.lc.target with | some target => m.lifeChanged nv target | none => (nv, m))
  | .scanDone => some (fun _ m => m.lifePhase ≠ 0 && !m.sys.scanDone,
      fun nv m => ((m.recScan nv).1, (m.recScan nv).2.tryAdopt))
  | .selftestDone fails rows ms ro => some (fun _ m => m.lifePhase = 1 && !m.sys.selfDone,
      fun nv m => m.selfTest nv fails rows ms ro)
  | .adoptWindowEnd lv ms => some (fun _ m => m.sys.window, fun nv m => m.release' nv lv ms)
  | .majorFrame done => some (fun _ m => m.sys.released, fun nv m => m.majorFrame nv done)
  | .taskDeadline r => some (fun _ m => r.id < 12 && (m.task r.id).started, fun nv m =>
      let x := if r.fin then m.taskCommit nv r else (nv, m.taskLate r.id)
      (x.1, x.2.fallNow))
  | .memoryAccess q => some (fun _ m => m.cluServed q.m && !m.busDenied q.m && q.task.isNone && !inRegs q.addr
        && q.addr % 8 = 0 && q.size = 8
        && (match placeOf m.sys.part q.m q.addr with
          | some p => m.memAllowed p q.m q.wr.isSome && (m.granted p q).2
          | none => false),
      fun nv m =>
        let r := match placeOf m.sys.part q.m q.addr with
          | none => (nv, m)
          | some p =>
            let a := (m.granted p q).1.partAccess nv p 0 8 (q.wr.map (fun (v : W64) => v.toNat % 2 ^ 64)) q.bad q.sym
            match a.2.2 with
            | none => (a.1, a.2.1.busError (some p) q.m)
            | some v => (a.1, { a.2.1 with out := { dword := if q.wr.isSome then none else some (BitVec.ofNat 64 v) } })
        (r.1, r.2.fallNow))
  | _ => none

/-- The supply and the reset pin (R33, R48 to R53): when they act does not depend on the module being powered. -/
def powerRow (c : Instr) : Row2 :=
  match c with
  | .powerOn va vb straps => some (fun _ m => m.sys.pwr = .off, fun nv m => m.powerOn nv va vb straps)
  | .lastBreathReset => some (fun _ m => m.sys.pwr = .lastBreath,
      fun nv m => (nv, { sys := { part := m.sys.part }, nfree := m.nfree }))
  | .resetRelease straps => some (fun _ m => m.sys.pwr = .pinReset && m.get pgSys SYS_STATUS_BROWN = 0, fun nv m =>
      (m.updSys (fun x => { x with pwr := .run, strap := straps })).romStart nv
        (Module.causeWord 2 0 0 m.sys.stRun 0))
  | _ => none

/-! ### Two-wire target and management (R446 to R462) -/

/-- The commands of the two-wire target. -/
def twtRow (c : Instr) : Row2 :=
  match c with
  | .twtWrite x => some (fun _ m => m.twtOn && 2 ≤ x.bytes.length && (x.lastAcked || 3 ≤ x.bytes.length),
      fun nv m =>
        let acked := if x.lastAcked then x.bytes else x.bytes.dropLast
        let m := (m.boundary pgTwt).twtPoint (ofBytes (acked.take 2))
        Module.settle (if x.bytes.length ≤ 2 then (nv, m) else m.twtData nv x acked))
  | .twtRead ptr n last => some (fun _ m => m.twtOn, fun nv m =>
      let m := (m.boundary pgTwt).twtBusy true
      let a := (ptr.getD m.twtPtr) % 65536
      let r := (m.twtPoint a).twtSend nv last (n + 1) a n
      (nv, { (r.2.twtBusy false).twtCount 16 with out := { bytes := r.1 } }))
  | .timeout => some (fun _ m => m.twtOn && m.flag pgTwt TWT_CFG_SMB_TMO, fun nv m =>
      (nv, (((m.put pgTwt TWT_LAST_ERR_KIND 4).put pgTwt TWT_LAST_ERR_ADDR m.twtPtr).count pgTwt
        ⟨TWT_ERR_CNT, 8, 8⟩ 1).raise pgTwt TWT_EV_TIMEOUT))
  | .stretchLimit reading => some (fun _ m => m.twtOn, fun nv m =>
      let m := (m.count pgTwt ⟨TWT_ERR_CNT, 24, 8⟩ 1).raise pgTwt TWT_EV_STRETCH_LIMIT
      let e := (m.put pgTwt TWT_LAST_ERR_KIND 7).put pgTwt TWT_LAST_ERR_ADDR m.twtPtr
      (nv, if reading then e else (e.count pgTwt ⟨TWT_ERR_CNT, 0, 8⟩ 1).raise pgTwt TWT_EV_REFUSED))
  | _ => none

/-- A management request is served for the first time: nothing kept answers it, and fewer than eight wait (R436). -/
def mgmtFirst (m : Module) (q : MgmtHdr) : Bool :=
  m.busOpen 2 && !q.full && !m.bn.kept.any (fun k => k.mac = q.mac && k.seq = q.seq)

/-- What is counted, kept and sent for a request that was served (R436, R445). -/
def mgmtEnd (q : MgmtHdr) (addr count : Nat) (r : NonVol × Module × MgmtRes) : NonVol × Module :=
  let k : KeptReq := ⟨q.mac, q.seq, mgmtRsp q addr count r.2.2, q.auth, 0⟩
  let m := r.2.1.count pgBenuf ⟨BENUF_MGMT_CNT, 0, 16⟩ 1
  let m := if k.rsp.head? = some 1 then m.count pgBenuf ⟨BENUF_MGMT_CNT, 16, 16⟩ 1 else m
  Module.settle (r.1, (m.updBn (fun x => { x with kept := (k :: x.kept).take 32 })).release 3 6 k.mac 0xFFF 0 k.rsp k.auth)

/-- The management requests. -/
def mgmtRow (c : Instr) : Row2 :=
  match c with
  | .read q addr count => some (fun _ m => mgmtFirst m q && addr % 4 = 0 && addr < 65536 && 1 ≤ count && count ≤ 256,
      fun nv m =>
        let r := m.mgmtReads nv 0 ((List.range count).map (fun i => addr + 4 * i))
        mgmtEnd q addr count (nv, r.2, r.1))
  | .readFixed q addr count => some (fun _ m => mgmtFirst m q && addr % 4 = 0 && addr < 65536 && 1 ≤ count
        && count ≤ 256,
      fun nv m =>
        let r := m.mgmtReads nv 0 (List.replicate count addr)
        mgmtEnd q addr count (nv, r.2, r.1))
  | .write q addr ws => some (fun _ m => mgmtFirst m q && addr % 4 = 0 && addr < 65536 && !ws.isEmpty
        && ws.length ≤ 64 && addr % 256 + 4 * ws.length ≤ 256,
      fun nv m =>
        let r := m.transact nv 2 q.auth false (ws.zipIdx.map (fun x => ⟨addr + 4 * x.2, x.1⟩))
        mgmtEnd q addr ws.length (r.1, r.2.1, mgmtWhy r.2.2))
  | .writeFixed q addr ws => some (fun _ m => mgmtFirst m q && addr % 4 = 0 && addr < 65536 && !ws.isEmpty
        && ws.length ≤ 64,
      fun nv m =>
        let r := m.transact nv 2 q.auth false (ws.map (fun x => ⟨addr, x⟩))
        mgmtEnd q addr ws.length (r.1, r.2.1, mgmtWhy r.2.2))
  | .updateBlk q ofs data => some (fun _ m => mgmtFirst m q && m.get pgSys SYS_STATUS_BROWN ≠ 1 && !m.autonomous
        && data.length ≤ 1024,
      fun nv m =>
        let r := m.block nv 2 ofs data
        mgmtEnd q (pgUpdate * 256) 0 (r.1, r.2.1, if r.2.2 = 0 then {} else { status := 2, detail := 0x10 + r.2.2 }))
  | .send q ch payload => some (fun _ m => mgmtFirst m q && (ch ≠ 1 || q.auth || m.get pgHeart HEART_STATUS_EMPTY ≠ 0),
      fun nv m =>
        let r := (m.mboxFrom q).mboxSend q ch payload
        mgmtEnd q (chPage ch * 256) 0 (nv, r.1, r.2))
  | .ackRead q ch => some (fun _ m => mgmtFirst m q && ch < 32, fun nv m =>
      mgmtEnd q (chPage ch * 256) 0 (nv, m.mboxFrom q, { words :=
        [m.reg (chPage ch) (MBOX_ACK_H0 + 12 * (ch % 8)), m.reg (chPage ch) (MBOX_ACK_L0 + 12 * (ch % 8))]
          ++ (if m.chReceiver ch = 2 then m.chPayload ch else []) }))
  | .capset f => some (fun _ m => m.capsetMine f, fun nv m =>
      let d := m.periodsTo f.effective
      if 2 ≤ f.target then
        (nv, ((m.capsetNote f false true).raise pgBenuf BENUF_EV_CAPSET).raise pgGrove EV_CFG_REFUSED)
      else if 0 < d && d < 2 ^ 31 then (nv, m.updBn (fun x => { x with capsets := x.capsets ++ [f] }))
      else m.capsetWrite nv f true)
  | .capsetApply => some (fun _ m => m.busOpen 2 && m.bn.capsets.any m.capsetDue, fun nv m =>
      (m.bn.capsets.filter m.capsetDue).foldl (fun (s : NonVol × Module) f => s.2.capsetWrite s.1 f false)
        (nv, m.updBn (fun x => { x with capsets := x.capsets.filter (fun f => !m.capsetDue f) })))
  | _ => none

/-! ### The register fabric (R69 to R92) -/

/-- A register that a command reaches: the master, the page and offset, the block and instance of the page, the
access of the register; when the register takes the write and what follows. -/
structure Port where
  x : Nat
  b : Blk
  n : Nat
  p : Nat
  off : Nat
  acc : Acc
  ready : Module → Bool
  eff : NonVol → Module → NonVol × Module

/-- The part has the register, with the access that the spec's table gives it (R71, R72). -/
def Port.has (q : Port) (m : Module) : Bool :=
  match regAt m q.p q.off with
  | some (b, n, r) => b = q.b && n = q.n && r.acc = q.acc
  | none => false

/-- Nothing refuses the master's access as such: start-up (R48), life cycle (R554), brown-out (R453) and
AUTONOMOUS (R337). -/
def Serves (m : Module) (x : Nat) (b : Blk) : Bool :=
  m.busOpen x && !m.busDenied x && !((x = 1 || x = 2 || x = 3) && m.get pgSys SYS_STATUS_BROWN = 1)
    && !(m.autonomous && (x = 1 || x = 2) && b ≠ .sys && b ≠ .wdog)

/-- The command goes through the port. -/
def Port.open (q : Port) (m : Module) : Bool := Serves m q.x q.b && q.has m && q.ready m

/-- A register of the page is not locked (R88). -/
def unlocked (m : Module) (p : Nat) : Bool := !bit (m.reg p LOCK) 0

/-- What a register of the part keeps of a written value (R2, R7, R281). -/
def kept (part : Nat) (b : Blk) (off : Nat) (v : W32) : W32 :=
  match rowOf b off with
  | some r => regVal part b off r v
  | none => 0

/-- A write of an RW or RWP register is accepted: not locked, a valid pair where one is due, not running where the
field stops the block, a value that exists (R84, R88, R91, R92). -/
def fits (m : Module) (b : Blk) (p off : Nat) (v : W32) : Bool :=
  unlocked m p && (pair32Hi b off).isNone && encOk m.sys.part b off (kept m.sys.part b off v)
    && (match rowOf b off with
      | some r => (r.acc = .rw || r.acc = .rwp) && (r.acc ≠ .rwp || pairOk v) && (r.eff ≠ .stop || !m.en p)
      | none => false)

/-- The writes of CTRL that start and stop a block (R76): EN changes, nothing locks or refuses it. -/
def enPort (x : Nat) (b : Blk) (n p : Nat) (v : W32) : Port where
  x := x
  b := b
  n := n
  p := p
  off := CTRL
  acc := .rw
  ready := fun m => m.en p ≠ bit v 0 && !bit v 1 && !bit (m.reg p LOCK) 1
    && (m.reg p CTRL).toNat &&& ctrlBits b = v.toNat &&& ctrlBits b && m.enBad m b n (bit v 0) = 0
  eff := fun nv m => (nv, if bit v 0 then m.blkStart b p n else m.blkStop b p n)

/-- The enables. -/
def enRow (c : Instr) : Option Port :=
  match c with
  | .schedEn x v => some (enPort x .sched 0 pgSched v)
  | .railEn x r v => if r < 12 then some (enPort x .rail r (pgRail + r) v) else none
  | .phaseEn x n v => if n < 48 then some (enPort x .phase n (pgPhase + n) v) else none
  | .cleEn x v => some (enPort x .cle 0 pgCle v)
  | .traceEn x k v => if k < 4 then some (enPort x .trace k (pgTrace + k) v) else none
  | .groveEn x v => some (enPort x .grove 0 pgGrove v)
  | .xingEn x v => some (enPort x .xing 0 pgXing v)
  | .feedEn x c v => if c < 8 then some (enPort x .feed c (pgFeed + c) v) else none
  | .seqEn x v => some (enPort x .seq 0 pgSeq v)
  | .wdogEn x v => some (enPort x .wdog 0 pgWdog v)
  | .battEn x b v => if b < 8 then some (enPort x .batt b (pgBatt + b) v) else none
  | .benufEn x v => some (enPort x .benuf 0 pgBenuf v)
  | _ => none

/-- A command register: a write of it acts on the module alone. -/
def cmdPort (x : Nat) (b : Blk) (n p off : Nat) (ready : Module → Bool) (eff : Module → Module) : Port where
  x := x
  b := b
  n := n
  p := p
  off := off
  acc := .wo
  ready := ready
  eff := fun nv m => (nv, eff m)

/-- A COMMIT of a group that takes its snapshot without a condition (R85). -/
def groupPort (x : Nat) (b : Blk) (n p off g : Nat) : Port :=
  cmdPort x b n p off (fun m => m.unc.any (inGroup p g)) (fun m => m.commit p (inGroup p g))

/-- The settings of a rail that is not sampled act at once (R197). -/
def settled (m : Module) (r : Nat) : Module := if m.rlRuns r then m else m.railUpd r

/-- A COMMIT of a rail's group (R85, R197). -/
def railPort (x r g : Nat) (ready : Module → Bool) : Port :=
  cmdPort x .rail r (pgRail + r) RAIL_COMMIT (fun m => m.unc.any (inGroup (pgRail + r) g) && ready m)
    (fun m => settled (m.commit (pgRail + r) (inGroup (pgRail + r) g)) r)

/-- The commits. -/
def commitRow (c : Instr) : Option Port :=
  match c with
  | .railCommitRef x r => if r < 12 then some (railPort x r 0 (fun _ => true)) else none
  | .railCommitProt x r => if r < 12 then some (railPort x r 1 (fun _ => true)) else none
  | .railCommitShed x r =>
    if r < 12 then some (railPort x r 2 (fun m =>
      (Module.shedBad (m.val (pgRail + r) RAIL_PH_RATING) (fun n => bits (m.shedWord r 0 n) 16 16)
        (fun n => bits (m.shedWord r 1 n) 16 16)).isNone))
    else none
  | .cleCommit x v => some (cmdPort x .cle 0 pgCle CLE_COMMIT (fun _ => true) (fun m =>
      (List.range (nRails m.sys.part)).foldl (fun (m : Module) r =>
        if bit v r && m.unc.any (inGroup pgCle r) then m.commit pgCle (inGroup pgCle r) else m) m))
  | .epeCommitSrc x => some (cmdPort x .epe 0 pgEpe EPE_COMMIT
      (fun m => m.unc.any (inGroup pgEpe 0) && ((List.range 64).find? m.srcBad).isNone)
      (fun m => m.commit pgEpe (inGroup pgEpe 0)))
  | .xingCommitBus x => some (groupPort x .xing 0 pgXing XING_COMMIT 0)
  | .feedCommitWin x c => if c < 8 then some (groupPort x .feed c (pgFeed + c) FEED_COMMIT 0) else none
  | .feedCommitTrip x c => if c < 8 then some (groupPort x .feed c (pgFeed + c) FEED_COMMIT 1) else none
  | .seqtblCommitUp x => some (cmdPort x .seqtbl 0 pgSeqtbl SEQTBL_COMMIT
      (fun m => m.unc.any (inGroup pgSeqtbl 0)
        && (((List.range 64).takeWhile (fun s => bits (m.tbl pgSeqtbl 0 (4 * s)) 28 4 ≠ kEnd)).find?
          (fun s => (m.stepBad 0 s).isSome)).isNone)
      (fun m => (m.commit pgSeqtbl (inGroup pgSeqtbl 0)).seqLens))
  | .seqtblCommitDown x => some (cmdPort x .seqtbl 0 pgSeqtbl SEQTBL_COMMIT
      (fun m => m.unc.any (inGroup pgSeqtbl 1)
        && (((List.range 64).takeWhile (fun s => bits (m.tbl pgSeqtbl 1 (4 * s)) 28 4 ≠ kEnd)).find?
          (fun s => (m.stepBad 1 s).isSome)).isNone)
      (fun m => (m.commit pgSeqtbl (inGroup pgSeqtbl 1)).seqLens))
  | .battCommitOcv x b =>
    if b < 8 then some (cmdPort x .batt b (pgBatt + b) BATT_COMMIT
      (fun m => m.unc.any (inGroup (pgBatt + b) 0) && m.ocvGood b)
      (fun m => m.commit (pgBatt + b) (inGroup (pgBatt + b) 0)))
    else none
  | .battCommitChg x b => if b < 8 then some (groupPort x .batt b (pgBatt + b) BATT_COMMIT 1) else none
  | .battCommitLvl x b => if b < 8 then some (groupPort x .batt b (pgBatt + b) BATT_COMMIT 2) else none
  | .twcCommitPoll x p =>
    if p < 4 then some (cmdPort x .twc p (pgTwc + p) TWC_COMMIT
      (fun m => m.unc.any (inGroup (pgTwc + p) 0) && m.en (pgTwc + p))
      (fun m => m.commit (pgTwc + p) (inGroup (pgTwc + p) 0)))
    else none
  | _ => none

/-- UPDATE.CMD with its operation (R569): the write reaches the non-volatile part too. -/
def updPort (x op : Nat) (ready : Module → Bool) (eff : NonVol → Module → NonVol × Module) : Port where
  x := x
  b := .update
  n := 0
  p := pgUpdate
  off := UPDATE_CMD
  acc := .rwp
  ready := fun m => fits m .update pgUpdate UPDATE_CMD (mkPair op) && ready m
  eff := eff

/-- The commands of the blocks. -/
def cmdRow (c : Instr) (nv : NonVol) : Option Port :=
  match c with
  | .fwRestart x => some (cmdPort x .sys 0 pgSys SYS_CMD (fun m => m.fwCan && m.sys.restart = .none) (fun m =>
      let m := m.put pgSys SYS_RESTART_CAUSE 2
      let m := (m.put pgSys SYS_RESTART_MERGED 0).put pgSys SYS_STATUS_RESTART_PEND 1
      { m with sys := { m.sys with restart := .pending 2 } }))
  | .moduleResetCmd x => some (cmdPort x .sys 0 pgSys SYS_CMD (fun _ => true)
      (fun m => m.updSys (fun y => { y with resetDue := some (4, 1) })))
  | .saplingCmd x => some (cmdPort x .sys 0 pgSys SYS_CMD (fun _ => true)
      (fun m => m.updSys (fun y => { y with resetDue := some (4, 2) })))
  | .bistReq x v => some (cmdPort x .place 0 pgPlace PLACE_BIST_REQ
      (fun m => bit v 8 && m.bistRefusal (bits v 0 2) = 0) (fun m => (m.bistAsk (bits v 0 2)).1))
  | .calReq x v => some (cmdPort x .adccal 0 pgAdccal ADCCAL_CAL_REQ
      (fun m => bits v 8 1 = 1 && chanPresent m.sys.part (bits v 0 6))
      (fun m => { m with adc := { m.adc with calReq := insKey m.adc.calReq (bits v 0 6) } }))
  | .arm x k =>
    if k < 4 then some (cmdPort x .trace k (pgTrace + k) TRACE_ARM
      (fun m => m.en (pgTrace + k) && (m.trSt k = tsIdle || m.trSt k = tsDone)) (fun m => m.trStart k))
    else none
  | .force x k cyc =>
    if k < 4 then some (cmdPort x .trace k (pgTrace + k) TRACE_ARM (fun m => m.trSt k = tsArmed)
      (fun m => (m.arriveAt cyc).trTrigger k 4))
    else none
  | .stop x k =>
    if k < 4 then some (cmdPort x .trace k (pgTrace + k) TRACE_ARM (fun _ => true)
      (fun m => m.put (pgTrace + k) TRACE_STATUS_STATE tsIdle))
    else none
  | .seqReqOn x => some (cmdPort x .seq 0 pgSeq SEQ_REQ (fun m => m.en pgSeq) (fun m =>
      (m.put pgSeq SEQ_STATUS_CAUSE 1).updSq (fun y => { y with reqs := y.reqs ++ [(true, 1)] })))
  | .seqReqOff x => some (cmdPort x .seq 0 pgSeq SEQ_REQ (fun m => m.en pgSeq) (fun m =>
      (m.put pgSeq SEQ_STATUS_CAUSE 1).updSq (fun y => { y with reqs := y.reqs ++ [(false, 1)] })))
  | .kick x v => some (cmdPort x .wdog 0 pgWdog WDOG_KICK
      (fun m => v = 0xA5A55A5A && m.cfg pgWdog WDOG_CFG_SRC ≠ 0) (fun m => m.wdKick))
  | .accept x b =>
    if b < 8 then some (cmdPort x .batt b (pgBatt + b) BATT_CMD (fun m => m.btPres b = 1) (fun m =>
      let p := pgBatt + b
      let m := m.put p BATT_ID_CODE (m.batt b).code
      let m := (m.nameplate b).put p BATT_STATUS_SWAPPED 0
      let m := if m.socV b = 0xFFFF then m else m.setSocC b (m.socV b)
      (m.put p BATT_STATUS_FULL 0).updBt b (fun y => { y with
        qRem := 0, qLast := m.reg p BATT_Q_RAW, diff := 0 })))
    else none
  | .impGo x b =>
    if b < 8 then some (cmdPort x .batt b (pgBatt + b) BATT_CMD
      (fun m => (m.batt b).run && m.flag (pgBatt + b) BATT_IMP_CFG_EN && !(m.batt b).imp)
      (fun m => m.updBt b (fun y => { y with impReq := true })))
    else none
  | .cal x => some (cmdPort x .therm 0 pgTherm THERM_CMD (fun _ => true)
      (fun m => m.updTh (fun y => { y with cal := true })))
  | .switch x cyc => some (cmdPort x .netpair 0 pgNetpair NETPAIR_CMD
      (fun m => !m.net.rebuild && m.eng (1 - m.engA) = esStep)
      (fun m => ((m.arriveAt cyc).switchOver 5 true).engRepair m.engA))
  | .repair x e => some (cmdPort x .netpair 0 pgNetpair NETPAIR_CMD (fun m => m.eng (e % 2) = esFailed)
      (fun m => m.engRepair (e % 2)))
  | .forget x i => some (cmdPort x .benuf 0 pgBenuf BENUF_CMD (fun _ => true) (fun m => m.memFree (i % 64)))
  | .helloNow x => some (cmdPort x .benuf 0 pgBenuf BENUF_CMD
      (fun m => m.get pgBenuf BENUF_STATUS_STATE = 1 || m.get pgBenuf BENUF_STATUS_STATE = 2)
      (fun m => m.sendHello 0))
  | .wipeCmd x v => some { cmdPort x .heart 0 pgHeart HEART_WIPE_CMD
      (fun m => v = 0x5A5AA5A5 && m.hw.wipe.isNone) id with
    eff := fun nv m => ({ nv with wipePending := true },
      (m.updHw (fun y => { y with wipe := some 7 })).put pgHeart HEART_STATUS_WIPING 1) }
  | .startImage x => some (updPort x 1 (fun m => (m.updStart x false).2 = 0)
      (fun nv m => (nv, (m.updStart x false).1)))
  | .startPlan x => some (updPort x 2 (fun m => (m.updStart x true).2 = 0)
      (fun nv m => (nv, (m.updStart x true).1)))
  | .activate x => some (updPort x 3 (fun m => (m.updActivate nv).2.2 = 0)
      (fun nv m => ((m.updActivate nv).1, (m.updActivate nv).2.1)))
  | .abort x => some (updPort x 4
      (fun m => m.updSt ≠ usIdle && m.updSt ≠ usActivating && m.updOwner = x && !m.updHot)
      (fun nv m => (nv, m.updAbort)))
  | .resume x => some (updPort x 5 (fun m => m.lifePhase = 5 && !nv.mark && !m.updHot)
      (fun nv m => (nv, if m.imageGood nv then m.updSys (fun y => { y with goOn := true }) else m.updRefuse 11 0)))
  | _ => none

/-- Writes of the registers that every page has (R74 to R89), and of the registers that act when written. -/
def regRow (c : Instr) : Option Port :=
  match c with
  | .softRst x p =>
    match blkOf p with
    | some (b, n) => some {
        x := x, b := b, n := n, p := p, off := CTRL, acc := .rw
        ready := fun m => !m.en p && !bit (m.reg p LOCK) 1
        eff := fun nv m => (nv, m.softReset b p n) }
    | none => none
  | .lock x p v =>
    match blkOf p with
    | some (b, n) => some {
        x := x, b := b, n := n, p := p, off := LOCK, acc := .w1s
        ready := fun _ => true
        eff := fun nv m => (nv, m.setReg p LOCK (m.reg p LOCK ||| (v &&& 3))) }
    | none => none
  | .evtRawClear x p v =>
    match blkOf p with
    | some (b, n) => some {
        x := x, b := b, n := n, p := p, off := EVT_RAW, acc := .w1c
        ready := fun _ => true
        eff := fun nv m => (nv, m.setReg p EVT_RAW (m.reg p EVT_RAW &&& ~~~v)) }
    | none => none
  | .fltStatClear x p v =>
    match blkOf p with
    | some (b, n) => some {
        x := x, b := b, n := n, p := p, off := FLT_STAT, acc := .w1c
        ready := fun _ => true
        eff := fun nv m => (nv, (List.range 32).foldl (fun (m : Module) i =>
          if bit v i then m.clearLatch b p n i else m) m) }
    | none => none
  | .fltWinWrite x a v =>
    match blkOf (a / 256) with
    | some (b, n) =>
      if isWin b (a % 256) && a % 4 = 0 then some {
        x := x, b := b, n := n, p := a / 256, off := a % 256, acc := .rwp
        ready := fun m => fits m b (a / 256) (a % 256) v
        eff := fun nv m =>
          let w := kept m.sys.part b (a % 256) v
          let m := { m.setKey a w with ovr := insKey m.ovr a }
          (nv, if m.liveKey a = w then { m with winWait := m.winWait.filter (fun kv => kv.1 ≠ a) }
            else { m with winWait := putK m.winWait a w }) }
      else none
    | none => none
  | .registerWrite x a v [] =>
    match blkOf (a / 256) with
    | some (b, n) =>
      if a % 4 = 0 && 32 ≤ a % 256 && !(hasTbl b && a % 256 ≤ TBL_DATA) && !isWin b (a % 256) && b ≠ .mbox
          && b ≠ .life && b ≠ .update && b ≠ .recd && !(b = .sys && a % 256 = SYS_PROFILE) then some {
        x := x, b := b, n := n, p := a / 256, off := a % 256, acc := .rw
        ready := fun m => fits m b (a / 256) (a % 256) v
        eff := fun nv m =>
          (nv, (m.applyWrite a (kept m.sys.part b (a % 256) v)).wroteHook b (a / 256) n (a % 256) (m.key a)) }
      else none
    | none => none
  | .profileChange x v => some {
      x := x, b := .sys, n := 0, p := pgSys, off := SYS_PROFILE, acc := .rw
      ready := fun m => fits m .sys pgSys SYS_PROFILE v
      eff := fun nv m =>
        let w := kept m.sys.part .sys SYS_PROFILE v
        (nv, (m.setBoth (rkey pgSys SYS_PROFILE) w).profile (bits w 0 2)) }
  | .doorbell x ch v =>
    let off := MBOX_DOORBELL0 + 12 * (ch % 8)
    if ch < 32 then some {
      x := x, b := .mbox, n := ch / 8, p := pgMbox + ch / 8, off := off, acc := .rwp
      ready := fun m => fits m .mbox (pgMbox + ch / 8) off v && m.chSender ch = x && !m.chOccupied ch
        && inRng (kept m.sys.part .mbox off v) 16 7 1 64
      eff := fun nv m => (nv, (m.chRing ch (kept m.sys.part .mbox off v)).chFrame ch) }
    else none
  | .lifeArm x v auth => some {
      x := x, b := .life, n := 0, p := pgLife, off := LIFE_CMD, acc := .rwp
      ready := fun m =>
        let w := kept m.sys.part .life LIFE_CMD v
        fits m .life pgLife LIFE_CMD v && bits w 28 4 = 1 && m.lifeArmBad x auth (bits w 16 3) = 0
      eff := fun nv m => (nv, (m.updLc (fun y => { y with
        arm := some (bits (kept m.sys.part .life LIFE_CMD v) 16 3) })).setReg pgLife LIFE_ARM_LEFT 1000) }
  | .lifeCommit x v auth => some {
      x := x, b := .life, n := 0, p := pgLife, off := LIFE_CMD, acc := .rwp
      ready := fun m =>
        let w := kept m.sys.part .life LIFE_CMD v
        fits m .life pgLife LIFE_CMD v && bits w 28 4 = 2 && m.lifeBad x auth (bits w 16 3) = 0
      eff := fun nv m =>
        let m := (m.updLc (fun y => { y with arm := none })).setReg pgLife LIFE_ARM_LEFT 0
        let m := m.updLc (fun y => { y with target := some (bits (kept m.sys.part .life LIFE_CMD v) 16 3), wiped := false })
        (m.put pgLife LIFE_STATE_BUSY 1).wipeStart nv 6 }
  | _ => none

/-- The access that the table of a block gives the register. -/
def accOf (b : Blk) (off : Nat) : Acc := match rowOf b off with | some r => r.acc | none => .ro

/-- The table word that a master's position names (R80, R81). -/
def wordAt (m : Module) (b : Blk) (n p x : Nat) : Option TRow := tblRow b n (selOf m p x) (idxOf m p x)

/-- An answer of a mailbox (R507): both acknowledge registers. -/
def ackPort (x ch : Nat) (h l : W32) (st : Nat) (eff : Module → Module) : Port where
  x := x
  b := .mbox
  n := ch / 8
  p := pgMbox + ch / 8
  off := MBOX_ACK_L0 + 12 * (ch % 8)
  acc := .rwp
  ready := fun m =>
    let p := pgMbox + ch / 8
    fits m .mbox p (MBOX_ACK_H0 + 12 * (ch % 8)) h && fits m .mbox p (MBOX_ACK_L0 + 12 * (ch % 8)) l
      && (rowOf .mbox (MBOX_ACK_H0 + 12 * (ch % 8))).any (fun r => r.acc = .rwp)
      && m.chReceiver ch = x && m.chBegun ch && bits l 24 8 = m.chTag ch && bits l 20 4 = 0 && bits l 16 4 = st
  eff := fun nv m => (nv, eff m)

/-- The learned values of a string, written with the ID that they belong to (R357). -/
def learnWritten (m : Module) (b : Nat) (cap res cyc soh idExp : W32) : Module :=
  let w := fun (m : Module) (off : Nat) (v : W32) =>
    m.applyWrite (rkey (pgBatt + b) off) (kept m.sys.part .batt off v)
  w (w (w (w (w m BATT_ID_EXPECT idExp) BATT_LRN_CAP cap) BATT_LRN_R res) BATT_LRN_CYC cyc) BATT_LRN_SOH soh

/-- The learned values of a string are taken (R357): each fits its register, capacity and resistance are not 0, and
the string present is the one that they belong to. -/
def learnTaken (m : Module) (b : Nat) (cap res cyc soh idExp : W32) : Bool :=
  let p := pgBatt + b
  let m' := learnWritten m b cap res cyc soh idExp
  fits m .batt p BATT_ID_EXPECT idExp && fits m .batt p BATT_LRN_CAP cap && fits m .batt p BATT_LRN_R res
    && fits m .batt p BATT_LRN_CYC cyc && fits m .batt p BATT_LRN_SOH soh
    && bits (m'.reg p BATT_LRN_CAP) 16 16 ≠ 0 && bits (m'.reg p BATT_LRN_R) 16 16 ≠ 0
    && m'.btPres b = 1 && !m'.btSwapped b && bits (m'.reg p BATT_ID_EXPECT) 0 5 = m'.get p BATT_ID_CODE

/-- Commands that write several registers or a port in one transaction. -/
def xferRow (c : Instr) (nv : NonVol) : Option Port :=
  match c with
  | .tblDataAccess x p (some v) =>
    match blkOf p with
    | some (b, n) => if hasTbl b && b ≠ .mbox && b ≠ .adccal then some {
        x := x, b := b, n := n, p := p, off := TBL_DATA, acc := accOf b TBL_DATA
        ready := fun m => accOf b TBL_DATA ≠ .ro && unlocked m p && (match wordAt m b n p x with
          | some r => r.acc ≠ .ro && !tblAbsent m.sys.part b (selOf m p x) (idxOf m p x)
            && (r.acc ≠ .rwp || pairOk v) && (r.eff ≠ .stop || !m.en p)
            && encTblOk b (selOf m p x) (idxOf m p x) (maskVal r.acc r.mask v)
          | none => false)
        eff := fun nv m => (nv, match wordAt m b n p x with
          | some r => ({ m with idx := putK m.idx (16 * p + x) (idxOf m p x + 1) }).applyWrite
              (tkey p (selOf m p x) (idxOf m p x)) (maskVal r.acc r.mask v)
          | none => m) } else none
    | none => none
  | .mboxBind x ch v =>
    let p := pgMbox + ch / 8
    if ch < 32 then some {
      x := x, b := .mbox, n := ch / 8, p := p, off := TBL_DATA, acc := accOf .mbox TBL_DATA
      ready := fun m => unlocked m p && mayBind x && !m.chBound ch && (match tblRow .mbox (ch / 8) 8 (ch % 8) with
        | some r => r.acc ≠ .ro && !tblAbsent m.sys.part .mbox 8 (ch % 8) && (r.acc ≠ .rwp || pairOk v)
          && (r.eff ≠ .stop || !m.en p) && encTblOk .mbox 8 (ch % 8) (maskVal r.acc r.mask v)
          && bindOk (maskVal r.acc r.mask v)
        | none => false)
      eff := fun nv m => (nv, match tblRow .mbox (ch / 8) 8 (ch % 8) with
        | some r => ({ m with
            sel := putK m.sel (16 * p + x) 8
            idx := putK (putK m.idx (16 * p + x) (ch % 8)) (16 * p + x) (ch % 8 + 1) }).setBoth
              (tkey p 8 (ch % 8)) (maskVal r.acc r.mask v)
        | none => m) }
    else none
  | .taken x ch h l =>
    if ch < 32 then some (ackPort x ch h l chTaken (fun m => m.chSet ch (bits h 16 16) (m.chTag ch) chTaken)) else none
  | .done x ch h l =>
    if ch < 32 then some (ackPort x ch h l chDone (fun m =>
      (m.chSet ch (bits h 16 16) (m.chTag ch) chDone).raise (chPage ch) (16 + ch % 8)))
    else none
  | .rdSeq x h l => some {
      x := x, b := .recd, n := 0, p := pgRec, off := REC_RD_SEQ_L, acc := .rw
      ready := fun _ => true
      eff := fun nv m => (nv, ((m.applyWrite (rkey pgRec REC_RD_SEQ_H) (h &&& 0xFFFF)).applyWrite
        (rkey pgRec REC_RD_SEQ_L) l).recPlace x) }
  | .submit x ws => some {
      x := x, b := .recd, n := 0, p := pgRec, off := REC_SUBMIT, acc := .wo
      ready := fun m => ws.length = 11 && Module.submitType x (bits (ws.headD 0) 16 16) && bits (ws.headD 0) 0 8 ≤ 40
        && !(isCluster x && (m.task 9).fallback)
      eff := fun nv m => (nv, m.recMake (bits (ws.headD 0) 16 16) (0xFF00 + x) (bits (ws.headD 0) 0 8) 8
        ((wordBytes (ws.drop 1)).take (bits (ws.headD 0) 0 8)) false) }
  | .updateBlock ws => some {
      x := 1, b := .update, n := 0, p := pgUpdate, off := UPDATE_BLK_DATA, acc := .wo
      ready := fun m => !ws.isEmpty
        && (m.blockTake nv 1 (m.get pgUpdate ⟨UPDATE_BLK_OFS, 0, 20⟩) (wordBytes (ws.take 64))).2.2 = 0
      eff := fun nv m =>
        let ofs := m.get pgUpdate ⟨UPDATE_BLK_OFS, 0, 20⟩
        let r := m.blockTake nv 1 ofs (wordBytes (ws.take 64))
        (r.1, r.2.1.setBoth (rkey pgUpdate UPDATE_BLK_OFS)
          (BitVec.ofNat 32 ((ofs + 4 * (ws.take 64).length) % 2 ^ 20))) }
  | .battCommitLearn x b cap res cyc soh idExp =>
    let p := pgBatt + b
    if b < 8 then some {
      x := x, b := .batt, n := b, p := p, off := BATT_COMMIT, acc := .wo
      ready := fun m => learnTaken m b cap res cyc soh idExp
      eff := fun nv m =>
        let m := learnWritten m b cap res cyc soh idExp
        let m := (m.commit p (inGroup p 3)).updBt b (fun y => { y with restore := true })
        (nv, if (m.batt b).run then m else m.battRestore b) }
    else none
  | _ => none

/-- The state after a transaction: a module reset, or the end of Sapling, follows where one is due. -/
def ended (s : State) (r : NonVol × Module) : State :=
  { s with nv := (Module.settle r).1, m := (Module.settle r).2 }

/-- A master may read (R48, R554). -/
def mayRead (m : Module) (x : Nat) : Bool := m.busOpen x && !m.busDenied x

/-- Reads that pop, advance or latch (R80, R443, R531, R537). -/
def readRow (c : Instr) (nv : NonVol) : Row :=
  match c with
  | .rdData x took => some (fun m => mayRead m x && !m.busPoison nv x (rkey pgRec REC_RD_DATA), fun m =>
      let at' := nth (0, 0) m.rc.rdPos x
      let v := m.recWord nv at'.1 at'.2
      let m := if took then m.updRc (fun y => { y with
        rdPos := upd y.rdPos x (fun _ => if at'.2 = 17 then ((at'.1 + 1) % 2 ^ 48, 0) else (at'.1, at'.2 + 1)) })
        else m
      { m with out := { words := [v] } })
  | .optimeHRead x => some (fun m => mayRead m x, fun m =>
      let v := m.peek pgRec REC_OPTIME_H
      { m.setLatch x (rkey pgRec REC_OPTIME_L) (BitVec.ofNat 32 m.rc.optime) with out := { words := [v] } })
  | .taiSRead x sec ns => some (fun m => mayRead m x && mayRead
        ((m.setReg pgPtp PTP_TAI_S (BitVec.ofNat 32 sec)).setReg pgPtp PTP_TAI_NS (BitVec.ofNat 32 ns)) x, fun m =>
      let m := (m.setReg pgPtp PTP_TAI_S (BitVec.ofNat 32 sec)).setReg pgPtp PTP_TAI_NS (BitVec.ofNat 32 ns)
      { m.setLatch x (rkey pgPtp PTP_TAI_NS) (m.reg pgPtp PTP_TAI_NS) with
        out := { words := [m.peek pgPtp PTP_TAI_S] } })
  | .tblDataAccess x p none =>
    match blkOf p with
    | some (b, n) => some (fun m => mayRead m x && hasTbl b && pagePresent m.sys.part p
          && !regAbsent m.sys.part b TBL_DATA && (rowOf b TBL_DATA).any (fun r => r.acc ≠ .wo)
          && (wordAt m b n p x).isSome && !(b = .trace && selOf m p x = 0) && !m.busPoison nv x (rkey p TBL_DATA),
        fun m => { m with
          idx := putK m.idx (16 * p + x) (idxOf m p x + 1)
          out := { words := [m.tblRead nv b p n x (selOf m p x) (idxOf m p x)] } })
    | none => none
  | _ => none

/-! ### Invariants and frames -/

/-- The NVM keeps its canonical form: addresses rising strictly, no entry at the default. -/
def MramForm (nv : NonVol) : Prop := wfMap zero64 nv.mram = true

/-- The SRAM keeps its canonical form. -/
def SramForm (m : Module) : Prop := wfMap zero64 m.mem.sram = true

/-- What the module never takes back: slots of the Root log, retired rows, the highest image version, the epoch
fuses, and the two counters that saturate (R488, R495, R520, R524, R577). -/
def Grows (a b : NonVol) : Prop :=
  a.root <+: b.root ∧ a.remap <+: b.remap ∧ a.highVer ≤ b.highVer ∧ a.otp.epoch ≤ b.otp.epoch
    ∧ a.wipeCnt ≤ b.wipeCnt ∧ a.pcc ≤ b.pcc

/-- The counters and the Root log lie within their sizes (R495, R520, R524). -/
def Bounded (nv : NonVol) : Prop := nv.pcc < 2 ^ 24 ∧ nv.wipeCnt < 2 ^ 32 ∧ nv.root.length ≤ 512

/-- One entry for each phase, rail, trace unit, feed and string that the largest part has (R2), and no task that
has yet to enter its fallback (R118). -/
def Shaped (m : Module) : Prop :=
  m.ph.length = 48 ∧ m.rl.length = 12 ∧ m.tr.length = 4 ∧ m.fd.length = 8 ∧ m.bt.length = 8
    ∧ ∀ t, t < 12 → (m.task t).fallDue = false

/-- Registers and values in force of the pages outside `pg` are as before. -/
def RegFrame (m m' : Module) (pg : Nat → Prop) : Prop :=
  (∀ k, ¬ pg (pageOfKey k) → m'.key k = m.key k) ∧ (∀ k, ¬ pg (pageOfKey k) → m'.liveKey k = m.liveKey k)

/-- Everything of the module but its registers, its recorder, its counter blocks and the waiting values is as
before. -/
def UnitFrame (m m' : Module) : Prop :=
  m'.sys = m.sys ∧ m'.lc = m.lc ∧ m'.clk = m.clk ∧ m'.nfree = m.nfree ∧ m'.unc = m.unc ∧ m'.ovr = m.ovr
    ∧ m'.defer = m.defer ∧ m'.winWait = m.winWait ∧ m'.sel = m.sel ∧ m'.idx = m.idx ∧ m'.latch = m.latch
    ∧ m'.out = m.out ∧ m'.sched = m.sched ∧ m'.ph = m.ph ∧ m'.rl = m.rl ∧ m'.adc = m.adc ∧ m'.cle = m.cle
    ∧ m'.tr = m.tr ∧ m'.ep = m.ep ∧ m'.cp = m.cp ∧ m'.gr = m.gr ∧ m'.xg = m.xg ∧ m'.fd = m.fd ∧ m'.sq = m.sq
    ∧ m'.pin = m.pin ∧ m'.bt = m.bt ∧ m'.th = m.th ∧ m'.net = m.net ∧ m'.bn = m.bn ∧ m'.pt = m.pt
    ∧ m'.twtPtr = m.twtPtr ∧ m'.twc = m.twc ∧ m'.mem = m.mem ∧ m'.hw = m.hw ∧ m'.up = m.up

/-- A command that a module without supply still takes part in (R33, R48, R49). -/
def needsNoPower (c : Instr) : Bool :=
  match c with
  | .powerOn _ _ _ => true
  | _ => false

/-- A table word is reached through a master's own position (R80): a read of TBL_DATA. -/
def readAt (x a : Nat) : Instr := .memoryAccess ⟨x, 0x50000000 + a, 4, none, 0, 0, 0, [], none⟩

/-- A write of one register by a master. -/
def writeAt (x a : Nat) (v : W32) : Instr := .registerWrite x a v []

/-- A register at an address exists, as the row that the spec's table gives it. -/
def rowAt (m : Module) (a : Nat) (b : Blk) (n : Nat) (r : RegRow) : Prop :=
  a % 4 = 0 ∧ a < 65536 ∧ regAt m (a / 256) (a % 256) = some (b, n, r)

/-- The registers and table windows whose writes the general rules judge: not the ports of a table, not the
registers of mailboxes, commands and answers. -/
def plain (b : Blk) (a : Nat) : Prop :=
  32 ≤ a % 256 ∧ ¬(hasTbl b = true ∧ a % 256 ≤ TBL_DATA) ∧ b ≠ .mbox

/-! ### Families of events, for their frames -/

/-- The events of rails, phases, converters and observers. -/
def railEvents (c : Instr) : Bool :=
  match c with
  | .loopSample _ _ | .dutyRelease _ _ | .railPeriodBoundary _ _ | .trunc _ _ _ | .truncExit _ _ _ | .ov _ _ | .cbcTrip _ _ _
  | .negLimitTrip _ _ _ | .uvComparatorLow _ _ | .uvComparatorHigh _ _ | .uv _ _ | .ginHi _ _ _ | .ginHiEnd _ _ _
  | .ginLo _ _ _
  | .rollSlotEnd _ _ _ | .refCalDone _ _ _ | .monReading _ _ | .dropReady _ | .ssStall _ _ | .ssCbcShort _ _
  | .shortRetry _ | .probeStart _ | .probeDone _ | .dtAdapt _ _ => true
  | _ => false

/-- The events of feeds and the Crossing inputs. -/
def feedEvents (c : Instr) : Bool :=
  match c with
  | .feedInsDelay _ | .feedExcursion _ _ | .feedOn _ | .feedSample _ _ _ _ _ | .fastTrip _ | .feedRetry _
  | .feedConduct _ | .reverse _ | .damaged _ | .noConduct _ | .degraded _
  | .inGoodChange _ | .full _ => true
  | _ => false

/-- The events of the Crossing, its bus loop, the energy placement and the caps. -/
def placementEvents (c : Instr) : Bool :=
  match c with
  | .feedDetect _ _ | .slopeDetect _ _ | .acokDetect _ _ | .returning | .cutoffExit | .stringShedResume
  | .wake _ | .droopWake _ | .solveDone | .wearAccumulate | .capEstimate _ | .assistStep _ _
  | .busLoopSample _ | .hardLimit | .released | .sustained => true
  | _ => false

/-- The events of sequencer, watchdog, batteries and temperatures. -/
def supervisionEvents (c : Instr) : Bool :=
  match c with
  | .seqTick _ | .seqWaitDone | .stepFault | .seqRetry | .downLead | .seqMinOff | .railFail _
  | .railPgDeglitch _ _ | .wdiKick | .winMinEnd | .expired | .hostRstEnd | .batIdRead _ _ | .impPeriod _
  | .impFreqStep _ _ _ _ | .battVoltageJudge _ _ | .battLevelTimer _ _ _ | .excluded _ | .calDone => true
  | _ => false

/-- The events of ports, path engines, groves, Benuf and PTP. -/
def networkEvents (c : Instr) : Bool :=
  match c with
  | .linkUp _ _ _ | .linkDown _ | .frameReceived _ _ _ | .mergeEntry _ _ | .engineFlag _ _ _
  | .supervisionSend | .entryForget _ | .repairStageDone _ _ | .rebuildDone _ | .helloReceived _
  | .shareReceived _ | .summaryReceived _ | .helloSend | .joinDone | .leavingHello | .memberDrop _
  | .dupShelfGone | .healthSend | .ptpMessage _ | .announceTimeout _ | .ppsEdge _ | .syncInterval _
  | .groveCutoff | .shareRise _ | .canopyCutoff => true
  | _ => false

/-- The events of the two-wire controllers and resends of mailboxes. -/
def busEvents (c : Instr) : Bool :=
  match c with
  | .pollRound _ | .twcTransactionStart _ | .twcTransactionEnd _ _ | .arbBackoffEnd _ | .twcStretchTmo _
  | .busStuck _ | .busRecoveryRetry _ _ | .alert _ _ | .mboxResend _ => true
  | _ => false

/-- The events of reads that move a position, and of the two-wire target. -/
def readsThatMove (c : Instr) : Bool :=
  match c with
  | .twtRead _ _ _ | .timeout | .stretchLimit _ | .rdData _ _ | .optimeHRead _ | .taiSRead _ _ _
  | .streamFrame => true
  | _ => false

/-- The events of scrub, reload, scans, row repair and the plan store. -/
def memoryUpkeep (c : Instr) : Bool :=
  match c with
  | .scrubStep _ _ _ | .shadowReload _ | .scanDone | .verifyDone | .retired _ _ | .planStoreDone => true
  | _ => false

/-- The events of drain, anchors, stored times, arming and the end of a wipe. -/
def recorderUpkeep (c : Instr) : Bool :=
  match c with
  | .recordDrain | .anchorInterval | .optimeStore | .wearSave | .armExpiry | .wiped => true
  | _ => false

/-- Another fault of the source is added to its counter block. -/
def counted (m : Module) (p b sub win : Nat) : List Nat := upd (m.ctr p b sub win).buckets 0 (satAdd 8 1)

/-- EN of a rail is written 1, and what waited for its start is in force (R36, R150). -/
def enRisen (m : Module) (r : Nat) : Module :=
  let m := (m.applyDefer (pgRail + r)).perTaps r
  let m := m.setReg (pgRail + r) CTRL (setBit (m.reg (pgRail + r) CTRL) 0)
  (m.updRl r (fun x => { x with enIn := true })).railBoundary r

/-- The registers that a profile drives (R35). -/
def profileKey (k : Nat) : Prop :=
  (∃ r, r < 12 ∧ (k = rkey (pgRail + r) RAIL_CFG ∨ k = rkey (pgRail + r) RAIL_OVS ∨ k = rkey (pgRail + r) RAIL_SHED_CFG))
    ∨ k = rkey pgEpe EPE_WEIGHTS ∨ k = rkey pgEpe EPE_POLICY ∨ k = rkey pgEpe EPE_STBY_CFG

/-- The sum of shares. -/
def shareSum (l : List (Nat × Nat)) : Nat := sumN (l.map (·.2))

/-- The share of a member, 0 when it has none. -/
def shareFor (l : List (Nat × Nat)) (w : Nat) : Nat :=
  match l.find? (fun y => y.1 = w) with | some y => y.2 | none => 0

/-- No two reports name one member. -/
def distinct (cs : List Counted) : Prop := cs.Pairwise (fun a b => a.who ≠ b.who)

/-- A word access of a master without a bad codeword, and without another master that asks. -/
def wordAccess (x a : Nat) (wr : Option W64) : MemReq := ⟨x, a, 8, wr, 0, 0, 0, [], none⟩

end Sys2Proof.Machine

open Sys2Proof Sys2Proof.Machine

/-! ### The block as a machine -/

/-- The command at the front of the queue runs, with the rest of the queue behind it. -/
def Obligations.StepRunsTheFrontCommand : Prop :=
  ∀ (c : Instr) (cs : List Instr) (s : State), s.pending = c :: cs → step s = exec c { s with pending := cs }

/-- On an empty queue the ports transmit the next frame, and a block with nothing to send idles (R421; that this
is what a step without a command does is the model's choice, log entry 4). -/
def Obligations.EmptyQueueTransmitsOrIdles : Prop :=
  ∀ s : State, s.pending = [] →
    (s.m.powered = false → step s = .next s)
    ∧ (s.m.powered = true → s.m.txStep = none → step s = .next s)
    ∧ (∀ m, s.m.powered = true → s.m.txStep = some m → step s = .next { s with m := m })

/-- Every command goes on, in every state, and leaves the rest of the queue alone. -/
def Obligations.EveryCommandGoesOn : Prop :=
  ∀ (c : Instr) (s : State), ∃ t, exec c s = .next t ∧ t.pending = s.pending

/-- After reset the queue is empty, the module has no supply, every register reads its reset value, and that value
is in force; the fault windows are those of R104, and PAGE_ID of PHASE5 is the one of R74's example. -/
def Obligations.ResetState : Prop :=
  State.reset.pending = [] ∧ State.reset.m.powered = false
    ∧ (∀ k, State.reset.m.key k = resetVal k ∧ State.reset.m.liveKey k = resetVal k)
    ∧ (∀ n, n < 48 → resetVal (rkey (pgPhase + n) FLT_WIN) = 0x1010EFEF)
    ∧ resetVal (rkey pgSched FLT_WIN) = 0x0820F7DF ∧ resetVal (rkey pgInteg FLT_WIN) = 0x0430FBCF
    ∧ resetVal (rkey pgSeq FLT_WIN) = 0x0514FAEB ∧ resetVal (rkey pgRail FLT_WIN) = 0x0130FECF ∧ pageId (pgPhase + 5) = 0x10050101

/-- A module without supply takes no part in anything but the return of the supply (R33, R48): every other command
leaves it and the non-volatile part as they were. -/
def Obligations.NoSupplyNoEffect : Prop :=
  ∀ (c : Instr) (s : State), s.m.sys.pwr = .off → s.m.sys.goOn = false → s.m.sys.resetDue = none →
    needsNoPower c = false → exec c s = .next { s with m := { s.m with out := {} } }

/-! ### Invariants -/

/-- Every step keeps the canonical form of the NVM and of the RAMs. -/
def Obligations.MemoriesKeepTheirForm : Prop :=
  ∀ s t : State, MramForm s.nv → SramForm s.m → step s = .next t → MramForm t.nv ∧ SramForm t.m

/-- Every step keeps one entry for each phase, rail, trace unit, feed and string, and leaves no task that has yet to
enter its fallback: a dropped task enters it at once (R118). -/
def Obligations.ShapeIsKept : Prop :=
  ∀ s t : State, Shaped s.m → step s = .next t → Shaped t.m

/-- Slots of the Root log, retired rows, the highest image version, the epoch fuses, the wipe count and the
power-cycle count are never taken back by any step, and stay within their sizes. -/
def Obligations.NothingPermanentIsTakenBack : Prop :=
  ∀ s t : State, Bounded s.nv → step s = .next t → Grows s.nv t.nv ∧ Bounded t.nv

/-- After reset the memories have their canonical form, every unit has its entry, and the sizes hold. -/
def Obligations.InvariantsAtReset : Prop :=
  MramForm State.reset.nv ∧ SramForm State.reset.m ∧ Shaped State.reset.m ∧ Bounded State.reset.nv

/-! ### The register fabric (R69 to R92) -/

/-- An address that holds no register reads 0 and ignores a write, and nothing else changes, so no event is raised.
No page from 0xF0 to 0xFF, and no page that the part has not, holds a register. -/
def Obligations.AbsentAddressReadsZero : Prop :=
  ∀ (s : State) (m : Module) (x a : Nat) (v : W32), On s m → mayRead m x = true → a % 4 = 0 → a < 65536 →
    regAt m (a / 256) (a % 256) = none →
    Turns (readAt x a) s { m with out := { words := [0] } }
    ∧ Turns2 (writeAt x a v) s (Module.settle (s.nv, m))
    ∧ (∀ p off, 240 ≤ p ∧ p ≤ 255 ∨ pagePresent m.sys.part p = false → regAt m p off = none)

/-- A write to a Stop field of a block whose EN is 1 is dropped: CFG_REFUSED is raised, `CFG_LAST` names the master,
reason 1 and the address, and it is recorded once per window of `INTEG.FLT_WIN`. With EN 0 it is accepted. -/
def Obligations.StopFieldNeedsStop : Prop :=
  ∀ (s : State) (m : Module) (x a n : Nat) (b : Blk) (r : RegRow) (v : W32), On s m → Serves m x b = true →
    rowAt m a b n r → plain b a → r.eff = .stop → (r.acc = .rw ∨ (r.acc = .rwp ∧ pairOk v = true)) →
    pair32Hi b (a % 256) = none → unlocked m (a / 256) = true →
    (m.en (a / 256) = true →
      Turns2 (writeAt x a v) s (Module.settle (s.nv, m.cfgRefused x a 1))
      ∧ (m.cfgRefused x a 1).key a = m.key a ∧ (m.cfgRefused x a 1).liveKey a = m.liveKey a
      ∧ (m.cfgRefused x a 1).reg pgInteg INTEG_CFG_LAST = BitVec.ofNat 32 (x * 2 ^ 28 + 2 ^ 24 + a)
      ∧ bit ((m.cfgRefused x a 1).reg (a / 256) EVT_RAW) EV_CFG_REFUSED = true
      ∧ (∀ k, m.cfgRec = some k → k < 9 → (m.cfgRefused x a 1).rc = m.rc ∧ (m.cfgRefused x a 1).cfgRec = some k)
      ∧ ((m.cfgRec = none ∨ ∃ k, m.cfgRec = some k ∧ 9 ≤ k) → m.rc.started = true → m.staged < 960 →
          (m.cfgRefused x a 1).rc.next = m.rc.next + 1 ∧ (m.cfgRefused x a 1).cfgRec = some 0))
    ∧ (let w := kept m.sys.part b (a % 256) v
      m.en (a / 256) = false → encOk m.sys.part b (a % 256) w = true → isWin b (a % 256) = false →
      Turns2 (writeAt x a v) s (Module.settle (s.nv,
        (m.applyWrite a w).wroteHook b (a / 256) n (a % 256) (m.key a)))
      ∧ (m.applyWrite a w).key a = w ∧ (m.applyWrite a w).liveKey a = w)

/-- What refuses a write (R48, R84, R88, R89, R91, R92, R337, R453): brown-out with reason 4, AUTONOMOUS with 5, a
locked page with 2, a Stop field of a running block with 1, halves that do not complement as a refused pair, an
encoding that does not exist with 3. The first that holds, in this order, is the reason reported (the order is the
model's choice, log entry 12); a bad pair is reported as such also where lock or Stop refuses it. -/
def Obligations.RefusedWritesAreReported : Prop :=
  ∀ (s : State) (m : Module) (x a n : Nat) (b : Blk) (r : RegRow) (v : W32), On s m → m.busOpen x = true →
    m.busDenied x = false → rowAt m a b n r → plain b a → r.acc = .rw ∨ r.acc = .rwp →
    let brown := (x = 1 ∨ x = 2 ∨ x = 3) ∧ m.get pgSys SYS_STATUS_BROWN = 1
    let auto := m.autonomous = true ∧ (x = 1 ∨ x = 2) ∧ b ≠ .sys ∧ b ≠ .wdog
    let badPair := r.acc = .rwp ∧ (pairOk v = false ∨ pair32Hi b (a % 256) ≠ none)
    let running := r.eff = .stop ∧ m.en (a / 256) = true
    let placing := b = .recd ∧ (a % 256 = REC_RD_SEQ_H ∨ a % 256 = REC_RD_SEQ_L)
    let refused := fun why => Turns2 (writeAt x a v) s (Module.settle (s.nv, m.cfgRefused x a why))
    let both := fun why => Turns2 (writeAt x a v) s (Module.settle (s.nv, (m.cfgRefused x a why).pairRefused x a))
    (brown → refused 4)
    ∧ (¬brown → auto → refused 5)
    ∧ (¬brown → ¬auto → unlocked m (a / 256) = false → ¬placing → (¬badPair → refused 2) ∧ (badPair → both 2))
    ∧ (¬brown → ¬auto → unlocked m (a / 256) = true → running → (¬badPair → refused 1) ∧ (badPair → both 1))
    ∧ (¬brown → ¬auto → unlocked m (a / 256) = true → ¬running → badPair →
        Turns2 (writeAt x a v) s (Module.settle (s.nv, m.pairRefused x a)))
    ∧ (¬brown → ¬auto → unlocked m (a / 256) = true → ¬running → ¬badPair →
        encOk m.sys.part b (a % 256) (kept m.sys.part b (a % 256) v) = false → refused 3)

/-- Half of a critical 32-bit value written alone is refused, whatever its value (R91); where the block also runs
and the field stops it, that is reported too (R84). -/
def Obligations.HalfOfA32BitValueIsRefused : Prop :=
  ∀ (s : State) (m : Module) (x a n : Nat) (b : Blk) (r : RegRow) (v : W32), On s m → Serves m x b = true →
    rowAt m a b n r → plain b a → r.acc = .rwp → (pair32Hi b (a % 256)).isSome = true → unlocked m (a / 256) = true →
    let m' := if r.eff = .stop ∧ m.en (a / 256) = true then m.cfgRefused x a 1 else m
    Turns2 (writeAt x a v) s (Module.settle (s.nv, m'.pairRefused x a))
    ∧ (m'.pairRefused x a).key a = m.key a ∧ (m'.pairRefused x a).liveKey a = m.liveKey a

/-- Each master has its own position in a table window: a write of TBL_SEL or TBL_IDX, and an access of TBL_DATA, moves
the writer's and no other master's. -/
def Obligations.WindowPositionsAreSeparate : Prop :=
  ∀ (s : State) (m : Module) (x p n : Nat) (b : Blk) (r0 r1 r2 : RegRow) (v : W32), On s m → Serves m x b = true →
    hasTbl b = true → rowAt m (rkey p TBL_SEL) b n r0 → rowAt m (rkey p TBL_IDX) b n r1 →
    rowAt m (rkey p TBL_DATA) b n r2 → r0.acc = .rw → r1.acc = .rw → r2.acc ≠ .wo →
    (∃ m', Turns2 (writeAt x (rkey p TBL_SEL) v) s (Module.settle (s.nv, m')) ∧ selOf m' p x = v.toNat
      ∧ m'.idx = m.idx ∧ ∀ q y, y < 16 → (q, y) ≠ (p, x) → selOf m' q y = selOf m q y)
    ∧ (∃ m', Turns2 (writeAt x (rkey p TBL_IDX) v) s (Module.settle (s.nv, m')) ∧ idxOf m' p x = v.toNat
      ∧ m'.sel = m.sel ∧ ∀ q y, y < 16 → (q, y) ≠ (p, x) → idxOf m' q y = idxOf m q y)
    ∧ Turns (readAt x (rkey p TBL_SEL)) s { m with out := { words := [BitVec.ofNat 32 (selOf m p x)] } }
    ∧ Turns (readAt x (rkey p TBL_IDX)) s { m with out := { words := [BitVec.ofNat 32 (idxOf m p x)] } }
    ∧ (∃ m', Turns (readAt x (rkey p TBL_DATA)) s m' ∧ m'.sel = m.sel
      ∧ ∀ q y, y < 16 → (q, y) ≠ (p, x) → idxOf m' q y = idxOf m q y)

/-- A Live field of a running block is read back at once and takes force at the boundary; of a stopped block it takes
force at once; a field of a group takes force only after its COMMIT. -/
def Obligations.WritesTakeEffectByClass : Prop :=
  ∀ (m : Module) (k : Nat) (v : W32), m.snap.all (fun kv => kv.1 ≠ k) = true →
    let w := m.applyWrite k v
    let p := pageOfKey k
    w.key k = v
    ∧ (effOf k = .live → m.waits k = false → w.liveKey k = v)
    ∧ (effOf k = .live → m.waits k = true → w.liveKey k = m.liveKey k ∧ (w.boundary p).liveKey k = v)
    ∧ (∀ g, effOf k = .group g →
        w.liveKey k = m.liveKey k
        ∧ (w.waits k = false → (w.commit p (inGroup p g)).liveKey k = v)
        ∧ (w.waits k = true → (w.commit p (inGroup p g)).liveKey k = m.liveKey k
            ∧ ((w.commit p (inGroup p g)).boundary p).liveKey k = v))

/-- An event of a page asks for the host while it is raised and enabled: the page's bit of `IRQ_SUM`. -/
def Obligations.RaisedAndEnabledAsksForTheHost : Prop :=
  ∀ (m : Module) (p : Nat), p < 256 → pagePresent m.sys.part p = true →
    bit (m.irqSum (p / 32)) (p % 32) = decide (m.reg p EVT_RAW &&& m.reg p EVT_EN ≠ 0)

/-! ### Every command has its effect -/

/-- The events of rails and phases have the effect of their row. In any state that meets the row's condition
it goes on with exactly the module of the row. -/
def Obligations.RailAndPhaseEvents : Prop :=
  ∀ (s : State) (m : Module) (c : Instr) (r : (Module → Bool) × (Module → Module)), On s m →
    (railRow c = some r ∨ phaseRow c = some r) → r.1 m = true → Turns c s (r.2 m)

/-- The events of converters, observers, tasks, clusters and clocks have the effect of their row. In any state that meets the row's condition
it goes on with exactly the module of the row. -/
def Obligations.ConverterAndPlacementEvents : Prop :=
  ∀ (s : State) (m : Module) (c : Instr) (r : (Module → Bool) × (Module → Module)), On s m →
    (adcRow c = some r ∨ placeRow c = some r) → r.1 m = true → Turns c s (r.2 m)

/-- The events of the two-wire controllers have the effect of their row. In any state that meets the row's condition
it goes on with exactly the module of the row. -/
def Obligations.TwcEvents : Prop :=
  ∀ (s : State) (m : Module) (c : Instr) (r : (Module → Bool) × (Module → Module)), On s m →
    twcRow c = some r → r.1 m = true → Turns c s (r.2 m)

/-- The events of the energy placement and of the caps have the effect of their row. In any state that meets the row's condition
it goes on with exactly the module of the row. -/
def Obligations.EnergyAndCapEvents : Prop :=
  ∀ (s : State) (m : Module) (c : Instr) (r : (Module → Bool) × (Module → Module)), On s m →
    (epeRow c = some r ∨ capRow c = some r) → r.1 m = true → Turns c s (r.2 m)

/-- The events of the Crossing and of the feeds have the effect of their row. In any state that meets the row's condition
it goes on with exactly the module of the row. -/
def Obligations.CrossingAndFeedEvents : Prop :=
  ∀ (s : State) (m : Module) (c : Instr) (r : (Module → Bool) × (Module → Module)), On s m →
    (xingRow c = some r ∨ feedRow c = some r) → r.1 m = true → Turns c s (r.2 m)

/-- The events of the sequencer and of the watchdog have the effect of their row. In any state that meets the row's condition
it goes on with exactly the module of the row. -/
def Obligations.SequencerAndWatchdogEvents : Prop :=
  ∀ (s : State) (m : Module) (c : Instr) (r : (Module → Bool) × (Module → Module)), On s m →
    (seqRow c = some r ∨ wdogRow c = some r) → r.1 m = true → Turns c s (r.2 m)

/-- The events of the strings and of the sensors have the effect of their row. In any state that meets the row's condition
it goes on with exactly the module of the row. -/
def Obligations.BatteryAndThermalEvents : Prop :=
  ∀ (s : State) (m : Module) (c : Instr) (r : (Module → Bool) × (Module → Module)), On s m →
    (battRow c = some r ∨ thermRow c s.nv = some r) → r.1 m = true → Turns c s (r.2 m)

/-- The events of the ports, the path engines and PTP have the effect of their row. In any state that meets the row's condition
it goes on with exactly the module of the row. -/
def Obligations.NetworkAndPtpEvents : Prop :=
  ∀ (s : State) (m : Module) (c : Instr) (r : (Module → Bool) × (Module → Module)), On s m →
    (netRow c = some r ∨ ptpRow c = some r) → r.1 m = true → Turns c s (r.2 m)

/-- The events of the grove and of Benuf have the effect of their row. In any state that meets the row's condition
it goes on with exactly the module of the row. -/
def Obligations.GroveAndBenufEvents : Prop :=
  ∀ (s : State) (m : Module) (c : Instr) (r : (Module → Bool) × (Module → Module)), On s m →
    groveRow c = some r → r.1 m = true → Turns c s (r.2 m)

/-- Module-wide events, and the reads that pop, advance or latch, have the effect of their row. In any state that meets the row's condition
it goes on with exactly the module of the row. -/
def Obligations.ModuleEventsAndReads : Prop :=
  ∀ (s : State) (m : Module) (c : Instr) (r : (Module → Bool) × (Module → Module)), On s m →
    (moduleRow c s.nv = some r ∨ readRow c s.nv = some r) → r.1 m = true → Turns c s (r.2 m)

/-- The events that reach the non-volatile part have the effect of their row. In any state that meets the row's condition
it goes on with exactly the parts of the row. -/
def Obligations.NonVolatileEvents : Prop :=
  ∀ (s : State) (m : Module) (c : Instr) (r : (NonVol → Module → Bool) × (NonVol → Module → NonVol × Module)),
    On s m → nvRow c = some r → r.1 s.nv m = true → Turns2 c s (r.2 s.nv m)

/-- The events of the supply have the effect of their row, powered or not. In any state that meets the row's condition
it goes on with exactly the parts of the row. -/
def Obligations.PowerEvents : Prop :=
  ∀ (s : State) (m : Module) (c : Instr) (r : (NonVol → Module → Bool) × (NonVol → Module → NonVol × Module)),
    m = { s.m with out := {} } → powerRow c = some r → r.1 s.nv m = true → Turns2 c s (r.2 s.nv m)

/-- The transactions of the two-wire target have the effect of their row. In any state that meets the row's condition
it goes on with exactly the parts of the row. -/
def Obligations.TwoWireTarget : Prop :=
  ∀ (s : State) (m : Module) (c : Instr) (r : (NonVol → Module → Bool) × (NonVol → Module → NonVol × Module)),
    On s m → twtRow c = some r → r.1 s.nv m = true → Turns2 c s (r.2 s.nv m)

/-- Management requests have the effect of their row, and their answer. In any state that meets the row's condition
it goes on with exactly the parts of the row. -/
def Obligations.ManagementRequests : Prop :=
  ∀ (s : State) (m : Module) (c : Instr) (r : (NonVol → Module → Bool) × (NonVol → Module → NonVol × Module)),
    On s m → mgmtRow c = some r → r.1 s.nv m = true → Turns2 c s (r.2 s.nv m)

/-- Enabling and stopping a block, and the COMMIT of a group, have the effect of their row. In any state that meets the row's condition
it goes on with exactly the module of the row. -/
def Obligations.EnableAndCommitWrites : Prop :=
  ∀ (s : State) (m : Module) (c : Instr) (q : Port), On s m → (enRow c = some q ∨ commitRow c = some q) → q.open m = true →
    Turns2 c s (Module.settle (q.eff s.nv m))

/-- The command registers of the blocks have the effect of their row. In any state that meets the row's condition
it goes on with exactly the module of the row. -/
def Obligations.BlockCommands : Prop :=
  ∀ (s : State) (m : Module) (c : Instr) (q : Port), On s m → cmdRow c s.nv = some q → q.open m = true →
    Turns2 c s (Module.settle (q.eff s.nv m))

/-- The register writes that are commands of their own have the effect of their row. In any state that meets the row's condition
it goes on with exactly the module of the row. -/
def Obligations.ConfigurationWrites : Prop :=
  ∀ (s : State) (m : Module) (c : Instr) (q : Port), On s m → regRow c = some q → q.open m = true →
    Turns2 c s (Module.settle (q.eff s.nv m))

/-- Table words, mailboxes, records, blocks of an update and learned values have the effect of their row. In any state that meets the row's condition
it goes on with exactly the module of the row. -/
def Obligations.Transfers : Prop :=
  ∀ (s : State) (m : Module) (c : Instr) (q : Port), On s m → xferRow c s.nv = some q → q.open m = true →
    Turns2 c s (Module.settle (q.eff s.nv m))

/-- An answer of the receiver (R507, R508), a binding (R505), a position of a reader (R531), a submitted record (R532),
a block of an update (R570) and the learned values of a string (R357) go on with a next state: for every master,
channel, string and value for which nothing refuses the writes, the registers and the rest of the module are those
given here. -/
def Obligations.TransfersComplete : Prop :=
  ∀ (s : State) (m : Module) (x : Nat), On s m →
    (∀ (ch : Nat) (h l : W32), ch < 32 → (ackPort x ch h l chTaken id).open m = true →
      exec (.taken x ch h l) s = .next (ended s (s.nv, m.chSet ch (bits h 16 16) (m.chTag ch) chTaken)))
    ∧ (∀ (ch : Nat) (h l : W32), ch < 32 → (ackPort x ch h l chDone id).open m = true →
      exec (.done x ch h l) s = .next (ended s (s.nv,
        (m.chSet ch (bits h 16 16) (m.chTag ch) chDone).raise (chPage ch) (16 + ch % 8))))
    ∧ (∀ (ch : Nat) (v : W32) (r : TRow), ch < 32 → Serves m x .mbox = true →
      (regAt m (chPage ch) TBL_DATA).isSome = true → unlocked m (chPage ch) = true →
      mayBind x = true → m.chBound ch = false → tblRow .mbox (ch / 8) 8 (ch % 8) = some r → pairOk v = true →
      encTblOk .mbox 8 (ch % 8) (maskVal r.acc r.mask v) = true → bindOk (maskVal r.acc r.mask v) = true →
      exec (.mboxBind x ch v) s = .next (ended s (s.nv,
        { m.setBoth (tkey (chPage ch) 8 (ch % 8)) (maskVal r.acc r.mask v) with
          sel := putK m.sel (16 * chPage ch + x) 8
          idx := putK (putK m.idx (16 * chPage ch + x) (ch % 8)) (16 * chPage ch + x) (ch % 8 + 1) })))
    ∧ (∀ h l : W32, Serves m x .recd = true → exec (.rdSeq x h l) s = .next (ended s (s.nv,
        ((m.applyWrite (rkey pgRec REC_RD_SEQ_H) (h &&& 0xFFFF)).applyWrite (rkey pgRec REC_RD_SEQ_L) l).recPlace x)))
    ∧ (∀ (w : W32) (ws : List W32), Serves m x .recd = true → ws.length = 10 →
      Module.submitType x (bits w 16 16) = true → bits w 0 8 ≤ 40 → (isCluster x && (m.task 9).fallback) = false →
      exec (.submit x (w :: ws)) s = .next (ended s (s.nv,
        m.recMake (bits w 16 16) (0xFF00 + x) (bits w 0 8) 8 ((wordBytes ws).take (bits w 0 8)) false)))
    ∧ (∀ ws : List W32, Serves m 1 .update = true → ws ≠ [] →
      (m.blockTake s.nv 1 (m.get pgUpdate ⟨UPDATE_BLK_OFS, 0, 20⟩) (wordBytes (ws.take 64))).2.2 = 0 →
      let ofs := m.get pgUpdate ⟨UPDATE_BLK_OFS, 0, 20⟩
      let r := m.blockTake s.nv 1 ofs (wordBytes (ws.take 64))
      exec (.updateBlock ws) s = .next (ended s (r.1, r.2.1.setBoth (rkey pgUpdate UPDATE_BLK_OFS)
        (BitVec.ofNat 32 ((ofs + 4 * (ws.take 64).length) % 2 ^ 20)))))
    ∧ (∀ (b : Nat) (cap res cyc soh idExp : W32), b < 8 → Serves m x .batt = true →
      (regAt m (pgBatt + b) BATT_COMMIT).isSome = true → learnTaken m b cap res cyc soh idExp = true →
      let m' := learnWritten m b cap res cyc soh idExp
      let m' := (m'.commit (pgBatt + b) (inGroup (pgBatt + b) 3)).updBt b (fun y => { y with restore := true })
      exec (.battCommitLearn x b cap res cyc soh idExp) s = .next (ended s (s.nv,
        if (m'.batt b).run then m' else m'.battRestore b)))

/-- Writes that arrive together are applied in ascending master ID (R73): one after the other, each as its
master's own transaction, in whichever order the command names them. -/
def Obligations.WritesThatArriveTogether : Prop :=
  ∀ (s : State) (m : Module) (x a : Nat) (v : W32) (others l : List (Nat × RegWr)), On s m →
    l.Perm ((x, ⟨a, v⟩) :: others) → l.Pairwise (fun c d => c.1 < d.1) →
    let r := l.foldl (fun z w => z.2.busDo z.1 w.1 false [w.2]) (s.nv, m)
    exec (.registerWrite x a v others) s = .next { s with nv := r.1, m := r.2 }

/-! ### Overrides and profiles (R34 to R37) -/

/-- A written key is overridden, and a change of profile leaves an overridden register of the profile as it is,
in the shadow and in force. -/
def Obligations.ProfileKeepsOverridden : Prop :=
  ∀ (m : Module) (k sel : Nat) (v : W32),
    (m.applyWrite k v).ovr.contains k = true
    ∧ (profileKey k → m.ovr.contains k = true →
        (m.profile sel).key k = m.key k ∧ (m.profile sel).liveKey k = m.liveKey k
        ∧ (m.profile sel).ovr = m.ovr)

/-- Frame of an accepted write: no other register or value in force changes, nothing but the register part of the
module does, and of the values that wait for a stop only the written register's goes (R36). -/
def Obligations.FrameOfAppliedWrite : Prop :=
  ∀ (m : Module) (k : Nat) (v : W32),
    let w := m.applyWrite k v
    (∀ j, j ≠ k → w.key j = m.key j) ∧ (∀ j, j ≠ k → w.liveKey j = m.liveKey j)
    ∧ w.defer = m.defer.filter (fun kv => kv.1 ≠ k)
    ∧ w = { m with regs := w.regs, live := w.live, pend := w.pend, unc := w.unc, ovr := w.ovr, defer := w.defer }

/-! ### Records, faults and refusals (R84, R100 to R105, R517) -/

/-- Frames of what reports: a record leaves every register outside the page of the recorder; a fault reaches its own
counter block, FLT_STAT and EVT_RAW of its page, and the recorder, and where the pair of its window fails the check
(R94) what reports that; a refused write EVT_RAW of its page, CFG_LAST,
CFG_CNT and the recorder. None of them reaches a unit. -/
def Obligations.FrameOfReports : Prop :=
  (∀ (m : Module) (typ src len flags : Nat) (payload : List Byte) (mark : Bool),
    let m' := m.recMake typ src len flags payload mark
    UnitFrame m m' ∧ RegFrame m m' (fun p => p = pgRec) ∧ m'.ctrs = m.ctrs ∧ m'.cfgRec = m.cfgRec
    ∧ m'.key (rkey pgRec FLT_STAT) = m.key (rkey pgRec FLT_STAT))
  ∧ (∀ (m : Module) (p b sub win : Nat),
    let m' := (m.fault p b sub win).1
    let q := win / 256
    let bad := pairOk (m.liveKey win) = false
    UnitFrame m m' ∧ m'.cfgRec = m.cfgRec
    ∧ (∀ k, pageOfKey k ≠ pgRec → k ≠ rkey p FLT_STAT → k ≠ rkey p EVT_RAW →
        (bad → k ≠ rkey q FLT_STAT ∧ k ≠ rkey q EVT_RAW ∧ k ≠ rkey pgInteg INTEG_PAIR_ERR
          ∧ k ≠ rkey pgInteg INTEG_PAIR_LAST ∧ k ≠ tkey pgInteg 0 q) → m'.key k = m.key k)
    ∧ (∀ k, pageOfKey k ≠ pgRec → m'.liveKey k = m.liveKey k)
    ∧ ∀ p' b' sub' win', (p', b', sub') ≠ (p, b, sub) → (bad → (p', b', sub') ≠ (q, FLT_PAIR, 0)) →
        m'.ctr p' b' sub' win' = m.ctr p' b' sub' win')
  ∧ (∀ (m : Module) (x a why : Nat),
    let m' := m.cfgRefused x a why
    UnitFrame m m' ∧ m'.ctrs = m.ctrs
    ∧ (∀ k, pageOfKey k ≠ pgRec → k ≠ rkey (a / 256) EVT_RAW → k ≠ rkey pgInteg INTEG_CFG_LAST →
        k ≠ rkey pgInteg INTEG_CFG_CNT → m'.key k = m.key k)
    ∧ (∀ k, pageOfKey k ≠ pgRec → m'.liveKey k = m.liveKey k))

/-- A fault reads the pair of its window and is then counted. Below THR it is transient: nothing latches, and it is
recorded when none of its source is on record within a full window. A fault that reaches THR is lasting: it latches its FLT_STAT bit and raises FAULT_LASTING, once. -/
def Obligations.FaultThreshold : Prop :=
  ∀ (m : Module) (p b sub win : Nat), b < 32 →
    m.fault p b sub win = (m.usePair (win / 256) (win % 256)).countFault p b sub win
    ∧ (pairOk (m.liveKey win) = true → m.usePair (win / 256) (win % 256) = m.passed win)
    ∧ let f := m.countFault p b sub win
    let n := sumN (counted m p b sub win)
    (f.1.ctr p b sub win).buckets = counted m p b sub win
    ∧ (n < m.winThr win → f.2 = false ∧ f.1.reg p FLT_STAT = m.reg p FLT_STAT
        ∧ (∀ k, (m.ctr p b sub win).since = some k → k < 9 → f.1.rc = m.rc)
        ∧ ((m.ctr p b sub win).since = none ∨ (∃ k, (m.ctr p b sub win).since = some k ∧ 9 ≤ k) →
            (f.1.ctr p b sub win).since = some 0
            ∧ (m.rc.started = true → m.staged < 960 → f.1.rc.next = m.rc.next + 1)))
    ∧ (m.winThr win ≤ n → m.latched p b = false →
        f.2 = true ∧ f.1.reg p FLT_STAT = setBit (m.reg p FLT_STAT) b
        ∧ bit (f.1.reg p EVT_RAW) EV_FAULT_LASTING = true
        ∧ (m.rc.started = true → m.staged < 960 → f.1.rc.next = m.rc.next + 1))
    ∧ (m.winThr win ≤ n → m.latched p b = true → f.2 = false ∧ f.1.reg p FLT_STAT = m.reg p FLT_STAT ∧ f.1.rc = m.rc)

/-- A fault adds 1 to the current bucket, which saturates at 255; at a boundary of its window the oldest bucket is
emptied and the others move on; a window that changes then starts empty; the counters of other windows stay. A
fault stays counted over seven boundaries and over no more than eight. -/
def Obligations.WindowOfEightBuckets : Prop :=
  (∀ (m : Module) (p b sub win : Nat), (m.ctr p b sub win).buckets.length = 8 →
    nth 0 (counted m p b sub win) 0 = min 255 (nth 0 (m.ctr p b sub win).buckets 0 + 1)
    ∧ ∀ i, i ≠ 0 → nth 0 (counted m p b sub win) i = nth 0 (m.ctr p b sub win).buckets i)
  ∧ (∀ (s : State) (m : Module) (win : Nat), On s m →
      (win ≠ rkey pgSched FLT_WIN ∨ bit (m.reg pgSched CTRL) 8 = false) →
      ∃ m', Turns (.bucketBoundary win) s m' ∧ ∀ p b sub w,
        ((m.ctr p b sub w).win = win → (m'.ctr p b sub w).buckets =
          if m.winWait.any (fun kv => kv.1 = win) then rep 8 0 else (0 :: (m.ctr p b sub w).buckets).take 8)
        ∧ ((m.ctr p b sub w).win ≠ win → m'.ctr p b sub w = m.ctr p b sub w))
  ∧ (∀ bs : List Nat, bs.length = 8 →
      (∀ k, k ≤ 7 → nth 0 (Nat.repeat bucketShift k bs) k = nth 0 bs 0) ∧ sumN (Nat.repeat bucketShift 8 bs) = 0)

/-! ### Grove shares (R272, R273) -/

/-- The shares sum to at most the cap, no member takes more than its declared maximum, and every member takes its
floor as far as the cap covers all floors. -/
def Obligations.GroveSharesFitTheCap : Prop :=
  ∀ (cap : Nat) (missed : List Nat) (cs : List Counted), distinct cs →
    let x := allocate cap missed cs
    let c := missed.foldl (fun c w => c - w) cap
    shareSum x ≤ c ∧ x.map (·.1) = cs.map (·.who)
    ∧ (∀ a ∈ cs, shareFor x a.who ≤ a.mx)
    ∧ (sumN (cs.map (fun a => min a.f a.mx)) ≤ c → ∀ a ∈ cs, min a.f a.mx ≤ shareFor x a.who)

/-- Every share falls, or stays, as the cap falls, and when a report is missed at its declared maximum. -/
def Obligations.GroveSharesFallWithTheCap : Prop :=
  ∀ (cap cap' : Nat) (missed : List Nat) (cs : List Counted) (w : Nat), distinct cs → cap' ≤ cap →
    shareFor (allocate cap' missed cs) w ≤ shareFor (allocate cap missed cs) w
    ∧ ∀ M, shareFor (allocate cap (M :: missed) cs) w ≤ shareFor (allocate cap missed cs) w

/-! ### Paths (R392, R393, R407) -/

/-- A frame is judged against the entry of its source: what is discarded, what is accepted, and what the entry
becomes. -/
def Obligations.DuplicateTable : Prop :=
  ∀ (m : Module) (p mac q : Nat) (d : DupEnt), q < 65536 → d.h < 65536 →
    m.net.dup.find? (fun x => x.mac = mac) = some d →
    let a := (q + 65536 - d.h) % 65536
    let b := (d.h + 65536 - q) % 65536
    let r := m.dupJudge p mac q
    ∃ d', r.1.net.dup.find? (fun x => x.mac = mac) = some d' ∧ d'.age = 0 ∧ d'.slot = d.slot
      ∧ (q = d.h ∨ (1 ≤ b ∧ b ≤ 31 ∧ bit d.w b = true) → r.2 = false ∧ d'.h = d.h ∧ d'.w = d.w)
      ∧ (1 ≤ b → b ≤ 31 → bit d.w b = false → r.2 = true ∧ d'.h = d.h ∧ d'.w = setBit d.w b)
      ∧ (1 ≤ a → a ≤ 32767 → r.2 = true ∧ d'.h = q ∧ (a < 32 → bit d'.w a = true)
          ∧ ∀ i, a < i → i < 32 → bit d'.w i = bit d.w (i - a))
      ∧ (32768 ≤ a → 32 ≤ b → r.2 = true ∧ d'.h = q ∧ d'.w = 0)

/-- A copy of an accepted frame is discarded, whichever port it comes on and whatever the table held. -/
def Obligations.SecondCopyIsDiscarded : Prop :=
  ∀ (m : Module) (p p' mac q : Nat), q < 65536 → m.net.dup.all (fun d => decide (d.h < 65536)) = true →
    (m.dupJudge p mac q).2 = true → ((m.dupJudge p mac q).1.dupJudge p' mac q).2 = false

/-- A write of CMD.REPAIR starts the repair of an engine that is FAILED, and is ignored for any other. -/
def Obligations.RepairCommand : Prop :=
  ∀ (s : State) (m : Module) (x e : Nat), On s m →
    ((cmdPort x .netpair 0 pgNetpair NETPAIR_CMD (fun m => m.eng (e % 2) = esFailed) id).open m = true →
      Turns2 (.repair x e) s (Module.settle (s.nv, m.engRepair (e % 2))) ∧ (m.engRepair (e % 2)).eng (e % 2) = esReset)
    ∧ ((cmdPort x .netpair 0 pgNetpair NETPAIR_CMD (fun m => decide (m.eng (e % 2) ≠ esFailed)) id).open m = true →
      Turns2 (.repair x e) s (Module.settle (s.nv, m)))

/-! ### Power and firmware (R31, R520) -/

/-- The power-cycle count rises by 1 when VAUX is newly applied, before the first record of the cycle; it stops at
0xFFFFFF, and every record made then carries PCC_SAT; no other command changes it. -/
def Obligations.PowerCycleCount : Prop :=
  (∀ (s : State) (va vb straps : Nat), s.m.sys.pwr = .off → ∃ t, exec (.powerOn va vb straps) s = .next t
    ∧ t.nv.pcc = min (s.nv.pcc + 1) 0xFFFFFF ∧ t.m.rc.pcc = t.nv.pcc ∧ ∀ r ∈ t.m.rc.early, r.pcc = t.nv.pcc)
  ∧ (∀ (c : Instr) (s t : State), exec c s = .next t →
      (∀ va vb straps, c = .powerOn va vb straps → s.m.sys.pwr ≠ .off) → t.nv.pcc = s.nv.pcc)
  ∧ (∀ (m : Module) (typ src len flags : Nat) (payload : List Byte) (mark : Bool), flags < 2 → m.rc.pcc = 0xFFFFFF →
      (m.recHeader typ src len flags payload mark).flags.testBit 1 = true
      ∧ (m.recHeader typ src len flags payload mark).pcc = 0xFFFFFF)

/-- A restart request during a restart is merged into it: its cause is recorded, no other restart begins. A module
reset ends the restart. -/
def Obligations.RestartRequestsMerge : Prop :=
  ∀ (s : State) (m : Module) (x : Nat), On s m →
    (cmdPort x .sys 0 pgSys SYS_CMD (fun m => m.fwCan && decide (m.sys.restart ≠ .none)) id).open m = true →
    let m' := ((m.put pgSys SYS_RESTART_CAUSE 2).put pgSys SYS_RESTART_MERGED 1).fwRecord 2
    Turns2 (.fwRestart x) s (Module.settle (s.nv, m')) ∧ m'.sys = m.sys ∧ m'.get pgSys SYS_RESTART_CAUSE = 2
    ∧ m'.get pgSys SYS_RESTART_MERGED = 1 ∧ m'.reg pgSys SYS_STATUS = m.reg pgSys SYS_STATUS
    ∧ (m.rc.started = true → m.staged < 960 → m'.rc.next = m.rc.next + 1)
    ∧ ∀ nv cause clk cmd unit, (m.moduleReset nv cause clk cmd unit).2.sys.restart = .none

/-! ### Rails and phases (R149, R150, R213, R218) -/

/-- A rail whose KP and KI are both 0 when its EN rises has its EN set and stays as it was, and COEF_ZERO names it
(the conditions are read once the rail's waiting settings are in force). -/
def Obligations.CoefZeroStaysOff : Prop :=
  ∀ (m : Module) (r : Nat), r < 12 → bit (m.reg (pgRail + r) CTRL) 0 = false →
    let w := enRisen m r
    w.en pgCle = true → w.railLatched r = false → w.val (pgRail + r) RAIL_PH_RATING ≠ 0 → w.hasMember r = true →
    w.coefZero r = true →
    let m' := m.railEnable r
    bit (m'.reg (pgRail + r) CTRL) 0 = true ∧ m'.rlSt r = w.rlSt r ∧ m'.cle = m.cle ∧ m'.ph = w.ph
    ∧ bit (m'.reg pgCle EVT_RAW) CLE_EV_COEF_ZERO = true ∧ m'.get pgCle CLE_LAST_RAIL = r

/-- The active phase at position p of n starts at round-half-even(p × PER_TAPS / n) taps, whichever phases they are;
no other phase changes its offset. -/
def Obligations.PhasesAreSpacedEvenly : Prop :=
  ∀ (m : Module) (r i : Nat), Shaped m →
    let act := m.actives r
    let per := m.get (pgRail + r) ⟨RAIL_PER_TAPS, 0, 20⟩
    (i < act.length →
      let d : Int := 2 * ((m.spaceOut r).phase (act.getD i 0)).offset * act.length - 2 * (i * per : Nat)
      0 ≤ d + act.length ∧ d ≤ act.length
      ∧ (d.natAbs = act.length → ((m.spaceOut r).phase (act.getD i 0)).offset % 2 = 0))
    ∧ act.Pairwise (· < ·) ∧ ∀ n, n ∉ act → (m.spaceOut r).phase n = m.phase n

/-- The duty of a phase lies between 0 and the least of DUTY_MAX and its ceiling, whatever the loops ask for; its
balance integrator lies within its limits or stays where it was. -/
def Obligations.DutyWithinItsLimits : Prop :=
  ∀ (m : Module) (r n : Nat), n < m.ph.length →
    let m' := m.loopBal r n
    let ceil := m.get (pgPhase + n) PHASE_DUTY_D_CEIL
    let lim : Int := min 32767 (m.tblVal pgCle 1 (4 * r + 3) : Nat)
    0 ≤ (m'.phase n).dNext ∧ (m'.phase n).dNext ≤ m.dutyMax (m.railOf n) ∧ (ceil ≠ 0 → (m'.phase n).dNext ≤ ceil)
    ∧ ((m'.phase n).bState = (m.phase n).bState
        ∨ (-lim * 32768 ≤ (m'.phase n).bState ∧ (m'.phase n).bState ≤ lim * 32768))
    ∧ ((m'.phase n).db = (m.phase n).db ∨ (-lim ≤ (m'.phase n).db ∧ (m'.phase n).db ≤ lim))
    ∧ ∀ j, j ≠ n → m'.phase j = m.phase j

/-! ### Memory and the two-wire target (R449, R475) -/

/-- A word that a master writes to a RAM it may reach is what it reads back; no other word changes, and nothing of
the non-volatile part. -/
def Obligations.MemoryReadsWhatWasWritten : Prop :=
  ∀ (s : State) (m : Module) (x a k : Nat) (v : W64), On s m → SramForm m → Shaped m → m.cluServed x = true →
    a % 8 = 0 → ¬(0x50000000 ≤ a ∧ a < 0x50010000) → placeOf m.sys.part x a = some (.sram k) → memRank x < 20 →
    m.memAllowed (.sram k) x true = true → m.memAllowed (.sram k) x false = true →
    ∃ m', Turns2 (.memoryAccess (wordAccess x a (some v))) s (s.nv, m')
      ∧ m'.word s.nv (.sram k) = v ∧ (∀ j, j ≠ k → m'.word s.nv (.sram j) = m.word s.nv (.sram j)) ∧ SramForm m'
      ∧ m'.out = {} ∧ m'.regs = m.regs
      ∧ ∀ s', s'.m = m' → ∃ m'', Turns2 (.memoryAccess (wordAccess x a none)) s' (s'.nv, m'')
          ∧ m''.out.dword = some v ∧ m''.mem.sram = m'.mem.sram

/-- Over the two-wire target a register's four bytes go most significant first, read and written: the byte at its
address holds bits [31:24], the byte at its address + 3 bits [7:0]. -/
def Obligations.BytesGoMostSignificantFirst : Prop :=
  (∀ (s : State) (m : Module) (a : Nat), On s m → m.twtOn = true → a % 4 = 0 → a < 65536 →
    (((m.boundary pgTwt).twtBusy true).twtPoint a).busPoison s.nv 1 a = false →
    let v := ((((m.boundary pgTwt).twtBusy true).twtPoint a).busRead s.nv 1 a true).1
    ∃ m', Turns (.twtRead (some a) 4 true) s m' ∧ m'.out.bytes =
      [BitVec.ofNat 8 (bits v 24 8), BitVec.ofNat 8 (bits v 16 8), BitVec.ofNat 8 (bits v 8 8),
        BitVec.ofNat 8 (bits v 0 8)])
  ∧ (∀ (a : Nat) (b0 b1 b2 b3 : Byte), a % 4 = 0 →
      twtStaged a [b0, b1, b2, b3] = [⟨a, b0 ++ b1 ++ b2 ++ b3⟩])

/-! ### Frames of the families -/

/-- Frame: the events of rails, phases, converters and observers leave alone the queue, the non-volatile part
and the parts of the module named here. Of the memories a loop sample writes words of the banks that trace units
have claimed, and no other (R233). -/
def Obligations.FrameOfRailEvents : Prop :=
  ∀ (c : Instr) (s t : State), railEvents c = true → exec c s = .next t →
    t.pending = s.pending ∧ t.nv = s.nv ∧ t.m.sys = s.m.sys ∧ t.m.lc = s.m.lc ∧ t.m.clk = s.m.clk ∧ t.m.unc = s.m.unc
      ∧ t.m.ovr = s.m.ovr ∧ t.m.defer = s.m.defer ∧ t.m.winWait = s.m.winWait ∧ t.m.cfgRec = s.m.cfgRec
      ∧ t.m.sel = s.m.sel ∧ t.m.idx = s.m.idx ∧ t.m.latch = s.m.latch ∧ t.m.sched = s.m.sched
      ∧ t.m.cle = s.m.cle ∧ t.m.ep = s.m.ep ∧ t.m.cp = s.m.cp ∧ t.m.gr = s.m.gr ∧ t.m.xg = s.m.xg
      ∧ t.m.fd = s.m.fd ∧ t.m.sq = s.m.sq ∧ t.m.pin = s.m.pin ∧ t.m.th = s.m.th ∧ t.m.bn = s.m.bn
      ∧ t.m.pt = s.m.pt ∧ t.m.twtPtr = s.m.twtPtr ∧ t.m.twc = s.m.twc ∧ t.m.hw = s.m.hw ∧ t.m.up = s.m.up
      ∧ t.m.mem = { s.m.mem with sram := t.m.mem.sram, poison := t.m.mem.poison }
      ∧ ((∀ r x, c ≠ .loopSample r x) → t.m.mem = s.m.mem)
      ∧ ∀ w, (∀ k b, k < 4 → (s.m.trace k).bank = some b → w < b * 8192 ∨ b * 8192 + 8192 ≤ w) →
          t.m.word t.nv (.sram w) = s.m.word s.nv (.sram w)
          ∧ t.m.mem.poison.contains w = s.m.mem.poison.contains w

/-- Frame: the events of feeds and the Crossing inputs leave alone the queue, the non-volatile part
and the parts of the module named here. -/
def Obligations.FrameOfFeedEvents : Prop :=
  ∀ (c : Instr) (s t : State), feedEvents c = true → exec c s = .next t →
    t.pending = s.pending ∧ t.nv = s.nv ∧ t.m.sys = s.m.sys ∧ t.m.lc = s.m.lc ∧ t.m.clk = s.m.clk ∧ t.m.unc = s.m.unc
      ∧ t.m.ovr = s.m.ovr ∧ t.m.defer = s.m.defer ∧ t.m.winWait = s.m.winWait ∧ t.m.cfgRec = s.m.cfgRec
      ∧ t.m.sel = s.m.sel ∧ t.m.idx = s.m.idx ∧ t.m.latch = s.m.latch ∧ t.m.sched = s.m.sched ∧ t.m.ph = s.m.ph
      ∧ t.m.adc = s.m.adc ∧ t.m.cle = s.m.cle ∧ t.m.tr = s.m.tr ∧ t.m.ep = s.m.ep ∧ t.m.cp = s.m.cp
      ∧ t.m.gr = s.m.gr ∧ t.m.sq = s.m.sq ∧ t.m.pin = s.m.pin ∧ t.m.bt = s.m.bt ∧ t.m.th = s.m.th
      ∧ t.m.net = s.m.net ∧ t.m.bn = s.m.bn ∧ t.m.pt = s.m.pt ∧ t.m.twtPtr = s.m.twtPtr ∧ t.m.twc = s.m.twc
      ∧ t.m.mem = s.m.mem ∧ t.m.hw = s.m.hw ∧ t.m.up = s.m.up

/-- Frame: the events of the Crossing, its bus loop, the energy placement and the caps leave alone the queue, the non-volatile part
and the parts of the module named here. -/
def Obligations.FrameOfPlacementEvents : Prop :=
  ∀ (c : Instr) (s t : State), placementEvents c = true → exec c s = .next t →
    t.pending = s.pending ∧ t.nv = s.nv ∧ t.m.sys = s.m.sys ∧ t.m.lc = s.m.lc ∧ t.m.clk = s.m.clk ∧ t.m.unc = s.m.unc
      ∧ t.m.ovr = s.m.ovr ∧ t.m.defer = s.m.defer ∧ t.m.winWait = s.m.winWait ∧ t.m.cfgRec = s.m.cfgRec
      ∧ t.m.sel = s.m.sel ∧ t.m.idx = s.m.idx ∧ t.m.latch = s.m.latch ∧ t.m.sched = s.m.sched
      ∧ t.m.cle = s.m.cle ∧ t.m.gr = s.m.gr ∧ t.m.fd = s.m.fd ∧ t.m.pin = s.m.pin ∧ t.m.th = s.m.th
      ∧ t.m.net = s.m.net ∧ t.m.bn = s.m.bn ∧ t.m.pt = s.m.pt ∧ t.m.twtPtr = s.m.twtPtr ∧ t.m.mem = s.m.mem
      ∧ t.m.hw = s.m.hw ∧ t.m.up = s.m.up

/-- Frame: the events of sequencer, watchdog, batteries and temperatures leave alone the queue, the non-volatile part
and the parts of the module named here. -/
def Obligations.FrameOfSupervisionEvents : Prop :=
  ∀ (c : Instr) (s t : State), supervisionEvents c = true → exec c s = .next t →
    t.pending = s.pending ∧ t.nv = s.nv ∧ t.m.lc = s.m.lc ∧ t.m.clk = s.m.clk ∧ t.m.unc = s.m.unc ∧ t.m.ovr = s.m.ovr
      ∧ t.m.winWait = s.m.winWait ∧ t.m.cfgRec = s.m.cfgRec ∧ t.m.sel = s.m.sel ∧ t.m.idx = s.m.idx
      ∧ t.m.latch = s.m.latch ∧ t.m.sched = s.m.sched ∧ t.m.ep = s.m.ep ∧ t.m.cp = s.m.cp ∧ t.m.gr = s.m.gr
      ∧ t.m.fd = s.m.fd ∧ t.m.bn = s.m.bn ∧ t.m.pt = s.m.pt ∧ t.m.twtPtr = s.m.twtPtr ∧ t.m.twc = s.m.twc
      ∧ t.m.mem = s.m.mem ∧ t.m.hw = s.m.hw ∧ t.m.up = s.m.up

/-- Frame: the events of ports, path engines, groves, Benuf and PTP leave alone the queue, the non-volatile part
and the parts of the module named here. -/
def Obligations.FrameOfNetworkEvents : Prop :=
  ∀ (c : Instr) (s t : State), networkEvents c = true → exec c s = .next t →
    t.pending = s.pending ∧ t.nv = s.nv ∧ t.m.sys = s.m.sys ∧ t.m.lc = s.m.lc ∧ t.m.clk = s.m.clk ∧ t.m.unc = s.m.unc
      ∧ t.m.ovr = s.m.ovr ∧ t.m.defer = s.m.defer ∧ t.m.winWait = s.m.winWait ∧ t.m.cfgRec = s.m.cfgRec
      ∧ t.m.sel = s.m.sel ∧ t.m.idx = s.m.idx ∧ t.m.latch = s.m.latch ∧ t.m.ph = s.m.ph ∧ t.m.rl = s.m.rl
      ∧ t.m.adc = s.m.adc ∧ t.m.cle = s.m.cle ∧ t.m.tr = s.m.tr ∧ t.m.ep = s.m.ep ∧ t.m.cp = s.m.cp
      ∧ t.m.xg = s.m.xg ∧ t.m.fd = s.m.fd ∧ t.m.sq = s.m.sq ∧ t.m.bt = s.m.bt ∧ t.m.th = s.m.th
      ∧ t.m.twtPtr = s.m.twtPtr ∧ t.m.twc = s.m.twc ∧ t.m.mem = s.m.mem ∧ t.m.hw = s.m.hw ∧ t.m.up = s.m.up

/-- Frame: the events of the two-wire controllers and resends of mailboxes leave alone the queue, the non-volatile part
and the parts of the module named here. -/
def Obligations.FrameOfBusEvents : Prop :=
  ∀ (c : Instr) (s t : State), busEvents c = true → exec c s = .next t →
    t.pending = s.pending ∧ t.nv = s.nv ∧ t.m.sys = s.m.sys ∧ t.m.lc = s.m.lc ∧ t.m.clk = s.m.clk ∧ t.m.unc = s.m.unc
      ∧ t.m.ovr = s.m.ovr ∧ t.m.defer = s.m.defer ∧ t.m.winWait = s.m.winWait ∧ t.m.ctrs = s.m.ctrs
      ∧ t.m.cfgRec = s.m.cfgRec ∧ t.m.sel = s.m.sel ∧ t.m.idx = s.m.idx ∧ t.m.latch = s.m.latch
      ∧ t.m.sched = s.m.sched ∧ t.m.ph = s.m.ph ∧ t.m.rl = s.m.rl ∧ t.m.adc = s.m.adc ∧ t.m.cle = s.m.cle
      ∧ t.m.tr = s.m.tr ∧ t.m.cp = s.m.cp ∧ t.m.gr = s.m.gr ∧ t.m.xg = s.m.xg ∧ t.m.fd = s.m.fd
      ∧ t.m.sq = s.m.sq ∧ t.m.pin = s.m.pin ∧ t.m.bt = s.m.bt ∧ t.m.th = s.m.th ∧ t.m.bn = s.m.bn
      ∧ t.m.pt = s.m.pt ∧ t.m.twtPtr = s.m.twtPtr ∧ t.m.mem = s.m.mem ∧ t.m.hw = s.m.hw ∧ t.m.up = s.m.up

/-- Frame: reads that move a position, the upkeep of the memories and that of the recorder leave alone the queue and
the parts of the module named here; the reads leave the non-volatile part alone. -/
def Obligations.FrameOfReadsAndUpkeep : Prop :=
  (∀ (c : Instr) (s t : State), readsThatMove c = true → exec c s = .next t →
    t.pending = s.pending ∧ t.nv = s.nv ∧ t.m.sys = s.m.sys ∧ t.m.lc = s.m.lc ∧ t.m.clk = s.m.clk ∧ t.m.nfree = s.m.nfree
      ∧ t.m.unc = s.m.unc ∧ t.m.ovr = s.m.ovr ∧ t.m.defer = s.m.defer ∧ t.m.winWait = s.m.winWait
      ∧ t.m.ctrs = s.m.ctrs ∧ t.m.cfgRec = s.m.cfgRec ∧ t.m.sel = s.m.sel ∧ t.m.sched = s.m.sched
      ∧ t.m.ph = s.m.ph ∧ t.m.rl = s.m.rl ∧ t.m.adc = s.m.adc ∧ t.m.cle = s.m.cle ∧ t.m.ep = s.m.ep
      ∧ t.m.cp = s.m.cp ∧ t.m.gr = s.m.gr ∧ t.m.xg = s.m.xg ∧ t.m.fd = s.m.fd ∧ t.m.sq = s.m.sq
      ∧ t.m.pin = s.m.pin ∧ t.m.bt = s.m.bt ∧ t.m.th = s.m.th ∧ t.m.bn = s.m.bn ∧ t.m.pt = s.m.pt
      ∧ t.m.twc = s.m.twc ∧ t.m.mem = s.m.mem ∧ t.m.hw = s.m.hw ∧ t.m.up = s.m.up)
  ∧ (∀ (c : Instr) (s t : State), memoryUpkeep c = true → exec c s = .next t →
    t.pending = s.pending ∧ t.m.lc = s.m.lc ∧ t.m.clk = s.m.clk ∧ t.m.nfree = s.m.nfree ∧ t.m.unc = s.m.unc ∧ t.m.ovr = s.m.ovr
      ∧ t.m.defer = s.m.defer ∧ t.m.winWait = s.m.winWait ∧ t.m.cfgRec = s.m.cfgRec ∧ t.m.sel = s.m.sel
      ∧ t.m.idx = s.m.idx ∧ t.m.latch = s.m.latch ∧ t.m.ph = s.m.ph ∧ t.m.rl = s.m.rl ∧ t.m.adc = s.m.adc
      ∧ t.m.cle = s.m.cle ∧ t.m.tr = s.m.tr ∧ t.m.cp = s.m.cp ∧ t.m.fd = s.m.fd
      ∧ t.m.sq = s.m.sq ∧ t.m.pin = s.m.pin ∧ t.m.bt = s.m.bt ∧ t.m.th = s.m.th ∧ t.m.net = s.m.net
      ∧ t.m.bn = s.m.bn ∧ t.m.pt = s.m.pt ∧ t.m.twtPtr = s.m.twtPtr ∧ t.m.hw = s.m.hw ∧ t.m.up = s.m.up)
  ∧ (∀ (c : Instr) (s t : State), recorderUpkeep c = true → exec c s = .next t →
    t.pending = s.pending ∧ t.m.sys = s.m.sys ∧ t.m.clk = s.m.clk ∧ t.m.nfree = s.m.nfree ∧ t.m.unc = s.m.unc ∧ t.m.ovr = s.m.ovr
      ∧ t.m.defer = s.m.defer ∧ t.m.winWait = s.m.winWait ∧ t.m.ctrs = s.m.ctrs ∧ t.m.cfgRec = s.m.cfgRec
      ∧ t.m.sel = s.m.sel ∧ t.m.idx = s.m.idx ∧ t.m.latch = s.m.latch ∧ t.m.sched = s.m.sched ∧ t.m.ph = s.m.ph
      ∧ t.m.rl = s.m.rl ∧ t.m.adc = s.m.adc ∧ t.m.cle = s.m.cle ∧ t.m.tr = s.m.tr ∧ t.m.ep = s.m.ep
      ∧ t.m.cp = s.m.cp ∧ t.m.gr = s.m.gr ∧ t.m.xg = s.m.xg ∧ t.m.fd = s.m.fd ∧ t.m.sq = s.m.sq
      ∧ t.m.pin = s.m.pin ∧ t.m.bt = s.m.bt ∧ t.m.th = s.m.th ∧ t.m.net = s.m.net ∧ t.m.bn = s.m.bn
      ∧ t.m.pt = s.m.pt ∧ t.m.twtPtr = s.m.twtPtr ∧ t.m.twc = s.m.twc ∧ t.m.up = s.m.up)
end

