-- ==== Sys2Proof/Laws/Bits.lean ====
section
/-! SUPPORT. Laws of bit fields, complement pairs, indexed lists and sparse maps: read after write, and
that a write leaves everything else alone. -/

namespace Sys2Proof.Machine

/-! ### Bit fields -/

theorem bits_lt (v : W32) (lo w : Nat) : bits v lo w < 2 ^ w := Nat.mod_lt _ (Nat.two_pow_pos w)

theorem setBits_toNat (v : W32) (lo w x : Nat) (h : lo + w ≤ 32) :
    (setBits v lo w x).toNat
      = v.toNat % 2 ^ lo + x % 2 ^ w * 2 ^ lo + v.toNat / 2 ^ (lo + w) * 2 ^ (lo + w) := by
  have hv : v.toNat < 2 ^ 32 := v.isLt
  have h1 : v.toNat % 2 ^ lo < 2 ^ lo := Nat.mod_lt _ (Nat.two_pow_pos lo)
  have h2 : x % 2 ^ w < 2 ^ w := Nat.mod_lt _ (Nat.two_pow_pos w)
  have e : (2 : Nat) ^ 32 = 2 ^ (32 - (lo + w)) * 2 ^ (lo + w) := by
    rw [← Nat.pow_add]; congr 1; omega
  have h3 : v.toNat / 2 ^ (lo + w) < 2 ^ (32 - (lo + w)) := by
    apply Nat.div_lt_of_lt_mul; rw [Nat.mul_comm, ← e]; exact hv
  have ew : (2 : Nat) ^ (lo + w) = 2 ^ w * 2 ^ lo := by rw [← Nat.pow_add, Nat.add_comm]
  have h4 : v.toNat % 2 ^ lo + x % 2 ^ w * 2 ^ lo < 2 ^ (lo + w) := by
    rw [ew]
    calc v.toNat % 2 ^ lo + x % 2 ^ w * 2 ^ lo < 2 ^ lo + x % 2 ^ w * 2 ^ lo := by omega
      _ = (x % 2 ^ w + 1) * 2 ^ lo := by rw [Nat.add_mul, Nat.one_mul, Nat.add_comm]
      _ ≤ 2 ^ w * 2 ^ lo := Nat.mul_le_mul_right _ h2
  have h5 : (v.toNat / 2 ^ (lo + w) + 1) * 2 ^ (lo + w) ≤ 2 ^ (32 - (lo + w)) * 2 ^ (lo + w) :=
    Nat.mul_le_mul_right _ h3
  rw [Nat.add_mul, Nat.one_mul] at h5
  simp only [setBits, BitVec.toNat_ofNat]
  apply Nat.mod_eq_of_lt
  rw [e]; omega

/-- A field reads what was written to it. -/
theorem bits_setBits_same (v : W32) (lo w x : Nat) (h : lo + w ≤ 32) :
    bits (setBits v lo w x) lo w = x % 2 ^ w := by
  have ew : (2 : Nat) ^ (lo + w) = 2 ^ w * 2 ^ lo := by rw [← Nat.pow_add, Nat.add_comm]
  have h1 : v.toNat % 2 ^ lo < 2 ^ lo := Nat.mod_lt _ (Nat.two_pow_pos lo)
  rw [bits, setBits_toNat v lo w x h, ew]
  have : v.toNat % 2 ^ lo + x % 2 ^ w * 2 ^ lo + v.toNat / (2 ^ w * 2 ^ lo) * (2 ^ w * 2 ^ lo)
      = v.toNat % 2 ^ lo + 2 ^ lo * (x % 2 ^ w + v.toNat / (2 ^ w * 2 ^ lo) * 2 ^ w) := by ring
  rw [this, Nat.add_mul_div_left _ _ (Nat.two_pow_pos lo), Nat.div_eq_of_lt h1, Nat.zero_add,
    Nat.add_mul_mod_self_right, Nat.mod_mod]

/-- A field above the one written is unchanged. -/
theorem bits_setBits_above (v : W32) (lo w x lo' w' : Nat) (h : lo + w ≤ 32) (h' : lo + w ≤ lo') :
    bits (setBits v lo w x) lo' w' = bits v lo' w' := by
  have ew : (2 : Nat) ^ (lo + w) = 2 ^ w * 2 ^ lo := by rw [← Nat.pow_add, Nat.add_comm]
  have h1 : v.toNat % 2 ^ lo < 2 ^ lo := Nat.mod_lt _ (Nat.two_pow_pos lo)
  have h2 : x % 2 ^ w < 2 ^ w := Nat.mod_lt _ (Nat.two_pow_pos w)
  have h4 : v.toNat % 2 ^ lo + x % 2 ^ w * 2 ^ lo < 2 ^ (lo + w) := by
    rw [ew]
    calc v.toNat % 2 ^ lo + x % 2 ^ w * 2 ^ lo < 2 ^ lo + x % 2 ^ w * 2 ^ lo := by omega
      _ = (x % 2 ^ w + 1) * 2 ^ lo := by rw [Nat.add_mul, Nat.one_mul, Nat.add_comm]
      _ ≤ 2 ^ w * 2 ^ lo := Nat.mul_le_mul_right _ h2
  have e : (2 : Nat) ^ lo' = 2 ^ (lo + w) * 2 ^ (lo' - (lo + w)) := by
    rw [← Nat.pow_add]; congr 1; omega
  rw [bits, bits, setBits_toNat v lo w x h, e, ← Nat.div_div_eq_div_mul, ← Nat.div_div_eq_div_mul,
    Nat.add_mul_div_right _ _ (Nat.two_pow_pos (lo + w)), Nat.div_eq_of_lt h4, Nat.zero_add]

/-- A field below the one written is unchanged. -/
theorem bits_setBits_below (v : W32) (lo w x lo' w' : Nat) (h : lo + w ≤ 32) (h' : lo' + w' ≤ lo) :
    bits (setBits v lo w x) lo' w' = bits v lo' w' := by
  have e : (2 : Nat) ^ lo = 2 ^ (lo' + w') * 2 ^ (lo - (lo' + w')) := by
    rw [← Nat.pow_add]; congr 1; omega
  have ew : (2 : Nat) ^ (lo + w) = 2 ^ lo * 2 ^ w := by rw [← Nat.pow_add]
  have key : (setBits v lo w x).toNat % 2 ^ (lo' + w') = v.toNat % 2 ^ (lo' + w') := by
    rw [setBits_toNat v lo w x h, ew]
    have a : v.toNat % 2 ^ lo + x % 2 ^ w * 2 ^ lo + v.toNat / (2 ^ lo * 2 ^ w) * (2 ^ lo * 2 ^ w)
        = v.toNat % 2 ^ lo + 2 ^ lo * (x % 2 ^ w + v.toNat / (2 ^ lo * 2 ^ w) * 2 ^ w) := by ring
    rw [a]
    have b : 2 ^ lo * (x % 2 ^ w + v.toNat / (2 ^ lo * 2 ^ w) * 2 ^ w)
        = 2 ^ (lo' + w') * (2 ^ (lo - (lo' + w')) * (x % 2 ^ w + v.toNat / (2 ^ lo * 2 ^ w) * 2 ^ w)) := by
      rw [← Nat.mul_assoc, ← e]
    rw [b, Nat.add_mul_mod_self_left]
    have c : 2 ^ (lo' + w') ∣ 2 ^ lo := ⟨_, e⟩
    exact Nat.mod_mod_of_dvd _ c
  have f : ∀ n : Nat, n / 2 ^ lo' % 2 ^ w' = n % 2 ^ (lo' + w') / 2 ^ lo' := by
    intro n; rw [Nat.pow_add, Nat.mod_mul_right_div_self]
  rw [bits, bits, f, f, key]

@[simp] theorem bit_setBit_same (v : W32) (i : Nat) (h : i < 32) : bit (setBit v i) i = true := by
  have h1 : (2 ^ i : Nat) % 4294967296 = 2 ^ i :=
    Nat.mod_eq_of_lt (Nat.lt_of_lt_of_le (Nat.pow_lt_pow_right (by omega) h) (by norm_num))
  simp only [bit, setBit, BitVec.toNat_or, Nat.testBit_or, BitVec.toNat_ofNat, Bool.or_eq_true]
  right
  norm_num only [h1]
  exact Nat.testBit_two_pow_self

/-! ### Complement pairs (R90) -/

theorem mkPair_toNat (x : Nat) : (mkPair x).toNat = x % 65536 * 65536 + (65535 - x % 65536) := by
  have h : x % 65536 < 65536 := Nat.mod_lt _ (by decide)
  have e : (2 : Nat) ^ 16 = 65536 := by norm_num
  have e' : (2 : Nat) ^ 32 = 4294967296 := by norm_num
  simp only [mkPair, BitVec.toNat_ofNat, e, e']
  omega

theorem pair_halves (y z : Nat) (hy : y < 65536) (hz : z < 65536) :
    (y * 65536 + z) / 65536 % 65536 = y ∧ (y * 65536 + z) % 65536 = z := by
  rw [Nat.mul_comm]
  refine ⟨?_, ?_⟩
  · rw [Nat.mul_add_div (by norm_num), Nat.div_eq_of_lt hz, Nat.add_zero, Nat.mod_eq_of_lt hy]
  · rw [Nat.mul_add_mod, Nat.mod_eq_of_lt hz]

theorem bits_mkPair (x : Nat) : bits (mkPair x) 16 16 = x % 65536 := by
  have e : (2 : Nat) ^ 16 = 65536 := by norm_num
  have h : x % 65536 < 65536 := Nat.mod_lt _ (by decide)
  simp only [bits, mkPair_toNat, e]
  exact (pair_halves _ _ h (by omega)).1

@[simp] theorem pairOk_mkPair (x : Nat) : pairOk (mkPair x) = true := by
  have e : (2 : Nat) ^ 16 = 65536 := by norm_num
  have h : x % 65536 < 65536 := Nat.mod_lt _ (by decide)
  have p := pair_halves (x % 65536) (65535 - x % 65536) h (by omega)
  simp only [pairOk, bits, mkPair_toNat, e, Nat.pow_zero, Nat.div_one, decide_eq_true_eq, p.1, p.2]
  omega

/-! ### Lists by index -/

@[simp] theorem length_upd (l : List α) (i : Nat) (f : α → α) : (upd l i f).length = l.length := by
  simp [upd]

theorem nth_upd_same (d : α) (l : List α) (i : Nat) (f : α → α) (h : i < l.length) :
    nth d (upd l i f) i = f (nth d l i) := by
  simp [nth, upd, List.getD_eq_getElem?_getD, h]

theorem nth_upd_other (d : α) (l : List α) (i j : Nat) (f : α → α) (h : i ≠ j) :
    nth d (upd l i f) j = nth d l j := by
  simp [nth, upd, List.getD_eq_getElem?_getD, h]

/-! ### Sparse maps -/

@[simp] theorem getK_putK_same (d : Nat → α) (l : List (Nat × α)) (k : Nat) (v : α) :
    getK d (putK l k v) k = v := by
  induction l with
  | nil => simp [putK, getK]
  | cons x l ih =>
    obtain ⟨k', v'⟩ := x
    simp only [putK]
    split
    · simp [getK]
    · split
      · simp [getK]
      · simp [getK, *]

theorem getK_putK_other (d : Nat → α) (l : List (Nat × α)) (k j : Nat) (v : α) (h : j ≠ k) :
    getK d (putK l k v) j = getK d l j := by
  induction l with
  | nil => simp [putK, getK, h]
  | cons x l ih =>
    obtain ⟨k', v'⟩ := x
    simp only [putK]
    split
    · simp [getK, h]
    · split
      · next e => subst e; simp [getK, h]
      · simp [getK, ih]

/-- In a map whose keys all lie at or above `lo`, a key below `lo` holds the default. -/
theorem getK_below [DecidableEq α] (d : Nat → α) (l : List (Nat × α)) (lo k : Nat)
    (hw : wfFrom d lo l = true) (h : k < lo) : getK d l k = d k := by
  induction l generalizing lo with
  | nil => rfl
  | cons x l ih =>
    obtain ⟨k', v'⟩ := x
    simp only [wfFrom, Bool.and_eq_true, decide_eq_true_eq] at hw
    simp only [getK]
    rw [if_neg (by omega)]
    exact ih (k' + 1) hw.2 (by omega)

theorem wfFrom_mono [DecidableEq α] (d : Nat → α) (l : List (Nat × α)) (lo lo' : Nat)
    (hw : wfFrom d lo l = true) (h : lo' ≤ lo) : wfFrom d lo' l = true := by
  cases l with
  | nil => rfl
  | cons x l =>
    obtain ⟨k', v'⟩ := x
    simp only [wfFrom, Bool.and_eq_true, decide_eq_true_eq] at hw ⊢
    exact ⟨⟨by omega, hw.1.2⟩, hw.2⟩

theorem wfFrom_setK [DecidableEq α] (d : Nat → α) (l : List (Nat × α)) (lo k : Nat) (v : α)
    (hw : wfFrom d lo l = true) (h : lo ≤ k) : wfFrom d lo (setK d l k v) = true := by
  induction l generalizing lo with
  | nil => simp only [setK]; split <;> simp [wfFrom, *]
  | cons x l ih =>
    obtain ⟨k', v'⟩ := x
    simp only [wfFrom, Bool.and_eq_true, decide_eq_true_eq] at hw
    simp only [setK]
    split
    · split
      · simp [wfFrom, hw]
      · simp only [wfFrom, Bool.and_eq_true, decide_eq_true_eq]
        exact ⟨⟨h, by assumption⟩, ⟨by omega, hw.1.2⟩, hw.2⟩
    · split
      · next e =>
        subst e
        split
        · exact wfFrom_mono d l _ _ hw.2 (by omega)
        · simp only [wfFrom, Bool.and_eq_true, decide_eq_true_eq]
          exact ⟨⟨h, by assumption⟩, hw.2⟩
      · simp only [wfFrom, Bool.and_eq_true, decide_eq_true_eq]
        exact ⟨hw.1, ih (k' + 1) hw.2 (by omega)⟩

/-- A write keeps the canonical form of a memory. -/
theorem wfMap_setK [DecidableEq α] (d : Nat → α) (l : List (Nat × α)) (k : Nat) (v : α)
    (hw : wfMap d l = true) : wfMap d (setK d l k v) = true := wfFrom_setK d l 0 k v hw (Nat.zero_le k)

theorem getK_setK_same_from [DecidableEq α] (d : Nat → α) (l : List (Nat × α)) (lo k : Nat) (v : α)
    (hw : wfFrom d lo l = true) : getK d (setK d l k v) k = v := by
  induction l generalizing lo with
  | nil => simp only [setK]; split <;> simp [getK, *]
  | cons x l ih =>
    obtain ⟨k', v'⟩ := x
    have hw' := hw
    simp only [wfFrom, Bool.and_eq_true, decide_eq_true_eq] at hw
    simp only [setK]
    split
    · split
      · next h e =>
        subst e
        simp only [getK]
        rw [if_neg (by omega)]
        exact getK_below d l (k' + 1) k hw.2 (by omega)
      · simp [getK]
    · split
      · next e =>
        subst e
        split
        · next e => rw [e]; exact getK_below d l (k + 1) k hw.2 (by omega)
        · simp [getK]
      · simp only [getK]
        rw [if_neg (by assumption)]
        exact ih (k' + 1) hw.2

/-- A read after a write to the same place gives the value written. -/
theorem getK_setK_same [DecidableEq α] (d : Nat → α) (l : List (Nat × α)) (k : Nat) (v : α)
    (hw : wfMap d l = true) : getK d (setK d l k v) k = v := getK_setK_same_from d l 0 k v hw

/-- A write leaves every other place alone. -/
theorem getK_setK_other [DecidableEq α] (d : Nat → α) (l : List (Nat × α)) (k j : Nat) (v : α) (h : j ≠ k) :
    getK d (setK d l k v) j = getK d l j := by
  induction l with
  | nil => simp only [setK]; split <;> simp [getK, h]
  | cons x l ih =>
    obtain ⟨k', v'⟩ := x
    simp only [setK]
    split
    · split <;> simp [getK, h]
    · split
      · next e => subst e; split <;> simp [getK, h]
      · simp [getK, ih]

end Sys2Proof.Machine
end

