-- ==== Sys2Proof/Laws/Regs.lean ====
section
/-! SUPPORT. Laws of the register file: what a register, a field, a table word and a value in force read
after each of the operations that write them. -/

namespace Sys2Proof.Machine

namespace Module

/-! ### The shadow -/

@[simp] theorem key_setKey_same (m : Module) (k : Nat) (v : W32) : (m.setKey k v).key k = v := by
  simp [key, setKey]

theorem key_setKey_other (m : Module) (k j : Nat) (v : W32) (h : j ≠ k) :
    (m.setKey k v).key j = m.key j := by
  simp [key, setKey, getK_putK_other _ _ _ _ _ h]

@[simp] theorem reg_setReg_same (m : Module) (p off : Nat) (v : W32) : (m.setReg p off v).reg p off = v := by
  simp [reg, setReg]

theorem reg_setReg_other (m : Module) (p off q off' : Nat) (v : W32) (h : rkey q off' ≠ rkey p off) :
    (m.setReg p off v).reg q off' = m.reg q off' := by
  simp [reg, setReg, key_setKey_other _ _ _ _ h]

@[simp] theorem tbl_setTbl_same (m : Module) (p t i : Nat) (v : W32) : (m.setTbl p t i v).tbl p t i = v := by
  simp [tbl, setTbl]

theorem get_setReg_same (m : Module) (p : Nat) (f : Fld) (v : W32) :
    (m.setReg p f.off v).get p f = bits v f.lo f.w := by
  simp [get]

theorem get_setReg_other (m : Module) (p off q : Nat) (g : Fld) (v : W32) (h : rkey q g.off ≠ rkey p off) :
    (m.setReg p off v).get q g = m.get q g := by
  simp [get, reg_setReg_other _ _ _ _ _ _ h]

/-- A field reads what was put into it. -/
theorem get_put_same (m : Module) (p : Nat) (f : Fld) (x : Nat) (h : f.lo + f.w ≤ 32) :
    (m.put p f x).get p f = x % 2 ^ f.w := by
  simp [put, get_setReg_same, bits_setBits_same _ _ _ _ h]

/-- A field of another register is unchanged. -/
theorem get_put_other (m : Module) (p : Nat) (f : Fld) (x q : Nat) (g : Fld)
    (h : rkey q g.off ≠ rkey p f.off) : (m.put p f x).get q g = m.get q g := by
  simp [put, get_setReg_other _ _ _ _ _ _ h]

/-- A field of the same register that lies apart is unchanged. -/
theorem get_put_apart (m : Module) (p : Nat) (f g : Fld) (x : Nat) (ho : g.off = f.off)
    (h : f.lo + f.w ≤ 32) (ha : f.lo + f.w ≤ g.lo ∨ g.lo + g.w ≤ f.lo) :
    (m.put p f x).get p g = m.get p g := by
  simp only [put, get, ho, reg_setReg_same]
  rcases ha with ha | ha
  · exact bits_setBits_above _ _ _ _ _ _ h ha
  · exact bits_setBits_below _ _ _ _ _ _ h ha

theorem reg_put_other (m : Module) (p : Nat) (f : Fld) (x q off : Nat) (h : rkey q off ≠ rkey p f.off) :
    (m.put p f x).reg q off = m.reg q off := by
  simp [put, reg_setReg_other _ _ _ _ _ _ h]

/-- Registers of different pages are different keys. -/
theorem rkey_ne_of_page (p q off off' : Nat) (h : off < 256) (h' : off' < 256) (hp : q ≠ p) :
    rkey q off' ≠ rkey p off := by
  simp only [rkey]; omega

theorem rkey_ne_of_off (p off off' : Nat) (h : off' ≠ off) : rkey p off' ≠ rkey p off := by
  simp only [rkey]; omega

/-! ### Values in force -/

@[simp] theorem liveKey_force_same (m : Module) (k : Nat) (v : W32) : (m.force k v).liveKey k = v := by
  simp [liveKey, force]

theorem liveKey_force_other (m : Module) (k j : Nat) (v : W32) (h : j ≠ k) :
    (m.force k v).liveKey j = m.liveKey j := by
  simp [liveKey, force, getK_putK_other _ _ _ _ _ h]

@[simp] theorem key_force (m : Module) (k j : Nat) (v : W32) : (m.force k v).key j = m.key j := rfl
@[simp] theorem liveKey_setKey (m : Module) (k j : Nat) (v : W32) : (m.setKey k v).liveKey j = m.liveKey j := rfl
@[simp] theorem liveKey_setReg (m : Module) (p off j : Nat) (v : W32) :
    (m.setReg p off v).liveKey j = m.liveKey j := rfl
@[simp] theorem liveKey_put (m : Module) (p : Nat) (f : Fld) (x j : Nat) :
    (m.put p f x).liveKey j = m.liveKey j := rfl
@[simp] theorem cfg_put (m : Module) (p : Nat) (f : Fld) (x q : Nat) (g : Fld) :
    (m.put p f x).cfg q g = m.cfg q g := rfl
@[simp] theorem cfg_setReg (m : Module) (p off q : Nat) (v : W32) (g : Fld) :
    (m.setReg p off v).cfg q g = m.cfg q g := rfl

/-- A consumer that finds a good pair uses it (R94). -/
theorem pairKey_good (m : Module) (k : Nat) (h : pairOk (m.liveKey k) = true) : m.pairKey k = m.liveKey k := by
  simp [pairKey, h]

/-- A consumer that finds a mismatch uses the last good pair (R94). -/
theorem pairKey_bad (m : Module) (k : Nat) (h : pairOk (m.liveKey k) = false) :
    m.pairKey k = getK resetVal m.good k := by
  simp [pairKey, h]

/-! ### Events -/

/-- An event bit that is raised reads 1. -/
theorem raise_bit (m : Module) (p b : Nat) (h : b < 32) : bit ((m.raise p b).reg p EVT_RAW) b = true := by
  simp [raise, h]

theorem reg_raise_other (m : Module) (p b q off : Nat) (h : rkey q off ≠ rkey p EVT_RAW) :
    (m.raise p b).reg q off = m.reg q off := by
  simp [raise, reg_setReg_other _ _ _ _ _ _ h]

theorem get_raise_other (m : Module) (p b q : Nat) (g : Fld) (h : rkey q g.off ≠ rkey p EVT_RAW) :
    (m.raise p b).get q g = m.get q g := by
  simp [get, reg_raise_other _ _ _ _ _ h]

/-- A fault that is counted below its threshold does not act (R103). -/
theorem countFault_transient (m : Module) (p b sub win : Nat)
    (h : sumN (upd (m.ctr p b sub win).buckets 0 (satAdd 8 1)) < m.winThr win) :
    (m.countFault p b sub win).2 = false := by
  simp only [countFault]
  rw [if_pos h]
  split <;> rfl

end Module

end Sys2Proof.Machine
end

