-- ==== Sys2Proof/Laws/State.lean ====
section
/-! SUPPORT. One lemma per field and update operation of the module: what the operation leaves alone, and what
the field that it updates becomes. -/

namespace Sys2Proof.Machine

namespace Module

/-! ### setKey -/

@[simp] theorem setKey_sys (m : Module) (k : Nat) (v : W32) : (m.setKey k v).sys = m.sys := rfl
@[simp] theorem setKey_lc (m : Module) (k : Nat) (v : W32) : (m.setKey k v).lc = m.lc := rfl
@[simp] theorem setKey_clk (m : Module) (k : Nat) (v : W32) : (m.setKey k v).clk = m.clk := rfl
@[simp] theorem setKey_nfree (m : Module) (k : Nat) (v : W32) : (m.setKey k v).nfree = m.nfree := rfl
@[simp] theorem setKey_live (m : Module) (k : Nat) (v : W32) : (m.setKey k v).live = m.live := rfl
@[simp] theorem setKey_good (m : Module) (k : Nat) (v : W32) : (m.setKey k v).good = m.good := rfl
@[simp] theorem setKey_snap (m : Module) (k : Nat) (v : W32) : (m.setKey k v).snap = m.snap := rfl
@[simp] theorem setKey_pend (m : Module) (k : Nat) (v : W32) : (m.setKey k v).pend = m.pend := rfl
@[simp] theorem setKey_unc (m : Module) (k : Nat) (v : W32) : (m.setKey k v).unc = m.unc := rfl
@[simp] theorem setKey_ovr (m : Module) (k : Nat) (v : W32) : (m.setKey k v).ovr = m.ovr := rfl
@[simp] theorem setKey_defer (m : Module) (k : Nat) (v : W32) : (m.setKey k v).defer = m.defer := rfl
@[simp] theorem setKey_winWait (m : Module) (k : Nat) (v : W32) : (m.setKey k v).winWait = m.winWait := rfl
@[simp] theorem setKey_ctrs (m : Module) (k : Nat) (v : W32) : (m.setKey k v).ctrs = m.ctrs := rfl
@[simp] theorem setKey_cfgRec (m : Module) (k : Nat) (v : W32) : (m.setKey k v).cfgRec = m.cfgRec := rfl
@[simp] theorem setKey_sel (m : Module) (k : Nat) (v : W32) : (m.setKey k v).sel = m.sel := rfl
@[simp] theorem setKey_idx (m : Module) (k : Nat) (v : W32) : (m.setKey k v).idx = m.idx := rfl
@[simp] theorem setKey_latch (m : Module) (k : Nat) (v : W32) : (m.setKey k v).latch = m.latch := rfl
@[simp] theorem setKey_rc (m : Module) (k : Nat) (v : W32) : (m.setKey k v).rc = m.rc := rfl
@[simp] theorem setKey_out (m : Module) (k : Nat) (v : W32) : (m.setKey k v).out = m.out := rfl
@[simp] theorem setKey_sched (m : Module) (k : Nat) (v : W32) : (m.setKey k v).sched = m.sched := rfl
@[simp] theorem setKey_ph (m : Module) (k : Nat) (v : W32) : (m.setKey k v).ph = m.ph := rfl
@[simp] theorem setKey_rl (m : Module) (k : Nat) (v : W32) : (m.setKey k v).rl = m.rl := rfl
@[simp] theorem setKey_adc (m : Module) (k : Nat) (v : W32) : (m.setKey k v).adc = m.adc := rfl
@[simp] theorem setKey_cle (m : Module) (k : Nat) (v : W32) : (m.setKey k v).cle = m.cle := rfl
@[simp] theorem setKey_tr (m : Module) (k : Nat) (v : W32) : (m.setKey k v).tr = m.tr := rfl
@[simp] theorem setKey_ep (m : Module) (k : Nat) (v : W32) : (m.setKey k v).ep = m.ep := rfl
@[simp] theorem setKey_cp (m : Module) (k : Nat) (v : W32) : (m.setKey k v).cp = m.cp := rfl
@[simp] theorem setKey_gr (m : Module) (k : Nat) (v : W32) : (m.setKey k v).gr = m.gr := rfl
@[simp] theorem setKey_xg (m : Module) (k : Nat) (v : W32) : (m.setKey k v).xg = m.xg := rfl
@[simp] theorem setKey_fd (m : Module) (k : Nat) (v : W32) : (m.setKey k v).fd = m.fd := rfl
@[simp] theorem setKey_sq (m : Module) (k : Nat) (v : W32) : (m.setKey k v).sq = m.sq := rfl
@[simp] theorem setKey_pin (m : Module) (k : Nat) (v : W32) : (m.setKey k v).pin = m.pin := rfl
@[simp] theorem setKey_bt (m : Module) (k : Nat) (v : W32) : (m.setKey k v).bt = m.bt := rfl
@[simp] theorem setKey_th (m : Module) (k : Nat) (v : W32) : (m.setKey k v).th = m.th := rfl
@[simp] theorem setKey_net (m : Module) (k : Nat) (v : W32) : (m.setKey k v).net = m.net := rfl
@[simp] theorem setKey_bn (m : Module) (k : Nat) (v : W32) : (m.setKey k v).bn = m.bn := rfl
@[simp] theorem setKey_pt (m : Module) (k : Nat) (v : W32) : (m.setKey k v).pt = m.pt := rfl
@[simp] theorem setKey_twtPtr (m : Module) (k : Nat) (v : W32) : (m.setKey k v).twtPtr = m.twtPtr := rfl
@[simp] theorem setKey_twc (m : Module) (k : Nat) (v : W32) : (m.setKey k v).twc = m.twc := rfl
@[simp] theorem setKey_mem (m : Module) (k : Nat) (v : W32) : (m.setKey k v).mem = m.mem := rfl
@[simp] theorem setKey_hw (m : Module) (k : Nat) (v : W32) : (m.setKey k v).hw = m.hw := rfl
@[simp] theorem setKey_up (m : Module) (k : Nat) (v : W32) : (m.setKey k v).up = m.up := rfl

/-! ### setReg -/

@[simp] theorem setReg_sys (m : Module) (p off : Nat) (v : W32) : (m.setReg p off v).sys = m.sys := rfl
@[simp] theorem setReg_lc (m : Module) (p off : Nat) (v : W32) : (m.setReg p off v).lc = m.lc := rfl
@[simp] theorem setReg_clk (m : Module) (p off : Nat) (v : W32) : (m.setReg p off v).clk = m.clk := rfl
@[simp] theorem setReg_nfree (m : Module) (p off : Nat) (v : W32) : (m.setReg p off v).nfree = m.nfree := rfl
@[simp] theorem setReg_live (m : Module) (p off : Nat) (v : W32) : (m.setReg p off v).live = m.live := rfl
@[simp] theorem setReg_good (m : Module) (p off : Nat) (v : W32) : (m.setReg p off v).good = m.good := rfl
@[simp] theorem setReg_snap (m : Module) (p off : Nat) (v : W32) : (m.setReg p off v).snap = m.snap := rfl
@[simp] theorem setReg_pend (m : Module) (p off : Nat) (v : W32) : (m.setReg p off v).pend = m.pend := rfl
@[simp] theorem setReg_unc (m : Module) (p off : Nat) (v : W32) : (m.setReg p off v).unc = m.unc := rfl
@[simp] theorem setReg_ovr (m : Module) (p off : Nat) (v : W32) : (m.setReg p off v).ovr = m.ovr := rfl
@[simp] theorem setReg_defer (m : Module) (p off : Nat) (v : W32) : (m.setReg p off v).defer = m.defer := rfl
@[simp] theorem setReg_winWait (m : Module) (p off : Nat) (v : W32) : (m.setReg p off v).winWait = m.winWait := rfl
@[simp] theorem setReg_ctrs (m : Module) (p off : Nat) (v : W32) : (m.setReg p off v).ctrs = m.ctrs := rfl
@[simp] theorem setReg_cfgRec (m : Module) (p off : Nat) (v : W32) : (m.setReg p off v).cfgRec = m.cfgRec := rfl
@[simp] theorem setReg_sel (m : Module) (p off : Nat) (v : W32) : (m.setReg p off v).sel = m.sel := rfl
@[simp] theorem setReg_idx (m : Module) (p off : Nat) (v : W32) : (m.setReg p off v).idx = m.idx := rfl
@[simp] theorem setReg_latch (m : Module) (p off : Nat) (v : W32) : (m.setReg p off v).latch = m.latch := rfl
@[simp] theorem setReg_rc (m : Module) (p off : Nat) (v : W32) : (m.setReg p off v).rc = m.rc := rfl
@[simp] theorem setReg_out (m : Module) (p off : Nat) (v : W32) : (m.setReg p off v).out = m.out := rfl
@[simp] theorem setReg_sched (m : Module) (p off : Nat) (v : W32) : (m.setReg p off v).sched = m.sched := rfl
@[simp] theorem setReg_ph (m : Module) (p off : Nat) (v : W32) : (m.setReg p off v).ph = m.ph := rfl
@[simp] theorem setReg_rl (m : Module) (p off : Nat) (v : W32) : (m.setReg p off v).rl = m.rl := rfl
@[simp] theorem setReg_adc (m : Module) (p off : Nat) (v : W32) : (m.setReg p off v).adc = m.adc := rfl
@[simp] theorem setReg_cle (m : Module) (p off : Nat) (v : W32) : (m.setReg p off v).cle = m.cle := rfl
@[simp] theorem setReg_tr (m : Module) (p off : Nat) (v : W32) : (m.setReg p off v).tr = m.tr := rfl
@[simp] theorem setReg_ep (m : Module) (p off : Nat) (v : W32) : (m.setReg p off v).ep = m.ep := rfl
@[simp] theorem setReg_cp (m : Module) (p off : Nat) (v : W32) : (m.setReg p off v).cp = m.cp := rfl
@[simp] theorem setReg_gr (m : Module) (p off : Nat) (v : W32) : (m.setReg p off v).gr = m.gr := rfl
@[simp] theorem setReg_xg (m : Module) (p off : Nat) (v : W32) : (m.setReg p off v).xg = m.xg := rfl
@[simp] theorem setReg_fd (m : Module) (p off : Nat) (v : W32) : (m.setReg p off v).fd = m.fd := rfl
@[simp] theorem setReg_sq (m : Module) (p off : Nat) (v : W32) : (m.setReg p off v).sq = m.sq := rfl
@[simp] theorem setReg_pin (m : Module) (p off : Nat) (v : W32) : (m.setReg p off v).pin = m.pin := rfl
@[simp] theorem setReg_bt (m : Module) (p off : Nat) (v : W32) : (m.setReg p off v).bt = m.bt := rfl
@[simp] theorem setReg_th (m : Module) (p off : Nat) (v : W32) : (m.setReg p off v).th = m.th := rfl
@[simp] theorem setReg_net (m : Module) (p off : Nat) (v : W32) : (m.setReg p off v).net = m.net := rfl
@[simp] theorem setReg_bn (m : Module) (p off : Nat) (v : W32) : (m.setReg p off v).bn = m.bn := rfl
@[simp] theorem setReg_pt (m : Module) (p off : Nat) (v : W32) : (m.setReg p off v).pt = m.pt := rfl
@[simp] theorem setReg_twtPtr (m : Module) (p off : Nat) (v : W32) : (m.setReg p off v).twtPtr = m.twtPtr := rfl
@[simp] theorem setReg_twc (m : Module) (p off : Nat) (v : W32) : (m.setReg p off v).twc = m.twc := rfl
@[simp] theorem setReg_mem (m : Module) (p off : Nat) (v : W32) : (m.setReg p off v).mem = m.mem := rfl
@[simp] theorem setReg_hw (m : Module) (p off : Nat) (v : W32) : (m.setReg p off v).hw = m.hw := rfl
@[simp] theorem setReg_up (m : Module) (p off : Nat) (v : W32) : (m.setReg p off v).up = m.up := rfl

/-! ### put -/

@[simp] theorem put_sys (m : Module) (p : Nat) (f : Fld) (x : Nat) : (m.put p f x).sys = m.sys := rfl
@[simp] theorem put_lc (m : Module) (p : Nat) (f : Fld) (x : Nat) : (m.put p f x).lc = m.lc := rfl
@[simp] theorem put_clk (m : Module) (p : Nat) (f : Fld) (x : Nat) : (m.put p f x).clk = m.clk := rfl
@[simp] theorem put_nfree (m : Module) (p : Nat) (f : Fld) (x : Nat) : (m.put p f x).nfree = m.nfree := rfl
@[simp] theorem put_live (m : Module) (p : Nat) (f : Fld) (x : Nat) : (m.put p f x).live = m.live := rfl
@[simp] theorem put_good (m : Module) (p : Nat) (f : Fld) (x : Nat) : (m.put p f x).good = m.good := rfl
@[simp] theorem put_snap (m : Module) (p : Nat) (f : Fld) (x : Nat) : (m.put p f x).snap = m.snap := rfl
@[simp] theorem put_pend (m : Module) (p : Nat) (f : Fld) (x : Nat) : (m.put p f x).pend = m.pend := rfl
@[simp] theorem put_unc (m : Module) (p : Nat) (f : Fld) (x : Nat) : (m.put p f x).unc = m.unc := rfl
@[simp] theorem put_ovr (m : Module) (p : Nat) (f : Fld) (x : Nat) : (m.put p f x).ovr = m.ovr := rfl
@[simp] theorem put_defer (m : Module) (p : Nat) (f : Fld) (x : Nat) : (m.put p f x).defer = m.defer := rfl
@[simp] theorem put_winWait (m : Module) (p : Nat) (f : Fld) (x : Nat) : (m.put p f x).winWait = m.winWait := rfl
@[simp] theorem put_ctrs (m : Module) (p : Nat) (f : Fld) (x : Nat) : (m.put p f x).ctrs = m.ctrs := rfl
@[simp] theorem put_cfgRec (m : Module) (p : Nat) (f : Fld) (x : Nat) : (m.put p f x).cfgRec = m.cfgRec := rfl
@[simp] theorem put_sel (m : Module) (p : Nat) (f : Fld) (x : Nat) : (m.put p f x).sel = m.sel := rfl
@[simp] theorem put_idx (m : Module) (p : Nat) (f : Fld) (x : Nat) : (m.put p f x).idx = m.idx := rfl
@[simp] theorem put_latch (m : Module) (p : Nat) (f : Fld) (x : Nat) : (m.put p f x).latch = m.latch := rfl
@[simp] theorem put_rc (m : Module) (p : Nat) (f : Fld) (x : Nat) : (m.put p f x).rc = m.rc := rfl
@[simp] theorem put_out (m : Module) (p : Nat) (f : Fld) (x : Nat) : (m.put p f x).out = m.out := rfl
@[simp] theorem put_sched (m : Module) (p : Nat) (f : Fld) (x : Nat) : (m.put p f x).sched = m.sched := rfl
@[simp] theorem put_ph (m : Module) (p : Nat) (f : Fld) (x : Nat) : (m.put p f x).ph = m.ph := rfl
@[simp] theorem put_rl (m : Module) (p : Nat) (f : Fld) (x : Nat) : (m.put p f x).rl = m.rl := rfl
@[simp] theorem put_adc (m : Module) (p : Nat) (f : Fld) (x : Nat) : (m.put p f x).adc = m.adc := rfl
@[simp] theorem put_cle (m : Module) (p : Nat) (f : Fld) (x : Nat) : (m.put p f x).cle = m.cle := rfl
@[simp] theorem put_tr (m : Module) (p : Nat) (f : Fld) (x : Nat) : (m.put p f x).tr = m.tr := rfl
@[simp] theorem put_ep (m : Module) (p : Nat) (f : Fld) (x : Nat) : (m.put p f x).ep = m.ep := rfl
@[simp] theorem put_cp (m : Module) (p : Nat) (f : Fld) (x : Nat) : (m.put p f x).cp = m.cp := rfl
@[simp] theorem put_gr (m : Module) (p : Nat) (f : Fld) (x : Nat) : (m.put p f x).gr = m.gr := rfl
@[simp] theorem put_xg (m : Module) (p : Nat) (f : Fld) (x : Nat) : (m.put p f x).xg = m.xg := rfl
@[simp] theorem put_fd (m : Module) (p : Nat) (f : Fld) (x : Nat) : (m.put p f x).fd = m.fd := rfl
@[simp] theorem put_sq (m : Module) (p : Nat) (f : Fld) (x : Nat) : (m.put p f x).sq = m.sq := rfl
@[simp] theorem put_pin (m : Module) (p : Nat) (f : Fld) (x : Nat) : (m.put p f x).pin = m.pin := rfl
@[simp] theorem put_bt (m : Module) (p : Nat) (f : Fld) (x : Nat) : (m.put p f x).bt = m.bt := rfl
@[simp] theorem put_th (m : Module) (p : Nat) (f : Fld) (x : Nat) : (m.put p f x).th = m.th := rfl
@[simp] theorem put_net (m : Module) (p : Nat) (f : Fld) (x : Nat) : (m.put p f x).net = m.net := rfl
@[simp] theorem put_bn (m : Module) (p : Nat) (f : Fld) (x : Nat) : (m.put p f x).bn = m.bn := rfl
@[simp] theorem put_pt (m : Module) (p : Nat) (f : Fld) (x : Nat) : (m.put p f x).pt = m.pt := rfl
@[simp] theorem put_twtPtr (m : Module) (p : Nat) (f : Fld) (x : Nat) : (m.put p f x).twtPtr = m.twtPtr := rfl
@[simp] theorem put_twc (m : Module) (p : Nat) (f : Fld) (x : Nat) : (m.put p f x).twc = m.twc := rfl
@[simp] theorem put_mem (m : Module) (p : Nat) (f : Fld) (x : Nat) : (m.put p f x).mem = m.mem := rfl
@[simp] theorem put_hw (m : Module) (p : Nat) (f : Fld) (x : Nat) : (m.put p f x).hw = m.hw := rfl
@[simp] theorem put_up (m : Module) (p : Nat) (f : Fld) (x : Nat) : (m.put p f x).up = m.up := rfl

/-! ### putI -/

@[simp] theorem putI_sys (m : Module) (p : Nat) (f : Fld) (x : Int) : (m.putI p f x).sys = m.sys := rfl
@[simp] theorem putI_lc (m : Module) (p : Nat) (f : Fld) (x : Int) : (m.putI p f x).lc = m.lc := rfl
@[simp] theorem putI_clk (m : Module) (p : Nat) (f : Fld) (x : Int) : (m.putI p f x).clk = m.clk := rfl
@[simp] theorem putI_nfree (m : Module) (p : Nat) (f : Fld) (x : Int) : (m.putI p f x).nfree = m.nfree := rfl
@[simp] theorem putI_live (m : Module) (p : Nat) (f : Fld) (x : Int) : (m.putI p f x).live = m.live := rfl
@[simp] theorem putI_good (m : Module) (p : Nat) (f : Fld) (x : Int) : (m.putI p f x).good = m.good := rfl
@[simp] theorem putI_snap (m : Module) (p : Nat) (f : Fld) (x : Int) : (m.putI p f x).snap = m.snap := rfl
@[simp] theorem putI_pend (m : Module) (p : Nat) (f : Fld) (x : Int) : (m.putI p f x).pend = m.pend := rfl
@[simp] theorem putI_unc (m : Module) (p : Nat) (f : Fld) (x : Int) : (m.putI p f x).unc = m.unc := rfl
@[simp] theorem putI_ovr (m : Module) (p : Nat) (f : Fld) (x : Int) : (m.putI p f x).ovr = m.ovr := rfl
@[simp] theorem putI_defer (m : Module) (p : Nat) (f : Fld) (x : Int) : (m.putI p f x).defer = m.defer := rfl
@[simp] theorem putI_winWait (m : Module) (p : Nat) (f : Fld) (x : Int) : (m.putI p f x).winWait = m.winWait := rfl
@[simp] theorem putI_ctrs (m : Module) (p : Nat) (f : Fld) (x : Int) : (m.putI p f x).ctrs = m.ctrs := rfl
@[simp] theorem putI_cfgRec (m : Module) (p : Nat) (f : Fld) (x : Int) : (m.putI p f x).cfgRec = m.cfgRec := rfl
@[simp] theorem putI_sel (m : Module) (p : Nat) (f : Fld) (x : Int) : (m.putI p f x).sel = m.sel := rfl
@[simp] theorem putI_idx (m : Module) (p : Nat) (f : Fld) (x : Int) : (m.putI p f x).idx = m.idx := rfl
@[simp] theorem putI_latch (m : Module) (p : Nat) (f : Fld) (x : Int) : (m.putI p f x).latch = m.latch := rfl
@[simp] theorem putI_rc (m : Module) (p : Nat) (f : Fld) (x : Int) : (m.putI p f x).rc = m.rc := rfl
@[simp] theorem putI_out (m : Module) (p : Nat) (f : Fld) (x : Int) : (m.putI p f x).out = m.out := rfl
@[simp] theorem putI_sched (m : Module) (p : Nat) (f : Fld) (x : Int) : (m.putI p f x).sched = m.sched := rfl
@[simp] theorem putI_ph (m : Module) (p : Nat) (f : Fld) (x : Int) : (m.putI p f x).ph = m.ph := rfl
@[simp] theorem putI_rl (m : Module) (p : Nat) (f : Fld) (x : Int) : (m.putI p f x).rl = m.rl := rfl
@[simp] theorem putI_adc (m : Module) (p : Nat) (f : Fld) (x : Int) : (m.putI p f x).adc = m.adc := rfl
@[simp] theorem putI_cle (m : Module) (p : Nat) (f : Fld) (x : Int) : (m.putI p f x).cle = m.cle := rfl
@[simp] theorem putI_tr (m : Module) (p : Nat) (f : Fld) (x : Int) : (m.putI p f x).tr = m.tr := rfl
@[simp] theorem putI_ep (m : Module) (p : Nat) (f : Fld) (x : Int) : (m.putI p f x).ep = m.ep := rfl
@[simp] theorem putI_cp (m : Module) (p : Nat) (f : Fld) (x : Int) : (m.putI p f x).cp = m.cp := rfl
@[simp] theorem putI_gr (m : Module) (p : Nat) (f : Fld) (x : Int) : (m.putI p f x).gr = m.gr := rfl
@[simp] theorem putI_xg (m : Module) (p : Nat) (f : Fld) (x : Int) : (m.putI p f x).xg = m.xg := rfl
@[simp] theorem putI_fd (m : Module) (p : Nat) (f : Fld) (x : Int) : (m.putI p f x).fd = m.fd := rfl
@[simp] theorem putI_sq (m : Module) (p : Nat) (f : Fld) (x : Int) : (m.putI p f x).sq = m.sq := rfl
@[simp] theorem putI_pin (m : Module) (p : Nat) (f : Fld) (x : Int) : (m.putI p f x).pin = m.pin := rfl
@[simp] theorem putI_bt (m : Module) (p : Nat) (f : Fld) (x : Int) : (m.putI p f x).bt = m.bt := rfl
@[simp] theorem putI_th (m : Module) (p : Nat) (f : Fld) (x : Int) : (m.putI p f x).th = m.th := rfl
@[simp] theorem putI_net (m : Module) (p : Nat) (f : Fld) (x : Int) : (m.putI p f x).net = m.net := rfl
@[simp] theorem putI_bn (m : Module) (p : Nat) (f : Fld) (x : Int) : (m.putI p f x).bn = m.bn := rfl
@[simp] theorem putI_pt (m : Module) (p : Nat) (f : Fld) (x : Int) : (m.putI p f x).pt = m.pt := rfl
@[simp] theorem putI_twtPtr (m : Module) (p : Nat) (f : Fld) (x : Int) : (m.putI p f x).twtPtr = m.twtPtr := rfl
@[simp] theorem putI_twc (m : Module) (p : Nat) (f : Fld) (x : Int) : (m.putI p f x).twc = m.twc := rfl
@[simp] theorem putI_mem (m : Module) (p : Nat) (f : Fld) (x : Int) : (m.putI p f x).mem = m.mem := rfl
@[simp] theorem putI_hw (m : Module) (p : Nat) (f : Fld) (x : Int) : (m.putI p f x).hw = m.hw := rfl
@[simp] theorem putI_up (m : Module) (p : Nat) (f : Fld) (x : Int) : (m.putI p f x).up = m.up := rfl

/-! ### setTbl -/

@[simp] theorem setTbl_sys (m : Module) (p t i : Nat) (v : W32) : (m.setTbl p t i v).sys = m.sys := rfl
@[simp] theorem setTbl_lc (m : Module) (p t i : Nat) (v : W32) : (m.setTbl p t i v).lc = m.lc := rfl
@[simp] theorem setTbl_clk (m : Module) (p t i : Nat) (v : W32) : (m.setTbl p t i v).clk = m.clk := rfl
@[simp] theorem setTbl_nfree (m : Module) (p t i : Nat) (v : W32) : (m.setTbl p t i v).nfree = m.nfree := rfl
@[simp] theorem setTbl_live (m : Module) (p t i : Nat) (v : W32) : (m.setTbl p t i v).live = m.live := rfl
@[simp] theorem setTbl_good (m : Module) (p t i : Nat) (v : W32) : (m.setTbl p t i v).good = m.good := rfl
@[simp] theorem setTbl_snap (m : Module) (p t i : Nat) (v : W32) : (m.setTbl p t i v).snap = m.snap := rfl
@[simp] theorem setTbl_pend (m : Module) (p t i : Nat) (v : W32) : (m.setTbl p t i v).pend = m.pend := rfl
@[simp] theorem setTbl_unc (m : Module) (p t i : Nat) (v : W32) : (m.setTbl p t i v).unc = m.unc := rfl
@[simp] theorem setTbl_ovr (m : Module) (p t i : Nat) (v : W32) : (m.setTbl p t i v).ovr = m.ovr := rfl
@[simp] theorem setTbl_defer (m : Module) (p t i : Nat) (v : W32) : (m.setTbl p t i v).defer = m.defer := rfl
@[simp] theorem setTbl_winWait (m : Module) (p t i : Nat) (v : W32) : (m.setTbl p t i v).winWait = m.winWait := rfl
@[simp] theorem setTbl_ctrs (m : Module) (p t i : Nat) (v : W32) : (m.setTbl p t i v).ctrs = m.ctrs := rfl
@[simp] theorem setTbl_cfgRec (m : Module) (p t i : Nat) (v : W32) : (m.setTbl p t i v).cfgRec = m.cfgRec := rfl
@[simp] theorem setTbl_sel (m : Module) (p t i : Nat) (v : W32) : (m.setTbl p t i v).sel = m.sel := rfl
@[simp] theorem setTbl_idx (m : Module) (p t i : Nat) (v : W32) : (m.setTbl p t i v).idx = m.idx := rfl
@[simp] theorem setTbl_latch (m : Module) (p t i : Nat) (v : W32) : (m.setTbl p t i v).latch = m.latch := rfl
@[simp] theorem setTbl_rc (m : Module) (p t i : Nat) (v : W32) : (m.setTbl p t i v).rc = m.rc := rfl
@[simp] theorem setTbl_out (m : Module) (p t i : Nat) (v : W32) : (m.setTbl p t i v).out = m.out := rfl
@[simp] theorem setTbl_sched (m : Module) (p t i : Nat) (v : W32) : (m.setTbl p t i v).sched = m.sched := rfl
@[simp] theorem setTbl_ph (m : Module) (p t i : Nat) (v : W32) : (m.setTbl p t i v).ph = m.ph := rfl
@[simp] theorem setTbl_rl (m : Module) (p t i : Nat) (v : W32) : (m.setTbl p t i v).rl = m.rl := rfl
@[simp] theorem setTbl_adc (m : Module) (p t i : Nat) (v : W32) : (m.setTbl p t i v).adc = m.adc := rfl
@[simp] theorem setTbl_cle (m : Module) (p t i : Nat) (v : W32) : (m.setTbl p t i v).cle = m.cle := rfl
@[simp] theorem setTbl_tr (m : Module) (p t i : Nat) (v : W32) : (m.setTbl p t i v).tr = m.tr := rfl
@[simp] theorem setTbl_ep (m : Module) (p t i : Nat) (v : W32) : (m.setTbl p t i v).ep = m.ep := rfl
@[simp] theorem setTbl_cp (m : Module) (p t i : Nat) (v : W32) : (m.setTbl p t i v).cp = m.cp := rfl
@[simp] theorem setTbl_gr (m : Module) (p t i : Nat) (v : W32) : (m.setTbl p t i v).gr = m.gr := rfl
@[simp] theorem setTbl_xg (m : Module) (p t i : Nat) (v : W32) : (m.setTbl p t i v).xg = m.xg := rfl
@[simp] theorem setTbl_fd (m : Module) (p t i : Nat) (v : W32) : (m.setTbl p t i v).fd = m.fd := rfl
@[simp] theorem setTbl_sq (m : Module) (p t i : Nat) (v : W32) : (m.setTbl p t i v).sq = m.sq := rfl
@[simp] theorem setTbl_pin (m : Module) (p t i : Nat) (v : W32) : (m.setTbl p t i v).pin = m.pin := rfl
@[simp] theorem setTbl_bt (m : Module) (p t i : Nat) (v : W32) : (m.setTbl p t i v).bt = m.bt := rfl
@[simp] theorem setTbl_th (m : Module) (p t i : Nat) (v : W32) : (m.setTbl p t i v).th = m.th := rfl
@[simp] theorem setTbl_net (m : Module) (p t i : Nat) (v : W32) : (m.setTbl p t i v).net = m.net := rfl
@[simp] theorem setTbl_bn (m : Module) (p t i : Nat) (v : W32) : (m.setTbl p t i v).bn = m.bn := rfl
@[simp] theorem setTbl_pt (m : Module) (p t i : Nat) (v : W32) : (m.setTbl p t i v).pt = m.pt := rfl
@[simp] theorem setTbl_twtPtr (m : Module) (p t i : Nat) (v : W32) : (m.setTbl p t i v).twtPtr = m.twtPtr := rfl
@[simp] theorem setTbl_twc (m : Module) (p t i : Nat) (v : W32) : (m.setTbl p t i v).twc = m.twc := rfl
@[simp] theorem setTbl_mem (m : Module) (p t i : Nat) (v : W32) : (m.setTbl p t i v).mem = m.mem := rfl
@[simp] theorem setTbl_hw (m : Module) (p t i : Nat) (v : W32) : (m.setTbl p t i v).hw = m.hw := rfl
@[simp] theorem setTbl_up (m : Module) (p t i : Nat) (v : W32) : (m.setTbl p t i v).up = m.up := rfl

/-! ### raise -/

@[simp] theorem raise_sys (m : Module) (p b : Nat) : (m.raise p b).sys = m.sys := rfl
@[simp] theorem raise_lc (m : Module) (p b : Nat) : (m.raise p b).lc = m.lc := rfl
@[simp] theorem raise_clk (m : Module) (p b : Nat) : (m.raise p b).clk = m.clk := rfl
@[simp] theorem raise_nfree (m : Module) (p b : Nat) : (m.raise p b).nfree = m.nfree := rfl
@[simp] theorem raise_live (m : Module) (p b : Nat) : (m.raise p b).live = m.live := rfl
@[simp] theorem raise_good (m : Module) (p b : Nat) : (m.raise p b).good = m.good := rfl
@[simp] theorem raise_snap (m : Module) (p b : Nat) : (m.raise p b).snap = m.snap := rfl
@[simp] theorem raise_pend (m : Module) (p b : Nat) : (m.raise p b).pend = m.pend := rfl
@[simp] theorem raise_unc (m : Module) (p b : Nat) : (m.raise p b).unc = m.unc := rfl
@[simp] theorem raise_ovr (m : Module) (p b : Nat) : (m.raise p b).ovr = m.ovr := rfl
@[simp] theorem raise_defer (m : Module) (p b : Nat) : (m.raise p b).defer = m.defer := rfl
@[simp] theorem raise_winWait (m : Module) (p b : Nat) : (m.raise p b).winWait = m.winWait := rfl
@[simp] theorem raise_ctrs (m : Module) (p b : Nat) : (m.raise p b).ctrs = m.ctrs := rfl
@[simp] theorem raise_cfgRec (m : Module) (p b : Nat) : (m.raise p b).cfgRec = m.cfgRec := rfl
@[simp] theorem raise_sel (m : Module) (p b : Nat) : (m.raise p b).sel = m.sel := rfl
@[simp] theorem raise_idx (m : Module) (p b : Nat) : (m.raise p b).idx = m.idx := rfl
@[simp] theorem raise_latch (m : Module) (p b : Nat) : (m.raise p b).latch = m.latch := rfl
@[simp] theorem raise_rc (m : Module) (p b : Nat) : (m.raise p b).rc = m.rc := rfl
@[simp] theorem raise_out (m : Module) (p b : Nat) : (m.raise p b).out = m.out := rfl
@[simp] theorem raise_sched (m : Module) (p b : Nat) : (m.raise p b).sched = m.sched := rfl
@[simp] theorem raise_ph (m : Module) (p b : Nat) : (m.raise p b).ph = m.ph := rfl
@[simp] theorem raise_rl (m : Module) (p b : Nat) : (m.raise p b).rl = m.rl := rfl
@[simp] theorem raise_adc (m : Module) (p b : Nat) : (m.raise p b).adc = m.adc := rfl
@[simp] theorem raise_cle (m : Module) (p b : Nat) : (m.raise p b).cle = m.cle := rfl
@[simp] theorem raise_tr (m : Module) (p b : Nat) : (m.raise p b).tr = m.tr := rfl
@[simp] theorem raise_ep (m : Module) (p b : Nat) : (m.raise p b).ep = m.ep := rfl
@[simp] theorem raise_cp (m : Module) (p b : Nat) : (m.raise p b).cp = m.cp := rfl
@[simp] theorem raise_gr (m : Module) (p b : Nat) : (m.raise p b).gr = m.gr := rfl
@[simp] theorem raise_xg (m : Module) (p b : Nat) : (m.raise p b).xg = m.xg := rfl
@[simp] theorem raise_fd (m : Module) (p b : Nat) : (m.raise p b).fd = m.fd := rfl
@[simp] theorem raise_sq (m : Module) (p b : Nat) : (m.raise p b).sq = m.sq := rfl
@[simp] theorem raise_pin (m : Module) (p b : Nat) : (m.raise p b).pin = m.pin := rfl
@[simp] theorem raise_bt (m : Module) (p b : Nat) : (m.raise p b).bt = m.bt := rfl
@[simp] theorem raise_th (m : Module) (p b : Nat) : (m.raise p b).th = m.th := rfl
@[simp] theorem raise_net (m : Module) (p b : Nat) : (m.raise p b).net = m.net := rfl
@[simp] theorem raise_bn (m : Module) (p b : Nat) : (m.raise p b).bn = m.bn := rfl
@[simp] theorem raise_pt (m : Module) (p b : Nat) : (m.raise p b).pt = m.pt := rfl
@[simp] theorem raise_twtPtr (m : Module) (p b : Nat) : (m.raise p b).twtPtr = m.twtPtr := rfl
@[simp] theorem raise_twc (m : Module) (p b : Nat) : (m.raise p b).twc = m.twc := rfl
@[simp] theorem raise_mem (m : Module) (p b : Nat) : (m.raise p b).mem = m.mem := rfl
@[simp] theorem raise_hw (m : Module) (p b : Nat) : (m.raise p b).hw = m.hw := rfl
@[simp] theorem raise_up (m : Module) (p b : Nat) : (m.raise p b).up = m.up := rfl

/-! ### count -/

@[simp] theorem count_sys (m : Module) (p : Nat) (f : Fld) (n : Nat) : (m.count p f n).sys = m.sys := rfl
@[simp] theorem count_lc (m : Module) (p : Nat) (f : Fld) (n : Nat) : (m.count p f n).lc = m.lc := rfl
@[simp] theorem count_clk (m : Module) (p : Nat) (f : Fld) (n : Nat) : (m.count p f n).clk = m.clk := rfl
@[simp] theorem count_nfree (m : Module) (p : Nat) (f : Fld) (n : Nat) : (m.count p f n).nfree = m.nfree := rfl
@[simp] theorem count_live (m : Module) (p : Nat) (f : Fld) (n : Nat) : (m.count p f n).live = m.live := rfl
@[simp] theorem count_good (m : Module) (p : Nat) (f : Fld) (n : Nat) : (m.count p f n).good = m.good := rfl
@[simp] theorem count_snap (m : Module) (p : Nat) (f : Fld) (n : Nat) : (m.count p f n).snap = m.snap := rfl
@[simp] theorem count_pend (m : Module) (p : Nat) (f : Fld) (n : Nat) : (m.count p f n).pend = m.pend := rfl
@[simp] theorem count_unc (m : Module) (p : Nat) (f : Fld) (n : Nat) : (m.count p f n).unc = m.unc := rfl
@[simp] theorem count_ovr (m : Module) (p : Nat) (f : Fld) (n : Nat) : (m.count p f n).ovr = m.ovr := rfl
@[simp] theorem count_defer (m : Module) (p : Nat) (f : Fld) (n : Nat) : (m.count p f n).defer = m.defer := rfl
@[simp] theorem count_winWait (m : Module) (p : Nat) (f : Fld) (n : Nat) : (m.count p f n).winWait = m.winWait := rfl
@[simp] theorem count_ctrs (m : Module) (p : Nat) (f : Fld) (n : Nat) : (m.count p f n).ctrs = m.ctrs := rfl
@[simp] theorem count_cfgRec (m : Module) (p : Nat) (f : Fld) (n : Nat) : (m.count p f n).cfgRec = m.cfgRec := rfl
@[simp] theorem count_sel (m : Module) (p : Nat) (f : Fld) (n : Nat) : (m.count p f n).sel = m.sel := rfl
@[simp] theorem count_idx (m : Module) (p : Nat) (f : Fld) (n : Nat) : (m.count p f n).idx = m.idx := rfl
@[simp] theorem count_latch (m : Module) (p : Nat) (f : Fld) (n : Nat) : (m.count p f n).latch = m.latch := rfl
@[simp] theorem count_rc (m : Module) (p : Nat) (f : Fld) (n : Nat) : (m.count p f n).rc = m.rc := rfl
@[simp] theorem count_out (m : Module) (p : Nat) (f : Fld) (n : Nat) : (m.count p f n).out = m.out := rfl
@[simp] theorem count_sched (m : Module) (p : Nat) (f : Fld) (n : Nat) : (m.count p f n).sched = m.sched := rfl
@[simp] theorem count_ph (m : Module) (p : Nat) (f : Fld) (n : Nat) : (m.count p f n).ph = m.ph := rfl
@[simp] theorem count_rl (m : Module) (p : Nat) (f : Fld) (n : Nat) : (m.count p f n).rl = m.rl := rfl
@[simp] theorem count_adc (m : Module) (p : Nat) (f : Fld) (n : Nat) : (m.count p f n).adc = m.adc := rfl
@[simp] theorem count_cle (m : Module) (p : Nat) (f : Fld) (n : Nat) : (m.count p f n).cle = m.cle := rfl
@[simp] theorem count_tr (m : Module) (p : Nat) (f : Fld) (n : Nat) : (m.count p f n).tr = m.tr := rfl
@[simp] theorem count_ep (m : Module) (p : Nat) (f : Fld) (n : Nat) : (m.count p f n).ep = m.ep := rfl
@[simp] theorem count_cp (m : Module) (p : Nat) (f : Fld) (n : Nat) : (m.count p f n).cp = m.cp := rfl
@[simp] theorem count_gr (m : Module) (p : Nat) (f : Fld) (n : Nat) : (m.count p f n).gr = m.gr := rfl
@[simp] theorem count_xg (m : Module) (p : Nat) (f : Fld) (n : Nat) : (m.count p f n).xg = m.xg := rfl
@[simp] theorem count_fd (m : Module) (p : Nat) (f : Fld) (n : Nat) : (m.count p f n).fd = m.fd := rfl
@[simp] theorem count_sq (m : Module) (p : Nat) (f : Fld) (n : Nat) : (m.count p f n).sq = m.sq := rfl
@[simp] theorem count_pin (m : Module) (p : Nat) (f : Fld) (n : Nat) : (m.count p f n).pin = m.pin := rfl
@[simp] theorem count_bt (m : Module) (p : Nat) (f : Fld) (n : Nat) : (m.count p f n).bt = m.bt := rfl
@[simp] theorem count_th (m : Module) (p : Nat) (f : Fld) (n : Nat) : (m.count p f n).th = m.th := rfl
@[simp] theorem count_net (m : Module) (p : Nat) (f : Fld) (n : Nat) : (m.count p f n).net = m.net := rfl
@[simp] theorem count_bn (m : Module) (p : Nat) (f : Fld) (n : Nat) : (m.count p f n).bn = m.bn := rfl
@[simp] theorem count_pt (m : Module) (p : Nat) (f : Fld) (n : Nat) : (m.count p f n).pt = m.pt := rfl
@[simp] theorem count_twtPtr (m : Module) (p : Nat) (f : Fld) (n : Nat) : (m.count p f n).twtPtr = m.twtPtr := rfl
@[simp] theorem count_twc (m : Module) (p : Nat) (f : Fld) (n : Nat) : (m.count p f n).twc = m.twc := rfl
@[simp] theorem count_mem (m : Module) (p : Nat) (f : Fld) (n : Nat) : (m.count p f n).mem = m.mem := rfl
@[simp] theorem count_hw (m : Module) (p : Nat) (f : Fld) (n : Nat) : (m.count p f n).hw = m.hw := rfl
@[simp] theorem count_up (m : Module) (p : Nat) (f : Fld) (n : Nat) : (m.count p f n).up = m.up := rfl

/-! ### countReg -/

@[simp] theorem countReg_sys (m : Module) (p off n : Nat) : (m.countReg p off n).sys = m.sys := rfl
@[simp] theorem countReg_lc (m : Module) (p off n : Nat) : (m.countReg p off n).lc = m.lc := rfl
@[simp] theorem countReg_clk (m : Module) (p off n : Nat) : (m.countReg p off n).clk = m.clk := rfl
@[simp] theorem countReg_nfree (m : Module) (p off n : Nat) : (m.countReg p off n).nfree = m.nfree := rfl
@[simp] theorem countReg_live (m : Module) (p off n : Nat) : (m.countReg p off n).live = m.live := rfl
@[simp] theorem countReg_good (m : Module) (p off n : Nat) : (m.countReg p off n).good = m.good := rfl
@[simp] theorem countReg_snap (m : Module) (p off n : Nat) : (m.countReg p off n).snap = m.snap := rfl
@[simp] theorem countReg_pend (m : Module) (p off n : Nat) : (m.countReg p off n).pend = m.pend := rfl
@[simp] theorem countReg_unc (m : Module) (p off n : Nat) : (m.countReg p off n).unc = m.unc := rfl
@[simp] theorem countReg_ovr (m : Module) (p off n : Nat) : (m.countReg p off n).ovr = m.ovr := rfl
@[simp] theorem countReg_defer (m : Module) (p off n : Nat) : (m.countReg p off n).defer = m.defer := rfl
@[simp] theorem countReg_winWait (m : Module) (p off n : Nat) : (m.countReg p off n).winWait = m.winWait := rfl
@[simp] theorem countReg_ctrs (m : Module) (p off n : Nat) : (m.countReg p off n).ctrs = m.ctrs := rfl
@[simp] theorem countReg_cfgRec (m : Module) (p off n : Nat) : (m.countReg p off n).cfgRec = m.cfgRec := rfl
@[simp] theorem countReg_sel (m : Module) (p off n : Nat) : (m.countReg p off n).sel = m.sel := rfl
@[simp] theorem countReg_idx (m : Module) (p off n : Nat) : (m.countReg p off n).idx = m.idx := rfl
@[simp] theorem countReg_latch (m : Module) (p off n : Nat) : (m.countReg p off n).latch = m.latch := rfl
@[simp] theorem countReg_rc (m : Module) (p off n : Nat) : (m.countReg p off n).rc = m.rc := rfl
@[simp] theorem countReg_out (m : Module) (p off n : Nat) : (m.countReg p off n).out = m.out := rfl
@[simp] theorem countReg_sched (m : Module) (p off n : Nat) : (m.countReg p off n).sched = m.sched := rfl
@[simp] theorem countReg_ph (m : Module) (p off n : Nat) : (m.countReg p off n).ph = m.ph := rfl
@[simp] theorem countReg_rl (m : Module) (p off n : Nat) : (m.countReg p off n).rl = m.rl := rfl
@[simp] theorem countReg_adc (m : Module) (p off n : Nat) : (m.countReg p off n).adc = m.adc := rfl
@[simp] theorem countReg_cle (m : Module) (p off n : Nat) : (m.countReg p off n).cle = m.cle := rfl
@[simp] theorem countReg_tr (m : Module) (p off n : Nat) : (m.countReg p off n).tr = m.tr := rfl
@[simp] theorem countReg_ep (m : Module) (p off n : Nat) : (m.countReg p off n).ep = m.ep := rfl
@[simp] theorem countReg_cp (m : Module) (p off n : Nat) : (m.countReg p off n).cp = m.cp := rfl
@[simp] theorem countReg_gr (m : Module) (p off n : Nat) : (m.countReg p off n).gr = m.gr := rfl
@[simp] theorem countReg_xg (m : Module) (p off n : Nat) : (m.countReg p off n).xg = m.xg := rfl
@[simp] theorem countReg_fd (m : Module) (p off n : Nat) : (m.countReg p off n).fd = m.fd := rfl
@[simp] theorem countReg_sq (m : Module) (p off n : Nat) : (m.countReg p off n).sq = m.sq := rfl
@[simp] theorem countReg_pin (m : Module) (p off n : Nat) : (m.countReg p off n).pin = m.pin := rfl
@[simp] theorem countReg_bt (m : Module) (p off n : Nat) : (m.countReg p off n).bt = m.bt := rfl
@[simp] theorem countReg_th (m : Module) (p off n : Nat) : (m.countReg p off n).th = m.th := rfl
@[simp] theorem countReg_net (m : Module) (p off n : Nat) : (m.countReg p off n).net = m.net := rfl
@[simp] theorem countReg_bn (m : Module) (p off n : Nat) : (m.countReg p off n).bn = m.bn := rfl
@[simp] theorem countReg_pt (m : Module) (p off n : Nat) : (m.countReg p off n).pt = m.pt := rfl
@[simp] theorem countReg_twtPtr (m : Module) (p off n : Nat) : (m.countReg p off n).twtPtr = m.twtPtr := rfl
@[simp] theorem countReg_twc (m : Module) (p off n : Nat) : (m.countReg p off n).twc = m.twc := rfl
@[simp] theorem countReg_mem (m : Module) (p off n : Nat) : (m.countReg p off n).mem = m.mem := rfl
@[simp] theorem countReg_hw (m : Module) (p off n : Nat) : (m.countReg p off n).hw = m.hw := rfl
@[simp] theorem countReg_up (m : Module) (p off n : Nat) : (m.countReg p off n).up = m.up := rfl

/-! ### force -/

@[simp] theorem force_sys (m : Module) (k : Nat) (v : W32) : (m.force k v).sys = m.sys := rfl
@[simp] theorem force_lc (m : Module) (k : Nat) (v : W32) : (m.force k v).lc = m.lc := rfl
@[simp] theorem force_clk (m : Module) (k : Nat) (v : W32) : (m.force k v).clk = m.clk := rfl
@[simp] theorem force_nfree (m : Module) (k : Nat) (v : W32) : (m.force k v).nfree = m.nfree := rfl
@[simp] theorem force_regs (m : Module) (k : Nat) (v : W32) : (m.force k v).regs = m.regs := rfl
@[simp] theorem force_snap (m : Module) (k : Nat) (v : W32) : (m.force k v).snap = m.snap := rfl
@[simp] theorem force_pend (m : Module) (k : Nat) (v : W32) : (m.force k v).pend = m.pend := rfl
@[simp] theorem force_unc (m : Module) (k : Nat) (v : W32) : (m.force k v).unc = m.unc := rfl
@[simp] theorem force_ovr (m : Module) (k : Nat) (v : W32) : (m.force k v).ovr = m.ovr := rfl
@[simp] theorem force_defer (m : Module) (k : Nat) (v : W32) : (m.force k v).defer = m.defer := rfl
@[simp] theorem force_winWait (m : Module) (k : Nat) (v : W32) : (m.force k v).winWait = m.winWait := rfl
@[simp] theorem force_ctrs (m : Module) (k : Nat) (v : W32) : (m.force k v).ctrs = m.ctrs := rfl
@[simp] theorem force_cfgRec (m : Module) (k : Nat) (v : W32) : (m.force k v).cfgRec = m.cfgRec := rfl
@[simp] theorem force_sel (m : Module) (k : Nat) (v : W32) : (m.force k v).sel = m.sel := rfl
@[simp] theorem force_idx (m : Module) (k : Nat) (v : W32) : (m.force k v).idx = m.idx := rfl
@[simp] theorem force_latch (m : Module) (k : Nat) (v : W32) : (m.force k v).latch = m.latch := rfl
@[simp] theorem force_rc (m : Module) (k : Nat) (v : W32) : (m.force k v).rc = m.rc := rfl
@[simp] theorem force_out (m : Module) (k : Nat) (v : W32) : (m.force k v).out = m.out := rfl
@[simp] theorem force_sched (m : Module) (k : Nat) (v : W32) : (m.force k v).sched = m.sched := rfl
@[simp] theorem force_ph (m : Module) (k : Nat) (v : W32) : (m.force k v).ph = m.ph := rfl
@[simp] theorem force_rl (m : Module) (k : Nat) (v : W32) : (m.force k v).rl = m.rl := rfl
@[simp] theorem force_adc (m : Module) (k : Nat) (v : W32) : (m.force k v).adc = m.adc := rfl
@[simp] theorem force_cle (m : Module) (k : Nat) (v : W32) : (m.force k v).cle = m.cle := rfl
@[simp] theorem force_tr (m : Module) (k : Nat) (v : W32) : (m.force k v).tr = m.tr := rfl
@[simp] theorem force_ep (m : Module) (k : Nat) (v : W32) : (m.force k v).ep = m.ep := rfl
@[simp] theorem force_cp (m : Module) (k : Nat) (v : W32) : (m.force k v).cp = m.cp := rfl
@[simp] theorem force_gr (m : Module) (k : Nat) (v : W32) : (m.force k v).gr = m.gr := rfl
@[simp] theorem force_xg (m : Module) (k : Nat) (v : W32) : (m.force k v).xg = m.xg := rfl
@[simp] theorem force_fd (m : Module) (k : Nat) (v : W32) : (m.force k v).fd = m.fd := rfl
@[simp] theorem force_sq (m : Module) (k : Nat) (v : W32) : (m.force k v).sq = m.sq := rfl
@[simp] theorem force_pin (m : Module) (k : Nat) (v : W32) : (m.force k v).pin = m.pin := rfl
@[simp] theorem force_bt (m : Module) (k : Nat) (v : W32) : (m.force k v).bt = m.bt := rfl
@[simp] theorem force_th (m : Module) (k : Nat) (v : W32) : (m.force k v).th = m.th := rfl
@[simp] theorem force_net (m : Module) (k : Nat) (v : W32) : (m.force k v).net = m.net := rfl
@[simp] theorem force_bn (m : Module) (k : Nat) (v : W32) : (m.force k v).bn = m.bn := rfl
@[simp] theorem force_pt (m : Module) (k : Nat) (v : W32) : (m.force k v).pt = m.pt := rfl
@[simp] theorem force_twtPtr (m : Module) (k : Nat) (v : W32) : (m.force k v).twtPtr = m.twtPtr := rfl
@[simp] theorem force_twc (m : Module) (k : Nat) (v : W32) : (m.force k v).twc = m.twc := rfl
@[simp] theorem force_mem (m : Module) (k : Nat) (v : W32) : (m.force k v).mem = m.mem := rfl
@[simp] theorem force_hw (m : Module) (k : Nat) (v : W32) : (m.force k v).hw = m.hw := rfl
@[simp] theorem force_up (m : Module) (k : Nat) (v : W32) : (m.force k v).up = m.up := rfl

/-! ### setBoth -/

@[simp] theorem setBoth_sys (m : Module) (k : Nat) (v : W32) : (m.setBoth k v).sys = m.sys := rfl
@[simp] theorem setBoth_lc (m : Module) (k : Nat) (v : W32) : (m.setBoth k v).lc = m.lc := rfl
@[simp] theorem setBoth_clk (m : Module) (k : Nat) (v : W32) : (m.setBoth k v).clk = m.clk := rfl
@[simp] theorem setBoth_nfree (m : Module) (k : Nat) (v : W32) : (m.setBoth k v).nfree = m.nfree := rfl
@[simp] theorem setBoth_snap (m : Module) (k : Nat) (v : W32) : (m.setBoth k v).snap = m.snap := rfl
@[simp] theorem setBoth_pend (m : Module) (k : Nat) (v : W32) : (m.setBoth k v).pend = m.pend := rfl
@[simp] theorem setBoth_unc (m : Module) (k : Nat) (v : W32) : (m.setBoth k v).unc = m.unc := rfl
@[simp] theorem setBoth_ovr (m : Module) (k : Nat) (v : W32) : (m.setBoth k v).ovr = m.ovr := rfl
@[simp] theorem setBoth_defer (m : Module) (k : Nat) (v : W32) : (m.setBoth k v).defer = m.defer := rfl
@[simp] theorem setBoth_winWait (m : Module) (k : Nat) (v : W32) : (m.setBoth k v).winWait = m.winWait := rfl
@[simp] theorem setBoth_ctrs (m : Module) (k : Nat) (v : W32) : (m.setBoth k v).ctrs = m.ctrs := rfl
@[simp] theorem setBoth_cfgRec (m : Module) (k : Nat) (v : W32) : (m.setBoth k v).cfgRec = m.cfgRec := rfl
@[simp] theorem setBoth_sel (m : Module) (k : Nat) (v : W32) : (m.setBoth k v).sel = m.sel := rfl
@[simp] theorem setBoth_idx (m : Module) (k : Nat) (v : W32) : (m.setBoth k v).idx = m.idx := rfl
@[simp] theorem setBoth_latch (m : Module) (k : Nat) (v : W32) : (m.setBoth k v).latch = m.latch := rfl
@[simp] theorem setBoth_rc (m : Module) (k : Nat) (v : W32) : (m.setBoth k v).rc = m.rc := rfl
@[simp] theorem setBoth_out (m : Module) (k : Nat) (v : W32) : (m.setBoth k v).out = m.out := rfl
@[simp] theorem setBoth_sched (m : Module) (k : Nat) (v : W32) : (m.setBoth k v).sched = m.sched := rfl
@[simp] theorem setBoth_ph (m : Module) (k : Nat) (v : W32) : (m.setBoth k v).ph = m.ph := rfl
@[simp] theorem setBoth_rl (m : Module) (k : Nat) (v : W32) : (m.setBoth k v).rl = m.rl := rfl
@[simp] theorem setBoth_adc (m : Module) (k : Nat) (v : W32) : (m.setBoth k v).adc = m.adc := rfl
@[simp] theorem setBoth_cle (m : Module) (k : Nat) (v : W32) : (m.setBoth k v).cle = m.cle := rfl
@[simp] theorem setBoth_tr (m : Module) (k : Nat) (v : W32) : (m.setBoth k v).tr = m.tr := rfl
@[simp] theorem setBoth_ep (m : Module) (k : Nat) (v : W32) : (m.setBoth k v).ep = m.ep := rfl
@[simp] theorem setBoth_cp (m : Module) (k : Nat) (v : W32) : (m.setBoth k v).cp = m.cp := rfl
@[simp] theorem setBoth_gr (m : Module) (k : Nat) (v : W32) : (m.setBoth k v).gr = m.gr := rfl
@[simp] theorem setBoth_xg (m : Module) (k : Nat) (v : W32) : (m.setBoth k v).xg = m.xg := rfl
@[simp] theorem setBoth_fd (m : Module) (k : Nat) (v : W32) : (m.setBoth k v).fd = m.fd := rfl
@[simp] theorem setBoth_sq (m : Module) (k : Nat) (v : W32) : (m.setBoth k v).sq = m.sq := rfl
@[simp] theorem setBoth_pin (m : Module) (k : Nat) (v : W32) : (m.setBoth k v).pin = m.pin := rfl
@[simp] theorem setBoth_bt (m : Module) (k : Nat) (v : W32) : (m.setBoth k v).bt = m.bt := rfl
@[simp] theorem setBoth_th (m : Module) (k : Nat) (v : W32) : (m.setBoth k v).th = m.th := rfl
@[simp] theorem setBoth_net (m : Module) (k : Nat) (v : W32) : (m.setBoth k v).net = m.net := rfl
@[simp] theorem setBoth_bn (m : Module) (k : Nat) (v : W32) : (m.setBoth k v).bn = m.bn := rfl
@[simp] theorem setBoth_pt (m : Module) (k : Nat) (v : W32) : (m.setBoth k v).pt = m.pt := rfl
@[simp] theorem setBoth_twtPtr (m : Module) (k : Nat) (v : W32) : (m.setBoth k v).twtPtr = m.twtPtr := rfl
@[simp] theorem setBoth_twc (m : Module) (k : Nat) (v : W32) : (m.setBoth k v).twc = m.twc := rfl
@[simp] theorem setBoth_mem (m : Module) (k : Nat) (v : W32) : (m.setBoth k v).mem = m.mem := rfl
@[simp] theorem setBoth_hw (m : Module) (k : Nat) (v : W32) : (m.setBoth k v).hw = m.hw := rfl
@[simp] theorem setBoth_up (m : Module) (k : Nat) (v : W32) : (m.setBoth k v).up = m.up := rfl

/-! ### updBt -/

@[simp] theorem updBt_sys (m : Module) (i : Nat) (g : Batt → Batt) : (m.updBt i g).sys = m.sys := rfl
@[simp] theorem updBt_lc (m : Module) (i : Nat) (g : Batt → Batt) : (m.updBt i g).lc = m.lc := rfl
@[simp] theorem updBt_clk (m : Module) (i : Nat) (g : Batt → Batt) : (m.updBt i g).clk = m.clk := rfl
@[simp] theorem updBt_nfree (m : Module) (i : Nat) (g : Batt → Batt) : (m.updBt i g).nfree = m.nfree := rfl
@[simp] theorem updBt_regs (m : Module) (i : Nat) (g : Batt → Batt) : (m.updBt i g).regs = m.regs := rfl
@[simp] theorem updBt_live (m : Module) (i : Nat) (g : Batt → Batt) : (m.updBt i g).live = m.live := rfl
@[simp] theorem updBt_good (m : Module) (i : Nat) (g : Batt → Batt) : (m.updBt i g).good = m.good := rfl
@[simp] theorem updBt_snap (m : Module) (i : Nat) (g : Batt → Batt) : (m.updBt i g).snap = m.snap := rfl
@[simp] theorem updBt_pend (m : Module) (i : Nat) (g : Batt → Batt) : (m.updBt i g).pend = m.pend := rfl
@[simp] theorem updBt_unc (m : Module) (i : Nat) (g : Batt → Batt) : (m.updBt i g).unc = m.unc := rfl
@[simp] theorem updBt_ovr (m : Module) (i : Nat) (g : Batt → Batt) : (m.updBt i g).ovr = m.ovr := rfl
@[simp] theorem updBt_defer (m : Module) (i : Nat) (g : Batt → Batt) : (m.updBt i g).defer = m.defer := rfl
@[simp] theorem updBt_winWait (m : Module) (i : Nat) (g : Batt → Batt) : (m.updBt i g).winWait = m.winWait := rfl
@[simp] theorem updBt_ctrs (m : Module) (i : Nat) (g : Batt → Batt) : (m.updBt i g).ctrs = m.ctrs := rfl
@[simp] theorem updBt_cfgRec (m : Module) (i : Nat) (g : Batt → Batt) : (m.updBt i g).cfgRec = m.cfgRec := rfl
@[simp] theorem updBt_sel (m : Module) (i : Nat) (g : Batt → Batt) : (m.updBt i g).sel = m.sel := rfl
@[simp] theorem updBt_idx (m : Module) (i : Nat) (g : Batt → Batt) : (m.updBt i g).idx = m.idx := rfl
@[simp] theorem updBt_latch (m : Module) (i : Nat) (g : Batt → Batt) : (m.updBt i g).latch = m.latch := rfl
@[simp] theorem updBt_rc (m : Module) (i : Nat) (g : Batt → Batt) : (m.updBt i g).rc = m.rc := rfl
@[simp] theorem updBt_out (m : Module) (i : Nat) (g : Batt → Batt) : (m.updBt i g).out = m.out := rfl
@[simp] theorem updBt_sched (m : Module) (i : Nat) (g : Batt → Batt) : (m.updBt i g).sched = m.sched := rfl
@[simp] theorem updBt_ph (m : Module) (i : Nat) (g : Batt → Batt) : (m.updBt i g).ph = m.ph := rfl
@[simp] theorem updBt_rl (m : Module) (i : Nat) (g : Batt → Batt) : (m.updBt i g).rl = m.rl := rfl
@[simp] theorem updBt_adc (m : Module) (i : Nat) (g : Batt → Batt) : (m.updBt i g).adc = m.adc := rfl
@[simp] theorem updBt_cle (m : Module) (i : Nat) (g : Batt → Batt) : (m.updBt i g).cle = m.cle := rfl
@[simp] theorem updBt_tr (m : Module) (i : Nat) (g : Batt → Batt) : (m.updBt i g).tr = m.tr := rfl
@[simp] theorem updBt_ep (m : Module) (i : Nat) (g : Batt → Batt) : (m.updBt i g).ep = m.ep := rfl
@[simp] theorem updBt_cp (m : Module) (i : Nat) (g : Batt → Batt) : (m.updBt i g).cp = m.cp := rfl
@[simp] theorem updBt_gr (m : Module) (i : Nat) (g : Batt → Batt) : (m.updBt i g).gr = m.gr := rfl
@[simp] theorem updBt_xg (m : Module) (i : Nat) (g : Batt → Batt) : (m.updBt i g).xg = m.xg := rfl
@[simp] theorem updBt_fd (m : Module) (i : Nat) (g : Batt → Batt) : (m.updBt i g).fd = m.fd := rfl
@[simp] theorem updBt_sq (m : Module) (i : Nat) (g : Batt → Batt) : (m.updBt i g).sq = m.sq := rfl
@[simp] theorem updBt_pin (m : Module) (i : Nat) (g : Batt → Batt) : (m.updBt i g).pin = m.pin := rfl
@[simp] theorem updBt_th (m : Module) (i : Nat) (g : Batt → Batt) : (m.updBt i g).th = m.th := rfl
@[simp] theorem updBt_net (m : Module) (i : Nat) (g : Batt → Batt) : (m.updBt i g).net = m.net := rfl
@[simp] theorem updBt_bn (m : Module) (i : Nat) (g : Batt → Batt) : (m.updBt i g).bn = m.bn := rfl
@[simp] theorem updBt_pt (m : Module) (i : Nat) (g : Batt → Batt) : (m.updBt i g).pt = m.pt := rfl
@[simp] theorem updBt_twtPtr (m : Module) (i : Nat) (g : Batt → Batt) : (m.updBt i g).twtPtr = m.twtPtr := rfl
@[simp] theorem updBt_twc (m : Module) (i : Nat) (g : Batt → Batt) : (m.updBt i g).twc = m.twc := rfl
@[simp] theorem updBt_mem (m : Module) (i : Nat) (g : Batt → Batt) : (m.updBt i g).mem = m.mem := rfl
@[simp] theorem updBt_hw (m : Module) (i : Nat) (g : Batt → Batt) : (m.updBt i g).hw = m.hw := rfl
@[simp] theorem updBt_up (m : Module) (i : Nat) (g : Batt → Batt) : (m.updBt i g).up = m.up := rfl
@[simp] theorem updBt_bt (m : Module) (i : Nat) (g : Batt → Batt) : (m.updBt i g).bt = upd m.bt i g := rfl
@[simp] theorem updBt_get (m : Module) (i : Nat) (g : Batt → Batt) (p : Nat) (f : Fld) : (m.updBt i g).get p f = m.get p f := rfl
@[simp] theorem updBt_reg (m : Module) (i : Nat) (g : Batt → Batt) (p off : Nat) : (m.updBt i g).reg p off = m.reg p off := rfl
@[simp] theorem updBt_liveKey (m : Module) (i : Nat) (g : Batt → Batt) (k : Nat) : (m.updBt i g).liveKey k = m.liveKey k := rfl
@[simp] theorem updBt_cfg (m : Module) (i : Nat) (g : Batt → Batt) (p : Nat) (f : Fld) : (m.updBt i g).cfg p f = m.cfg p f := rfl

/-! ### updBn -/

@[simp] theorem updBn_sys (m : Module) (g : Benuf → Benuf) : (m.updBn g).sys = m.sys := rfl
@[simp] theorem updBn_lc (m : Module) (g : Benuf → Benuf) : (m.updBn g).lc = m.lc := rfl
@[simp] theorem updBn_clk (m : Module) (g : Benuf → Benuf) : (m.updBn g).clk = m.clk := rfl
@[simp] theorem updBn_nfree (m : Module) (g : Benuf → Benuf) : (m.updBn g).nfree = m.nfree := rfl
@[simp] theorem updBn_regs (m : Module) (g : Benuf → Benuf) : (m.updBn g).regs = m.regs := rfl
@[simp] theorem updBn_live (m : Module) (g : Benuf → Benuf) : (m.updBn g).live = m.live := rfl
@[simp] theorem updBn_good (m : Module) (g : Benuf → Benuf) : (m.updBn g).good = m.good := rfl
@[simp] theorem updBn_snap (m : Module) (g : Benuf → Benuf) : (m.updBn g).snap = m.snap := rfl
@[simp] theorem updBn_pend (m : Module) (g : Benuf → Benuf) : (m.updBn g).pend = m.pend := rfl
@[simp] theorem updBn_unc (m : Module) (g : Benuf → Benuf) : (m.updBn g).unc = m.unc := rfl
@[simp] theorem updBn_ovr (m : Module) (g : Benuf → Benuf) : (m.updBn g).ovr = m.ovr := rfl
@[simp] theorem updBn_defer (m : Module) (g : Benuf → Benuf) : (m.updBn g).defer = m.defer := rfl
@[simp] theorem updBn_winWait (m : Module) (g : Benuf → Benuf) : (m.updBn g).winWait = m.winWait := rfl
@[simp] theorem updBn_ctrs (m : Module) (g : Benuf → Benuf) : (m.updBn g).ctrs = m.ctrs := rfl
@[simp] theorem updBn_cfgRec (m : Module) (g : Benuf → Benuf) : (m.updBn g).cfgRec = m.cfgRec := rfl
@[simp] theorem updBn_sel (m : Module) (g : Benuf → Benuf) : (m.updBn g).sel = m.sel := rfl
@[simp] theorem updBn_idx (m : Module) (g : Benuf → Benuf) : (m.updBn g).idx = m.idx := rfl
@[simp] theorem updBn_latch (m : Module) (g : Benuf → Benuf) : (m.updBn g).latch = m.latch := rfl
@[simp] theorem updBn_rc (m : Module) (g : Benuf → Benuf) : (m.updBn g).rc = m.rc := rfl
@[simp] theorem updBn_out (m : Module) (g : Benuf → Benuf) : (m.updBn g).out = m.out := rfl
@[simp] theorem updBn_sched (m : Module) (g : Benuf → Benuf) : (m.updBn g).sched = m.sched := rfl
@[simp] theorem updBn_ph (m : Module) (g : Benuf → Benuf) : (m.updBn g).ph = m.ph := rfl
@[simp] theorem updBn_rl (m : Module) (g : Benuf → Benuf) : (m.updBn g).rl = m.rl := rfl
@[simp] theorem updBn_adc (m : Module) (g : Benuf → Benuf) : (m.updBn g).adc = m.adc := rfl
@[simp] theorem updBn_cle (m : Module) (g : Benuf → Benuf) : (m.updBn g).cle = m.cle := rfl
@[simp] theorem updBn_tr (m : Module) (g : Benuf → Benuf) : (m.updBn g).tr = m.tr := rfl
@[simp] theorem updBn_ep (m : Module) (g : Benuf → Benuf) : (m.updBn g).ep = m.ep := rfl
@[simp] theorem updBn_cp (m : Module) (g : Benuf → Benuf) : (m.updBn g).cp = m.cp := rfl
@[simp] theorem updBn_gr (m : Module) (g : Benuf → Benuf) : (m.updBn g).gr = m.gr := rfl
@[simp] theorem updBn_xg (m : Module) (g : Benuf → Benuf) : (m.updBn g).xg = m.xg := rfl
@[simp] theorem updBn_fd (m : Module) (g : Benuf → Benuf) : (m.updBn g).fd = m.fd := rfl
@[simp] theorem updBn_sq (m : Module) (g : Benuf → Benuf) : (m.updBn g).sq = m.sq := rfl
@[simp] theorem updBn_pin (m : Module) (g : Benuf → Benuf) : (m.updBn g).pin = m.pin := rfl
@[simp] theorem updBn_bt (m : Module) (g : Benuf → Benuf) : (m.updBn g).bt = m.bt := rfl
@[simp] theorem updBn_th (m : Module) (g : Benuf → Benuf) : (m.updBn g).th = m.th := rfl
@[simp] theorem updBn_net (m : Module) (g : Benuf → Benuf) : (m.updBn g).net = m.net := rfl
@[simp] theorem updBn_pt (m : Module) (g : Benuf → Benuf) : (m.updBn g).pt = m.pt := rfl
@[simp] theorem updBn_twtPtr (m : Module) (g : Benuf → Benuf) : (m.updBn g).twtPtr = m.twtPtr := rfl
@[simp] theorem updBn_twc (m : Module) (g : Benuf → Benuf) : (m.updBn g).twc = m.twc := rfl
@[simp] theorem updBn_mem (m : Module) (g : Benuf → Benuf) : (m.updBn g).mem = m.mem := rfl
@[simp] theorem updBn_hw (m : Module) (g : Benuf → Benuf) : (m.updBn g).hw = m.hw := rfl
@[simp] theorem updBn_up (m : Module) (g : Benuf → Benuf) : (m.updBn g).up = m.up := rfl
@[simp] theorem updBn_bn (m : Module) (g : Benuf → Benuf) : (m.updBn g).bn = g m.bn := rfl
@[simp] theorem updBn_get (m : Module) (g : Benuf → Benuf) (p : Nat) (f : Fld) : (m.updBn g).get p f = m.get p f := rfl
@[simp] theorem updBn_reg (m : Module) (g : Benuf → Benuf) (p off : Nat) : (m.updBn g).reg p off = m.reg p off := rfl
@[simp] theorem updBn_liveKey (m : Module) (g : Benuf → Benuf) (k : Nat) : (m.updBn g).liveKey k = m.liveKey k := rfl
@[simp] theorem updBn_cfg (m : Module) (g : Benuf → Benuf) (p : Nat) (f : Fld) : (m.updBn g).cfg p f = m.cfg p f := rfl

/-! ### updGr -/

@[simp] theorem updGr_sys (m : Module) (g : Grove → Grove) : (m.updGr g).sys = m.sys := rfl
@[simp] theorem updGr_lc (m : Module) (g : Grove → Grove) : (m.updGr g).lc = m.lc := rfl
@[simp] theorem updGr_clk (m : Module) (g : Grove → Grove) : (m.updGr g).clk = m.clk := rfl
@[simp] theorem updGr_nfree (m : Module) (g : Grove → Grove) : (m.updGr g).nfree = m.nfree := rfl
@[simp] theorem updGr_regs (m : Module) (g : Grove → Grove) : (m.updGr g).regs = m.regs := rfl
@[simp] theorem updGr_live (m : Module) (g : Grove → Grove) : (m.updGr g).live = m.live := rfl
@[simp] theorem updGr_good (m : Module) (g : Grove → Grove) : (m.updGr g).good = m.good := rfl
@[simp] theorem updGr_snap (m : Module) (g : Grove → Grove) : (m.updGr g).snap = m.snap := rfl
@[simp] theorem updGr_pend (m : Module) (g : Grove → Grove) : (m.updGr g).pend = m.pend := rfl
@[simp] theorem updGr_unc (m : Module) (g : Grove → Grove) : (m.updGr g).unc = m.unc := rfl
@[simp] theorem updGr_ovr (m : Module) (g : Grove → Grove) : (m.updGr g).ovr = m.ovr := rfl
@[simp] theorem updGr_defer (m : Module) (g : Grove → Grove) : (m.updGr g).defer = m.defer := rfl
@[simp] theorem updGr_winWait (m : Module) (g : Grove → Grove) : (m.updGr g).winWait = m.winWait := rfl
@[simp] theorem updGr_ctrs (m : Module) (g : Grove → Grove) : (m.updGr g).ctrs = m.ctrs := rfl
@[simp] theorem updGr_cfgRec (m : Module) (g : Grove → Grove) : (m.updGr g).cfgRec = m.cfgRec := rfl
@[simp] theorem updGr_sel (m : Module) (g : Grove → Grove) : (m.updGr g).sel = m.sel := rfl
@[simp] theorem updGr_idx (m : Module) (g : Grove → Grove) : (m.updGr g).idx = m.idx := rfl
@[simp] theorem updGr_latch (m : Module) (g : Grove → Grove) : (m.updGr g).latch = m.latch := rfl
@[simp] theorem updGr_rc (m : Module) (g : Grove → Grove) : (m.updGr g).rc = m.rc := rfl
@[simp] theorem updGr_out (m : Module) (g : Grove → Grove) : (m.updGr g).out = m.out := rfl
@[simp] theorem updGr_sched (m : Module) (g : Grove → Grove) : (m.updGr g).sched = m.sched := rfl
@[simp] theorem updGr_ph (m : Module) (g : Grove → Grove) : (m.updGr g).ph = m.ph := rfl
@[simp] theorem updGr_rl (m : Module) (g : Grove → Grove) : (m.updGr g).rl = m.rl := rfl
@[simp] theorem updGr_adc (m : Module) (g : Grove → Grove) : (m.updGr g).adc = m.adc := rfl
@[simp] theorem updGr_cle (m : Module) (g : Grove → Grove) : (m.updGr g).cle = m.cle := rfl
@[simp] theorem updGr_tr (m : Module) (g : Grove → Grove) : (m.updGr g).tr = m.tr := rfl
@[simp] theorem updGr_ep (m : Module) (g : Grove → Grove) : (m.updGr g).ep = m.ep := rfl
@[simp] theorem updGr_cp (m : Module) (g : Grove → Grove) : (m.updGr g).cp = m.cp := rfl
@[simp] theorem updGr_xg (m : Module) (g : Grove → Grove) : (m.updGr g).xg = m.xg := rfl
@[simp] theorem updGr_fd (m : Module) (g : Grove → Grove) : (m.updGr g).fd = m.fd := rfl
@[simp] theorem updGr_sq (m : Module) (g : Grove → Grove) : (m.updGr g).sq = m.sq := rfl
@[simp] theorem updGr_pin (m : Module) (g : Grove → Grove) : (m.updGr g).pin = m.pin := rfl
@[simp] theorem updGr_bt (m : Module) (g : Grove → Grove) : (m.updGr g).bt = m.bt := rfl
@[simp] theorem updGr_th (m : Module) (g : Grove → Grove) : (m.updGr g).th = m.th := rfl
@[simp] theorem updGr_net (m : Module) (g : Grove → Grove) : (m.updGr g).net = m.net := rfl
@[simp] theorem updGr_bn (m : Module) (g : Grove → Grove) : (m.updGr g).bn = m.bn := rfl
@[simp] theorem updGr_pt (m : Module) (g : Grove → Grove) : (m.updGr g).pt = m.pt := rfl
@[simp] theorem updGr_twtPtr (m : Module) (g : Grove → Grove) : (m.updGr g).twtPtr = m.twtPtr := rfl
@[simp] theorem updGr_twc (m : Module) (g : Grove → Grove) : (m.updGr g).twc = m.twc := rfl
@[simp] theorem updGr_mem (m : Module) (g : Grove → Grove) : (m.updGr g).mem = m.mem := rfl
@[simp] theorem updGr_hw (m : Module) (g : Grove → Grove) : (m.updGr g).hw = m.hw := rfl
@[simp] theorem updGr_up (m : Module) (g : Grove → Grove) : (m.updGr g).up = m.up := rfl
@[simp] theorem updGr_gr (m : Module) (g : Grove → Grove) : (m.updGr g).gr = g m.gr := rfl
@[simp] theorem updGr_get (m : Module) (g : Grove → Grove) (p : Nat) (f : Fld) : (m.updGr g).get p f = m.get p f := rfl
@[simp] theorem updGr_reg (m : Module) (g : Grove → Grove) (p off : Nat) : (m.updGr g).reg p off = m.reg p off := rfl
@[simp] theorem updGr_liveKey (m : Module) (g : Grove → Grove) (k : Nat) : (m.updGr g).liveKey k = m.liveKey k := rfl
@[simp] theorem updGr_cfg (m : Module) (g : Grove → Grove) (p : Nat) (f : Fld) : (m.updGr g).cfg p f = m.cfg p f := rfl

/-! ### updCp -/

@[simp] theorem updCp_sys (m : Module) (g : Cap → Cap) : (m.updCp g).sys = m.sys := rfl
@[simp] theorem updCp_lc (m : Module) (g : Cap → Cap) : (m.updCp g).lc = m.lc := rfl
@[simp] theorem updCp_clk (m : Module) (g : Cap → Cap) : (m.updCp g).clk = m.clk := rfl
@[simp] theorem updCp_nfree (m : Module) (g : Cap → Cap) : (m.updCp g).nfree = m.nfree := rfl
@[simp] theorem updCp_regs (m : Module) (g : Cap → Cap) : (m.updCp g).regs = m.regs := rfl
@[simp] theorem updCp_live (m : Module) (g : Cap → Cap) : (m.updCp g).live = m.live := rfl
@[simp] theorem updCp_good (m : Module) (g : Cap → Cap) : (m.updCp g).good = m.good := rfl
@[simp] theorem updCp_snap (m : Module) (g : Cap → Cap) : (m.updCp g).snap = m.snap := rfl
@[simp] theorem updCp_pend (m : Module) (g : Cap → Cap) : (m.updCp g).pend = m.pend := rfl
@[simp] theorem updCp_unc (m : Module) (g : Cap → Cap) : (m.updCp g).unc = m.unc := rfl
@[simp] theorem updCp_ovr (m : Module) (g : Cap → Cap) : (m.updCp g).ovr = m.ovr := rfl
@[simp] theorem updCp_defer (m : Module) (g : Cap → Cap) : (m.updCp g).defer = m.defer := rfl
@[simp] theorem updCp_winWait (m : Module) (g : Cap → Cap) : (m.updCp g).winWait = m.winWait := rfl
@[simp] theorem updCp_ctrs (m : Module) (g : Cap → Cap) : (m.updCp g).ctrs = m.ctrs := rfl
@[simp] theorem updCp_cfgRec (m : Module) (g : Cap → Cap) : (m.updCp g).cfgRec = m.cfgRec := rfl
@[simp] theorem updCp_sel (m : Module) (g : Cap → Cap) : (m.updCp g).sel = m.sel := rfl
@[simp] theorem updCp_idx (m : Module) (g : Cap → Cap) : (m.updCp g).idx = m.idx := rfl
@[simp] theorem updCp_latch (m : Module) (g : Cap → Cap) : (m.updCp g).latch = m.latch := rfl
@[simp] theorem updCp_rc (m : Module) (g : Cap → Cap) : (m.updCp g).rc = m.rc := rfl
@[simp] theorem updCp_out (m : Module) (g : Cap → Cap) : (m.updCp g).out = m.out := rfl
@[simp] theorem updCp_sched (m : Module) (g : Cap → Cap) : (m.updCp g).sched = m.sched := rfl
@[simp] theorem updCp_ph (m : Module) (g : Cap → Cap) : (m.updCp g).ph = m.ph := rfl
@[simp] theorem updCp_rl (m : Module) (g : Cap → Cap) : (m.updCp g).rl = m.rl := rfl
@[simp] theorem updCp_adc (m : Module) (g : Cap → Cap) : (m.updCp g).adc = m.adc := rfl
@[simp] theorem updCp_cle (m : Module) (g : Cap → Cap) : (m.updCp g).cle = m.cle := rfl
@[simp] theorem updCp_tr (m : Module) (g : Cap → Cap) : (m.updCp g).tr = m.tr := rfl
@[simp] theorem updCp_ep (m : Module) (g : Cap → Cap) : (m.updCp g).ep = m.ep := rfl
@[simp] theorem updCp_gr (m : Module) (g : Cap → Cap) : (m.updCp g).gr = m.gr := rfl
@[simp] theorem updCp_xg (m : Module) (g : Cap → Cap) : (m.updCp g).xg = m.xg := rfl
@[simp] theorem updCp_fd (m : Module) (g : Cap → Cap) : (m.updCp g).fd = m.fd := rfl
@[simp] theorem updCp_sq (m : Module) (g : Cap → Cap) : (m.updCp g).sq = m.sq := rfl
@[simp] theorem updCp_pin (m : Module) (g : Cap → Cap) : (m.updCp g).pin = m.pin := rfl
@[simp] theorem updCp_bt (m : Module) (g : Cap → Cap) : (m.updCp g).bt = m.bt := rfl
@[simp] theorem updCp_th (m : Module) (g : Cap → Cap) : (m.updCp g).th = m.th := rfl
@[simp] theorem updCp_net (m : Module) (g : Cap → Cap) : (m.updCp g).net = m.net := rfl
@[simp] theorem updCp_bn (m : Module) (g : Cap → Cap) : (m.updCp g).bn = m.bn := rfl
@[simp] theorem updCp_pt (m : Module) (g : Cap → Cap) : (m.updCp g).pt = m.pt := rfl
@[simp] theorem updCp_twtPtr (m : Module) (g : Cap → Cap) : (m.updCp g).twtPtr = m.twtPtr := rfl
@[simp] theorem updCp_twc (m : Module) (g : Cap → Cap) : (m.updCp g).twc = m.twc := rfl
@[simp] theorem updCp_mem (m : Module) (g : Cap → Cap) : (m.updCp g).mem = m.mem := rfl
@[simp] theorem updCp_hw (m : Module) (g : Cap → Cap) : (m.updCp g).hw = m.hw := rfl
@[simp] theorem updCp_up (m : Module) (g : Cap → Cap) : (m.updCp g).up = m.up := rfl
@[simp] theorem updCp_cp (m : Module) (g : Cap → Cap) : (m.updCp g).cp = g m.cp := rfl
@[simp] theorem updCp_get (m : Module) (g : Cap → Cap) (p : Nat) (f : Fld) : (m.updCp g).get p f = m.get p f := rfl
@[simp] theorem updCp_reg (m : Module) (g : Cap → Cap) (p off : Nat) : (m.updCp g).reg p off = m.reg p off := rfl
@[simp] theorem updCp_liveKey (m : Module) (g : Cap → Cap) (k : Nat) : (m.updCp g).liveKey k = m.liveKey k := rfl
@[simp] theorem updCp_cfg (m : Module) (g : Cap → Cap) (p : Nat) (f : Fld) : (m.updCp g).cfg p f = m.cfg p f := rfl

/-! ### updEp -/

@[simp] theorem updEp_sys (m : Module) (g : Epe → Epe) : (m.updEp g).sys = m.sys := rfl
@[simp] theorem updEp_lc (m : Module) (g : Epe → Epe) : (m.updEp g).lc = m.lc := rfl
@[simp] theorem updEp_clk (m : Module) (g : Epe → Epe) : (m.updEp g).clk = m.clk := rfl
@[simp] theorem updEp_nfree (m : Module) (g : Epe → Epe) : (m.updEp g).nfree = m.nfree := rfl
@[simp] theorem updEp_regs (m : Module) (g : Epe → Epe) : (m.updEp g).regs = m.regs := rfl
@[simp] theorem updEp_live (m : Module) (g : Epe → Epe) : (m.updEp g).live = m.live := rfl
@[simp] theorem updEp_good (m : Module) (g : Epe → Epe) : (m.updEp g).good = m.good := rfl
@[simp] theorem updEp_snap (m : Module) (g : Epe → Epe) : (m.updEp g).snap = m.snap := rfl
@[simp] theorem updEp_pend (m : Module) (g : Epe → Epe) : (m.updEp g).pend = m.pend := rfl
@[simp] theorem updEp_unc (m : Module) (g : Epe → Epe) : (m.updEp g).unc = m.unc := rfl
@[simp] theorem updEp_ovr (m : Module) (g : Epe → Epe) : (m.updEp g).ovr = m.ovr := rfl
@[simp] theorem updEp_defer (m : Module) (g : Epe → Epe) : (m.updEp g).defer = m.defer := rfl
@[simp] theorem updEp_winWait (m : Module) (g : Epe → Epe) : (m.updEp g).winWait = m.winWait := rfl
@[simp] theorem updEp_ctrs (m : Module) (g : Epe → Epe) : (m.updEp g).ctrs = m.ctrs := rfl
@[simp] theorem updEp_cfgRec (m : Module) (g : Epe → Epe) : (m.updEp g).cfgRec = m.cfgRec := rfl
@[simp] theorem updEp_sel (m : Module) (g : Epe → Epe) : (m.updEp g).sel = m.sel := rfl
@[simp] theorem updEp_idx (m : Module) (g : Epe → Epe) : (m.updEp g).idx = m.idx := rfl
@[simp] theorem updEp_latch (m : Module) (g : Epe → Epe) : (m.updEp g).latch = m.latch := rfl
@[simp] theorem updEp_rc (m : Module) (g : Epe → Epe) : (m.updEp g).rc = m.rc := rfl
@[simp] theorem updEp_out (m : Module) (g : Epe → Epe) : (m.updEp g).out = m.out := rfl
@[simp] theorem updEp_sched (m : Module) (g : Epe → Epe) : (m.updEp g).sched = m.sched := rfl
@[simp] theorem updEp_ph (m : Module) (g : Epe → Epe) : (m.updEp g).ph = m.ph := rfl
@[simp] theorem updEp_rl (m : Module) (g : Epe → Epe) : (m.updEp g).rl = m.rl := rfl
@[simp] theorem updEp_adc (m : Module) (g : Epe → Epe) : (m.updEp g).adc = m.adc := rfl
@[simp] theorem updEp_cle (m : Module) (g : Epe → Epe) : (m.updEp g).cle = m.cle := rfl
@[simp] theorem updEp_tr (m : Module) (g : Epe → Epe) : (m.updEp g).tr = m.tr := rfl
@[simp] theorem updEp_cp (m : Module) (g : Epe → Epe) : (m.updEp g).cp = m.cp := rfl
@[simp] theorem updEp_gr (m : Module) (g : Epe → Epe) : (m.updEp g).gr = m.gr := rfl
@[simp] theorem updEp_xg (m : Module) (g : Epe → Epe) : (m.updEp g).xg = m.xg := rfl
@[simp] theorem updEp_fd (m : Module) (g : Epe → Epe) : (m.updEp g).fd = m.fd := rfl
@[simp] theorem updEp_sq (m : Module) (g : Epe → Epe) : (m.updEp g).sq = m.sq := rfl
@[simp] theorem updEp_pin (m : Module) (g : Epe → Epe) : (m.updEp g).pin = m.pin := rfl
@[simp] theorem updEp_bt (m : Module) (g : Epe → Epe) : (m.updEp g).bt = m.bt := rfl
@[simp] theorem updEp_th (m : Module) (g : Epe → Epe) : (m.updEp g).th = m.th := rfl
@[simp] theorem updEp_net (m : Module) (g : Epe → Epe) : (m.updEp g).net = m.net := rfl
@[simp] theorem updEp_bn (m : Module) (g : Epe → Epe) : (m.updEp g).bn = m.bn := rfl
@[simp] theorem updEp_pt (m : Module) (g : Epe → Epe) : (m.updEp g).pt = m.pt := rfl
@[simp] theorem updEp_twtPtr (m : Module) (g : Epe → Epe) : (m.updEp g).twtPtr = m.twtPtr := rfl
@[simp] theorem updEp_twc (m : Module) (g : Epe → Epe) : (m.updEp g).twc = m.twc := rfl
@[simp] theorem updEp_mem (m : Module) (g : Epe → Epe) : (m.updEp g).mem = m.mem := rfl
@[simp] theorem updEp_hw (m : Module) (g : Epe → Epe) : (m.updEp g).hw = m.hw := rfl
@[simp] theorem updEp_up (m : Module) (g : Epe → Epe) : (m.updEp g).up = m.up := rfl
@[simp] theorem updEp_ep (m : Module) (g : Epe → Epe) : (m.updEp g).ep = g m.ep := rfl
@[simp] theorem updEp_get (m : Module) (g : Epe → Epe) (p : Nat) (f : Fld) : (m.updEp g).get p f = m.get p f := rfl
@[simp] theorem updEp_reg (m : Module) (g : Epe → Epe) (p off : Nat) : (m.updEp g).reg p off = m.reg p off := rfl
@[simp] theorem updEp_liveKey (m : Module) (g : Epe → Epe) (k : Nat) : (m.updEp g).liveKey k = m.liveKey k := rfl
@[simp] theorem updEp_cfg (m : Module) (g : Epe → Epe) (p : Nat) (f : Fld) : (m.updEp g).cfg p f = m.cfg p f := rfl

/-! ### updFd -/

@[simp] theorem updFd_sys (m : Module) (i : Nat) (g : Feed → Feed) : (m.updFd i g).sys = m.sys := rfl
@[simp] theorem updFd_lc (m : Module) (i : Nat) (g : Feed → Feed) : (m.updFd i g).lc = m.lc := rfl
@[simp] theorem updFd_clk (m : Module) (i : Nat) (g : Feed → Feed) : (m.updFd i g).clk = m.clk := rfl
@[simp] theorem updFd_nfree (m : Module) (i : Nat) (g : Feed → Feed) : (m.updFd i g).nfree = m.nfree := rfl
@[simp] theorem updFd_regs (m : Module) (i : Nat) (g : Feed → Feed) : (m.updFd i g).regs = m.regs := rfl
@[simp] theorem updFd_live (m : Module) (i : Nat) (g : Feed → Feed) : (m.updFd i g).live = m.live := rfl
@[simp] theorem updFd_good (m : Module) (i : Nat) (g : Feed → Feed) : (m.updFd i g).good = m.good := rfl
@[simp] theorem updFd_snap (m : Module) (i : Nat) (g : Feed → Feed) : (m.updFd i g).snap = m.snap := rfl
@[simp] theorem updFd_pend (m : Module) (i : Nat) (g : Feed → Feed) : (m.updFd i g).pend = m.pend := rfl
@[simp] theorem updFd_unc (m : Module) (i : Nat) (g : Feed → Feed) : (m.updFd i g).unc = m.unc := rfl
@[simp] theorem updFd_ovr (m : Module) (i : Nat) (g : Feed → Feed) : (m.updFd i g).ovr = m.ovr := rfl
@[simp] theorem updFd_defer (m : Module) (i : Nat) (g : Feed → Feed) : (m.updFd i g).defer = m.defer := rfl
@[simp] theorem updFd_winWait (m : Module) (i : Nat) (g : Feed → Feed) : (m.updFd i g).winWait = m.winWait := rfl
@[simp] theorem updFd_ctrs (m : Module) (i : Nat) (g : Feed → Feed) : (m.updFd i g).ctrs = m.ctrs := rfl
@[simp] theorem updFd_cfgRec (m : Module) (i : Nat) (g : Feed → Feed) : (m.updFd i g).cfgRec = m.cfgRec := rfl
@[simp] theorem updFd_sel (m : Module) (i : Nat) (g : Feed → Feed) : (m.updFd i g).sel = m.sel := rfl
@[simp] theorem updFd_idx (m : Module) (i : Nat) (g : Feed → Feed) : (m.updFd i g).idx = m.idx := rfl
@[simp] theorem updFd_latch (m : Module) (i : Nat) (g : Feed → Feed) : (m.updFd i g).latch = m.latch := rfl
@[simp] theorem updFd_rc (m : Module) (i : Nat) (g : Feed → Feed) : (m.updFd i g).rc = m.rc := rfl
@[simp] theorem updFd_out (m : Module) (i : Nat) (g : Feed → Feed) : (m.updFd i g).out = m.out := rfl
@[simp] theorem updFd_sched (m : Module) (i : Nat) (g : Feed → Feed) : (m.updFd i g).sched = m.sched := rfl
@[simp] theorem updFd_ph (m : Module) (i : Nat) (g : Feed → Feed) : (m.updFd i g).ph = m.ph := rfl
@[simp] theorem updFd_rl (m : Module) (i : Nat) (g : Feed → Feed) : (m.updFd i g).rl = m.rl := rfl
@[simp] theorem updFd_adc (m : Module) (i : Nat) (g : Feed → Feed) : (m.updFd i g).adc = m.adc := rfl
@[simp] theorem updFd_cle (m : Module) (i : Nat) (g : Feed → Feed) : (m.updFd i g).cle = m.cle := rfl
@[simp] theorem updFd_tr (m : Module) (i : Nat) (g : Feed → Feed) : (m.updFd i g).tr = m.tr := rfl
@[simp] theorem updFd_ep (m : Module) (i : Nat) (g : Feed → Feed) : (m.updFd i g).ep = m.ep := rfl
@[simp] theorem updFd_cp (m : Module) (i : Nat) (g : Feed → Feed) : (m.updFd i g).cp = m.cp := rfl
@[simp] theorem updFd_gr (m : Module) (i : Nat) (g : Feed → Feed) : (m.updFd i g).gr = m.gr := rfl
@[simp] theorem updFd_xg (m : Module) (i : Nat) (g : Feed → Feed) : (m.updFd i g).xg = m.xg := rfl
@[simp] theorem updFd_sq (m : Module) (i : Nat) (g : Feed → Feed) : (m.updFd i g).sq = m.sq := rfl
@[simp] theorem updFd_pin (m : Module) (i : Nat) (g : Feed → Feed) : (m.updFd i g).pin = m.pin := rfl
@[simp] theorem updFd_bt (m : Module) (i : Nat) (g : Feed → Feed) : (m.updFd i g).bt = m.bt := rfl
@[simp] theorem updFd_th (m : Module) (i : Nat) (g : Feed → Feed) : (m.updFd i g).th = m.th := rfl
@[simp] theorem updFd_net (m : Module) (i : Nat) (g : Feed → Feed) : (m.updFd i g).net = m.net := rfl
@[simp] theorem updFd_bn (m : Module) (i : Nat) (g : Feed → Feed) : (m.updFd i g).bn = m.bn := rfl
@[simp] theorem updFd_pt (m : Module) (i : Nat) (g : Feed → Feed) : (m.updFd i g).pt = m.pt := rfl
@[simp] theorem updFd_twtPtr (m : Module) (i : Nat) (g : Feed → Feed) : (m.updFd i g).twtPtr = m.twtPtr := rfl
@[simp] theorem updFd_twc (m : Module) (i : Nat) (g : Feed → Feed) : (m.updFd i g).twc = m.twc := rfl
@[simp] theorem updFd_mem (m : Module) (i : Nat) (g : Feed → Feed) : (m.updFd i g).mem = m.mem := rfl
@[simp] theorem updFd_hw (m : Module) (i : Nat) (g : Feed → Feed) : (m.updFd i g).hw = m.hw := rfl
@[simp] theorem updFd_up (m : Module) (i : Nat) (g : Feed → Feed) : (m.updFd i g).up = m.up := rfl
@[simp] theorem updFd_fd (m : Module) (i : Nat) (g : Feed → Feed) : (m.updFd i g).fd = upd m.fd i g := rfl
@[simp] theorem updFd_get (m : Module) (i : Nat) (g : Feed → Feed) (p : Nat) (f : Fld) : (m.updFd i g).get p f = m.get p f := rfl
@[simp] theorem updFd_reg (m : Module) (i : Nat) (g : Feed → Feed) (p off : Nat) : (m.updFd i g).reg p off = m.reg p off := rfl
@[simp] theorem updFd_liveKey (m : Module) (i : Nat) (g : Feed → Feed) (k : Nat) : (m.updFd i g).liveKey k = m.liveKey k := rfl
@[simp] theorem updFd_cfg (m : Module) (i : Nat) (g : Feed → Feed) (p : Nat) (f : Fld) : (m.updFd i g).cfg p f = m.cfg p f := rfl

/-! ### updHw -/

@[simp] theorem updHw_sys (m : Module) (g : Heart → Heart) : (m.updHw g).sys = m.sys := rfl
@[simp] theorem updHw_lc (m : Module) (g : Heart → Heart) : (m.updHw g).lc = m.lc := rfl
@[simp] theorem updHw_clk (m : Module) (g : Heart → Heart) : (m.updHw g).clk = m.clk := rfl
@[simp] theorem updHw_nfree (m : Module) (g : Heart → Heart) : (m.updHw g).nfree = m.nfree := rfl
@[simp] theorem updHw_regs (m : Module) (g : Heart → Heart) : (m.updHw g).regs = m.regs := rfl
@[simp] theorem updHw_live (m : Module) (g : Heart → Heart) : (m.updHw g).live = m.live := rfl
@[simp] theorem updHw_good (m : Module) (g : Heart → Heart) : (m.updHw g).good = m.good := rfl
@[simp] theorem updHw_snap (m : Module) (g : Heart → Heart) : (m.updHw g).snap = m.snap := rfl
@[simp] theorem updHw_pend (m : Module) (g : Heart → Heart) : (m.updHw g).pend = m.pend := rfl
@[simp] theorem updHw_unc (m : Module) (g : Heart → Heart) : (m.updHw g).unc = m.unc := rfl
@[simp] theorem updHw_ovr (m : Module) (g : Heart → Heart) : (m.updHw g).ovr = m.ovr := rfl
@[simp] theorem updHw_defer (m : Module) (g : Heart → Heart) : (m.updHw g).defer = m.defer := rfl
@[simp] theorem updHw_winWait (m : Module) (g : Heart → Heart) : (m.updHw g).winWait = m.winWait := rfl
@[simp] theorem updHw_ctrs (m : Module) (g : Heart → Heart) : (m.updHw g).ctrs = m.ctrs := rfl
@[simp] theorem updHw_cfgRec (m : Module) (g : Heart → Heart) : (m.updHw g).cfgRec = m.cfgRec := rfl
@[simp] theorem updHw_sel (m : Module) (g : Heart → Heart) : (m.updHw g).sel = m.sel := rfl
@[simp] theorem updHw_idx (m : Module) (g : Heart → Heart) : (m.updHw g).idx = m.idx := rfl
@[simp] theorem updHw_latch (m : Module) (g : Heart → Heart) : (m.updHw g).latch = m.latch := rfl
@[simp] theorem updHw_rc (m : Module) (g : Heart → Heart) : (m.updHw g).rc = m.rc := rfl
@[simp] theorem updHw_out (m : Module) (g : Heart → Heart) : (m.updHw g).out = m.out := rfl
@[simp] theorem updHw_sched (m : Module) (g : Heart → Heart) : (m.updHw g).sched = m.sched := rfl
@[simp] theorem updHw_ph (m : Module) (g : Heart → Heart) : (m.updHw g).ph = m.ph := rfl
@[simp] theorem updHw_rl (m : Module) (g : Heart → Heart) : (m.updHw g).rl = m.rl := rfl
@[simp] theorem updHw_adc (m : Module) (g : Heart → Heart) : (m.updHw g).adc = m.adc := rfl
@[simp] theorem updHw_cle (m : Module) (g : Heart → Heart) : (m.updHw g).cle = m.cle := rfl
@[simp] theorem updHw_tr (m : Module) (g : Heart → Heart) : (m.updHw g).tr = m.tr := rfl
@[simp] theorem updHw_ep (m : Module) (g : Heart → Heart) : (m.updHw g).ep = m.ep := rfl
@[simp] theorem updHw_cp (m : Module) (g : Heart → Heart) : (m.updHw g).cp = m.cp := rfl
@[simp] theorem updHw_gr (m : Module) (g : Heart → Heart) : (m.updHw g).gr = m.gr := rfl
@[simp] theorem updHw_xg (m : Module) (g : Heart → Heart) : (m.updHw g).xg = m.xg := rfl
@[simp] theorem updHw_fd (m : Module) (g : Heart → Heart) : (m.updHw g).fd = m.fd := rfl
@[simp] theorem updHw_sq (m : Module) (g : Heart → Heart) : (m.updHw g).sq = m.sq := rfl
@[simp] theorem updHw_pin (m : Module) (g : Heart → Heart) : (m.updHw g).pin = m.pin := rfl
@[simp] theorem updHw_bt (m : Module) (g : Heart → Heart) : (m.updHw g).bt = m.bt := rfl
@[simp] theorem updHw_th (m : Module) (g : Heart → Heart) : (m.updHw g).th = m.th := rfl
@[simp] theorem updHw_net (m : Module) (g : Heart → Heart) : (m.updHw g).net = m.net := rfl
@[simp] theorem updHw_bn (m : Module) (g : Heart → Heart) : (m.updHw g).bn = m.bn := rfl
@[simp] theorem updHw_pt (m : Module) (g : Heart → Heart) : (m.updHw g).pt = m.pt := rfl
@[simp] theorem updHw_twtPtr (m : Module) (g : Heart → Heart) : (m.updHw g).twtPtr = m.twtPtr := rfl
@[simp] theorem updHw_twc (m : Module) (g : Heart → Heart) : (m.updHw g).twc = m.twc := rfl
@[simp] theorem updHw_mem (m : Module) (g : Heart → Heart) : (m.updHw g).mem = m.mem := rfl
@[simp] theorem updHw_up (m : Module) (g : Heart → Heart) : (m.updHw g).up = m.up := rfl
@[simp] theorem updHw_hw (m : Module) (g : Heart → Heart) : (m.updHw g).hw = g m.hw := rfl
@[simp] theorem updHw_get (m : Module) (g : Heart → Heart) (p : Nat) (f : Fld) : (m.updHw g).get p f = m.get p f := rfl
@[simp] theorem updHw_reg (m : Module) (g : Heart → Heart) (p off : Nat) : (m.updHw g).reg p off = m.reg p off := rfl
@[simp] theorem updHw_liveKey (m : Module) (g : Heart → Heart) (k : Nat) : (m.updHw g).liveKey k = m.liveKey k := rfl
@[simp] theorem updHw_cfg (m : Module) (g : Heart → Heart) (p : Nat) (f : Fld) : (m.updHw g).cfg p f = m.cfg p f := rfl

/-! ### updLc -/

@[simp] theorem updLc_sys (m : Module) (g : LifeSt → LifeSt) : (m.updLc g).sys = m.sys := rfl
@[simp] theorem updLc_clk (m : Module) (g : LifeSt → LifeSt) : (m.updLc g).clk = m.clk := rfl
@[simp] theorem updLc_nfree (m : Module) (g : LifeSt → LifeSt) : (m.updLc g).nfree = m.nfree := rfl
@[simp] theorem updLc_regs (m : Module) (g : LifeSt → LifeSt) : (m.updLc g).regs = m.regs := rfl
@[simp] theorem updLc_live (m : Module) (g : LifeSt → LifeSt) : (m.updLc g).live = m.live := rfl
@[simp] theorem updLc_good (m : Module) (g : LifeSt → LifeSt) : (m.updLc g).good = m.good := rfl
@[simp] theorem updLc_snap (m : Module) (g : LifeSt → LifeSt) : (m.updLc g).snap = m.snap := rfl
@[simp] theorem updLc_pend (m : Module) (g : LifeSt → LifeSt) : (m.updLc g).pend = m.pend := rfl
@[simp] theorem updLc_unc (m : Module) (g : LifeSt → LifeSt) : (m.updLc g).unc = m.unc := rfl
@[simp] theorem updLc_ovr (m : Module) (g : LifeSt → LifeSt) : (m.updLc g).ovr = m.ovr := rfl
@[simp] theorem updLc_defer (m : Module) (g : LifeSt → LifeSt) : (m.updLc g).defer = m.defer := rfl
@[simp] theorem updLc_winWait (m : Module) (g : LifeSt → LifeSt) : (m.updLc g).winWait = m.winWait := rfl
@[simp] theorem updLc_ctrs (m : Module) (g : LifeSt → LifeSt) : (m.updLc g).ctrs = m.ctrs := rfl
@[simp] theorem updLc_cfgRec (m : Module) (g : LifeSt → LifeSt) : (m.updLc g).cfgRec = m.cfgRec := rfl
@[simp] theorem updLc_sel (m : Module) (g : LifeSt → LifeSt) : (m.updLc g).sel = m.sel := rfl
@[simp] theorem updLc_idx (m : Module) (g : LifeSt → LifeSt) : (m.updLc g).idx = m.idx := rfl
@[simp] theorem updLc_latch (m : Module) (g : LifeSt → LifeSt) : (m.updLc g).latch = m.latch := rfl
@[simp] theorem updLc_rc (m : Module) (g : LifeSt → LifeSt) : (m.updLc g).rc = m.rc := rfl
@[simp] theorem updLc_out (m : Module) (g : LifeSt → LifeSt) : (m.updLc g).out = m.out := rfl
@[simp] theorem updLc_sched (m : Module) (g : LifeSt → LifeSt) : (m.updLc g).sched = m.sched := rfl
@[simp] theorem updLc_ph (m : Module) (g : LifeSt → LifeSt) : (m.updLc g).ph = m.ph := rfl
@[simp] theorem updLc_rl (m : Module) (g : LifeSt → LifeSt) : (m.updLc g).rl = m.rl := rfl
@[simp] theorem updLc_adc (m : Module) (g : LifeSt → LifeSt) : (m.updLc g).adc = m.adc := rfl
@[simp] theorem updLc_cle (m : Module) (g : LifeSt → LifeSt) : (m.updLc g).cle = m.cle := rfl
@[simp] theorem updLc_tr (m : Module) (g : LifeSt → LifeSt) : (m.updLc g).tr = m.tr := rfl
@[simp] theorem updLc_ep (m : Module) (g : LifeSt → LifeSt) : (m.updLc g).ep = m.ep := rfl
@[simp] theorem updLc_cp (m : Module) (g : LifeSt → LifeSt) : (m.updLc g).cp = m.cp := rfl
@[simp] theorem updLc_gr (m : Module) (g : LifeSt → LifeSt) : (m.updLc g).gr = m.gr := rfl
@[simp] theorem updLc_xg (m : Module) (g : LifeSt → LifeSt) : (m.updLc g).xg = m.xg := rfl
@[simp] theorem updLc_fd (m : Module) (g : LifeSt → LifeSt) : (m.updLc g).fd = m.fd := rfl
@[simp] theorem updLc_sq (m : Module) (g : LifeSt → LifeSt) : (m.updLc g).sq = m.sq := rfl
@[simp] theorem updLc_pin (m : Module) (g : LifeSt → LifeSt) : (m.updLc g).pin = m.pin := rfl
@[simp] theorem updLc_bt (m : Module) (g : LifeSt → LifeSt) : (m.updLc g).bt = m.bt := rfl
@[simp] theorem updLc_th (m : Module) (g : LifeSt → LifeSt) : (m.updLc g).th = m.th := rfl
@[simp] theorem updLc_net (m : Module) (g : LifeSt → LifeSt) : (m.updLc g).net = m.net := rfl
@[simp] theorem updLc_bn (m : Module) (g : LifeSt → LifeSt) : (m.updLc g).bn = m.bn := rfl
@[simp] theorem updLc_pt (m : Module) (g : LifeSt → LifeSt) : (m.updLc g).pt = m.pt := rfl
@[simp] theorem updLc_twtPtr (m : Module) (g : LifeSt → LifeSt) : (m.updLc g).twtPtr = m.twtPtr := rfl
@[simp] theorem updLc_twc (m : Module) (g : LifeSt → LifeSt) : (m.updLc g).twc = m.twc := rfl
@[simp] theorem updLc_mem (m : Module) (g : LifeSt → LifeSt) : (m.updLc g).mem = m.mem := rfl
@[simp] theorem updLc_hw (m : Module) (g : LifeSt → LifeSt) : (m.updLc g).hw = m.hw := rfl
@[simp] theorem updLc_up (m : Module) (g : LifeSt → LifeSt) : (m.updLc g).up = m.up := rfl
@[simp] theorem updLc_lc (m : Module) (g : LifeSt → LifeSt) : (m.updLc g).lc = g m.lc := rfl
@[simp] theorem updLc_get (m : Module) (g : LifeSt → LifeSt) (p : Nat) (f : Fld) : (m.updLc g).get p f = m.get p f := rfl
@[simp] theorem updLc_reg (m : Module) (g : LifeSt → LifeSt) (p off : Nat) : (m.updLc g).reg p off = m.reg p off := rfl
@[simp] theorem updLc_liveKey (m : Module) (g : LifeSt → LifeSt) (k : Nat) : (m.updLc g).liveKey k = m.liveKey k := rfl
@[simp] theorem updLc_cfg (m : Module) (g : LifeSt → LifeSt) (p : Nat) (f : Fld) : (m.updLc g).cfg p f = m.cfg p f := rfl

/-! ### updMem -/

@[simp] theorem updMem_sys (m : Module) (g : Mem → Mem) : (m.updMem g).sys = m.sys := rfl
@[simp] theorem updMem_lc (m : Module) (g : Mem → Mem) : (m.updMem g).lc = m.lc := rfl
@[simp] theorem updMem_clk (m : Module) (g : Mem → Mem) : (m.updMem g).clk = m.clk := rfl
@[simp] theorem updMem_nfree (m : Module) (g : Mem → Mem) : (m.updMem g).nfree = m.nfree := rfl
@[simp] theorem updMem_regs (m : Module) (g : Mem → Mem) : (m.updMem g).regs = m.regs := rfl
@[simp] theorem updMem_live (m : Module) (g : Mem → Mem) : (m.updMem g).live = m.live := rfl
@[simp] theorem updMem_good (m : Module) (g : Mem → Mem) : (m.updMem g).good = m.good := rfl
@[simp] theorem updMem_snap (m : Module) (g : Mem → Mem) : (m.updMem g).snap = m.snap := rfl
@[simp] theorem updMem_pend (m : Module) (g : Mem → Mem) : (m.updMem g).pend = m.pend := rfl
@[simp] theorem updMem_unc (m : Module) (g : Mem → Mem) : (m.updMem g).unc = m.unc := rfl
@[simp] theorem updMem_ovr (m : Module) (g : Mem → Mem) : (m.updMem g).ovr = m.ovr := rfl
@[simp] theorem updMem_defer (m : Module) (g : Mem → Mem) : (m.updMem g).defer = m.defer := rfl
@[simp] theorem updMem_winWait (m : Module) (g : Mem → Mem) : (m.updMem g).winWait = m.winWait := rfl
@[simp] theorem updMem_ctrs (m : Module) (g : Mem → Mem) : (m.updMem g).ctrs = m.ctrs := rfl
@[simp] theorem updMem_cfgRec (m : Module) (g : Mem → Mem) : (m.updMem g).cfgRec = m.cfgRec := rfl
@[simp] theorem updMem_sel (m : Module) (g : Mem → Mem) : (m.updMem g).sel = m.sel := rfl
@[simp] theorem updMem_idx (m : Module) (g : Mem → Mem) : (m.updMem g).idx = m.idx := rfl
@[simp] theorem updMem_latch (m : Module) (g : Mem → Mem) : (m.updMem g).latch = m.latch := rfl
@[simp] theorem updMem_rc (m : Module) (g : Mem → Mem) : (m.updMem g).rc = m.rc := rfl
@[simp] theorem updMem_out (m : Module) (g : Mem → Mem) : (m.updMem g).out = m.out := rfl
@[simp] theorem updMem_sched (m : Module) (g : Mem → Mem) : (m.updMem g).sched = m.sched := rfl
@[simp] theorem updMem_ph (m : Module) (g : Mem → Mem) : (m.updMem g).ph = m.ph := rfl
@[simp] theorem updMem_rl (m : Module) (g : Mem → Mem) : (m.updMem g).rl = m.rl := rfl
@[simp] theorem updMem_adc (m : Module) (g : Mem → Mem) : (m.updMem g).adc = m.adc := rfl
@[simp] theorem updMem_cle (m : Module) (g : Mem → Mem) : (m.updMem g).cle = m.cle := rfl
@[simp] theorem updMem_tr (m : Module) (g : Mem → Mem) : (m.updMem g).tr = m.tr := rfl
@[simp] theorem updMem_ep (m : Module) (g : Mem → Mem) : (m.updMem g).ep = m.ep := rfl
@[simp] theorem updMem_cp (m : Module) (g : Mem → Mem) : (m.updMem g).cp = m.cp := rfl
@[simp] theorem updMem_gr (m : Module) (g : Mem → Mem) : (m.updMem g).gr = m.gr := rfl
@[simp] theorem updMem_xg (m : Module) (g : Mem → Mem) : (m.updMem g).xg = m.xg := rfl
@[simp] theorem updMem_fd (m : Module) (g : Mem → Mem) : (m.updMem g).fd = m.fd := rfl
@[simp] theorem updMem_sq (m : Module) (g : Mem → Mem) : (m.updMem g).sq = m.sq := rfl
@[simp] theorem updMem_pin (m : Module) (g : Mem → Mem) : (m.updMem g).pin = m.pin := rfl
@[simp] theorem updMem_bt (m : Module) (g : Mem → Mem) : (m.updMem g).bt = m.bt := rfl
@[simp] theorem updMem_th (m : Module) (g : Mem → Mem) : (m.updMem g).th = m.th := rfl
@[simp] theorem updMem_net (m : Module) (g : Mem → Mem) : (m.updMem g).net = m.net := rfl
@[simp] theorem updMem_bn (m : Module) (g : Mem → Mem) : (m.updMem g).bn = m.bn := rfl
@[simp] theorem updMem_pt (m : Module) (g : Mem → Mem) : (m.updMem g).pt = m.pt := rfl
@[simp] theorem updMem_twtPtr (m : Module) (g : Mem → Mem) : (m.updMem g).twtPtr = m.twtPtr := rfl
@[simp] theorem updMem_twc (m : Module) (g : Mem → Mem) : (m.updMem g).twc = m.twc := rfl
@[simp] theorem updMem_hw (m : Module) (g : Mem → Mem) : (m.updMem g).hw = m.hw := rfl
@[simp] theorem updMem_up (m : Module) (g : Mem → Mem) : (m.updMem g).up = m.up := rfl
@[simp] theorem updMem_mem (m : Module) (g : Mem → Mem) : (m.updMem g).mem = g m.mem := rfl
@[simp] theorem updMem_get (m : Module) (g : Mem → Mem) (p : Nat) (f : Fld) : (m.updMem g).get p f = m.get p f := rfl
@[simp] theorem updMem_reg (m : Module) (g : Mem → Mem) (p off : Nat) : (m.updMem g).reg p off = m.reg p off := rfl
@[simp] theorem updMem_liveKey (m : Module) (g : Mem → Mem) (k : Nat) : (m.updMem g).liveKey k = m.liveKey k := rfl
@[simp] theorem updMem_cfg (m : Module) (g : Mem → Mem) (p : Nat) (f : Fld) : (m.updMem g).cfg p f = m.cfg p f := rfl

/-! ### updNet -/

@[simp] theorem updNet_sys (m : Module) (g : Net → Net) : (m.updNet g).sys = m.sys := rfl
@[simp] theorem updNet_lc (m : Module) (g : Net → Net) : (m.updNet g).lc = m.lc := rfl
@[simp] theorem updNet_clk (m : Module) (g : Net → Net) : (m.updNet g).clk = m.clk := rfl
@[simp] theorem updNet_nfree (m : Module) (g : Net → Net) : (m.updNet g).nfree = m.nfree := rfl
@[simp] theorem updNet_regs (m : Module) (g : Net → Net) : (m.updNet g).regs = m.regs := rfl
@[simp] theorem updNet_live (m : Module) (g : Net → Net) : (m.updNet g).live = m.live := rfl
@[simp] theorem updNet_good (m : Module) (g : Net → Net) : (m.updNet g).good = m.good := rfl
@[simp] theorem updNet_snap (m : Module) (g : Net → Net) : (m.updNet g).snap = m.snap := rfl
@[simp] theorem updNet_pend (m : Module) (g : Net → Net) : (m.updNet g).pend = m.pend := rfl
@[simp] theorem updNet_unc (m : Module) (g : Net → Net) : (m.updNet g).unc = m.unc := rfl
@[simp] theorem updNet_ovr (m : Module) (g : Net → Net) : (m.updNet g).ovr = m.ovr := rfl
@[simp] theorem updNet_defer (m : Module) (g : Net → Net) : (m.updNet g).defer = m.defer := rfl
@[simp] theorem updNet_winWait (m : Module) (g : Net → Net) : (m.updNet g).winWait = m.winWait := rfl
@[simp] theorem updNet_ctrs (m : Module) (g : Net → Net) : (m.updNet g).ctrs = m.ctrs := rfl
@[simp] theorem updNet_cfgRec (m : Module) (g : Net → Net) : (m.updNet g).cfgRec = m.cfgRec := rfl
@[simp] theorem updNet_sel (m : Module) (g : Net → Net) : (m.updNet g).sel = m.sel := rfl
@[simp] theorem updNet_idx (m : Module) (g : Net → Net) : (m.updNet g).idx = m.idx := rfl
@[simp] theorem updNet_latch (m : Module) (g : Net → Net) : (m.updNet g).latch = m.latch := rfl
@[simp] theorem updNet_rc (m : Module) (g : Net → Net) : (m.updNet g).rc = m.rc := rfl
@[simp] theorem updNet_out (m : Module) (g : Net → Net) : (m.updNet g).out = m.out := rfl
@[simp] theorem updNet_sched (m : Module) (g : Net → Net) : (m.updNet g).sched = m.sched := rfl
@[simp] theorem updNet_ph (m : Module) (g : Net → Net) : (m.updNet g).ph = m.ph := rfl
@[simp] theorem updNet_rl (m : Module) (g : Net → Net) : (m.updNet g).rl = m.rl := rfl
@[simp] theorem updNet_adc (m : Module) (g : Net → Net) : (m.updNet g).adc = m.adc := rfl
@[simp] theorem updNet_cle (m : Module) (g : Net → Net) : (m.updNet g).cle = m.cle := rfl
@[simp] theorem updNet_tr (m : Module) (g : Net → Net) : (m.updNet g).tr = m.tr := rfl
@[simp] theorem updNet_ep (m : Module) (g : Net → Net) : (m.updNet g).ep = m.ep := rfl
@[simp] theorem updNet_cp (m : Module) (g : Net → Net) : (m.updNet g).cp = m.cp := rfl
@[simp] theorem updNet_gr (m : Module) (g : Net → Net) : (m.updNet g).gr = m.gr := rfl
@[simp] theorem updNet_xg (m : Module) (g : Net → Net) : (m.updNet g).xg = m.xg := rfl
@[simp] theorem updNet_fd (m : Module) (g : Net → Net) : (m.updNet g).fd = m.fd := rfl
@[simp] theorem updNet_sq (m : Module) (g : Net → Net) : (m.updNet g).sq = m.sq := rfl
@[simp] theorem updNet_pin (m : Module) (g : Net → Net) : (m.updNet g).pin = m.pin := rfl
@[simp] theorem updNet_bt (m : Module) (g : Net → Net) : (m.updNet g).bt = m.bt := rfl
@[simp] theorem updNet_th (m : Module) (g : Net → Net) : (m.updNet g).th = m.th := rfl
@[simp] theorem updNet_bn (m : Module) (g : Net → Net) : (m.updNet g).bn = m.bn := rfl
@[simp] theorem updNet_pt (m : Module) (g : Net → Net) : (m.updNet g).pt = m.pt := rfl
@[simp] theorem updNet_twtPtr (m : Module) (g : Net → Net) : (m.updNet g).twtPtr = m.twtPtr := rfl
@[simp] theorem updNet_twc (m : Module) (g : Net → Net) : (m.updNet g).twc = m.twc := rfl
@[simp] theorem updNet_mem (m : Module) (g : Net → Net) : (m.updNet g).mem = m.mem := rfl
@[simp] theorem updNet_hw (m : Module) (g : Net → Net) : (m.updNet g).hw = m.hw := rfl
@[simp] theorem updNet_up (m : Module) (g : Net → Net) : (m.updNet g).up = m.up := rfl
@[simp] theorem updNet_net (m : Module) (g : Net → Net) : (m.updNet g).net = g m.net := rfl
@[simp] theorem updNet_get (m : Module) (g : Net → Net) (p : Nat) (f : Fld) : (m.updNet g).get p f = m.get p f := rfl
@[simp] theorem updNet_reg (m : Module) (g : Net → Net) (p off : Nat) : (m.updNet g).reg p off = m.reg p off := rfl
@[simp] theorem updNet_liveKey (m : Module) (g : Net → Net) (k : Nat) : (m.updNet g).liveKey k = m.liveKey k := rfl
@[simp] theorem updNet_cfg (m : Module) (g : Net → Net) (p : Nat) (f : Fld) : (m.updNet g).cfg p f = m.cfg p f := rfl

/-! ### updPh -/

@[simp] theorem updPh_sys (m : Module) (i : Nat) (g : Phase → Phase) : (m.updPh i g).sys = m.sys := rfl
@[simp] theorem updPh_lc (m : Module) (i : Nat) (g : Phase → Phase) : (m.updPh i g).lc = m.lc := rfl
@[simp] theorem updPh_clk (m : Module) (i : Nat) (g : Phase → Phase) : (m.updPh i g).clk = m.clk := rfl
@[simp] theorem updPh_nfree (m : Module) (i : Nat) (g : Phase → Phase) : (m.updPh i g).nfree = m.nfree := rfl
@[simp] theorem updPh_regs (m : Module) (i : Nat) (g : Phase → Phase) : (m.updPh i g).regs = m.regs := rfl
@[simp] theorem updPh_live (m : Module) (i : Nat) (g : Phase → Phase) : (m.updPh i g).live = m.live := rfl
@[simp] theorem updPh_good (m : Module) (i : Nat) (g : Phase → Phase) : (m.updPh i g).good = m.good := rfl
@[simp] theorem updPh_snap (m : Module) (i : Nat) (g : Phase → Phase) : (m.updPh i g).snap = m.snap := rfl
@[simp] theorem updPh_pend (m : Module) (i : Nat) (g : Phase → Phase) : (m.updPh i g).pend = m.pend := rfl
@[simp] theorem updPh_unc (m : Module) (i : Nat) (g : Phase → Phase) : (m.updPh i g).unc = m.unc := rfl
@[simp] theorem updPh_ovr (m : Module) (i : Nat) (g : Phase → Phase) : (m.updPh i g).ovr = m.ovr := rfl
@[simp] theorem updPh_defer (m : Module) (i : Nat) (g : Phase → Phase) : (m.updPh i g).defer = m.defer := rfl
@[simp] theorem updPh_winWait (m : Module) (i : Nat) (g : Phase → Phase) : (m.updPh i g).winWait = m.winWait := rfl
@[simp] theorem updPh_ctrs (m : Module) (i : Nat) (g : Phase → Phase) : (m.updPh i g).ctrs = m.ctrs := rfl
@[simp] theorem updPh_cfgRec (m : Module) (i : Nat) (g : Phase → Phase) : (m.updPh i g).cfgRec = m.cfgRec := rfl
@[simp] theorem updPh_sel (m : Module) (i : Nat) (g : Phase → Phase) : (m.updPh i g).sel = m.sel := rfl
@[simp] theorem updPh_idx (m : Module) (i : Nat) (g : Phase → Phase) : (m.updPh i g).idx = m.idx := rfl
@[simp] theorem updPh_latch (m : Module) (i : Nat) (g : Phase → Phase) : (m.updPh i g).latch = m.latch := rfl
@[simp] theorem updPh_rc (m : Module) (i : Nat) (g : Phase → Phase) : (m.updPh i g).rc = m.rc := rfl
@[simp] theorem updPh_out (m : Module) (i : Nat) (g : Phase → Phase) : (m.updPh i g).out = m.out := rfl
@[simp] theorem updPh_sched (m : Module) (i : Nat) (g : Phase → Phase) : (m.updPh i g).sched = m.sched := rfl
@[simp] theorem updPh_rl (m : Module) (i : Nat) (g : Phase → Phase) : (m.updPh i g).rl = m.rl := rfl
@[simp] theorem updPh_adc (m : Module) (i : Nat) (g : Phase → Phase) : (m.updPh i g).adc = m.adc := rfl
@[simp] theorem updPh_cle (m : Module) (i : Nat) (g : Phase → Phase) : (m.updPh i g).cle = m.cle := rfl
@[simp] theorem updPh_tr (m : Module) (i : Nat) (g : Phase → Phase) : (m.updPh i g).tr = m.tr := rfl
@[simp] theorem updPh_ep (m : Module) (i : Nat) (g : Phase → Phase) : (m.updPh i g).ep = m.ep := rfl
@[simp] theorem updPh_cp (m : Module) (i : Nat) (g : Phase → Phase) : (m.updPh i g).cp = m.cp := rfl
@[simp] theorem updPh_gr (m : Module) (i : Nat) (g : Phase → Phase) : (m.updPh i g).gr = m.gr := rfl
@[simp] theorem updPh_xg (m : Module) (i : Nat) (g : Phase → Phase) : (m.updPh i g).xg = m.xg := rfl
@[simp] theorem updPh_fd (m : Module) (i : Nat) (g : Phase → Phase) : (m.updPh i g).fd = m.fd := rfl
@[simp] theorem updPh_sq (m : Module) (i : Nat) (g : Phase → Phase) : (m.updPh i g).sq = m.sq := rfl
@[simp] theorem updPh_pin (m : Module) (i : Nat) (g : Phase → Phase) : (m.updPh i g).pin = m.pin := rfl
@[simp] theorem updPh_bt (m : Module) (i : Nat) (g : Phase → Phase) : (m.updPh i g).bt = m.bt := rfl
@[simp] theorem updPh_th (m : Module) (i : Nat) (g : Phase → Phase) : (m.updPh i g).th = m.th := rfl
@[simp] theorem updPh_net (m : Module) (i : Nat) (g : Phase → Phase) : (m.updPh i g).net = m.net := rfl
@[simp] theorem updPh_bn (m : Module) (i : Nat) (g : Phase → Phase) : (m.updPh i g).bn = m.bn := rfl
@[simp] theorem updPh_pt (m : Module) (i : Nat) (g : Phase → Phase) : (m.updPh i g).pt = m.pt := rfl
@[simp] theorem updPh_twtPtr (m : Module) (i : Nat) (g : Phase → Phase) : (m.updPh i g).twtPtr = m.twtPtr := rfl
@[simp] theorem updPh_twc (m : Module) (i : Nat) (g : Phase → Phase) : (m.updPh i g).twc = m.twc := rfl
@[simp] theorem updPh_mem (m : Module) (i : Nat) (g : Phase → Phase) : (m.updPh i g).mem = m.mem := rfl
@[simp] theorem updPh_hw (m : Module) (i : Nat) (g : Phase → Phase) : (m.updPh i g).hw = m.hw := rfl
@[simp] theorem updPh_up (m : Module) (i : Nat) (g : Phase → Phase) : (m.updPh i g).up = m.up := rfl
@[simp] theorem updPh_ph (m : Module) (i : Nat) (g : Phase → Phase) : (m.updPh i g).ph = upd m.ph i g := rfl
@[simp] theorem updPh_get (m : Module) (i : Nat) (g : Phase → Phase) (p : Nat) (f : Fld) : (m.updPh i g).get p f = m.get p f := rfl
@[simp] theorem updPh_reg (m : Module) (i : Nat) (g : Phase → Phase) (p off : Nat) : (m.updPh i g).reg p off = m.reg p off := rfl
@[simp] theorem updPh_liveKey (m : Module) (i : Nat) (g : Phase → Phase) (k : Nat) : (m.updPh i g).liveKey k = m.liveKey k := rfl
@[simp] theorem updPh_cfg (m : Module) (i : Nat) (g : Phase → Phase) (p : Nat) (f : Fld) : (m.updPh i g).cfg p f = m.cfg p f := rfl

/-! ### updRl -/

@[simp] theorem updRl_sys (m : Module) (i : Nat) (g : Rail → Rail) : (m.updRl i g).sys = m.sys := rfl
@[simp] theorem updRl_lc (m : Module) (i : Nat) (g : Rail → Rail) : (m.updRl i g).lc = m.lc := rfl
@[simp] theorem updRl_clk (m : Module) (i : Nat) (g : Rail → Rail) : (m.updRl i g).clk = m.clk := rfl
@[simp] theorem updRl_nfree (m : Module) (i : Nat) (g : Rail → Rail) : (m.updRl i g).nfree = m.nfree := rfl
@[simp] theorem updRl_regs (m : Module) (i : Nat) (g : Rail → Rail) : (m.updRl i g).regs = m.regs := rfl
@[simp] theorem updRl_live (m : Module) (i : Nat) (g : Rail → Rail) : (m.updRl i g).live = m.live := rfl
@[simp] theorem updRl_good (m : Module) (i : Nat) (g : Rail → Rail) : (m.updRl i g).good = m.good := rfl
@[simp] theorem updRl_snap (m : Module) (i : Nat) (g : Rail → Rail) : (m.updRl i g).snap = m.snap := rfl
@[simp] theorem updRl_pend (m : Module) (i : Nat) (g : Rail → Rail) : (m.updRl i g).pend = m.pend := rfl
@[simp] theorem updRl_unc (m : Module) (i : Nat) (g : Rail → Rail) : (m.updRl i g).unc = m.unc := rfl
@[simp] theorem updRl_ovr (m : Module) (i : Nat) (g : Rail → Rail) : (m.updRl i g).ovr = m.ovr := rfl
@[simp] theorem updRl_defer (m : Module) (i : Nat) (g : Rail → Rail) : (m.updRl i g).defer = m.defer := rfl
@[simp] theorem updRl_winWait (m : Module) (i : Nat) (g : Rail → Rail) : (m.updRl i g).winWait = m.winWait := rfl
@[simp] theorem updRl_ctrs (m : Module) (i : Nat) (g : Rail → Rail) : (m.updRl i g).ctrs = m.ctrs := rfl
@[simp] theorem updRl_cfgRec (m : Module) (i : Nat) (g : Rail → Rail) : (m.updRl i g).cfgRec = m.cfgRec := rfl
@[simp] theorem updRl_sel (m : Module) (i : Nat) (g : Rail → Rail) : (m.updRl i g).sel = m.sel := rfl
@[simp] theorem updRl_idx (m : Module) (i : Nat) (g : Rail → Rail) : (m.updRl i g).idx = m.idx := rfl
@[simp] theorem updRl_latch (m : Module) (i : Nat) (g : Rail → Rail) : (m.updRl i g).latch = m.latch := rfl
@[simp] theorem updRl_rc (m : Module) (i : Nat) (g : Rail → Rail) : (m.updRl i g).rc = m.rc := rfl
@[simp] theorem updRl_out (m : Module) (i : Nat) (g : Rail → Rail) : (m.updRl i g).out = m.out := rfl
@[simp] theorem updRl_sched (m : Module) (i : Nat) (g : Rail → Rail) : (m.updRl i g).sched = m.sched := rfl
@[simp] theorem updRl_ph (m : Module) (i : Nat) (g : Rail → Rail) : (m.updRl i g).ph = m.ph := rfl
@[simp] theorem updRl_adc (m : Module) (i : Nat) (g : Rail → Rail) : (m.updRl i g).adc = m.adc := rfl
@[simp] theorem updRl_cle (m : Module) (i : Nat) (g : Rail → Rail) : (m.updRl i g).cle = m.cle := rfl
@[simp] theorem updRl_tr (m : Module) (i : Nat) (g : Rail → Rail) : (m.updRl i g).tr = m.tr := rfl
@[simp] theorem updRl_ep (m : Module) (i : Nat) (g : Rail → Rail) : (m.updRl i g).ep = m.ep := rfl
@[simp] theorem updRl_cp (m : Module) (i : Nat) (g : Rail → Rail) : (m.updRl i g).cp = m.cp := rfl
@[simp] theorem updRl_gr (m : Module) (i : Nat) (g : Rail → Rail) : (m.updRl i g).gr = m.gr := rfl
@[simp] theorem updRl_xg (m : Module) (i : Nat) (g : Rail → Rail) : (m.updRl i g).xg = m.xg := rfl
@[simp] theorem updRl_fd (m : Module) (i : Nat) (g : Rail → Rail) : (m.updRl i g).fd = m.fd := rfl
@[simp] theorem updRl_sq (m : Module) (i : Nat) (g : Rail → Rail) : (m.updRl i g).sq = m.sq := rfl
@[simp] theorem updRl_pin (m : Module) (i : Nat) (g : Rail → Rail) : (m.updRl i g).pin = m.pin := rfl
@[simp] theorem updRl_bt (m : Module) (i : Nat) (g : Rail → Rail) : (m.updRl i g).bt = m.bt := rfl
@[simp] theorem updRl_th (m : Module) (i : Nat) (g : Rail → Rail) : (m.updRl i g).th = m.th := rfl
@[simp] theorem updRl_net (m : Module) (i : Nat) (g : Rail → Rail) : (m.updRl i g).net = m.net := rfl
@[simp] theorem updRl_bn (m : Module) (i : Nat) (g : Rail → Rail) : (m.updRl i g).bn = m.bn := rfl
@[simp] theorem updRl_pt (m : Module) (i : Nat) (g : Rail → Rail) : (m.updRl i g).pt = m.pt := rfl
@[simp] theorem updRl_twtPtr (m : Module) (i : Nat) (g : Rail → Rail) : (m.updRl i g).twtPtr = m.twtPtr := rfl
@[simp] theorem updRl_twc (m : Module) (i : Nat) (g : Rail → Rail) : (m.updRl i g).twc = m.twc := rfl
@[simp] theorem updRl_mem (m : Module) (i : Nat) (g : Rail → Rail) : (m.updRl i g).mem = m.mem := rfl
@[simp] theorem updRl_hw (m : Module) (i : Nat) (g : Rail → Rail) : (m.updRl i g).hw = m.hw := rfl
@[simp] theorem updRl_up (m : Module) (i : Nat) (g : Rail → Rail) : (m.updRl i g).up = m.up := rfl
@[simp] theorem updRl_rl (m : Module) (i : Nat) (g : Rail → Rail) : (m.updRl i g).rl = upd m.rl i g := rfl
@[simp] theorem updRl_get (m : Module) (i : Nat) (g : Rail → Rail) (p : Nat) (f : Fld) : (m.updRl i g).get p f = m.get p f := rfl
@[simp] theorem updRl_reg (m : Module) (i : Nat) (g : Rail → Rail) (p off : Nat) : (m.updRl i g).reg p off = m.reg p off := rfl
@[simp] theorem updRl_liveKey (m : Module) (i : Nat) (g : Rail → Rail) (k : Nat) : (m.updRl i g).liveKey k = m.liveKey k := rfl
@[simp] theorem updRl_cfg (m : Module) (i : Nat) (g : Rail → Rail) (p : Nat) (f : Fld) : (m.updRl i g).cfg p f = m.cfg p f := rfl

/-! ### updSys -/

@[simp] theorem updSys_lc (m : Module) (g : SysSt → SysSt) : (m.updSys g).lc = m.lc := rfl
@[simp] theorem updSys_clk (m : Module) (g : SysSt → SysSt) : (m.updSys g).clk = m.clk := rfl
@[simp] theorem updSys_nfree (m : Module) (g : SysSt → SysSt) : (m.updSys g).nfree = m.nfree := rfl
@[simp] theorem updSys_regs (m : Module) (g : SysSt → SysSt) : (m.updSys g).regs = m.regs := rfl
@[simp] theorem updSys_live (m : Module) (g : SysSt → SysSt) : (m.updSys g).live = m.live := rfl
@[simp] theorem updSys_good (m : Module) (g : SysSt → SysSt) : (m.updSys g).good = m.good := rfl
@[simp] theorem updSys_snap (m : Module) (g : SysSt → SysSt) : (m.updSys g).snap = m.snap := rfl
@[simp] theorem updSys_pend (m : Module) (g : SysSt → SysSt) : (m.updSys g).pend = m.pend := rfl
@[simp] theorem updSys_unc (m : Module) (g : SysSt → SysSt) : (m.updSys g).unc = m.unc := rfl
@[simp] theorem updSys_ovr (m : Module) (g : SysSt → SysSt) : (m.updSys g).ovr = m.ovr := rfl
@[simp] theorem updSys_defer (m : Module) (g : SysSt → SysSt) : (m.updSys g).defer = m.defer := rfl
@[simp] theorem updSys_winWait (m : Module) (g : SysSt → SysSt) : (m.updSys g).winWait = m.winWait := rfl
@[simp] theorem updSys_ctrs (m : Module) (g : SysSt → SysSt) : (m.updSys g).ctrs = m.ctrs := rfl
@[simp] theorem updSys_cfgRec (m : Module) (g : SysSt → SysSt) : (m.updSys g).cfgRec = m.cfgRec := rfl
@[simp] theorem updSys_sel (m : Module) (g : SysSt → SysSt) : (m.updSys g).sel = m.sel := rfl
@[simp] theorem updSys_idx (m : Module) (g : SysSt → SysSt) : (m.updSys g).idx = m.idx := rfl
@[simp] theorem updSys_latch (m : Module) (g : SysSt → SysSt) : (m.updSys g).latch = m.latch := rfl
@[simp] theorem updSys_rc (m : Module) (g : SysSt → SysSt) : (m.updSys g).rc = m.rc := rfl
@[simp] theorem updSys_out (m : Module) (g : SysSt → SysSt) : (m.updSys g).out = m.out := rfl
@[simp] theorem updSys_sched (m : Module) (g : SysSt → SysSt) : (m.updSys g).sched = m.sched := rfl
@[simp] theorem updSys_ph (m : Module) (g : SysSt → SysSt) : (m.updSys g).ph = m.ph := rfl
@[simp] theorem updSys_rl (m : Module) (g : SysSt → SysSt) : (m.updSys g).rl = m.rl := rfl
@[simp] theorem updSys_adc (m : Module) (g : SysSt → SysSt) : (m.updSys g).adc = m.adc := rfl
@[simp] theorem updSys_cle (m : Module) (g : SysSt → SysSt) : (m.updSys g).cle = m.cle := rfl
@[simp] theorem updSys_tr (m : Module) (g : SysSt → SysSt) : (m.updSys g).tr = m.tr := rfl
@[simp] theorem updSys_ep (m : Module) (g : SysSt → SysSt) : (m.updSys g).ep = m.ep := rfl
@[simp] theorem updSys_cp (m : Module) (g : SysSt → SysSt) : (m.updSys g).cp = m.cp := rfl
@[simp] theorem updSys_gr (m : Module) (g : SysSt → SysSt) : (m.updSys g).gr = m.gr := rfl
@[simp] theorem updSys_xg (m : Module) (g : SysSt → SysSt) : (m.updSys g).xg = m.xg := rfl
@[simp] theorem updSys_fd (m : Module) (g : SysSt → SysSt) : (m.updSys g).fd = m.fd := rfl
@[simp] theorem updSys_sq (m : Module) (g : SysSt → SysSt) : (m.updSys g).sq = m.sq := rfl
@[simp] theorem updSys_pin (m : Module) (g : SysSt → SysSt) : (m.updSys g).pin = m.pin := rfl
@[simp] theorem updSys_bt (m : Module) (g : SysSt → SysSt) : (m.updSys g).bt = m.bt := rfl
@[simp] theorem updSys_th (m : Module) (g : SysSt → SysSt) : (m.updSys g).th = m.th := rfl
@[simp] theorem updSys_net (m : Module) (g : SysSt → SysSt) : (m.updSys g).net = m.net := rfl
@[simp] theorem updSys_bn (m : Module) (g : SysSt → SysSt) : (m.updSys g).bn = m.bn := rfl
@[simp] theorem updSys_pt (m : Module) (g : SysSt → SysSt) : (m.updSys g).pt = m.pt := rfl
@[simp] theorem updSys_twtPtr (m : Module) (g : SysSt → SysSt) : (m.updSys g).twtPtr = m.twtPtr := rfl
@[simp] theorem updSys_twc (m : Module) (g : SysSt → SysSt) : (m.updSys g).twc = m.twc := rfl
@[simp] theorem updSys_mem (m : Module) (g : SysSt → SysSt) : (m.updSys g).mem = m.mem := rfl
@[simp] theorem updSys_hw (m : Module) (g : SysSt → SysSt) : (m.updSys g).hw = m.hw := rfl
@[simp] theorem updSys_up (m : Module) (g : SysSt → SysSt) : (m.updSys g).up = m.up := rfl
@[simp] theorem updSys_sys (m : Module) (g : SysSt → SysSt) : (m.updSys g).sys = g m.sys := rfl
@[simp] theorem updSys_get (m : Module) (g : SysSt → SysSt) (p : Nat) (f : Fld) : (m.updSys g).get p f = m.get p f := rfl
@[simp] theorem updSys_reg (m : Module) (g : SysSt → SysSt) (p off : Nat) : (m.updSys g).reg p off = m.reg p off := rfl
@[simp] theorem updSys_liveKey (m : Module) (g : SysSt → SysSt) (k : Nat) : (m.updSys g).liveKey k = m.liveKey k := rfl
@[simp] theorem updSys_cfg (m : Module) (g : SysSt → SysSt) (p : Nat) (f : Fld) : (m.updSys g).cfg p f = m.cfg p f := rfl

/-! ### updPt -/

@[simp] theorem updPt_sys (m : Module) (g : Ptp → Ptp) : (m.updPt g).sys = m.sys := rfl
@[simp] theorem updPt_lc (m : Module) (g : Ptp → Ptp) : (m.updPt g).lc = m.lc := rfl
@[simp] theorem updPt_clk (m : Module) (g : Ptp → Ptp) : (m.updPt g).clk = m.clk := rfl
@[simp] theorem updPt_nfree (m : Module) (g : Ptp → Ptp) : (m.updPt g).nfree = m.nfree := rfl
@[simp] theorem updPt_regs (m : Module) (g : Ptp → Ptp) : (m.updPt g).regs = m.regs := rfl
@[simp] theorem updPt_live (m : Module) (g : Ptp → Ptp) : (m.updPt g).live = m.live := rfl
@[simp] theorem updPt_good (m : Module) (g : Ptp → Ptp) : (m.updPt g).good = m.good := rfl
@[simp] theorem updPt_snap (m : Module) (g : Ptp → Ptp) : (m.updPt g).snap = m.snap := rfl
@[simp] theorem updPt_pend (m : Module) (g : Ptp → Ptp) : (m.updPt g).pend = m.pend := rfl
@[simp] theorem updPt_unc (m : Module) (g : Ptp → Ptp) : (m.updPt g).unc = m.unc := rfl
@[simp] theorem updPt_ovr (m : Module) (g : Ptp → Ptp) : (m.updPt g).ovr = m.ovr := rfl
@[simp] theorem updPt_defer (m : Module) (g : Ptp → Ptp) : (m.updPt g).defer = m.defer := rfl
@[simp] theorem updPt_winWait (m : Module) (g : Ptp → Ptp) : (m.updPt g).winWait = m.winWait := rfl
@[simp] theorem updPt_ctrs (m : Module) (g : Ptp → Ptp) : (m.updPt g).ctrs = m.ctrs := rfl
@[simp] theorem updPt_cfgRec (m : Module) (g : Ptp → Ptp) : (m.updPt g).cfgRec = m.cfgRec := rfl
@[simp] theorem updPt_sel (m : Module) (g : Ptp → Ptp) : (m.updPt g).sel = m.sel := rfl
@[simp] theorem updPt_idx (m : Module) (g : Ptp → Ptp) : (m.updPt g).idx = m.idx := rfl
@[simp] theorem updPt_latch (m : Module) (g : Ptp → Ptp) : (m.updPt g).latch = m.latch := rfl
@[simp] theorem updPt_rc (m : Module) (g : Ptp → Ptp) : (m.updPt g).rc = m.rc := rfl
@[simp] theorem updPt_out (m : Module) (g : Ptp → Ptp) : (m.updPt g).out = m.out := rfl
@[simp] theorem updPt_sched (m : Module) (g : Ptp → Ptp) : (m.updPt g).sched = m.sched := rfl
@[simp] theorem updPt_ph (m : Module) (g : Ptp → Ptp) : (m.updPt g).ph = m.ph := rfl
@[simp] theorem updPt_rl (m : Module) (g : Ptp → Ptp) : (m.updPt g).rl = m.rl := rfl
@[simp] theorem updPt_adc (m : Module) (g : Ptp → Ptp) : (m.updPt g).adc = m.adc := rfl
@[simp] theorem updPt_cle (m : Module) (g : Ptp → Ptp) : (m.updPt g).cle = m.cle := rfl
@[simp] theorem updPt_tr (m : Module) (g : Ptp → Ptp) : (m.updPt g).tr = m.tr := rfl
@[simp] theorem updPt_ep (m : Module) (g : Ptp → Ptp) : (m.updPt g).ep = m.ep := rfl
@[simp] theorem updPt_cp (m : Module) (g : Ptp → Ptp) : (m.updPt g).cp = m.cp := rfl
@[simp] theorem updPt_gr (m : Module) (g : Ptp → Ptp) : (m.updPt g).gr = m.gr := rfl
@[simp] theorem updPt_xg (m : Module) (g : Ptp → Ptp) : (m.updPt g).xg = m.xg := rfl
@[simp] theorem updPt_fd (m : Module) (g : Ptp → Ptp) : (m.updPt g).fd = m.fd := rfl
@[simp] theorem updPt_sq (m : Module) (g : Ptp → Ptp) : (m.updPt g).sq = m.sq := rfl
@[simp] theorem updPt_pin (m : Module) (g : Ptp → Ptp) : (m.updPt g).pin = m.pin := rfl
@[simp] theorem updPt_bt (m : Module) (g : Ptp → Ptp) : (m.updPt g).bt = m.bt := rfl
@[simp] theorem updPt_th (m : Module) (g : Ptp → Ptp) : (m.updPt g).th = m.th := rfl
@[simp] theorem updPt_net (m : Module) (g : Ptp → Ptp) : (m.updPt g).net = m.net := rfl
@[simp] theorem updPt_bn (m : Module) (g : Ptp → Ptp) : (m.updPt g).bn = m.bn := rfl
@[simp] theorem updPt_twtPtr (m : Module) (g : Ptp → Ptp) : (m.updPt g).twtPtr = m.twtPtr := rfl
@[simp] theorem updPt_twc (m : Module) (g : Ptp → Ptp) : (m.updPt g).twc = m.twc := rfl
@[simp] theorem updPt_mem (m : Module) (g : Ptp → Ptp) : (m.updPt g).mem = m.mem := rfl
@[simp] theorem updPt_hw (m : Module) (g : Ptp → Ptp) : (m.updPt g).hw = m.hw := rfl
@[simp] theorem updPt_up (m : Module) (g : Ptp → Ptp) : (m.updPt g).up = m.up := rfl
@[simp] theorem updPt_pt (m : Module) (g : Ptp → Ptp) : (m.updPt g).pt = g m.pt := rfl
@[simp] theorem updPt_get (m : Module) (g : Ptp → Ptp) (p : Nat) (f : Fld) : (m.updPt g).get p f = m.get p f := rfl
@[simp] theorem updPt_reg (m : Module) (g : Ptp → Ptp) (p off : Nat) : (m.updPt g).reg p off = m.reg p off := rfl
@[simp] theorem updPt_liveKey (m : Module) (g : Ptp → Ptp) (k : Nat) : (m.updPt g).liveKey k = m.liveKey k := rfl
@[simp] theorem updPt_cfg (m : Module) (g : Ptp → Ptp) (p : Nat) (f : Fld) : (m.updPt g).cfg p f = m.cfg p f := rfl

/-! ### updRc -/

@[simp] theorem updRc_sys (m : Module) (g : RecSt → RecSt) : (m.updRc g).sys = m.sys := rfl
@[simp] theorem updRc_lc (m : Module) (g : RecSt → RecSt) : (m.updRc g).lc = m.lc := rfl
@[simp] theorem updRc_clk (m : Module) (g : RecSt → RecSt) : (m.updRc g).clk = m.clk := rfl
@[simp] theorem updRc_nfree (m : Module) (g : RecSt → RecSt) : (m.updRc g).nfree = m.nfree := rfl
@[simp] theorem updRc_regs (m : Module) (g : RecSt → RecSt) : (m.updRc g).regs = m.regs := rfl
@[simp] theorem updRc_live (m : Module) (g : RecSt → RecSt) : (m.updRc g).live = m.live := rfl
@[simp] theorem updRc_good (m : Module) (g : RecSt → RecSt) : (m.updRc g).good = m.good := rfl
@[simp] theorem updRc_snap (m : Module) (g : RecSt → RecSt) : (m.updRc g).snap = m.snap := rfl
@[simp] theorem updRc_pend (m : Module) (g : RecSt → RecSt) : (m.updRc g).pend = m.pend := rfl
@[simp] theorem updRc_unc (m : Module) (g : RecSt → RecSt) : (m.updRc g).unc = m.unc := rfl
@[simp] theorem updRc_ovr (m : Module) (g : RecSt → RecSt) : (m.updRc g).ovr = m.ovr := rfl
@[simp] theorem updRc_defer (m : Module) (g : RecSt → RecSt) : (m.updRc g).defer = m.defer := rfl
@[simp] theorem updRc_winWait (m : Module) (g : RecSt → RecSt) : (m.updRc g).winWait = m.winWait := rfl
@[simp] theorem updRc_ctrs (m : Module) (g : RecSt → RecSt) : (m.updRc g).ctrs = m.ctrs := rfl
@[simp] theorem updRc_cfgRec (m : Module) (g : RecSt → RecSt) : (m.updRc g).cfgRec = m.cfgRec := rfl
@[simp] theorem updRc_sel (m : Module) (g : RecSt → RecSt) : (m.updRc g).sel = m.sel := rfl
@[simp] theorem updRc_idx (m : Module) (g : RecSt → RecSt) : (m.updRc g).idx = m.idx := rfl
@[simp] theorem updRc_latch (m : Module) (g : RecSt → RecSt) : (m.updRc g).latch = m.latch := rfl
@[simp] theorem updRc_out (m : Module) (g : RecSt → RecSt) : (m.updRc g).out = m.out := rfl
@[simp] theorem updRc_sched (m : Module) (g : RecSt → RecSt) : (m.updRc g).sched = m.sched := rfl
@[simp] theorem updRc_ph (m : Module) (g : RecSt → RecSt) : (m.updRc g).ph = m.ph := rfl
@[simp] theorem updRc_rl (m : Module) (g : RecSt → RecSt) : (m.updRc g).rl = m.rl := rfl
@[simp] theorem updRc_adc (m : Module) (g : RecSt → RecSt) : (m.updRc g).adc = m.adc := rfl
@[simp] theorem updRc_cle (m : Module) (g : RecSt → RecSt) : (m.updRc g).cle = m.cle := rfl
@[simp] theorem updRc_tr (m : Module) (g : RecSt → RecSt) : (m.updRc g).tr = m.tr := rfl
@[simp] theorem updRc_ep (m : Module) (g : RecSt → RecSt) : (m.updRc g).ep = m.ep := rfl
@[simp] theorem updRc_cp (m : Module) (g : RecSt → RecSt) : (m.updRc g).cp = m.cp := rfl
@[simp] theorem updRc_gr (m : Module) (g : RecSt → RecSt) : (m.updRc g).gr = m.gr := rfl
@[simp] theorem updRc_xg (m : Module) (g : RecSt → RecSt) : (m.updRc g).xg = m.xg := rfl
@[simp] theorem updRc_fd (m : Module) (g : RecSt → RecSt) : (m.updRc g).fd = m.fd := rfl
@[simp] theorem updRc_sq (m : Module) (g : RecSt → RecSt) : (m.updRc g).sq = m.sq := rfl
@[simp] theorem updRc_pin (m : Module) (g : RecSt → RecSt) : (m.updRc g).pin = m.pin := rfl
@[simp] theorem updRc_bt (m : Module) (g : RecSt → RecSt) : (m.updRc g).bt = m.bt := rfl
@[simp] theorem updRc_th (m : Module) (g : RecSt → RecSt) : (m.updRc g).th = m.th := rfl
@[simp] theorem updRc_net (m : Module) (g : RecSt → RecSt) : (m.updRc g).net = m.net := rfl
@[simp] theorem updRc_bn (m : Module) (g : RecSt → RecSt) : (m.updRc g).bn = m.bn := rfl
@[simp] theorem updRc_pt (m : Module) (g : RecSt → RecSt) : (m.updRc g).pt = m.pt := rfl
@[simp] theorem updRc_twtPtr (m : Module) (g : RecSt → RecSt) : (m.updRc g).twtPtr = m.twtPtr := rfl
@[simp] theorem updRc_twc (m : Module) (g : RecSt → RecSt) : (m.updRc g).twc = m.twc := rfl
@[simp] theorem updRc_mem (m : Module) (g : RecSt → RecSt) : (m.updRc g).mem = m.mem := rfl
@[simp] theorem updRc_hw (m : Module) (g : RecSt → RecSt) : (m.updRc g).hw = m.hw := rfl
@[simp] theorem updRc_up (m : Module) (g : RecSt → RecSt) : (m.updRc g).up = m.up := rfl
@[simp] theorem updRc_rc (m : Module) (g : RecSt → RecSt) : (m.updRc g).rc = g m.rc := rfl
@[simp] theorem updRc_get (m : Module) (g : RecSt → RecSt) (p : Nat) (f : Fld) : (m.updRc g).get p f = m.get p f := rfl
@[simp] theorem updRc_reg (m : Module) (g : RecSt → RecSt) (p off : Nat) : (m.updRc g).reg p off = m.reg p off := rfl
@[simp] theorem updRc_liveKey (m : Module) (g : RecSt → RecSt) (k : Nat) : (m.updRc g).liveKey k = m.liveKey k := rfl
@[simp] theorem updRc_cfg (m : Module) (g : RecSt → RecSt) (p : Nat) (f : Fld) : (m.updRc g).cfg p f = m.cfg p f := rfl

/-! ### updSq -/

@[simp] theorem updSq_sys (m : Module) (g : Seq → Seq) : (m.updSq g).sys = m.sys := rfl
@[simp] theorem updSq_lc (m : Module) (g : Seq → Seq) : (m.updSq g).lc = m.lc := rfl
@[simp] theorem updSq_clk (m : Module) (g : Seq → Seq) : (m.updSq g).clk = m.clk := rfl
@[simp] theorem updSq_nfree (m : Module) (g : Seq → Seq) : (m.updSq g).nfree = m.nfree := rfl
@[simp] theorem updSq_regs (m : Module) (g : Seq → Seq) : (m.updSq g).regs = m.regs := rfl
@[simp] theorem updSq_live (m : Module) (g : Seq → Seq) : (m.updSq g).live = m.live := rfl
@[simp] theorem updSq_good (m : Module) (g : Seq → Seq) : (m.updSq g).good = m.good := rfl
@[simp] theorem updSq_snap (m : Module) (g : Seq → Seq) : (m.updSq g).snap = m.snap := rfl
@[simp] theorem updSq_pend (m : Module) (g : Seq → Seq) : (m.updSq g).pend = m.pend := rfl
@[simp] theorem updSq_unc (m : Module) (g : Seq → Seq) : (m.updSq g).unc = m.unc := rfl
@[simp] theorem updSq_ovr (m : Module) (g : Seq → Seq) : (m.updSq g).ovr = m.ovr := rfl
@[simp] theorem updSq_defer (m : Module) (g : Seq → Seq) : (m.updSq g).defer = m.defer := rfl
@[simp] theorem updSq_winWait (m : Module) (g : Seq → Seq) : (m.updSq g).winWait = m.winWait := rfl
@[simp] theorem updSq_ctrs (m : Module) (g : Seq → Seq) : (m.updSq g).ctrs = m.ctrs := rfl
@[simp] theorem updSq_cfgRec (m : Module) (g : Seq → Seq) : (m.updSq g).cfgRec = m.cfgRec := rfl
@[simp] theorem updSq_sel (m : Module) (g : Seq → Seq) : (m.updSq g).sel = m.sel := rfl
@[simp] theorem updSq_idx (m : Module) (g : Seq → Seq) : (m.updSq g).idx = m.idx := rfl
@[simp] theorem updSq_latch (m : Module) (g : Seq → Seq) : (m.updSq g).latch = m.latch := rfl
@[simp] theorem updSq_rc (m : Module) (g : Seq → Seq) : (m.updSq g).rc = m.rc := rfl
@[simp] theorem updSq_out (m : Module) (g : Seq → Seq) : (m.updSq g).out = m.out := rfl
@[simp] theorem updSq_sched (m : Module) (g : Seq → Seq) : (m.updSq g).sched = m.sched := rfl
@[simp] theorem updSq_ph (m : Module) (g : Seq → Seq) : (m.updSq g).ph = m.ph := rfl
@[simp] theorem updSq_rl (m : Module) (g : Seq → Seq) : (m.updSq g).rl = m.rl := rfl
@[simp] theorem updSq_adc (m : Module) (g : Seq → Seq) : (m.updSq g).adc = m.adc := rfl
@[simp] theorem updSq_cle (m : Module) (g : Seq → Seq) : (m.updSq g).cle = m.cle := rfl
@[simp] theorem updSq_tr (m : Module) (g : Seq → Seq) : (m.updSq g).tr = m.tr := rfl
@[simp] theorem updSq_ep (m : Module) (g : Seq → Seq) : (m.updSq g).ep = m.ep := rfl
@[simp] theorem updSq_cp (m : Module) (g : Seq → Seq) : (m.updSq g).cp = m.cp := rfl
@[simp] theorem updSq_gr (m : Module) (g : Seq → Seq) : (m.updSq g).gr = m.gr := rfl
@[simp] theorem updSq_xg (m : Module) (g : Seq → Seq) : (m.updSq g).xg = m.xg := rfl
@[simp] theorem updSq_fd (m : Module) (g : Seq → Seq) : (m.updSq g).fd = m.fd := rfl
@[simp] theorem updSq_pin (m : Module) (g : Seq → Seq) : (m.updSq g).pin = m.pin := rfl
@[simp] theorem updSq_bt (m : Module) (g : Seq → Seq) : (m.updSq g).bt = m.bt := rfl
@[simp] theorem updSq_th (m : Module) (g : Seq → Seq) : (m.updSq g).th = m.th := rfl
@[simp] theorem updSq_net (m : Module) (g : Seq → Seq) : (m.updSq g).net = m.net := rfl
@[simp] theorem updSq_bn (m : Module) (g : Seq → Seq) : (m.updSq g).bn = m.bn := rfl
@[simp] theorem updSq_pt (m : Module) (g : Seq → Seq) : (m.updSq g).pt = m.pt := rfl
@[simp] theorem updSq_twtPtr (m : Module) (g : Seq → Seq) : (m.updSq g).twtPtr = m.twtPtr := rfl
@[simp] theorem updSq_twc (m : Module) (g : Seq → Seq) : (m.updSq g).twc = m.twc := rfl
@[simp] theorem updSq_mem (m : Module) (g : Seq → Seq) : (m.updSq g).mem = m.mem := rfl
@[simp] theorem updSq_hw (m : Module) (g : Seq → Seq) : (m.updSq g).hw = m.hw := rfl
@[simp] theorem updSq_up (m : Module) (g : Seq → Seq) : (m.updSq g).up = m.up := rfl
@[simp] theorem updSq_sq (m : Module) (g : Seq → Seq) : (m.updSq g).sq = g m.sq := rfl
@[simp] theorem updSq_get (m : Module) (g : Seq → Seq) (p : Nat) (f : Fld) : (m.updSq g).get p f = m.get p f := rfl
@[simp] theorem updSq_reg (m : Module) (g : Seq → Seq) (p off : Nat) : (m.updSq g).reg p off = m.reg p off := rfl
@[simp] theorem updSq_liveKey (m : Module) (g : Seq → Seq) (k : Nat) : (m.updSq g).liveKey k = m.liveKey k := rfl
@[simp] theorem updSq_cfg (m : Module) (g : Seq → Seq) (p : Nat) (f : Fld) : (m.updSq g).cfg p f = m.cfg p f := rfl

/-! ### updTh -/

@[simp] theorem updTh_sys (m : Module) (g : Therm → Therm) : (m.updTh g).sys = m.sys := rfl
@[simp] theorem updTh_lc (m : Module) (g : Therm → Therm) : (m.updTh g).lc = m.lc := rfl
@[simp] theorem updTh_clk (m : Module) (g : Therm → Therm) : (m.updTh g).clk = m.clk := rfl
@[simp] theorem updTh_nfree (m : Module) (g : Therm → Therm) : (m.updTh g).nfree = m.nfree := rfl
@[simp] theorem updTh_regs (m : Module) (g : Therm → Therm) : (m.updTh g).regs = m.regs := rfl
@[simp] theorem updTh_live (m : Module) (g : Therm → Therm) : (m.updTh g).live = m.live := rfl
@[simp] theorem updTh_good (m : Module) (g : Therm → Therm) : (m.updTh g).good = m.good := rfl
@[simp] theorem updTh_snap (m : Module) (g : Therm → Therm) : (m.updTh g).snap = m.snap := rfl
@[simp] theorem updTh_pend (m : Module) (g : Therm → Therm) : (m.updTh g).pend = m.pend := rfl
@[simp] theorem updTh_unc (m : Module) (g : Therm → Therm) : (m.updTh g).unc = m.unc := rfl
@[simp] theorem updTh_ovr (m : Module) (g : Therm → Therm) : (m.updTh g).ovr = m.ovr := rfl
@[simp] theorem updTh_defer (m : Module) (g : Therm → Therm) : (m.updTh g).defer = m.defer := rfl
@[simp] theorem updTh_winWait (m : Module) (g : Therm → Therm) : (m.updTh g).winWait = m.winWait := rfl
@[simp] theorem updTh_ctrs (m : Module) (g : Therm → Therm) : (m.updTh g).ctrs = m.ctrs := rfl
@[simp] theorem updTh_cfgRec (m : Module) (g : Therm → Therm) : (m.updTh g).cfgRec = m.cfgRec := rfl
@[simp] theorem updTh_sel (m : Module) (g : Therm → Therm) : (m.updTh g).sel = m.sel := rfl
@[simp] theorem updTh_idx (m : Module) (g : Therm → Therm) : (m.updTh g).idx = m.idx := rfl
@[simp] theorem updTh_latch (m : Module) (g : Therm → Therm) : (m.updTh g).latch = m.latch := rfl
@[simp] theorem updTh_rc (m : Module) (g : Therm → Therm) : (m.updTh g).rc = m.rc := rfl
@[simp] theorem updTh_out (m : Module) (g : Therm → Therm) : (m.updTh g).out = m.out := rfl
@[simp] theorem updTh_sched (m : Module) (g : Therm → Therm) : (m.updTh g).sched = m.sched := rfl
@[simp] theorem updTh_ph (m : Module) (g : Therm → Therm) : (m.updTh g).ph = m.ph := rfl
@[simp] theorem updTh_rl (m : Module) (g : Therm → Therm) : (m.updTh g).rl = m.rl := rfl
@[simp] theorem updTh_adc (m : Module) (g : Therm → Therm) : (m.updTh g).adc = m.adc := rfl
@[simp] theorem updTh_cle (m : Module) (g : Therm → Therm) : (m.updTh g).cle = m.cle := rfl
@[simp] theorem updTh_tr (m : Module) (g : Therm → Therm) : (m.updTh g).tr = m.tr := rfl
@[simp] theorem updTh_ep (m : Module) (g : Therm → Therm) : (m.updTh g).ep = m.ep := rfl
@[simp] theorem updTh_cp (m : Module) (g : Therm → Therm) : (m.updTh g).cp = m.cp := rfl
@[simp] theorem updTh_gr (m : Module) (g : Therm → Therm) : (m.updTh g).gr = m.gr := rfl
@[simp] theorem updTh_xg (m : Module) (g : Therm → Therm) : (m.updTh g).xg = m.xg := rfl
@[simp] theorem updTh_fd (m : Module) (g : Therm → Therm) : (m.updTh g).fd = m.fd := rfl
@[simp] theorem updTh_sq (m : Module) (g : Therm → Therm) : (m.updTh g).sq = m.sq := rfl
@[simp] theorem updTh_pin (m : Module) (g : Therm → Therm) : (m.updTh g).pin = m.pin := rfl
@[simp] theorem updTh_bt (m : Module) (g : Therm → Therm) : (m.updTh g).bt = m.bt := rfl
@[simp] theorem updTh_net (m : Module) (g : Therm → Therm) : (m.updTh g).net = m.net := rfl
@[simp] theorem updTh_bn (m : Module) (g : Therm → Therm) : (m.updTh g).bn = m.bn := rfl
@[simp] theorem updTh_pt (m : Module) (g : Therm → Therm) : (m.updTh g).pt = m.pt := rfl
@[simp] theorem updTh_twtPtr (m : Module) (g : Therm → Therm) : (m.updTh g).twtPtr = m.twtPtr := rfl
@[simp] theorem updTh_twc (m : Module) (g : Therm → Therm) : (m.updTh g).twc = m.twc := rfl
@[simp] theorem updTh_mem (m : Module) (g : Therm → Therm) : (m.updTh g).mem = m.mem := rfl
@[simp] theorem updTh_hw (m : Module) (g : Therm → Therm) : (m.updTh g).hw = m.hw := rfl
@[simp] theorem updTh_up (m : Module) (g : Therm → Therm) : (m.updTh g).up = m.up := rfl
@[simp] theorem updTh_th (m : Module) (g : Therm → Therm) : (m.updTh g).th = g m.th := rfl
@[simp] theorem updTh_get (m : Module) (g : Therm → Therm) (p : Nat) (f : Fld) : (m.updTh g).get p f = m.get p f := rfl
@[simp] theorem updTh_reg (m : Module) (g : Therm → Therm) (p off : Nat) : (m.updTh g).reg p off = m.reg p off := rfl
@[simp] theorem updTh_liveKey (m : Module) (g : Therm → Therm) (k : Nat) : (m.updTh g).liveKey k = m.liveKey k := rfl
@[simp] theorem updTh_cfg (m : Module) (g : Therm → Therm) (p : Nat) (f : Fld) : (m.updTh g).cfg p f = m.cfg p f := rfl

/-! ### updTr -/

@[simp] theorem updTr_sys (m : Module) (i : Nat) (g : Trace → Trace) : (m.updTr i g).sys = m.sys := rfl
@[simp] theorem updTr_lc (m : Module) (i : Nat) (g : Trace → Trace) : (m.updTr i g).lc = m.lc := rfl
@[simp] theorem updTr_clk (m : Module) (i : Nat) (g : Trace → Trace) : (m.updTr i g).clk = m.clk := rfl
@[simp] theorem updTr_nfree (m : Module) (i : Nat) (g : Trace → Trace) : (m.updTr i g).nfree = m.nfree := rfl
@[simp] theorem updTr_regs (m : Module) (i : Nat) (g : Trace → Trace) : (m.updTr i g).regs = m.regs := rfl
@[simp] theorem updTr_live (m : Module) (i : Nat) (g : Trace → Trace) : (m.updTr i g).live = m.live := rfl
@[simp] theorem updTr_good (m : Module) (i : Nat) (g : Trace → Trace) : (m.updTr i g).good = m.good := rfl
@[simp] theorem updTr_snap (m : Module) (i : Nat) (g : Trace → Trace) : (m.updTr i g).snap = m.snap := rfl
@[simp] theorem updTr_pend (m : Module) (i : Nat) (g : Trace → Trace) : (m.updTr i g).pend = m.pend := rfl
@[simp] theorem updTr_unc (m : Module) (i : Nat) (g : Trace → Trace) : (m.updTr i g).unc = m.unc := rfl
@[simp] theorem updTr_ovr (m : Module) (i : Nat) (g : Trace → Trace) : (m.updTr i g).ovr = m.ovr := rfl
@[simp] theorem updTr_defer (m : Module) (i : Nat) (g : Trace → Trace) : (m.updTr i g).defer = m.defer := rfl
@[simp] theorem updTr_winWait (m : Module) (i : Nat) (g : Trace → Trace) : (m.updTr i g).winWait = m.winWait := rfl
@[simp] theorem updTr_ctrs (m : Module) (i : Nat) (g : Trace → Trace) : (m.updTr i g).ctrs = m.ctrs := rfl
@[simp] theorem updTr_cfgRec (m : Module) (i : Nat) (g : Trace → Trace) : (m.updTr i g).cfgRec = m.cfgRec := rfl
@[simp] theorem updTr_sel (m : Module) (i : Nat) (g : Trace → Trace) : (m.updTr i g).sel = m.sel := rfl
@[simp] theorem updTr_idx (m : Module) (i : Nat) (g : Trace → Trace) : (m.updTr i g).idx = m.idx := rfl
@[simp] theorem updTr_latch (m : Module) (i : Nat) (g : Trace → Trace) : (m.updTr i g).latch = m.latch := rfl
@[simp] theorem updTr_rc (m : Module) (i : Nat) (g : Trace → Trace) : (m.updTr i g).rc = m.rc := rfl
@[simp] theorem updTr_out (m : Module) (i : Nat) (g : Trace → Trace) : (m.updTr i g).out = m.out := rfl
@[simp] theorem updTr_sched (m : Module) (i : Nat) (g : Trace → Trace) : (m.updTr i g).sched = m.sched := rfl
@[simp] theorem updTr_ph (m : Module) (i : Nat) (g : Trace → Trace) : (m.updTr i g).ph = m.ph := rfl
@[simp] theorem updTr_rl (m : Module) (i : Nat) (g : Trace → Trace) : (m.updTr i g).rl = m.rl := rfl
@[simp] theorem updTr_adc (m : Module) (i : Nat) (g : Trace → Trace) : (m.updTr i g).adc = m.adc := rfl
@[simp] theorem updTr_cle (m : Module) (i : Nat) (g : Trace → Trace) : (m.updTr i g).cle = m.cle := rfl
@[simp] theorem updTr_ep (m : Module) (i : Nat) (g : Trace → Trace) : (m.updTr i g).ep = m.ep := rfl
@[simp] theorem updTr_cp (m : Module) (i : Nat) (g : Trace → Trace) : (m.updTr i g).cp = m.cp := rfl
@[simp] theorem updTr_gr (m : Module) (i : Nat) (g : Trace → Trace) : (m.updTr i g).gr = m.gr := rfl
@[simp] theorem updTr_xg (m : Module) (i : Nat) (g : Trace → Trace) : (m.updTr i g).xg = m.xg := rfl
@[simp] theorem updTr_fd (m : Module) (i : Nat) (g : Trace → Trace) : (m.updTr i g).fd = m.fd := rfl
@[simp] theorem updTr_sq (m : Module) (i : Nat) (g : Trace → Trace) : (m.updTr i g).sq = m.sq := rfl
@[simp] theorem updTr_pin (m : Module) (i : Nat) (g : Trace → Trace) : (m.updTr i g).pin = m.pin := rfl
@[simp] theorem updTr_bt (m : Module) (i : Nat) (g : Trace → Trace) : (m.updTr i g).bt = m.bt := rfl
@[simp] theorem updTr_th (m : Module) (i : Nat) (g : Trace → Trace) : (m.updTr i g).th = m.th := rfl
@[simp] theorem updTr_net (m : Module) (i : Nat) (g : Trace → Trace) : (m.updTr i g).net = m.net := rfl
@[simp] theorem updTr_bn (m : Module) (i : Nat) (g : Trace → Trace) : (m.updTr i g).bn = m.bn := rfl
@[simp] theorem updTr_pt (m : Module) (i : Nat) (g : Trace → Trace) : (m.updTr i g).pt = m.pt := rfl
@[simp] theorem updTr_twtPtr (m : Module) (i : Nat) (g : Trace → Trace) : (m.updTr i g).twtPtr = m.twtPtr := rfl
@[simp] theorem updTr_twc (m : Module) (i : Nat) (g : Trace → Trace) : (m.updTr i g).twc = m.twc := rfl
@[simp] theorem updTr_mem (m : Module) (i : Nat) (g : Trace → Trace) : (m.updTr i g).mem = m.mem := rfl
@[simp] theorem updTr_hw (m : Module) (i : Nat) (g : Trace → Trace) : (m.updTr i g).hw = m.hw := rfl
@[simp] theorem updTr_up (m : Module) (i : Nat) (g : Trace → Trace) : (m.updTr i g).up = m.up := rfl
@[simp] theorem updTr_tr (m : Module) (i : Nat) (g : Trace → Trace) : (m.updTr i g).tr = upd m.tr i g := rfl
@[simp] theorem updTr_get (m : Module) (i : Nat) (g : Trace → Trace) (p : Nat) (f : Fld) : (m.updTr i g).get p f = m.get p f := rfl
@[simp] theorem updTr_reg (m : Module) (i : Nat) (g : Trace → Trace) (p off : Nat) : (m.updTr i g).reg p off = m.reg p off := rfl
@[simp] theorem updTr_liveKey (m : Module) (i : Nat) (g : Trace → Trace) (k : Nat) : (m.updTr i g).liveKey k = m.liveKey k := rfl
@[simp] theorem updTr_cfg (m : Module) (i : Nat) (g : Trace → Trace) (p : Nat) (f : Fld) : (m.updTr i g).cfg p f = m.cfg p f := rfl

/-! ### updPort -/

@[simp] theorem updPort_sys (m : Module) (i : Nat) (g : Twc → Twc) : (m.updPort i g).sys = m.sys := rfl
@[simp] theorem updPort_lc (m : Module) (i : Nat) (g : Twc → Twc) : (m.updPort i g).lc = m.lc := rfl
@[simp] theorem updPort_clk (m : Module) (i : Nat) (g : Twc → Twc) : (m.updPort i g).clk = m.clk := rfl
@[simp] theorem updPort_nfree (m : Module) (i : Nat) (g : Twc → Twc) : (m.updPort i g).nfree = m.nfree := rfl
@[simp] theorem updPort_regs (m : Module) (i : Nat) (g : Twc → Twc) : (m.updPort i g).regs = m.regs := rfl
@[simp] theorem updPort_live (m : Module) (i : Nat) (g : Twc → Twc) : (m.updPort i g).live = m.live := rfl
@[simp] theorem updPort_good (m : Module) (i : Nat) (g : Twc → Twc) : (m.updPort i g).good = m.good := rfl
@[simp] theorem updPort_snap (m : Module) (i : Nat) (g : Twc → Twc) : (m.updPort i g).snap = m.snap := rfl
@[simp] theorem updPort_pend (m : Module) (i : Nat) (g : Twc → Twc) : (m.updPort i g).pend = m.pend := rfl
@[simp] theorem updPort_unc (m : Module) (i : Nat) (g : Twc → Twc) : (m.updPort i g).unc = m.unc := rfl
@[simp] theorem updPort_ovr (m : Module) (i : Nat) (g : Twc → Twc) : (m.updPort i g).ovr = m.ovr := rfl
@[simp] theorem updPort_defer (m : Module) (i : Nat) (g : Twc → Twc) : (m.updPort i g).defer = m.defer := rfl
@[simp] theorem updPort_winWait (m : Module) (i : Nat) (g : Twc → Twc) : (m.updPort i g).winWait = m.winWait := rfl
@[simp] theorem updPort_ctrs (m : Module) (i : Nat) (g : Twc → Twc) : (m.updPort i g).ctrs = m.ctrs := rfl
@[simp] theorem updPort_cfgRec (m : Module) (i : Nat) (g : Twc → Twc) : (m.updPort i g).cfgRec = m.cfgRec := rfl
@[simp] theorem updPort_sel (m : Module) (i : Nat) (g : Twc → Twc) : (m.updPort i g).sel = m.sel := rfl
@[simp] theorem updPort_idx (m : Module) (i : Nat) (g : Twc → Twc) : (m.updPort i g).idx = m.idx := rfl
@[simp] theorem updPort_latch (m : Module) (i : Nat) (g : Twc → Twc) : (m.updPort i g).latch = m.latch := rfl
@[simp] theorem updPort_rc (m : Module) (i : Nat) (g : Twc → Twc) : (m.updPort i g).rc = m.rc := rfl
@[simp] theorem updPort_out (m : Module) (i : Nat) (g : Twc → Twc) : (m.updPort i g).out = m.out := rfl
@[simp] theorem updPort_sched (m : Module) (i : Nat) (g : Twc → Twc) : (m.updPort i g).sched = m.sched := rfl
@[simp] theorem updPort_ph (m : Module) (i : Nat) (g : Twc → Twc) : (m.updPort i g).ph = m.ph := rfl
@[simp] theorem updPort_rl (m : Module) (i : Nat) (g : Twc → Twc) : (m.updPort i g).rl = m.rl := rfl
@[simp] theorem updPort_adc (m : Module) (i : Nat) (g : Twc → Twc) : (m.updPort i g).adc = m.adc := rfl
@[simp] theorem updPort_cle (m : Module) (i : Nat) (g : Twc → Twc) : (m.updPort i g).cle = m.cle := rfl
@[simp] theorem updPort_tr (m : Module) (i : Nat) (g : Twc → Twc) : (m.updPort i g).tr = m.tr := rfl
@[simp] theorem updPort_ep (m : Module) (i : Nat) (g : Twc → Twc) : (m.updPort i g).ep = m.ep := rfl
@[simp] theorem updPort_cp (m : Module) (i : Nat) (g : Twc → Twc) : (m.updPort i g).cp = m.cp := rfl
@[simp] theorem updPort_gr (m : Module) (i : Nat) (g : Twc → Twc) : (m.updPort i g).gr = m.gr := rfl
@[simp] theorem updPort_xg (m : Module) (i : Nat) (g : Twc → Twc) : (m.updPort i g).xg = m.xg := rfl
@[simp] theorem updPort_fd (m : Module) (i : Nat) (g : Twc → Twc) : (m.updPort i g).fd = m.fd := rfl
@[simp] theorem updPort_sq (m : Module) (i : Nat) (g : Twc → Twc) : (m.updPort i g).sq = m.sq := rfl
@[simp] theorem updPort_pin (m : Module) (i : Nat) (g : Twc → Twc) : (m.updPort i g).pin = m.pin := rfl
@[simp] theorem updPort_bt (m : Module) (i : Nat) (g : Twc → Twc) : (m.updPort i g).bt = m.bt := rfl
@[simp] theorem updPort_th (m : Module) (i : Nat) (g : Twc → Twc) : (m.updPort i g).th = m.th := rfl
@[simp] theorem updPort_net (m : Module) (i : Nat) (g : Twc → Twc) : (m.updPort i g).net = m.net := rfl
@[simp] theorem updPort_bn (m : Module) (i : Nat) (g : Twc → Twc) : (m.updPort i g).bn = m.bn := rfl
@[simp] theorem updPort_pt (m : Module) (i : Nat) (g : Twc → Twc) : (m.updPort i g).pt = m.pt := rfl
@[simp] theorem updPort_twtPtr (m : Module) (i : Nat) (g : Twc → Twc) : (m.updPort i g).twtPtr = m.twtPtr := rfl
@[simp] theorem updPort_mem (m : Module) (i : Nat) (g : Twc → Twc) : (m.updPort i g).mem = m.mem := rfl
@[simp] theorem updPort_hw (m : Module) (i : Nat) (g : Twc → Twc) : (m.updPort i g).hw = m.hw := rfl
@[simp] theorem updPort_up (m : Module) (i : Nat) (g : Twc → Twc) : (m.updPort i g).up = m.up := rfl
@[simp] theorem updPort_twc (m : Module) (i : Nat) (g : Twc → Twc) : (m.updPort i g).twc = upd m.twc i g := rfl
@[simp] theorem updPort_get (m : Module) (i : Nat) (g : Twc → Twc) (p : Nat) (f : Fld) : (m.updPort i g).get p f = m.get p f := rfl
@[simp] theorem updPort_reg (m : Module) (i : Nat) (g : Twc → Twc) (p off : Nat) : (m.updPort i g).reg p off = m.reg p off := rfl
@[simp] theorem updPort_liveKey (m : Module) (i : Nat) (g : Twc → Twc) (k : Nat) : (m.updPort i g).liveKey k = m.liveKey k := rfl
@[simp] theorem updPort_cfg (m : Module) (i : Nat) (g : Twc → Twc) (p : Nat) (f : Fld) : (m.updPort i g).cfg p f = m.cfg p f := rfl

/-! ### updUp -/

@[simp] theorem updUp_sys (m : Module) (g : Upd → Upd) : (m.updUp g).sys = m.sys := rfl
@[simp] theorem updUp_lc (m : Module) (g : Upd → Upd) : (m.updUp g).lc = m.lc := rfl
@[simp] theorem updUp_clk (m : Module) (g : Upd → Upd) : (m.updUp g).clk = m.clk := rfl
@[simp] theorem updUp_nfree (m : Module) (g : Upd → Upd) : (m.updUp g).nfree = m.nfree := rfl
@[simp] theorem updUp_regs (m : Module) (g : Upd → Upd) : (m.updUp g).regs = m.regs := rfl
@[simp] theorem updUp_live (m : Module) (g : Upd → Upd) : (m.updUp g).live = m.live := rfl
@[simp] theorem updUp_good (m : Module) (g : Upd → Upd) : (m.updUp g).good = m.good := rfl
@[simp] theorem updUp_snap (m : Module) (g : Upd → Upd) : (m.updUp g).snap = m.snap := rfl
@[simp] theorem updUp_pend (m : Module) (g : Upd → Upd) : (m.updUp g).pend = m.pend := rfl
@[simp] theorem updUp_unc (m : Module) (g : Upd → Upd) : (m.updUp g).unc = m.unc := rfl
@[simp] theorem updUp_ovr (m : Module) (g : Upd → Upd) : (m.updUp g).ovr = m.ovr := rfl
@[simp] theorem updUp_defer (m : Module) (g : Upd → Upd) : (m.updUp g).defer = m.defer := rfl
@[simp] theorem updUp_winWait (m : Module) (g : Upd → Upd) : (m.updUp g).winWait = m.winWait := rfl
@[simp] theorem updUp_ctrs (m : Module) (g : Upd → Upd) : (m.updUp g).ctrs = m.ctrs := rfl
@[simp] theorem updUp_cfgRec (m : Module) (g : Upd → Upd) : (m.updUp g).cfgRec = m.cfgRec := rfl
@[simp] theorem updUp_sel (m : Module) (g : Upd → Upd) : (m.updUp g).sel = m.sel := rfl
@[simp] theorem updUp_idx (m : Module) (g : Upd → Upd) : (m.updUp g).idx = m.idx := rfl
@[simp] theorem updUp_latch (m : Module) (g : Upd → Upd) : (m.updUp g).latch = m.latch := rfl
@[simp] theorem updUp_rc (m : Module) (g : Upd → Upd) : (m.updUp g).rc = m.rc := rfl
@[simp] theorem updUp_out (m : Module) (g : Upd → Upd) : (m.updUp g).out = m.out := rfl
@[simp] theorem updUp_sched (m : Module) (g : Upd → Upd) : (m.updUp g).sched = m.sched := rfl
@[simp] theorem updUp_ph (m : Module) (g : Upd → Upd) : (m.updUp g).ph = m.ph := rfl
@[simp] theorem updUp_rl (m : Module) (g : Upd → Upd) : (m.updUp g).rl = m.rl := rfl
@[simp] theorem updUp_adc (m : Module) (g : Upd → Upd) : (m.updUp g).adc = m.adc := rfl
@[simp] theorem updUp_cle (m : Module) (g : Upd → Upd) : (m.updUp g).cle = m.cle := rfl
@[simp] theorem updUp_tr (m : Module) (g : Upd → Upd) : (m.updUp g).tr = m.tr := rfl
@[simp] theorem updUp_ep (m : Module) (g : Upd → Upd) : (m.updUp g).ep = m.ep := rfl
@[simp] theorem updUp_cp (m : Module) (g : Upd → Upd) : (m.updUp g).cp = m.cp := rfl
@[simp] theorem updUp_gr (m : Module) (g : Upd → Upd) : (m.updUp g).gr = m.gr := rfl
@[simp] theorem updUp_xg (m : Module) (g : Upd → Upd) : (m.updUp g).xg = m.xg := rfl
@[simp] theorem updUp_fd (m : Module) (g : Upd → Upd) : (m.updUp g).fd = m.fd := rfl
@[simp] theorem updUp_sq (m : Module) (g : Upd → Upd) : (m.updUp g).sq = m.sq := rfl
@[simp] theorem updUp_pin (m : Module) (g : Upd → Upd) : (m.updUp g).pin = m.pin := rfl
@[simp] theorem updUp_bt (m : Module) (g : Upd → Upd) : (m.updUp g).bt = m.bt := rfl
@[simp] theorem updUp_th (m : Module) (g : Upd → Upd) : (m.updUp g).th = m.th := rfl
@[simp] theorem updUp_net (m : Module) (g : Upd → Upd) : (m.updUp g).net = m.net := rfl
@[simp] theorem updUp_bn (m : Module) (g : Upd → Upd) : (m.updUp g).bn = m.bn := rfl
@[simp] theorem updUp_pt (m : Module) (g : Upd → Upd) : (m.updUp g).pt = m.pt := rfl
@[simp] theorem updUp_twtPtr (m : Module) (g : Upd → Upd) : (m.updUp g).twtPtr = m.twtPtr := rfl
@[simp] theorem updUp_twc (m : Module) (g : Upd → Upd) : (m.updUp g).twc = m.twc := rfl
@[simp] theorem updUp_mem (m : Module) (g : Upd → Upd) : (m.updUp g).mem = m.mem := rfl
@[simp] theorem updUp_hw (m : Module) (g : Upd → Upd) : (m.updUp g).hw = m.hw := rfl
@[simp] theorem updUp_up (m : Module) (g : Upd → Upd) : (m.updUp g).up = g m.up := rfl
@[simp] theorem updUp_get (m : Module) (g : Upd → Upd) (p : Nat) (f : Fld) : (m.updUp g).get p f = m.get p f := rfl
@[simp] theorem updUp_reg (m : Module) (g : Upd → Upd) (p off : Nat) : (m.updUp g).reg p off = m.reg p off := rfl
@[simp] theorem updUp_liveKey (m : Module) (g : Upd → Upd) (k : Nat) : (m.updUp g).liveKey k = m.liveKey k := rfl
@[simp] theorem updUp_cfg (m : Module) (g : Upd → Upd) (p : Nat) (f : Fld) : (m.updUp g).cfg p f = m.cfg p f := rfl

/-! ### updXg -/

@[simp] theorem updXg_sys (m : Module) (g : Xing → Xing) : (m.updXg g).sys = m.sys := rfl
@[simp] theorem updXg_lc (m : Module) (g : Xing → Xing) : (m.updXg g).lc = m.lc := rfl
@[simp] theorem updXg_clk (m : Module) (g : Xing → Xing) : (m.updXg g).clk = m.clk := rfl
@[simp] theorem updXg_nfree (m : Module) (g : Xing → Xing) : (m.updXg g).nfree = m.nfree := rfl
@[simp] theorem updXg_regs (m : Module) (g : Xing → Xing) : (m.updXg g).regs = m.regs := rfl
@[simp] theorem updXg_live (m : Module) (g : Xing → Xing) : (m.updXg g).live = m.live := rfl
@[simp] theorem updXg_good (m : Module) (g : Xing → Xing) : (m.updXg g).good = m.good := rfl
@[simp] theorem updXg_snap (m : Module) (g : Xing → Xing) : (m.updXg g).snap = m.snap := rfl
@[simp] theorem updXg_pend (m : Module) (g : Xing → Xing) : (m.updXg g).pend = m.pend := rfl
@[simp] theorem updXg_unc (m : Module) (g : Xing → Xing) : (m.updXg g).unc = m.unc := rfl
@[simp] theorem updXg_ovr (m : Module) (g : Xing → Xing) : (m.updXg g).ovr = m.ovr := rfl
@[simp] theorem updXg_defer (m : Module) (g : Xing → Xing) : (m.updXg g).defer = m.defer := rfl
@[simp] theorem updXg_winWait (m : Module) (g : Xing → Xing) : (m.updXg g).winWait = m.winWait := rfl
@[simp] theorem updXg_ctrs (m : Module) (g : Xing → Xing) : (m.updXg g).ctrs = m.ctrs := rfl
@[simp] theorem updXg_cfgRec (m : Module) (g : Xing → Xing) : (m.updXg g).cfgRec = m.cfgRec := rfl
@[simp] theorem updXg_sel (m : Module) (g : Xing → Xing) : (m.updXg g).sel = m.sel := rfl
@[simp] theorem updXg_idx (m : Module) (g : Xing → Xing) : (m.updXg g).idx = m.idx := rfl
@[simp] theorem updXg_latch (m : Module) (g : Xing → Xing) : (m.updXg g).latch = m.latch := rfl
@[simp] theorem updXg_rc (m : Module) (g : Xing → Xing) : (m.updXg g).rc = m.rc := rfl
@[simp] theorem updXg_out (m : Module) (g : Xing → Xing) : (m.updXg g).out = m.out := rfl
@[simp] theorem updXg_sched (m : Module) (g : Xing → Xing) : (m.updXg g).sched = m.sched := rfl
@[simp] theorem updXg_ph (m : Module) (g : Xing → Xing) : (m.updXg g).ph = m.ph := rfl
@[simp] theorem updXg_rl (m : Module) (g : Xing → Xing) : (m.updXg g).rl = m.rl := rfl
@[simp] theorem updXg_adc (m : Module) (g : Xing → Xing) : (m.updXg g).adc = m.adc := rfl
@[simp] theorem updXg_cle (m : Module) (g : Xing → Xing) : (m.updXg g).cle = m.cle := rfl
@[simp] theorem updXg_tr (m : Module) (g : Xing → Xing) : (m.updXg g).tr = m.tr := rfl
@[simp] theorem updXg_ep (m : Module) (g : Xing → Xing) : (m.updXg g).ep = m.ep := rfl
@[simp] theorem updXg_cp (m : Module) (g : Xing → Xing) : (m.updXg g).cp = m.cp := rfl
@[simp] theorem updXg_gr (m : Module) (g : Xing → Xing) : (m.updXg g).gr = m.gr := rfl
@[simp] theorem updXg_fd (m : Module) (g : Xing → Xing) : (m.updXg g).fd = m.fd := rfl
@[simp] theorem updXg_sq (m : Module) (g : Xing → Xing) : (m.updXg g).sq = m.sq := rfl
@[simp] theorem updXg_pin (m : Module) (g : Xing → Xing) : (m.updXg g).pin = m.pin := rfl
@[simp] theorem updXg_bt (m : Module) (g : Xing → Xing) : (m.updXg g).bt = m.bt := rfl
@[simp] theorem updXg_th (m : Module) (g : Xing → Xing) : (m.updXg g).th = m.th := rfl
@[simp] theorem updXg_net (m : Module) (g : Xing → Xing) : (m.updXg g).net = m.net := rfl
@[simp] theorem updXg_bn (m : Module) (g : Xing → Xing) : (m.updXg g).bn = m.bn := rfl
@[simp] theorem updXg_pt (m : Module) (g : Xing → Xing) : (m.updXg g).pt = m.pt := rfl
@[simp] theorem updXg_twtPtr (m : Module) (g : Xing → Xing) : (m.updXg g).twtPtr = m.twtPtr := rfl
@[simp] theorem updXg_twc (m : Module) (g : Xing → Xing) : (m.updXg g).twc = m.twc := rfl
@[simp] theorem updXg_mem (m : Module) (g : Xing → Xing) : (m.updXg g).mem = m.mem := rfl
@[simp] theorem updXg_hw (m : Module) (g : Xing → Xing) : (m.updXg g).hw = m.hw := rfl
@[simp] theorem updXg_up (m : Module) (g : Xing → Xing) : (m.updXg g).up = m.up := rfl
@[simp] theorem updXg_xg (m : Module) (g : Xing → Xing) : (m.updXg g).xg = g m.xg := rfl
@[simp] theorem updXg_get (m : Module) (g : Xing → Xing) (p : Nat) (f : Fld) : (m.updXg g).get p f = m.get p f := rfl
@[simp] theorem updXg_reg (m : Module) (g : Xing → Xing) (p off : Nat) : (m.updXg g).reg p off = m.reg p off := rfl
@[simp] theorem updXg_liveKey (m : Module) (g : Xing → Xing) (k : Nat) : (m.updXg g).liveKey k = m.liveKey k := rfl
@[simp] theorem updXg_cfg (m : Module) (g : Xing → Xing) (p : Nat) (f : Fld) : (m.updXg g).cfg p f = m.cfg p f := rfl

/-! ### updTask -/

@[simp] theorem updTask_sys (m : Module) (i : Nat) (g : Task → Task) : (m.updTask i g).sys = m.sys := rfl
@[simp] theorem updTask_lc (m : Module) (i : Nat) (g : Task → Task) : (m.updTask i g).lc = m.lc := rfl
@[simp] theorem updTask_clk (m : Module) (i : Nat) (g : Task → Task) : (m.updTask i g).clk = m.clk := rfl
@[simp] theorem updTask_nfree (m : Module) (i : Nat) (g : Task → Task) : (m.updTask i g).nfree = m.nfree := rfl
@[simp] theorem updTask_regs (m : Module) (i : Nat) (g : Task → Task) : (m.updTask i g).regs = m.regs := rfl
@[simp] theorem updTask_live (m : Module) (i : Nat) (g : Task → Task) : (m.updTask i g).live = m.live := rfl
@[simp] theorem updTask_good (m : Module) (i : Nat) (g : Task → Task) : (m.updTask i g).good = m.good := rfl
@[simp] theorem updTask_snap (m : Module) (i : Nat) (g : Task → Task) : (m.updTask i g).snap = m.snap := rfl
@[simp] theorem updTask_pend (m : Module) (i : Nat) (g : Task → Task) : (m.updTask i g).pend = m.pend := rfl
@[simp] theorem updTask_unc (m : Module) (i : Nat) (g : Task → Task) : (m.updTask i g).unc = m.unc := rfl
@[simp] theorem updTask_ovr (m : Module) (i : Nat) (g : Task → Task) : (m.updTask i g).ovr = m.ovr := rfl
@[simp] theorem updTask_defer (m : Module) (i : Nat) (g : Task → Task) : (m.updTask i g).defer = m.defer := rfl
@[simp] theorem updTask_winWait (m : Module) (i : Nat) (g : Task → Task) : (m.updTask i g).winWait = m.winWait := rfl
@[simp] theorem updTask_ctrs (m : Module) (i : Nat) (g : Task → Task) : (m.updTask i g).ctrs = m.ctrs := rfl
@[simp] theorem updTask_cfgRec (m : Module) (i : Nat) (g : Task → Task) : (m.updTask i g).cfgRec = m.cfgRec := rfl
@[simp] theorem updTask_sel (m : Module) (i : Nat) (g : Task → Task) : (m.updTask i g).sel = m.sel := rfl
@[simp] theorem updTask_idx (m : Module) (i : Nat) (g : Task → Task) : (m.updTask i g).idx = m.idx := rfl
@[simp] theorem updTask_latch (m : Module) (i : Nat) (g : Task → Task) : (m.updTask i g).latch = m.latch := rfl
@[simp] theorem updTask_rc (m : Module) (i : Nat) (g : Task → Task) : (m.updTask i g).rc = m.rc := rfl
@[simp] theorem updTask_out (m : Module) (i : Nat) (g : Task → Task) : (m.updTask i g).out = m.out := rfl
@[simp] theorem updTask_ph (m : Module) (i : Nat) (g : Task → Task) : (m.updTask i g).ph = m.ph := rfl
@[simp] theorem updTask_rl (m : Module) (i : Nat) (g : Task → Task) : (m.updTask i g).rl = m.rl := rfl
@[simp] theorem updTask_adc (m : Module) (i : Nat) (g : Task → Task) : (m.updTask i g).adc = m.adc := rfl
@[simp] theorem updTask_cle (m : Module) (i : Nat) (g : Task → Task) : (m.updTask i g).cle = m.cle := rfl
@[simp] theorem updTask_tr (m : Module) (i : Nat) (g : Task → Task) : (m.updTask i g).tr = m.tr := rfl
@[simp] theorem updTask_ep (m : Module) (i : Nat) (g : Task → Task) : (m.updTask i g).ep = m.ep := rfl
@[simp] theorem updTask_cp (m : Module) (i : Nat) (g : Task → Task) : (m.updTask i g).cp = m.cp := rfl
@[simp] theorem updTask_gr (m : Module) (i : Nat) (g : Task → Task) : (m.updTask i g).gr = m.gr := rfl
@[simp] theorem updTask_xg (m : Module) (i : Nat) (g : Task → Task) : (m.updTask i g).xg = m.xg := rfl
@[simp] theorem updTask_fd (m : Module) (i : Nat) (g : Task → Task) : (m.updTask i g).fd = m.fd := rfl
@[simp] theorem updTask_sq (m : Module) (i : Nat) (g : Task → Task) : (m.updTask i g).sq = m.sq := rfl
@[simp] theorem updTask_pin (m : Module) (i : Nat) (g : Task → Task) : (m.updTask i g).pin = m.pin := rfl
@[simp] theorem updTask_bt (m : Module) (i : Nat) (g : Task → Task) : (m.updTask i g).bt = m.bt := rfl
@[simp] theorem updTask_th (m : Module) (i : Nat) (g : Task → Task) : (m.updTask i g).th = m.th := rfl
@[simp] theorem updTask_net (m : Module) (i : Nat) (g : Task → Task) : (m.updTask i g).net = m.net := rfl
@[simp] theorem updTask_bn (m : Module) (i : Nat) (g : Task → Task) : (m.updTask i g).bn = m.bn := rfl
@[simp] theorem updTask_pt (m : Module) (i : Nat) (g : Task → Task) : (m.updTask i g).pt = m.pt := rfl
@[simp] theorem updTask_twtPtr (m : Module) (i : Nat) (g : Task → Task) : (m.updTask i g).twtPtr = m.twtPtr := rfl
@[simp] theorem updTask_twc (m : Module) (i : Nat) (g : Task → Task) : (m.updTask i g).twc = m.twc := rfl
@[simp] theorem updTask_mem (m : Module) (i : Nat) (g : Task → Task) : (m.updTask i g).mem = m.mem := rfl
@[simp] theorem updTask_hw (m : Module) (i : Nat) (g : Task → Task) : (m.updTask i g).hw = m.hw := rfl
@[simp] theorem updTask_up (m : Module) (i : Nat) (g : Task → Task) : (m.updTask i g).up = m.up := rfl
@[simp] theorem updTask_tasks (m : Module) (i : Nat) (g : Task → Task) : (m.updTask i g).sched.tasks = upd m.sched.tasks i g := rfl
@[simp] theorem updTask_get (m : Module) (i : Nat) (g : Task → Task) (p : Nat) (f : Fld) : (m.updTask i g).get p f = m.get p f := rfl
@[simp] theorem updTask_reg (m : Module) (i : Nat) (g : Task → Task) (p off : Nat) : (m.updTask i g).reg p off = m.reg p off := rfl
@[simp] theorem updTask_liveKey (m : Module) (i : Nat) (g : Task → Task) (k : Nat) : (m.updTask i g).liveKey k = m.liveKey k := rfl
@[simp] theorem updTask_cfg (m : Module) (i : Nat) (g : Task → Task) (p : Nat) (f : Fld) : (m.updTask i g).cfg p f = m.cfg p f := rfl

end Module

end Sys2Proof.Machine
end

