-- ==== Sys2Proof/Laws/Mem.lean ====
section
/-! SUPPORT. Laws of the memories: the canonical form said once, and that each operation that writes a memory
keeps it. -/

namespace Sys2Proof.Machine

/-! ### The canonical form -/

/-- In canonical form every key is at least `lo`, keys rise strictly, and no entry holds the default. -/
theorem wfFrom_iff [DecidableEq α] (d : Nat → α) (l : List (Nat × α)) (lo : Nat) :
    wfFrom d lo l = true
      ↔ (∀ x ∈ l, lo ≤ x.1) ∧ l.Pairwise (fun a b => a.1 < b.1) ∧ ∀ x ∈ l, x.2 ≠ d x.1 := by
  induction l generalizing lo with
  | nil => simp [wfFrom]
  | cons x l ih =>
    obtain ⟨k, v⟩ := x
    simp only [wfFrom, Bool.and_eq_true, decide_eq_true_eq, ih, List.mem_cons, List.pairwise_cons]
    constructor
    · rintro ⟨⟨h1, h2⟩, h3, h4, h5⟩
      refine ⟨?_, ⟨fun y hy => ?_, h4⟩, ?_⟩
      · rintro y (rfl | hy)
        · exact h1
        · have := h3 y hy; omega
      · have := h3 y hy; omega
      · rintro y (rfl | hy)
        · exact h2
        · exact h5 y hy
    · rintro ⟨h1, ⟨h2, h3⟩, h4⟩
      exact ⟨⟨h1 _ (Or.inl rfl), h4 _ (Or.inl rfl)⟩, fun y hy => h2 y hy, h3, fun y hy => h4 y (Or.inr hy)⟩

theorem wfMap_iff [DecidableEq α] (d : Nat → α) (l : List (Nat × α)) :
    wfMap d l = true ↔ l.Pairwise (fun a b => a.1 < b.1) ∧ ∀ x ∈ l, x.2 ≠ d x.1 := by
  simp [wfMap, wfFrom_iff]

/-- Leaving entries out keeps the form. -/
theorem wfMap_filter [DecidableEq α] (d : Nat → α) (l : List (Nat × α)) (p : Nat × α → Bool)
    (h : wfMap d l = true) : wfMap d (l.filter p) = true := by
  rw [wfMap_iff] at h ⊢
  exact ⟨h.1.filter _, fun x hx => h.2 x (List.mem_of_mem_filter hx)⟩

/-- A block of entries between the entries below `lo` and those from `hi` on keeps the form. -/
theorem wfMap_splice (d : Nat → W64) (l b : List (Nat × W64)) (lo hi : Nat) (hl : wfMap d l = true)
    (hb : wfMap d b = true) (hr : ∀ x ∈ b, lo ≤ x.1 ∧ x.1 < hi) (hlo : lo ≤ hi) :
    wfMap d (l.filter (fun x => x.1 < lo) ++ b ++ l.filter (fun x => hi ≤ x.1)) = true := by
  rw [wfMap_iff] at *
  have mem_lo : ∀ x ∈ l.filter (fun x => decide (x.1 < lo)), x.1 < lo := fun x hx => by
    simpa using (List.mem_filter.1 hx).2
  have mem_hi : ∀ x ∈ l.filter (fun x => decide (hi ≤ x.1)), hi ≤ x.1 := fun x hx => by
    simpa using (List.mem_filter.1 hx).2
  refine ⟨?_, ?_⟩
  · rw [List.pairwise_append, List.pairwise_append]
    refine ⟨⟨hl.1.filter _, hb.1, fun x hx y hy => ?_⟩, hl.1.filter _, fun x hx y hy => ?_⟩
    · have := mem_lo x hx; have := hr y hy; omega
    · have h2 := mem_hi y hy
      rcases List.mem_append.1 hx with hx | hx
      · have := mem_lo x hx; omega
      · have := hr x hx; omega
  · intro x hx
    rcases List.mem_append.1 hx with hx | hx
    · rcases List.mem_append.1 hx with hx | hx
      · exact hl.2 x (List.mem_of_mem_filter hx)
      · exact hb.2 x hx
    · exact hl.2 x (List.mem_of_mem_filter hx)

/-- Moving the entries of a range by an offset keeps the form. -/
theorem wfMap_shift (l : List (Nat × W64)) (p : Nat × W64 → Bool) (f : Nat → Nat)
    (hf : ∀ x y, p x = true → p y = true → x.1 < y.1 → f x.1 < f y.1) (h : wfMap zero64 l = true) :
    wfMap zero64 ((l.filter p).map (fun x => (f x.1, x.2))) = true := by
  rw [wfMap_iff] at *
  refine ⟨?_, ?_⟩
  · rw [List.pairwise_map, List.pairwise_filter]
    exact h.1.imp (fun {x y} hxy px py => hf x y px py hxy)
  · intro x hx
    obtain ⟨y, hy, rfl⟩ := List.mem_map.1 hx
    exact h.2 y (List.mem_of_mem_filter hy)

/-! ### The operations -/

/-- Both memories have their canonical form. -/
def memForm (r : NonVol × Module) : Prop := wfMap zero64 r.1.mram = true ∧ wfMap zero64 r.2.mem.sram = true

namespace Module

theorem setWord_form (m : Module) (nv : NonVol) (p : Place) (v : W64) (h : memForm (nv, m)) :
    memForm (m.setWord nv p v) := by
  obtain ⟨h1, h2⟩ := h
  cases p with
  | sram k => exact ⟨h1, wfMap_setK _ _ _ _ h2⟩
  | mram w =>
    simp only [setWord]
    split
    · exact ⟨h1, h2⟩
    · exact ⟨wfMap_setK _ _ _ _ h1, h2⟩

/-- A word of a RAM reads as written. -/
theorem word_setWord_same (m : Module) (nv : NonVol) (k : Nat) (v : W64) (h : memForm (nv, m)) :
    (m.setWord nv (.sram k) v).2.word (m.setWord nv (.sram k) v).1 (.sram k) = v :=
  getK_setK_same _ _ _ _ h.2

/-- A write of a RAM word leaves every other word of the RAMs alone. -/
theorem word_setWord_other (m : Module) (nv : NonVol) (k j : Nat) (v : W64) (hj : j ≠ k) :
    (m.setWord nv (.sram k) v).2.word (m.setWord nv (.sram k) v).1 (.sram j) = m.word nv (.sram j) :=
  getK_setK_other _ _ _ _ _ hj

theorem unPoison_form (m : Module) (nv : NonVol) (p : Place) (h : memForm (nv, m)) :
    memForm (m.unPoison nv p) := by
  cases p <;> exact h

theorem mramFlush_form (m : Module) (nv : NonVol) (h : memForm (nv, m)) : memForm (m.mramFlush nv) := by
  have fold : ∀ (ws : List (Nat × W64)) (l : List (Nat × W64)), wfMap zero64 l = true →
      wfMap zero64 (ws.foldl (fun l x => setK zero64 l x.1 x.2) l) = true := by
    intro ws
    induction ws with
    | nil => intro l h; exact h
    | cons w ws ih => intro l h; exact ih _ (wfMap_setK _ _ _ _ h)
  have rest : ∀ (ws : List NvWr) (n : NonVol), (ws.foldl nvApply n).mram = n.mram := by
    intro ws
    induction ws with
    | nil => intro n; rfl
    | cons w ws ih => intro n; rw [List.foldl_cons, ih]; cases w <;> rfl
  simp only [mramFlush]
  split
  · exact h
  · exact ⟨by rw [rest]; exact fold _ _ h.1, h.2⟩

/-- A loop sample's words of a trace keep the form (R233). -/
theorem trStore_form (m : Module) (nv : NonVol) (k s : Nat) (vs : List Int) (h : memForm (nv, m)) :
    memForm (nv, m.trStore k s vs) := by
  simp only [trStore]
  split
  · exact h
  · exact ⟨h.1, wfMap_setK _ _ _ _ (wfMap_setK _ _ _ _ h.2)⟩

/-- The words of a bank that a trace unit leaves keep the form where they go. -/
theorem bankCopy_form (m : Module) (nv : NonVol) (b t : Nat) (h : memForm (nv, m)) :
    memForm (nv, m.bankCopy b t) := by
  have fold : ∀ (ws : List (Nat × W64)) (l : List (Nat × W64)), wfMap zero64 l = true →
      wfMap zero64 (ws.foldl (fun l x => setK zero64 l (t * 8192 + x.1 % 8192) x.2) l) = true := by
    intro ws
    induction ws with
    | nil => intro l h; exact h
    | cons w ws ih => intro l h; exact ih _ (wfMap_setK _ _ _ _ h)
  exact ⟨h.1, fold _ _ (wfMap_filter _ _ _ h.2)⟩

/-- What a consumer reads of a corrected word goes back as it was read. -/
theorem writeBack_form (m : Module) (nv : NonVol) (p : Place) (h : memForm (nv, m)) :
    memForm (m.writeBack nv p) := by
  simp only [writeBack]
  split
  · exact h
  · exact setWord_form _ _ _ _ h

theorem writeBytes_form (m : Module) (nv : NonVol) (a : Nat) (bs : List Byte) (h : memForm (nv, m)) :
    memForm (m.writeBytes nv a bs) := by
  have fold : ∀ (l : List (Byte × Nat)) (s : NonVol × Module), memForm s →
      memForm (l.foldl (fun s x =>
        (s.2.unPoison s.1 (.mram ((a + x.2) / 8))).2.setWord (s.2.unPoison s.1 (.mram ((a + x.2) / 8))).1
          (.mram ((a + x.2) / 8)) (wordPut ((s.2.unPoison s.1 (.mram ((a + x.2) / 8))).2.word
            (s.2.unPoison s.1 (.mram ((a + x.2) / 8))).1 (.mram ((a + x.2) / 8))) ((a + x.2) % 8) 1 x.1.toNat)) s) := by
    intro l
    induction l with
    | nil => intro s h; exact h
    | cons x l ih => intro s h; exact ih _ (setWord_form _ _ _ _ (unPoison_form _ _ _ h))
  exact fold _ _ h

theorem shadowReload_form (m : Module) (nv : NonVol) (addr : Nat) (h : memForm (nv, m)) :
    memForm (nv, m.shadowReload nv addr) := by
  simp only [shadowReload]
  split
  · exact h
  · exact ⟨h.1, wfMap_setK _ _ _ _ h.2⟩

theorem localClear_form (m : Module) (nv : NonVol) (c : Nat) (h : memForm (nv, m)) :
    memForm (nv, m.localClear c) := by
  simp only [localClear]
  split
  · exact ⟨h.1, wfMap_filter _ _ _ h.2⟩
  · exact h

theorem shadowLoad_form (m : Module) (nv : NonVol) (h : memForm (nv, m)) :
    memForm (nv, m.shadowLoad nv.mram) := by
  refine ⟨h.1, wfMap_splice _ _ _ _ _ h.2 (wfMap_shift _ _ (fun k => 32 * 8192 + k) ?_ h.1) ?_ (by omega)⟩
  · intro x y _ _ hxy; omega
  · intro x hx
    obtain ⟨y, hy, rfl⟩ := List.mem_map.1 hx
    have := (List.mem_filter.1 hy).2
    simp only [decide_eq_true_eq] at this
    simp only; omega

theorem heartReload_form (m : Module) (nv : NonVol) (h : memForm (nv, m)) : memForm (nv, m.heartReload nv) := by
  refine ⟨h.1, wfMap_splice _ _ _ _ _ h.2 (wfMap_shift _ _ (fun k => 52 * 8192 + (k - 0x26C000 / 8)) ?_ h.1) ?_ (by omega)⟩
  · intro x y hx hy hxy
    simp only [heartWord, Bool.and_eq_true, decide_eq_true_eq] at hx hy
    omega
  · intro x hx
    obtain ⟨y, hy, rfl⟩ := List.mem_map.1 hx
    have := (List.mem_filter.1 hy).2
    simp only [heartWord, Bool.and_eq_true, decide_eq_true_eq] at this
    simp only; omega

theorem wipe_form (m : Module) (nv : NonVol) (h : memForm (nv, m)) : memForm (wipeNv nv, m.wipeSram) :=
  ⟨wfMap_filter _ _ _ h.1, wfMap_filter _ _ _ h.2⟩

end Module

/-- Both memories have their form after reset. -/
theorem reset_form : memForm (State.reset.nv, State.reset.m) := ⟨rfl, rfl⟩

end Sys2Proof.Machine
end

