-- ==== Sys2Proof/Laws/MemFrame.lean ====
section
/-! SUPPORT. What leaves the memories alone: records, faults, refusals, the loss of the firmware and the path
engines; and with it that every memory access keeps the canonical form. -/

namespace Sys2Proof.Machine

namespace Module

/-- A fold of operations that leave the memories alone leaves them alone. -/
theorem foldl_mem {α : Type} (l : List α) (f : Module → α → Module) (m : Module)
    (h : ∀ m x, (f m x).mem = m.mem) : (l.foldl f m).mem = m.mem := by
  induction l generalizing m with
  | nil => rfl
  | cons x l ih => rw [List.foldl_cons, ih, h]

@[simp] theorem applyPend_mem (m : Module) (sel : Nat → Bool) : (m.applyPend sel).mem = m.mem :=
  foldl_mem _ _ _ (fun _ _ => rfl)
@[simp] theorem applySnap_mem (m : Module) (sel : Nat → Bool) : (m.applySnap sel).mem = m.mem :=
  foldl_mem _ _ _ (fun _ _ => rfl)
@[simp] theorem boundary_mem (m : Module) (p : Nat) : (m.boundary p).mem = m.mem := by simp [boundary]
@[simp] theorem recStageReg_mem (m : Module) : m.recStageReg.mem = m.mem := rfl
@[simp] theorem recPush_mem (m : Module) (r : Rec) : (m.recPush r).mem = m.mem := rfl
@[simp] theorem recLost_mem (m : Module) (typ : Nat) : (m.recLost typ).mem = m.mem := by
  simp only [recLost]; split <;> rfl
@[simp] theorem recMake_mem (m : Module) (typ src len flags : Nat) (payload : List Byte) (mark : Bool) :
    (m.recMake typ src len flags payload mark).mem = m.mem := by
  simp only [recMake]
  split
  · split
    · rw [recPush_mem, boundary_mem]
    · rw [recStageReg_mem]; exact boundary_mem m pgRec
  · rw [recLost_mem, boundary_mem]
@[simp] theorem recFault_mem (m : Module) (typ p b sub : Nat) (mark : Bool) :
    (m.recFault typ p b sub mark).mem = m.mem := by simp [recFault]
@[simp] theorem raiseRec_mem (m : Module) (p b : Nat) : (m.raiseRec p b).mem = m.mem := by simp [raiseRec]
@[simp] theorem latchBit_mem (m : Module) (p b sub : Nat) : (m.latchBit p b sub).mem = m.mem := by
  simp only [latchBit, recFault_mem]
  (repeat' split) <;> rfl
@[simp] theorem latchNow_mem (m : Module) (p b : Nat) : (m.latchNow p b).mem = m.mem := by
  simp only [latchNow]; split <;> simp
@[simp] theorem putCtr_mem (m : Module) (c : Ctr) : (m.putCtr c).mem = m.mem := by
  simp only [putCtr]; split <;> rfl
@[simp] theorem countFault_mem (m : Module) (p b sub win : Nat) : (m.countFault p b sub win).1.mem = m.mem := by
  simp only [countFault]
  (repeat' split) <;> simp
@[simp] theorem passed_mem (m : Module) (k : Nat) : (m.passed k).mem = m.mem := by
  simp only [passed]; (repeat' split) <;> rfl
@[simp] theorem pairMiss_mem (m : Module) (p off : Nat) : (m.pairMiss p off).1.mem = m.mem := by
  simp only [pairMiss, countFault_mem]; rfl
@[simp] theorem useKey_mem (m : Module) (k p off : Nat) : (m.useKey k p off).mem = m.mem := by
  simp only [useKey, pairUse]
  (repeat' split) <;> simp
@[simp] theorem usePair_mem (m : Module) (p off : Nat) : (m.usePair p off).mem = m.mem := useKey_mem m _ p off
@[simp] theorem fault_mem (m : Module) (p b sub win : Nat) : (m.fault p b sub win).1.mem = m.mem := by
  simp [fault]
@[simp] theorem recCorrected_mem (m : Module) (i : Nat) : (m.recCorrected i).mem = m.mem := by
  simp [recCorrected]
@[simp] theorem taskAbort_mem (m : Module) (t reason : Nat) : (m.taskAbort t reason).mem = m.mem := rfl
@[simp] theorem taskDrop_mem (m : Module) (t reason : Nat) : (m.taskDrop t reason).mem = m.mem := by
  simp only [taskDrop, updTask_mem, fault_mem, raise_mem, countReg_mem, taskAbort_mem]
  split <;> rfl

/-! ### Path engines -/

@[simp] theorem setEng_mem (m : Module) (e st : Nat) : (m.setEng e st).mem = m.mem := rfl
@[simp] theorem pathSimplex_mem (m : Module) : m.pathSimplex.mem = m.mem := rfl
@[simp] theorem engRepair_mem (m : Module) (e : Nat) : (m.engRepair e).mem = m.mem := rfl
@[simp] theorem doubleFault_mem (m : Module) : m.doubleFault.mem = m.mem := by
  simp only [doubleFault, raiseRec_mem, latchNow_mem, put_mem, updNet_mem]
  exact foldl_mem _ _ _ (fun _ _ => rfl)
@[simp] theorem engCount_mem (m : Module) (e : Nat) : (m.engCount e).1.mem = m.mem := by simp [engCount]
@[simp] theorem engLeave_mem (m : Module) (e : Nat) (b : Bool) : (m.engLeave e b).mem = m.mem := by
  simp only [engLeave]; (repeat' split) <;> rfl
@[simp] theorem txAbort_mem (m : Module) : m.txAbort.mem = m.mem := by
  simp only [txAbort]
  split
  · rfl
  · simp only [updNet_mem]; exact foldl_mem _ _ _ (fun _ _ => rfl)
@[simp] theorem sentOfs_mem (m : Module) (x : Nat) : (m.sentOfs x).mem = m.mem := by
  simp only [sentOfs]; split <;> simp
@[simp] theorem resend_mem (m : Module) : m.resend.mem = m.mem := by
  simp only [resend]
  (repeat' split) <;> simp <;> rfl
@[simp] theorem switchOver_mem (m : Module) (reason : Nat) (forced : Bool) :
    (m.switchOver reason forced).mem = m.mem := by
  simp only [switchOver, resend_mem, updNet_mem, txAbort_mem, raise_mem, setReg_mem]; split <;> rfl
@[simp] theorem engFlag1_mem (m : Module) (e reason : Nat) : (m.engFlag1 e reason).mem = m.mem := by
  simp only [engFlag1]; (repeat' split) <;> simp
@[simp] theorem engFlag_mem (m : Module) (mask reason : Nat) : (m.engFlag mask reason).mem = m.mem := by
  simp only [engFlag]
  (repeat' split)
  · rfl
  · simp
  · refine foldl_mem _ _ _ (fun m e => ?_)
    split <;> simp

/-! ### Loss of the firmware -/

@[simp] theorem cluWake_mem (m : Module) (c : Nat) : (m.cluWake c).mem = m.mem := by
  simp only [cluWake]; split <;> rfl
@[simp] theorem placeStat_mem (m : Module) (i : Nat) (x : Bool) : (m.placeStat i x).mem = m.mem := by
  simp only [placeStat]; (repeat' split) <;> rfl
@[simp] theorem evalN1_mem (m : Module) : m.evalN1.mem = m.mem := by
  simp only [evalN1]; split <;> simp
@[simp] theorem unpin_mem (m : Module) : m.unpin.mem = m.mem := foldl_mem _ _ _ (fun _ _ => rfl)
@[simp] theorem packNow_mem (m : Module) : m.packNow.mem = m.mem := by
  simp only [packNow, evalN1_mem]
  rw [foldl_mem]
  · split <;> simp
  · intro m x
    (repeat' split) <;> simp
@[simp] theorem packLate_mem (m : Module) : m.packLate.mem = m.mem := by
  simp only [packLate]; split <;> simp
@[simp] theorem capForce_mem (m : Module) : m.capForce.mem = m.mem := by
  simp only [capForce]; (repeat' split) <;> rfl
@[simp] theorem groveLocal_mem (m : Module) : m.groveLocal.mem = m.mem := by
  simp only [groveLocal, capForce_mem]
  split <;> rfl
@[simp] theorem capDrive_mem (m : Module) : m.capDrive.mem = m.mem := rfl
@[simp] theorem rectOperate_mem (m : Module) (s : Nat) (op : Nat) : (m.rectOperate s op).mem = m.mem := by
  simp only [rectOperate]; rfl
@[simp] theorem rectWake_mem (m : Module) (s : Nat) : (m.rectWake s).mem = m.mem := by
  simp only [rectWake, rectOperate_mem]; rfl
@[simp] theorem vlowEnd_mem (m : Module) : m.vlowEnd.mem = m.mem := rfl
@[simp] theorem xingReturn_mem (m : Module) : m.xingReturn.mem = m.mem := by
  simp only [xingReturn, vlowEnd_mem]
  rw [foldl_mem _ _ _ (fun m s => rectWake_mem m s)]
  exact boundary_mem m pgXing
@[simp] theorem xingUnhold_mem (m : Module) : m.xingUnhold.mem = m.mem := by
  simp only [xingUnhold]; split <;> simp
@[simp] theorem fwLose_mem (m : Module) : m.fwLose.mem = m.mem := by
  simp only [fwLose, packLate_mem, xingUnhold_mem, groveLocal_mem, latchNow_mem, raiseRec_mem, put_mem]
  exact foldl_mem _ _ _ (fun _ _ => rfl)

/-! ### Accesses -/

@[simp] theorem rowFails_sram (m : Module) (u row : Nat) : (m.rowFails u row).mem.sram = m.mem.sram := by
  simp only [rowFails]; (repeat' split) <;> simp

@[simp] theorem corrected_sram (m : Module) (p : Place) (sym : Nat) :
    (m.corrected p sym).mem.sram = m.mem.sram := by
  have due : ∀ (m : Module) (b : Bool) (i : Nat),
      (if b then m.recCorrected i else m).mem = m.mem := fun m b i => by split <;> simp
  have row : ∀ (m : Module) (c : Prop) [Decidable c] (u r : Nat),
      (if c then m.rowFails u r else m).mem.sram = m.mem.sram := fun m c _ u r => by split <;> simp
  have old : ∀ (m m' : Module) (b : Bool), m'.mem.sram = m.mem.sram →
      (if b then m else m').mem.sram = m.mem.sram := fun m m' b h => by split <;> simp [h]
  simp only [corrected, row, due, putCtr_mem, setTbl_mem]
  rw [old]
  · simp only [usePair_mem]; rfl
  · rfl

@[simp] theorem shadowPoison_mem (m : Module) : m.shadowPoison.mem = m.mem := by
  simp only [shadowPoison]; split <;> simp

theorem setPoison_form (m : Module) (nv : NonVol) (p : Place) (h : memForm (nv, m)) :
    memForm (m.setPoison nv p) := by
  cases p with
  | sram k =>
    simp only [setPoison]
    split
    · exact ⟨h.1, by simpa using h.2⟩
    · exact h
  | mram w => exact h

theorem readWord_form (m : Module) (nv : NonVol) (p : Place) (bad sym : Nat) (h : memForm (nv, m)) :
    memForm ((m.readWord nv p bad sym).1, (m.readWord nv p bad sym).2.1) := by
  simp only [readWord]
  (repeat' split)
  · exact h
  · exact h
  · exact writeBack_form _ _ _ ⟨h.1, by simpa using h.2⟩
  · exact setPoison_form m nv p h
  · exact h

theorem partAccess_form (m : Module) (nv : NonVol) (p : Place) (i n : Nat) (wr : Option Nat) (bad sym : Nat)
    (h : memForm (nv, m)) :
    memForm ((m.partAccess nv p i n wr bad sym).1, (m.partAccess nv p i n wr bad sym).2.1) := by
  cases wr with
  | none => exact readWord_form m nv p bad sym h
  | some x =>
    simp only [partAccess]
    split
    · exact setWord_form _ _ _ _ (unPoison_form _ _ _ h)
    · have := readWord_form m nv p bad sym h
      split
      · exact this
      · exact setWord_form _ _ _ _ this

@[simp] theorem heartDeny_mem (m : Module) (x addr : Nat) : (m.heartDeny x addr).mem = m.mem := rfl

@[simp] theorem busError_mem (m : Module) (p : Option Place) (x : Nat) : (m.busError p x).mem = m.mem := by
  simp only [busError]
  (repeat' split) <;> simp

@[simp] theorem granted_sram (m : Module) (p : Place) (q : MemReq) : (m.granted p q).1.mem.sram = m.mem.sram := by
  simp only [granted]
  (repeat' split) <;> simp

/-- Every access of a memory keeps the canonical form. -/
theorem memAccess_form (m : Module) (nv : NonVol) (q : MemReq) (h : memForm (nv, m)) :
    memForm (m.memAccess nv q) := by
  have deny : ∀ (m m' : Module) (p : Option Place), m'.mem = m.mem → memForm (nv, m) →
      memForm (nv, m'.busError p q.m) := fun m m' p e h => ⟨h.1, by simpa [e] using h.2⟩
  simp only [memAccess]
  generalize (if (decide (q.size = 8) || decide (q.size = 4) || decide (q.size = 2)) = true then q.size else 1) = n
  generalize placeOf m.sys.part q.m q.addr = p1
  generalize (if n - min n (8 - q.addr % 8) = 0 then p1 else
    placeOf m.sys.part q.m (q.addr + min n (8 - q.addr % 8))) = p2
  cases p1 with
  | none => exact deny m m _ rfl h
  | some a => cases p2 with
    | none => exact deny m m _ rfl h
    | some b =>
      simp only
      split
      · refine deny m _ _ ?_ h
        (repeat' split) <;> simp
      · split
        · refine deny m _ _ ?_ h
          (repeat' split) <;> simp
        · have hg : memForm (nv, (m.granted a q).1) := ⟨h.1, by simpa using h.2⟩
          split
          · exact hg
          · split
            · exact deny _ _ _ rfl hg
            · generalize e1 : Module.partAccess (m.granted a q).1 nv a _ _ _ _ _ = r1
              have h1 : memForm (r1.1, r1.2.1) := by rw [← e1]; exact partAccess_form _ _ _ _ _ _ _ _ hg
              obtain ⟨nv1, m1, v1⟩ := r1
              cases v1 with
              | none => exact ⟨h1.1, by simpa using h1.2⟩
              | some v1 =>
                simp only
                split
                · exact h1
                · generalize e2 : Module.partAccess m1 nv1 b _ _ _ _ _ = r2
                  have h2 : memForm (r2.1, r2.2.1) := by rw [← e2]; exact partAccess_form _ _ _ _ _ _ _ _ h1
                  obtain ⟨nv2, m2, v2⟩ := r2
                  cases v2 with
                  | none => exact ⟨h2.1, by simpa using h2.2⟩
                  | some v2 => exact h2

/-- So does a scrub step. -/
theorem scrubStep_form (m : Module) (nv : NonVol) (sram : Bool) (bad sym : Nat) (h : memForm (nv, m)) :
    memForm (m.scrubStep nv sram bad sym) := by
  have upd : ∀ (m : Module) (f : Mem → Mem), (∀ x, (f x).sram = x.sram) → (m.updMem f).mem.sram = m.mem.sram :=
    fun m f hf => by simp [hf]
  simp only [scrubStep]
  split
  · exact h
  generalize (if sram = true then m.mem.scrubS else m.mem.scrubM) = k
  generalize (if sram = true then Place.sram k else Place.mram (k - 64 * 8192)) = p
  generalize e : (if m.poisoned nv p = true then (nv, m)
    else ((m.readWord nv p bad sym).1, (m.readWord nv p bad sym).2.1)) = r
  have hr : memForm r := by
    rw [← e]
    split
    · exact h
    · exact readWord_form m nv p bad sym h
  obtain ⟨nv', m'⟩ := r
  split
  · refine ⟨hr.1, ?_⟩
    rw [upd _ _ (fun x => by split <;> rfl)]; exact hr.2
  · refine ⟨hr.1, ?_⟩
    simp only [raise_mem, put_mem, boundary_mem]
    rw [upd _ _ (fun x => by split <;> rfl)]; exact hr.2

end Module

end Sys2Proof.Machine
end

