-- ==== Sys2Proof/Laws/PerInstr.lean ====
section
/-! SUPPORT. No statement about every command is made per command. -/
end

