-- ==== Sys2Proof/Tests/Slice0.lean ====
section
/-! SUPPORT. Tests: ill-formed commands, states that meet the hypotheses of the statements, and single steps on small
states with results from the spec. -/

namespace Sys2Proof.Tests

set_option maxRecDepth 20000

/-! ### Well-formed and ill-formed commands -/

noncomputable def wellFormed0 : List Instr :=
  [.powerOn 0 0 0, .brownOut, .brownOutEnd, .vauxInputLost 0, .collapse 0 0 true, .vauxDip 0 0,
   .lastBreathEntry 0 true, .lastBreathReset, .holdOk, .resetPin, .resetRelease 0, .clkLoss 0,
   .clkRestartTry 0 true, .clkResume 0, .syncLock 0, .syncLost, .fwRestart 0, .moduleResetCmd 0, .saplingCmd 0,
   .clusterLockup 0, .codeShadowLoaded [], .freezeEnd, .fwLost, .profileChange 0 0, .registerWrite 0 0 0 [],
   .softRst 0 0, .lock 0 0 0, .evtRawClear 0 0 0, .fltStatClear 0 0 0, .fltWinWrite 0 0 0, .bucketBoundary 0,
   .tblDataAccess 0 0 none, .memoryAccess ⟨4, 0x20000000, 8, none, 0, 0, 0, [], none⟩, .retired 0 0,
   .scrubStep true 0 0, .shadowReload 0, .tamper 0, .tamperPulseCheck 0 true true, .glitch 0, .wipeCmd 0 0]

noncomputable def wellFormed1 : List Instr :=
  [.wiped, .majorFrame [], .taskStart 0 0 [] 0 0, .taskDeadline ⟨0, true, 5, []⟩, .overflow 0, .schedEn 0 0,
   .clusterReady 0, .bistReq 0 0, .clusterIsolated 0, .bistDone 0 true, .rotTest, .bankMoveDone 0,
   .railEn 0 0 0, .phaseEn 0 0 0, .loopSample 0 ⟨0, [], [], [], [], ⟨0, []⟩⟩, .dutyRelease 0 ⟨0, []⟩,
   .railPeriodBoundary 0 ⟨0, []⟩, .trunc 0 0 ⟨0, []⟩, .truncExit 0 0 ⟨0, []⟩, .ov 0 0,
   .cbcTrip 0 ⟨0, 0⟩ ⟨0, []⟩, .negLimitTrip 0 ⟨0, 0⟩ ⟨0, []⟩, .uvComparatorLow 0 0, .uv 0 0,
   .ginHi 0 0 ⟨0, []⟩, .ginLo 0 0 0, .rollSlotEnd 0 0 0, .calReq 0 0, .refCalDone 0 0 true, .monReading 0 0,
   .dtAdapt 0 0, .dropReady 0, .ssStall 0 0, .ssCbcShort 0 0, .shortRetry 0, .probeStart 0, .probeDone 0,
   .railCommitRef 0 0, .railCommitProt 0 0, .railCommitShed 0 0]

noncomputable def wellFormed2 : List Instr :=
  [.cleCommit 0 0, .cleEn 0 0, .traceEn 0 0 0, .arm 0 0, .force 0 0 0, .stop 0 0, .solveDone, .wake 0,
   .droopWake [], .wearAccumulate, .wearSave, .capEstimate [], .assistStep 0 [], .hardLimit, .released,
   .sustained, .groveCutoff, .shareRise true, .canopyCutoff, .epeCommitSrc 0, .groveEn 0 0, .feedDetect 0 [],
   .slopeDetect 0 [], .acokDetect 0 [], .full 0, .busLoopSample [], .stringShedResume, .inGoodChange 0,
   .returning, .cutoffExit, .xingEn 0 0, .xingCommitBus 0, .feedEn 0 0 0, .feedInsDelay 0,
   .feedExcursion 0 true, .feedOn 0, .feedSample 0 0 0 0 0, .fastTrip 0, .feedRetry 0, .feedConduct 0]

noncomputable def wellFormed3 : List Instr :=
  [.reverse 0, .damaged 0, .noConduct 0, .degraded 0, .feedCommitWin 0 0, .feedCommitTrip 0 0, .seqTick 0,
   .seqWaitDone, .stepFault, .seqRetry, .downLead, .seqMinOff, .railFail 0, .railPgDeglitch 0 true,
   .seqReqOn 0, .seqReqOff 0, .seqEn 0 0, .seqtblCommitUp 0, .seqtblCommitDown 0, .wdiKick, .kick 0 0,
   .winMinEnd, .expired, .hostRstEnd, .wdogEn 0 0, .batIdRead 0 0, .accept 0 0, .impGo 0 0, .impPeriod 0,
   .impFreqStep 0 0 0 0, .battVoltageJudge 0 0, .battLevelTimer 0 1 true, .battEn 0 0 0, .battCommitOcv 0 0,
   .battCommitChg 0 0, .battCommitLvl 0 0, .battCommitLearn 0 0 0 0 0 0 0, .thermRound ⟨none, [], []⟩,
   .excluded 0, .cal 0]

noncomputable def wellFormed4 : List Instr :=
  [.calDone, .linkUp 0 true true, .linkDown 0, .frameReceived 0 [] true, .mergeEntry .strobe true,
   .engineFlag 1 0 0, .supervisionSend, .entryForget 0, .repairStageDone 0 true, .switch 0 0, .repair 0 0,
   .rebuildDone 0, .helloReceived ⟨1, 2, false, false, 1, false, 0, 5, 0, 0, 0⟩,
   .shareReceived ⟨1, 2, 3, 4, 5, 0, 0, 0, 0, true⟩, .summaryReceived ⟨1, 2, 3, 4, 5, 0, 0, true⟩,
   .capset ⟨0, 0, 0, 0⟩, .capsetApply, .read ⟨1, 2, true, false⟩ 0 1, .write ⟨1, 2, true, false⟩ 0 [0],
   .readFixed ⟨1, 2, true, false⟩ 0 1, .writeFixed ⟨1, 2, true, false⟩ 0 [0],
   .updateBlk ⟨1, 2, true, false⟩ 0 [0], .send ⟨1, 2, true, false⟩ 0 (List.replicate 16 0),
   .ackRead ⟨1, 2, true, false⟩ 0, .helloSend, .joinDone, .leavingHello, .memberDrop 0, .dupShelfGone,
   .healthSend, .forget 0 0, .helloNow 0, .benufEn 0 0, .ptpMessage ⟨0, true, 0, 0, 0, 0, 0, 0, 0, 0⟩,
   .announceTimeout 0, .ppsEdge true, .taiSRead 0 0 0, .twtWrite ⟨[1], true, false, false⟩,
   .twtRead none 1 true, .timeout]

noncomputable def wellFormed5 : List Instr :=
  [.stretchLimit true, .pollRound 0, .twcTransactionStart 0, .twcTransactionEnd 0 (.ok 0), .arbBackoffEnd 0,
   .twcStretchTmo 0, .busStuck 0, .busRecoveryRetry 0 true, .alert 0 0, .twcCommitPoll 0 0, .doorbell 0 0 0,
   .taken 0 0 0 0, .done 0 0 0 0, .mboxBind 0 0 0, .mboxResend 0, .install 0, .erase 0, .recordDrain,
   .rdSeq 0 0 0, .rdData 0 true, .submit 0 [0], .streamFrame, .optimeStore, .anchorInterval, .optimeHRead 0,
   .scanDone, .selftestDone [] [] 0 true, .startHoldRelease, .adoptWindowEnd [] 0, .lifeArm 0 0 true,
   .lifeCommit 0 0 true, .armExpiry, .changed, .startImage 0, .startPlan 0, .activate 0, .abort 0, .resume 0,
   .updateBlock [0], .verifyDone]

noncomputable def wellFormed6 : List Instr :=
  [.planStoreDone, .syncInPresent 0, .vauxInputReturn 0, .clustersStart [], .syncInterval 0,
   .ginHiEnd 0 0 ⟨0, []⟩, .uvComparatorHigh 0 0]

/-- One well-formed command for each constructor. -/
noncomputable def wellFormed : List Instr :=
  wellFormed0 ++ wellFormed1 ++ wellFormed2 ++ wellFormed3 ++ wellFormed4 ++ wellFormed5 ++ wellFormed6

noncomputable def illFormed0 : List Instr :=
  [.powerOn (2 ^ 16) 0 0, .powerOn 0 (2 ^ 16) 0, .powerOn 0 0 8, .vauxInputLost 2, .collapse (2 ^ 16) 0 true,
   .collapse 0 (2 ^ 16) true, .resetRelease 8, .clkLoss 8, .clkRestartTry 8 true, .clkResume 8, .fwRestart 16,
   .moduleResetCmd 16, .saplingCmd 16, .clusterLockup 4, .codeShadowLoaded (List.replicate 13 true),
   .profileChange 16 0, .registerWrite 16 0 0 [], .registerWrite 0 65536 0 [],
   .registerWrite 0 0 0 [(16, ⟨0, 0⟩)], .registerWrite 0 0 0 [(0, ⟨0, 0⟩)],
   .registerWrite 0 0 0 [(1, ⟨65536, 0⟩)], .softRst 16 0, .softRst 0 256, .lock 16 0 0, .lock 0 256 0,
   .evtRawClear 16 0 0, .evtRawClear 0 256 0, .fltStatClear 16 0 0, .fltStatClear 0 256 0, .fltWinWrite 16 0 0,
   .fltWinWrite 0 65536 0, .bucketBoundary 65536, .bucketBoundary 2, .tblDataAccess 16 0 none,
   .tblDataAccess 0 256 none, .memoryAccess ⟨0x1B, 0, 8, none, 0, 0, 0, [], none⟩,
   .memoryAccess ⟨4, 0, 3, none, 0, 0, 0, [], none⟩, .memoryAccess ⟨4, 2 ^ 32, 8, none, 0, 0, 0, [], none⟩,
   .memoryAccess ⟨4, 0, 8, none, 21, 0, 0, [], none⟩, .memoryAccess ⟨4, 0, 8, none, 0, 20, 0, [], none⟩]

noncomputable def illFormed1 : List Instr :=
  [.memoryAccess ⟨4, 0, 8, none, 0, 0, 0, [(0x1B, 0)], none⟩,
   .memoryAccess ⟨4, 0, 8, none, 0, 0, 0, [], some 12⟩, .retired 66 0, .retired 0 (2 ^ 16),
   .scrubStep true (20 + 1) 0, .scrubStep true 0 20, .shadowReload 0x100000, .tamper 2,
   .tamperPulseCheck 2 true true, .glitch 3, .wipeCmd 16 0, .majorFrame [12], .taskStart 12 0 [] 0 0,
   .taskStart 0 0 [0, 0, 0, 0, 0] 0 0, .taskStart 0 0 [32768] 0 0, .taskStart 0 0 [] (2 ^ 32) 0,
   .taskDeadline ⟨12, true, 5, []⟩, .overflow 12, .schedEn 16 0, .clusterReady 4, .bistReq 16 0,
   .clusterIsolated 4, .bistDone 4 true, .bankMoveDone 32, .railEn 16 0 0, .railEn 0 12 0, .phaseEn 16 0 0,
   .phaseEn 0 48 0, .loopSample 12 ⟨0, [], [], [], [], ⟨0, []⟩⟩,
   .loopSample 0 ⟨-32769, [], [], [], [], ⟨0, []⟩⟩, .loopSample 0 ⟨32768, [], [], [], [], ⟨0, []⟩⟩,
   .loopSample 0 ⟨0, [(48, 0)], [], [], [], ⟨0, []⟩⟩, .loopSample 0 ⟨0, [(0, 32768)], [], [], [], ⟨0, []⟩⟩,
   .loopSample 0 ⟨0, [], [], [4], [], ⟨0, []⟩⟩, .loopSample 0 ⟨0, [], [], [], [0, 0, 0, 0, 0], ⟨0, []⟩⟩,
   .loopSample 0 ⟨0, [], [], [], [32768], ⟨0, []⟩⟩, .loopSample 0 ⟨0, [], [], [], [], ⟨400000, []⟩⟩,
   .dutyRelease 12 ⟨0, []⟩, .dutyRelease 0 ⟨400000, []⟩, .dutyRelease 0 ⟨0, [48]⟩]

noncomputable def illFormed2 : List Instr :=
  [.railPeriodBoundary 12 ⟨0, []⟩, .railPeriodBoundary 0 ⟨400000, []⟩, .railPeriodBoundary 0 ⟨0, [48]⟩,
   .trunc 12 0 ⟨0, []⟩, .trunc 0 32768 ⟨0, []⟩, .trunc 0 (-32769) ⟨0, []⟩, .trunc 0 0 ⟨400000, []⟩,
   .trunc 0 0 ⟨0, [48]⟩, .truncExit 12 0 ⟨0, []⟩, .truncExit 0 32768 ⟨0, []⟩, .truncExit 0 (-32769) ⟨0, []⟩,
   .truncExit 0 0 ⟨400000, []⟩, .truncExit 0 0 ⟨0, [48]⟩, .ov 12 0, .ov 0 400000, .cbcTrip 48 ⟨0, 0⟩ ⟨0, []⟩,
   .cbcTrip 0 ⟨32768, 0⟩ ⟨0, []⟩, .cbcTrip 0 ⟨-32769, 0⟩ ⟨0, []⟩, .cbcTrip 0 ⟨0, 0⟩ ⟨400000, []⟩,
   .cbcTrip 0 ⟨0, 0⟩ ⟨0, [48]⟩, .negLimitTrip 48 ⟨0, 0⟩ ⟨0, []⟩, .negLimitTrip 0 ⟨32768, 0⟩ ⟨0, []⟩,
   .negLimitTrip 0 ⟨-32769, 0⟩ ⟨0, []⟩, .negLimitTrip 0 ⟨0, 0⟩ ⟨400000, []⟩, .negLimitTrip 0 ⟨0, 0⟩ ⟨0, [48]⟩,
   .uvComparatorLow 12 0, .uvComparatorLow 0 32768, .uvComparatorLow 0 (-32769), .uv 12 0, .uv 0 400000,
   .ginHi 4 0 ⟨0, []⟩, .ginHi 0 32768 ⟨0, []⟩, .ginHi 0 (-32769) ⟨0, []⟩, .ginHi 0 0 ⟨400000, []⟩,
   .ginHi 0 0 ⟨0, [48]⟩, .ginLo 4 0 0, .ginLo 0 32768 0, .ginLo 0 (-32769) 0, .ginLo 0 0 400000,
   .rollSlotEnd 0 0 (100 + 1)]

noncomputable def illFormed3 : List Instr :=
  [.calReq 16 0, .monReading 16 0, .monReading 0 (2 ^ 16), .dtAdapt 12 0, .dropReady 12, .ssStall 12 0,
   .ssStall 0 400000, .ssCbcShort 12 0, .ssCbcShort 0 400000, .shortRetry 12, .probeStart 48, .probeDone 48,
   .railCommitRef 16 0, .railCommitRef 0 12, .railCommitProt 16 0, .railCommitProt 0 12, .railCommitShed 16 0,
   .railCommitShed 0 12, .cleCommit 16 0, .cleEn 16 0, .traceEn 16 0 0, .traceEn 0 4 0, .arm 16 0, .arm 0 4,
   .force 16 0 0, .force 0 4 0, .force 0 0 400000, .stop 16 0, .stop 0 4, .wake 32, .droopWake [0, 0, 0, 0, 0],
   .droopWake [32768], .capEstimate [0, 0, 0, 0, 0], .capEstimate [32768], .assistStep 0 [0, 0, 0, 0, 0],
   .assistStep 0 [32768], .epeCommitSrc 16, .groveEn 16 0, .feedDetect 400000 [], .feedDetect 0 [0, 0, 0, 0, 0]]

noncomputable def illFormed4 : List Instr :=
  [.feedDetect 0 [32768], .slopeDetect 400000 [], .slopeDetect 0 [0, 0, 0, 0, 0], .slopeDetect 0 [32768],
   .acokDetect 400000 [], .acokDetect 0 [0, 0, 0, 0, 0], .acokDetect 0 [32768], .busLoopSample [0, 0, 0, 0, 0],
   .busLoopSample [32768], .inGoodChange (2 ^ 32), .xingEn 16 0, .xingCommitBus 16, .feedEn 16 0 0,
   .feedEn 0 8 0, .feedInsDelay 8, .feedExcursion 8 true, .feedOn 8, .feedSample 8 0 0 0 0,
   .feedSample 0 (2 ^ 20) 0 0 0, .feedSample 0 0 (2 ^ 20) 0 0, .fastTrip 8, .feedRetry 8, .feedConduct 8,
   .reverse 8, .damaged 8, .noConduct 8, .degraded 8, .feedCommitWin 16 0, .feedCommitWin 0 8,
   .feedCommitTrip 16 0, .feedCommitTrip 0 8, .seqTick (2 ^ 32), .railFail 44, .railPgDeglitch 44 true,
   .seqReqOn 16, .seqReqOff 16, .seqEn 16 0, .seqtblCommitUp 16, .seqtblCommitDown 16, .kick 16 0]

noncomputable def illFormed5 : List Instr :=
  [.wdogEn 16 0, .batIdRead 8 0, .batIdRead 0 (2 ^ 32), .accept 16 0, .accept 0 8, .impGo 16 0, .impGo 0 8,
   .impPeriod 8, .impFreqStep 8 0 0 0, .battVoltageJudge 8 0, .battLevelTimer 8 1 true,
   .battLevelTimer 0 0 true, .battLevelTimer 0 (3 + 1) true, .battEn 16 0 0, .battEn 0 8 0,
   .battCommitOcv 16 0, .battCommitOcv 0 8, .battCommitChg 16 0, .battCommitChg 0 8, .battCommitLvl 16 0,
   .battCommitLvl 0 8, .battCommitLearn 16 0 0 0 0 0 0, .battCommitLearn 0 8 0 0 0 0 0,
   .thermRound ⟨none, List.replicate 17 0, []⟩, .thermRound ⟨none, [], List.replicate 17 0⟩, .excluded 16,
   .cal 16, .linkUp 2 true true, .linkDown 2, .frameReceived 2 [] true,
   .frameReceived 0 (List.replicate 1601 0) true, .mergeEntry (.frame 2) true, .mergeEntry (.request 16) true,
   .mergeEntry (.gap 0) true, .engineFlag 0 0 0, .engineFlag (3 + 1) 0 0, .engineFlag 1 0 400000,
   .entryForget (2 ^ 16), .repairStageDone 2 true, .switch 16 0]

noncomputable def illFormed6 : List Instr :=
  [.switch 0 400000, .repair 16 0, .repair 0 2, .rebuildDone 2,
   .helloReceived ⟨4096, 2, false, false, 1, false, 0, 5, 0, 0, 0⟩,
   .helloReceived ⟨1, 2 ^ 48, false, false, 1, false, 0, 5, 0, 0, 0⟩,
   .helloReceived ⟨1, 2, false, false, 1, false, 0, 2 ^ 32, 0, 0, 0⟩,
   .helloReceived ⟨1, 2, false, false, 1, false, 0, 5, 2 ^ 32, 0, 0⟩,
   .helloReceived ⟨1, 2, false, false, 1, false, 0, 5, 0, 2 ^ 32, 0⟩,
   .shareReceived ⟨4096, 2, 3, 4, 5, 0, 0, 0, 0, true⟩, .shareReceived ⟨1, 2 ^ 32, 3, 4, 5, 0, 0, 0, 0, true⟩,
   .shareReceived ⟨1, 2, 2 ^ 32, 4, 5, 0, 0, 0, 0, true⟩,
   .shareReceived ⟨1, 2, 3, 2 ^ 32, 5, 0, 0, 0, 0, true⟩, .summaryReceived ⟨4096, 2, 3, 4, 5, 0, 0, true⟩,
   .summaryReceived ⟨1, 2 ^ 32, 3, 4, 5, 0, 0, true⟩, .summaryReceived ⟨1, 2, 2 ^ 32, 4, 5, 0, 0, true⟩,
   .summaryReceived ⟨1, 2, 3, 2 ^ 32, 5, 0, 0, true⟩, .capset ⟨0, 256, 0, 0⟩, .capset ⟨0, 0, 2 ^ 32, 0⟩,
   .capset ⟨0, 0, 0, 2 ^ 32⟩, .read ⟨2 ^ 48, 2, true, false⟩ 0 1, .read ⟨1, 65536, true, false⟩ 0 1,
   .read ⟨1, 2, true, false⟩ (2 ^ 32) 1, .read ⟨1, 2, true, false⟩ 0 0, .read ⟨1, 2, true, false⟩ 0 (256 + 1),
   .write ⟨2 ^ 48, 2, true, false⟩ 0 [0], .write ⟨1, 65536, true, false⟩ 0 [0],
   .write ⟨1, 2, true, false⟩ (2 ^ 32) [0], .write ⟨1, 2, true, false⟩ 0 [],
   .write ⟨1, 2, true, false⟩ 0 (List.replicate 257 0), .readFixed ⟨2 ^ 48, 2, true, false⟩ 0 1,
   .readFixed ⟨1, 65536, true, false⟩ 0 1, .readFixed ⟨1, 2, true, false⟩ (2 ^ 32) 1,
   .readFixed ⟨1, 2, true, false⟩ 0 0, .readFixed ⟨1, 2, true, false⟩ 0 (256 + 1),
   .writeFixed ⟨2 ^ 48, 2, true, false⟩ 0 [0], .writeFixed ⟨1, 65536, true, false⟩ 0 [0],
   .writeFixed ⟨1, 2, true, false⟩ (2 ^ 32) [0], .writeFixed ⟨1, 2, true, false⟩ 0 [],
   .writeFixed ⟨1, 2, true, false⟩ 0 (List.replicate 257 0)]

noncomputable def illFormed7 : List Instr :=
  [.updateBlk ⟨2 ^ 48, 2, true, false⟩ 0 [0], .updateBlk ⟨1, 65536, true, false⟩ 0 [0],
   .updateBlk ⟨1, 2, true, false⟩ (2 ^ 32) [0], .updateBlk ⟨1, 2, true, false⟩ 0 [],
   .updateBlk ⟨1, 2, true, false⟩ 0 (List.replicate 1025 0),
   .send ⟨2 ^ 48, 2, true, false⟩ 0 (List.replicate 16 0),
   .send ⟨1, 65536, true, false⟩ 0 (List.replicate 16 0), .send ⟨1, 2, true, false⟩ 32 (List.replicate 16 0),
   .send ⟨1, 2, true, false⟩ 0 [], .ackRead ⟨2 ^ 48, 2, true, false⟩ 0, .ackRead ⟨1, 65536, true, false⟩ 0,
   .ackRead ⟨1, 2, true, false⟩ 32, .memberDrop 64, .forget 16 0, .forget 0 64, .helloNow 16, .benufEn 16 0,
   .ptpMessage ⟨2, true, 0, 0, 0, 0, 0, 0, 0, 0⟩, .ptpMessage ⟨0, true, 0, 0, 0, 0, 2, 0, 0, 0⟩,
   .ptpMessage ⟨0, true, 0, 0, 16, 0, 0, 0, 0, 0⟩, .ptpMessage ⟨0, true, 0, 0, 0, 0, 0, 0, 10 ^ 9, 0⟩,
   .ptpMessage ⟨0, true, 0, 0, 0, 0, 0, 0, 0, 400000⟩, .announceTimeout 2, .taiSRead 16 0 0,
   .taiSRead 0 (2 ^ 48) 0, .taiSRead 0 0 (10 ^ 9), .twtWrite ⟨[], true, false, false⟩, .twtRead none 0 true,
   .pollRound 4, .twcTransactionStart 4, .twcTransactionEnd 4 (.ok 0), .twcTransactionEnd 0 (.ok 65536),
   .arbBackoffEnd 4, .twcStretchTmo 4, .busStuck 4, .busRecoveryRetry 4 true, .alert 4 0, .alert 0 128,
   .twcCommitPoll 16 0, .twcCommitPoll 0 4]

noncomputable def illFormed8 : List Instr :=
  [.doorbell 16 0 0, .doorbell 0 32 0, .taken 16 0 0 0, .taken 0 32 0 0, .done 16 0 0 0, .done 0 32 0 0,
   .mboxBind 16 0 0, .mboxBind 0 32 0, .mboxResend 32, .install 32, .erase 32, .rdSeq 16 0 0, .rdData 16 true,
   .submit 16 [0], .submit 0 [], .optimeHRead 16, .selftestDone [.cluster 4] [] 0 true,
   .selftestDone [.bank 32] [] 0 true, .selftestDone [.shadow 16] [] 0 true,
   .selftestDone [.mram 16] [] 0 true, .selftestDone [.lane 4] [] 0 true, .selftestDone [.conv 64] [] 0 true,
   .selftestDone [.phase 48] [] 0 true, .selftestDone [.vsns 12] [] 0 true, .selftestDone [.feed 8] [] 0 true,
   .selftestDone [.engine 2] [] 0 true, .selftestDone [] [(53, 0)] 0 true, .selftestDone [] [(80, 0)] 0 true,
   .selftestDone [] [(0, 256)] 0 true, .adoptWindowEnd [.phEn 48 0] 0, .adoptWindowEnd [.phPwm 48 0] 0,
   .adoptWindowEnd [.railEn 32 0] 0, .adoptWindowEnd [.fdGate 8 0] 0, .lifeArm 16 0 true,
   .lifeCommit 16 0 true, .startImage 16, .startPlan 16, .activate 16, .abort 16, .resume 16]

noncomputable def illFormed9 : List Instr :=
  [.updateBlock [], .updateBlock (List.replicate 65 0), .vauxInputReturn 2,
   .clustersStart (List.replicate 13 true), .syncInterval 2, .ginHiEnd 4 0 ⟨0, []⟩, .ginHiEnd 0 32768 ⟨0, []⟩,
   .ginHiEnd 0 (-32769) ⟨0, []⟩, .ginHiEnd 0 0 ⟨400000, []⟩, .ginHiEnd 0 0 ⟨0, [48]⟩, .uvComparatorHigh 12 0,
   .uvComparatorHigh 0 32768, .uvComparatorHigh 0 (-32769)]

/-- One command for each check of `Instr.wf`, which differs from a well-formed one in what that check refuses. -/
noncomputable def illFormed : List Instr :=
  illFormed0 ++ illFormed1 ++ illFormed2 ++ illFormed3 ++ illFormed4 ++ illFormed5 ++ illFormed6 ++ illFormed7 ++ illFormed8 ++ illFormed9

theorem test_wellFormed : wellFormed.all Instr.wf = true := by decide

theorem test_illFormed : illFormed.all (fun c => !c.wf) = true := by decide

end Sys2Proof.Tests

namespace Sys2Proof.Tests

open Sys2Proof.Machine

/-! ### States -/

/-- A module at work: powered, released, PHASE 4. -/
def upM : Module :=
  ({ State.reset.m with sys := { State.reset.m.sys with pwr := .run, released := true, part := 0x9640 } }).put pgSys
    SYS_STATUS_PHASE 4

/-- The state of that module with a change. -/
def up (f : Module → Module) : State := { State.reset with m := f upM }

def oneCtl (p : Nat) (m : Module) : Module := m.setReg p CTRL 1
def railReg (m : Module) : Module := (m.put pgRail RAIL_STATUS_STATE 2).updRl 0 (fun x => { x with trunc := false })
def phOn (n st : Nat) (m : Module) : Module :=
  (m.setBoth (rkey (pgPhase + n) PHASE_CFG) 0).put (pgPhase + n) PHASE_STATUS_STATE st
def cfgSet (p off : Nat) (v : W32) (m : Module) : Module := m.setBoth (rkey p off) v

def noTime : Instant := ⟨0, []⟩
def noSample : Sample := ⟨0, [], [], [], [], noTime⟩

noncomputable def witRail : List (Instr × State) :=
  [(.loopSample 0 noSample, up railReg),
   (.dutyRelease 0 noTime, up (fun m => (railReg m).updRl 0 (fun x => { x with duties := true }))),
   (.railPeriodBoundary 0 noTime, up railReg),
   (.trunc 0 32767 noTime, up railReg),
   (.truncExit 0 (-32768) noTime, up (fun m => m.updRl 0 (fun x => { x with trunc := true }))),
   (.ov 0 0, up (fun m => (railReg m).updRl 0 (fun x => { x with trunc := true }))),
   (.uvComparatorLow 0 (-32768), up id), (.uvComparatorHigh 0 32767, up id),
   (.uv 0 0, up (fun m => ((railReg m).updRl 0 (fun x => { x with uvLow := true })).setBoth
     (rkey pgRail RAIL_UV_THR) 0x0001FFFE)),
   (.dtAdapt 0 5, up (fun m => (railReg m).setBoth (rkey pgRail RAIL_DT) 0xFFFFFFFF)),
   (.dropReady 0, up (fun m => (railReg m).updRl 0 (fun x => { x with dwell := true }))),
   (.ssStall 0 0, up (fun m => (m.put pgRail RAIL_STATUS_STATE rsSoft).updRl 0 (fun x => { x with stall := true }))),
   (.ssCbcShort 0 0, up (fun m => (phOn 0 psActive (m.put pgRail RAIL_STATUS_STATE rsSoft)).updPh 0
     (fun x => { x with cut := true }))),
   (.shortRetry 0, up (fun m => m.put pgRail RAIL_STATUS_STATE rsRetry))]

noncomputable def witPhase : List (Instr × State) :=
  [(.cbcTrip 0 ⟨32767, 255⟩ noTime, up (phOn 0 psActive)), (.negLimitTrip 0 ⟨-32768, 65535⟩ noTime, up (phOn 0 psActive)),
   (.probeStart 0, up (fun m => (railReg (phOn 0 psSuspect m)).updPh 0 (fun x => { x with probeDue := true }))),
   (.probeDone 0, up (fun m => (phOn 0 psProbing m).updPh 0 (fun x => { x with probeN := 20 })))]

noncomputable def witAdc : List (Instr × State) :=
  [(.ginHi 0 32767 noTime, up (oneCtl pgAdccal)), (.ginHiEnd 0 (-32768) noTime, up id), (.ginLo 0 (-32768) 0, up (fun m => { oneCtl pgAdccal m with adc := { m.adc with thr := upd m.adc.thr 60 (fun _ => (511, -100)) } })),
   (.rollSlotEnd 1 2 5, up (fun m => (oneCtl pgAdccal m).setBoth (rkey pgAdccal ADCCAL_CFG) 0xFFFFFFFF)),
   (.refCalDone 1 2 true, up (fun m => { m with adc := { m.adc with calOn := some 0 } })),
   (.monReading 0 5, up (fun m => (oneCtl pgAdccal m).setBoth (rkey pgAdccal ADCCAL_MON_EN) 0xFFFFFFFF))]

noncomputable def witPlace : List (Instr × State) :=
  [(.clusterReady 0, up (fun m => { m with sched := { m.sched with waking := [0] } })),
   (.clusterIsolated 0, up (fun m => { m with sched := { m.sched with bist := some 0, clu := [6, 0, 0, 0] } })),
   (.bistDone 0 true, up (fun m => { m with sched := { m.sched with bist := some 0, bistOn := true } })),
   (.rotTest, up (fun m => (oneCtl pgPlace m).setBoth (rkey pgPlace PLACE_CFG) 0xFFFFFFFF)),
   (.bankMoveDone 3, up (fun m => { m with sched := { m.sched with bankMove := [3] } })),
   (.taskStart 2 7 [] 0 0, up (fun m => { m with
     sys := { m.sys with fwRun := true }
     sched := { m.sched with
       tb := true
       run := true
       tasks := m.sched.tasks.map (fun t => { t with owner := 0, armed := true }) } })),
   (.overflow 2, up (fun m => m.updTask 2 (fun t => { t with started := true }))),
   (.bucketBoundary 0, up id), (.clusterLockup 0, up id),
   (.freezeEnd, up (fun m => { m with sys := { m.sys with restart := .frozen 2 3 }, sched := { m.sched with
     run := true, tasks := m.sched.tasks.map (fun t => { t with first := true }) } })),
   (.fwLost, up (fun m => { m with sys := { m.sys with restart := .halted 2 3 }, sched := { m.sched with run := true } })),
   (.clustersStart [], up (fun m => { m with sys := { m.sys with restart := .halted 2 3 } }))]

noncomputable def witTwc : List (Instr × State) :=
  [(.pollRound 0, up (oneCtl pgTwc)),
   (.twcTransactionStart 0, up (fun m => (oneCtl pgTwc m).updPort 0 (fun x => { x with round := [(0, 0)] }))),
   (.twcTransactionEnd 0 (.ok 5), up (fun m => m.updPort 0 (fun x => { x with cur := some (.read 0 0) }))),
   (.twcTransactionEnd 0 .addrNack, up (fun m => m.updPort 0 (fun x => { x with cur := some (.read 0 0) }))),
   (.twcTransactionEnd 0 .dataNack, up (fun m => m.updPort 0 (fun x => { x with cur := some (.read 0 0) }))),
   (.twcTransactionEnd 0 .pecErr, up (fun m => m.updPort 0 (fun x => { x with cur := some (.read 0 0) }))),
   (.twcTransactionEnd 0 (.arbLost 3), up (fun m => m.updPort 0 (fun x => { x with cur := some (.read 0 0) }))),
   (.arbBackoffEnd 0, up (fun m => m.updPort 0 (fun x => { x with wait := true }))),
   (.twcStretchTmo 0, up (fun m => m.updPort 0 (fun x => { x with cur := some (.read 0 0) }))),
   (.busStuck 0, up (oneCtl pgTwc)),
   (.busRecoveryRetry 0 true, up (fun m => m.updPort 0 (fun x => { x with stuck := true }))),
   (.alert 0 9, up (fun m => (oneCtl pgTwc m).setBoth (rkey pgTwc TWC_CFG) 0xFFFFFFFF))]

/-- V_bus comes of GIN0, whose samples are valid. -/
def noGin : List Int := [16384, 0, 0, 0]
def busOk (m : Module) : Module :=
  (m.setBoth (rkey pgAdccal ADCCAL_GIN_CFG0) 4).setBoth (rkey pgEpe EPE_CFG)
    (setBits (m.reg pgEpe EPE_CFG) 8 4 0)
def epeQ : EpeReq := ⟨false, 100, 0, 54000, none, []⟩
noncomputable def witEpe : List (Instr × State) :=
  [(.solveDone, up (fun m => m.updEp (fun x => { x with req := some epeQ }))),
   (.wake 0, up (fun m => m.updEp (fun x => { x with mode := upd x.mode 0 (fun _ => 3) }))),
   (.droopWake noGin, up busOk), (.wearAccumulate, up id)]

noncomputable def witCap : List (Instr × State) :=
  [(.capEstimate noGin, up (oneCtl pgCap)),
   (.assistStep 100 noGin, up (fun m => (oneCtl pgCap (busOk m)).updCp (fun x => { x with assist := true }))),
   (.hardLimit, up (fun m => ((oneCtl pgCap m).setBoth (rkey pgCap CAP_HL_CFG) 0xFFFFFFFF).updCp (fun x => { x with qual := true }))),
   (.released, up (fun m => (m.put pgCap CAP_STATUS_HL_ON 1).setBoth (rkey pgCap CAP_LOCAL_CAP_L) 0x1000EFFF)),
   (.sustained, up (fun m => (oneCtl pgCap m).updCp (fun x => { x with qual := true })))]

def xrun (m : Module) : Module := m.updXg (fun x => { x with run := true })
noncomputable def witXing : List (Instr × State) :=
  [(.feedDetect 5 noGin, up (fun m => (xrun m).setBoth (rkey pgXing XING_DET_FEED_EN.off) 0xFFFFFFFF)),
   (.slopeDetect 5 noGin, up (fun m => (xrun (busOk m)).setBoth (rkey pgXing XING_DET_SLOPE_EN.off) 0xFFFFFFFF)),
   (.acokDetect 5 noGin, up (fun m => (xrun m).setBoth (rkey pgXing XING_DET_ACOK_EN.off) 0xFFFFFFFF)),
   (.full 9, up (fun m => (m.put pgXing XING_STATUS_STATE 1).updXg (fun x => { x with fullWait := true }))),
   (.busLoopSample noGin, up (fun m => (busOk m).put pgXing XING_STATUS_STATE 1)),
   (.stringShedResume, up id), (.inGoodChange 0, up id),
   (.returning, up (fun m => (m.put pgXing XING_STATUS_STATE xsQual).put pgXing XING_STATUS_IN_GOOD 1)),
   (.cutoffExit, up (fun m => (m.put pgXing XING_STATUS_STATE xsCutoff).put pgXing XING_STATUS_IN_GOOD 1))]

def fst (c st : Nat) (m : Module) : Module := m.put (pgFeed + c) FEED_STATUS_STATE st
noncomputable def witFeed : List (Instr × State) :=
  [(.feedInsDelay 0, up (fun m => (fst 0 fsQual (oneCtl pgFeed m)).put pgFeed FEED_STATUS_IN_WIN 1)),
   (.feedExcursion 0 true, up (fst 0 fsOn)), (.feedOn 0, up (fst 0 fsRamp)),
   (.feedSample 0 54000 0 0 0, up id), (.fastTrip 0, up (fst 0 fsOn)), (.feedRetry 0, up (fst 0 fsRetry)),
   (.feedConduct 0, up (fun m => (fst 0 fsBlock m).put pgFeed FEED_STATUS_IN_WIN 1)),
   (.reverse 0, up (fst 0 fsConduct)), (.damaged 0, up (fst 0 fsOn)),
   (.noConduct 0, up (fun m => (fst 0 fsOn m).updFd 0 (fun x => { x with vgsOn := true }))),
   (.degraded 0, up (fun m => (fst 0 fsOn m).setBoth (rkey pgFeed FEED_RSENSE) 5))]

noncomputable def witSeq : List (Instr × State) :=
  [(.seqTick 0, up (oneCtl pgSeq)),
   (.seqWaitDone, up (fun m => (m.put pgSeq SEQ_STATUS_STATE sqUp).updSq (fun x => { x with waiting := true, seen := true }))),
   (.stepFault, up (fun m => ((m.put pgSeq SEQ_STATUS_STATE sqUp).updSq (fun x => { x with waiting := true })).setBoth
     (tkey pgSeqtbl 0 2) 0x0005FFFA)),
   (.seqRetry, up (fun m => (m.put pgSeq SEQ_STATUS_STATE sqUp).updSq (fun x => { x with gap := true }))),
   (.downLead, up (fun m => (m.put pgSeq SEQ_STATUS_STATE sqDown).updSq (fun x => { x with lead := true }))),
   (.seqMinOff, up (fun m => m.put pgSeq SEQ_STATUS_STATE sqMinOff)),
   (.railFail 0, up (fun m => m.seqMapPut SEQ_TMR_MAP0 0 true)),
   (.railPgDeglitch 0 true, up id)]

noncomputable def witWdog : List (Instr × State) :=
  [(.wdiKick, up (fun m => m.put pgWdog WDOG_STATUS_STATE wdOpen)),
   (.winMinEnd, up (fun m => m.put pgWdog WDOG_STATUS_STATE wdClosed)),
   (.expired, up (fun m => m.put pgWdog WDOG_STATUS_STATE wdOpen)), (.hostRstEnd, up id)]

def btRun (m : Module) : Module := m.updBt 0 (fun x => { x with run := true })
noncomputable def witBatt : List (Instr × State) :=
  [(.batIdRead 0 100, up btRun),
   (.impPeriod 0, up (fun m => (btRun m).setBoth (rkey pgBatt BATT_IMP_CFG) 0xFFFFFFFF)),
   (.impFreqStep 0 3 4 5, up (fun m => m.updBt 0 (fun x => { x with imp := true }))),
   (.battVoltageJudge 0 50000, up btRun),
   (.battLevelTimer 0 1 true, up (fun m => ((btRun m).setBoth (rkey pgBatt BATT_V_LOW) 0x0001FFFE).updBt 0 (fun x => { x with mv := 1 }))),
   (.battLevelTimer 0 1 false, up (fun m => (btRun m).updBt 0 (fun x => { x with mv := 60000 })))]

noncomputable def witTherm : List (Instr × State) :=
  [(.excluded 0, up (fun m => (m.setReg pgTherm THERM_RING_INC 0xFFFF).updTh (fun x => { x with beyond := [0] }))),
   (.calDone, up (fun m => m.updTh (fun x => { x with cal := true })))]

def nup (p : Nat) (m : Module) : Module := (oneCtl (pgNet + p) m).put (pgNet + p) NET_STATUS_UP 1
def rebuildS (e : Nat) (m : Module) : Module := (m.setEng e esTest).updNet (fun n => { n with rebuild := true })
noncomputable def witNet : List (Instr × State) :=
  [(.linkUp 0 true true, up (oneCtl pgNet)), (.linkDown 0, up (nup 0)),
   (.frameReceived 0 (toBytes 6 macAll ++ rep 60 0) true, up (nup 0)),
   (.mergeEntry .strobe true, up id), (.mergeEntry (.gap 2) true, up id), (.engineFlag 2 1 0, up id),
   (.supervisionSend, up (fun m => ((m.setEng 0 esActive).put pgNetpair NETPAIR_STATUS_ACTIVE 0).setBoth
     (rkey pgNetpair NETPAIR_CFG) 0xFFFFFFFF)),
   (.entryForget 0, up id), (.repairStageDone 0 true, up (fun m => m.setEng 0 esCatch)),
   (.rebuildDone 0, up (rebuildS 0))]

def shelf5 (m : Module) : Module := m.setBoth (rkey pgBenuf BENUF_SHELF) 5
def hel : Hello := ⟨6, 0x123456, false, false, 0, false, 0, 100, 0, 0, 0⟩
def bnOn (m : Module) : Module := ((shelf5 (oneCtl pgBenuf m)).put pgPtp PTP_STATUS_LOCKED 1)
noncomputable def witGrove : List (Instr × State) :=
  [(.helloReceived hel, up bnOn),
   (.shareReceived ⟨6, 0, 10, 5, 100, 0, 0, 100, 100, true⟩, up (fun m => (bnOn m).setTbl pgBenuf 0 25 1)),
   (.summaryReceived ⟨70, 0, 10, 5, 100, 100, 100, true⟩, up (fun m => (bnOn m).setBoth (rkey pgGrove GROVE_CFG) 0xFFFFFFFF)),
   (.helloSend, up (fun m => m.put pgBenuf BENUF_STATUS_STATE 1)),
   (.joinDone, up (fun m => m.put pgBenuf BENUF_STATUS_STATE 1)),
   (.leavingHello, up (fun m => m.updBn (fun x => { x with leave := 2 }))),
   (.memberDrop 3, up (fun m => ((shelf5 m).setBoth (rkey pgBenuf BENUF_HELLO_CFG) 0xFFFFFFFF).setTbl pgBenuf 0 13 1)),
   (.dupShelfGone, up id), (.healthSend, up bnOn),
   (.groveCutoff, up (fun m => (bnOn m).updGr (fun x => { x with run := true }))),
   (.shareRise false, up (fun m => m.updGr (fun x => { x with rise := some 5 }))),
   (.shareRise true, up (fun m => m.updGr (fun x => { x with grise := some 5 }))),
   (.canopyCutoff, up (fun m => ((bnOn m).updGr (fun x => { x with run := true })).setBoth (rkey pgGrove GROVE_CFG) 0xFFFFFFFF))]

def pmsg : PtpMsg := ⟨0, true, 5, 6, 9, 7, 0, 8, 9, 0⟩
def ptpOn (m : Module) : Module := (nup 0 (oneCtl pgPtp m)).setBoth (rkey pgPtp PTP_CFG) 0xFFFFFFFF
noncomputable def witPtp : List (Instr × State) :=
  [(.ptpMessage pmsg, up ptpOn), (.announceTimeout 0, up ptpOn),
   (.ppsEdge true, up (fun m => (ptpOn m).setBoth (rkey pgPtp PTP_PPS_CFG) 0xFFFFFFFF)),
   (.syncInterval 0, up ptpOn), (.anchorInterval, up (fun m => m.setBoth (rkey pgRec REC_CFG) 0xFFFFFFFF))]

def upNv (g : NonVol → NonVol) (f : Module → Module) : State :=
  { State.reset with nv := g State.reset.nv, m := f upM }

def chSet' (ch st tx rx : Nat) (m : Module) : Module :=
  (m.setBoth (tkey (pgMbox + ch / 8) 8 (ch % 8)) (BitVec.ofNat 32 (tx * 65536 + rx * 1048576))).chSet ch 0 0 st

noncomputable def witModule : List (Instr × State) :=
  [(.mboxResend 4, up (fun m => (chSet' 4 chFull 4 2 m).updBn (fun x => { x with mboxMac := some 77 }))),
   (.streamFrame, up (fun m => ((((((bnOn m).setBoth (rkey pgRec REC_CFG) 0xFFFFFFFF).setBoth (rkey pgBenuf BENUF_REC_DEST_L)
      0xFFFFFFFF).setEng 0 esActive)).setBoth (rkey pgRec REC_STREAM_NEXT_L) 1).updRc (fun x => { x with next := 3 }))),
   (.armExpiry, up (fun m => m.updLc (fun y => { y with arm := some 1 }))), (.holdOk, up id),
   (.startHoldRelease, up (fun m => (m.put pgSys SYS_STATUS_PHASE 3).updSys (fun x => { x with
     loaded := true, scanDone := true, hold := true }))),
   (.clkRestartTry 5 true, up (fun m => { m with clk := { m.clk with lost := [5] } })),
   (.syncInPresent 3, up (fun m => m.setBoth (rkey pgClk CLK_SYNC_CFG) 0xFFFFFFFF)),
   (.syncLock 3, up (fun m => (m.setBoth (rkey pgClk CLK_SYNC_CFG) 0xFFFFFFFF).put pgClk CLK_SYNC_STAT_PRESENT 1)),
   (.syncLost, up (fun m => m.put pgClk CLK_SYNC_STAT_PRESENT 1)), (.brownOut, up id), (.brownOutEnd, up id),
   (.vauxInputLost 0, up id), (.vauxInputReturn 0, up id),
   (.vauxDip 3 4, up (fun m => m.updSys (fun x => { x with pwr := .ride }))),
   (.shadowReload 0, up (fun m => m.updMem (fun x => { x with poison := [32 * 8192], opened := false }))),
   (.codeShadowLoaded [], up (fun m => m.updSys (fun x => { x with restart := .halted 1 0 }))),
   (.resetPin, up id)]

noncomputable def witNv : List (Instr × State) :=
  [(.collapse 8000 8000 false, up (fun m => m.updSys (fun x => { x with hold := true }))),
   (.lastBreathEntry 5 false, up (fun m => m.updSys (fun x => { x with pwr := .ride }))),
   (.clkLoss 0, up id), (.clkLoss 5, up id),
   (.clkResume 5, up (fun m => { m with clk := { lost := [5], back := [5] } })), (.wearSave, up id),
   (.retired 64 3, up (fun m => m.updMem (fun x => { x with copy := [(64, 3)] }))),
   (.scrubStep true 0 0, up id),
   (.tamper 0, up (fun m => m.setBoth (rkey pgHeart HEART_TAMPER_CFG) 0xFFFFFFFF)),
   (.tamperPulseCheck 0 true true, up (fun m => m.setBoth (rkey pgHeart HEART_TAMPER_CFG) 0xFFFFFFFF)),
   (.tamperPulseCheck 0 true false, up (fun m => m.setBoth (rkey pgHeart HEART_TAMPER_CFG) 0xFFFFFFFF)),
   (.glitch 1, up id), (.wiped, up (fun m => m.updHw (fun x => { x with wipe := some 1 }))),
   (.thermRound ⟨some 250, rep 16 10000, rep 16 0⟩, up id),
   (.recordDrain, up (fun m => (m.updSys (fun x => { x with scanDone := true })).updRc (fun x => { x with
     started := true, stage := [⟨1, 0, 0, 0, 0, 0x0301, 5, [], true⟩] }))),
   (.optimeStore, up (fun m => m.updRc (fun x => { x with optime := 9 }))),
   (.install 0, up (fun m => (m.chSet 0 0 0 chFull).setTbl pgMbox 0 0 0x00000001)),
   (.erase 0, up (fun m => (m.chSet 0 0 0 chFull).setTbl pgMbox 0 0 0x02000000)),
   (.verifyDone, up (fun m => (m.put pgUpdate UPDATE_STATUS_STATE usVerify).put pgUpdate UPDATE_STATUS_TARGET 1)),
   (.planStoreDone, up (fun m => (m.put pgUpdate UPDATE_STATUS_STATE usActivating).put pgUpdate UPDATE_STATUS_TARGET 1)),
   (.changed, up (fun m => m.updLc (fun x => { x with target := some 1, wiped := true }))),
   (.scanDone, up (fun m => m.put pgSys SYS_STATUS_PHASE 1)),
   (.selftestDone [] [] 3 false, up (fun m => m.put pgSys SYS_STATUS_PHASE 1)),
   (.adoptWindowEnd [] 5, up (fun m => (m.put pgSys SYS_STATUS_PHASE 3).updSys (fun x => { x with window := true, released := false }))),
   (.majorFrame [], up id),
   (.taskDeadline ⟨2, true, 5, []⟩, up (fun m => m.updTask 2 (fun t => { t with started := true, owner := 0 }))),
   (.memoryAccess ⟨4, 0x10000000, 8, none, 0, 0, 0, [], none⟩, up id),
   (.memoryAccess ⟨4, 0x20000000, 8, some 5, 0, 0, 0, [], none⟩, up id)]

noncomputable def witPower : List (Instr × State) :=
  [(.powerOn 12000 12000 0, State.reset),
   (.lastBreathReset, up (fun m => m.updSys (fun x => { x with pwr := .lastBreath }))),
   (.resetRelease 0, up (fun m => m.updSys (fun x => { x with pwr := .pinReset })))]

noncomputable def witTwt : List (Instr × State) :=
  [(.twtWrite ⟨toBytes 2 0x0024 ++ toBytes 4 5, true, false, false⟩, up id),
   (.twtRead (some 0) 4 false, up id), (.timeout, up (fun m => m.setBoth (rkey pgTwt TWT_CFG) 0xFFFFFFFF)),
   (.stretchLimit true, up id), (.stretchLimit false, up id)]

def mq : MgmtHdr := ⟨77, 3, true, false⟩
noncomputable def witMgmt : List (Instr × State) :=
  [(.read mq 0 4, up id), (.readFixed mq 0x28 2, up id), (.write mq 0x2004 [3], up id),
   (.writeFixed mq 0x2004 [3, 4], up id), (.updateBlk mq 0 [1, 2, 3, 4], up id),
   (.send mq 0 [1, 2], up id), (.ackRead mq 3, up id),
   (.capset ⟨0, 0xFF, 1000, 0⟩, up bnOn), (.capset ⟨0, 0xFF, 1000, 9⟩, up bnOn),
   (.capsetApply, up (fun m => (bnOn m).updBn (fun x => { x with capsets := [⟨0, 0xFF, 1000, 1⟩] })))]

def off (m : Module) : Module := m
noncomputable def witEn : List (Instr × State) :=
  [(.schedEn 8 0x001, up (fun m => m.setReg pgSched CTRL 0)), (.schedEn 8 0, up (oneCtl pgSched)),
   (.railEn 8 0 1, up id), (.railEn 8 0 0, up (oneCtl pgRail)), (.phaseEn 2 3 1, up id), (.cleEn 2 1, up id),
   (.traceEn 2 0 1, up id), (.groveEn 2 1, up id), (.xingEn 2 1, up id), (.feedEn 2 0 1, up id), (.seqEn 2 1, up id),
   (.wdogEn 2 1, up id), (.battEn 2 0 1, up id), (.benufEn 2 1, up id)]

def unc (k : Nat) (m : Module) : Module := { m with unc := [k] }
def uncAt (p g : Nat) : Nat :=
  (((List.range 256).map (fun o => p * 256 + o)) ++ ((List.range 12).flatMap (fun t => (List.range 8).map (tkey p t)))).find? (inGroup p g) |>.getD 0
noncomputable def witCommit : List (Instr × State) :=
  [(.railCommitRef 2 0, up (unc (uncAt pgRail 0))), (.railCommitProt 2 0, up (unc (uncAt pgRail 1))),
   (.railCommitShed 2 0, up (unc (uncAt pgRail 2))), (.cleCommit 2 1, up (unc (uncAt pgCle 0))),
   (.epeCommitSrc 2, up (unc (uncAt pgEpe 0))), (.xingCommitBus 2, up (unc (uncAt pgXing 0))),
   (.feedCommitWin 2 0, up (unc (uncAt pgFeed 0))), (.feedCommitTrip 2 0, up (unc (uncAt pgFeed 1))),
   (.seqtblCommitUp 2, up (unc (uncAt pgSeqtbl 0))), (.seqtblCommitDown 2, up (unc (uncAt pgSeqtbl 1))),
   (.battCommitOcv 2 0, up (unc (uncAt pgBatt 0))), (.battCommitChg 2 0, up (unc (uncAt pgBatt 1))),
   (.battCommitLvl 2 0, up (unc (uncAt pgBatt 2))),
   (.twcCommitPoll 2 0, up (fun m => unc (uncAt pgTwc 0) (oneCtl pgTwc m)))]

noncomputable def witCmd : List (Instr × State) :=
  [(.fwRestart 2, up id), (.moduleResetCmd 2, up id), (.saplingCmd 2, up id),
   (.bistReq 2 0x100, up (fun m => m.put pgPlace PLACE_PLAN_STAT_N1_OK 1)), (.calReq 2 0x100, up id),
   (.arm 2 0, up (oneCtl pgTrace)), (.force 2 0 0, up (fun m => m.put pgTrace TRACE_STATUS_STATE tsArmed)),
   (.stop 2 0, up id), (.seqReqOn 2, up (oneCtl pgSeq)), (.seqReqOff 2, up (oneCtl pgSeq)),
   (.kick 2 0xA5A55A5A, up (fun m => (m.setBoth (rkey pgWdog WDOG_CFG) 0xFFFFFFFF).put pgWdog WDOG_STATUS_STATE wdOpen)),
   (.accept 2 0, up (fun m => m.put pgBatt BATT_STATUS_PRES 1)),
   (.impGo 2 0, up (fun m => (btRun m).setBoth (rkey pgBatt BATT_IMP_CFG) 0xFFFFFFFF)), (.cal 2, up id),
   (.switch 2 0, up (fun m => (m.setEng 0 esActive).setEng 1 esStep)), (.repair 2 1, up (fun m => m.setEng 1 esFailed)),
   (.forget 2 3, up id), (.helloNow 2, up (fun m => m.put pgBenuf BENUF_STATUS_STATE 1)), (.wipeCmd 2 0x5A5AA5A5, up id),
   (.startImage 2, up id), (.startPlan 2, up id),
   (.activate 2, up (fun m => (m.put pgUpdate UPDATE_STATUS_STATE usVerified).put pgUpdate UPDATE_STATUS_TARGET 1)),
   (.abort 2, up (fun m => (m.put pgUpdate UPDATE_STATUS_STATE usOpen).put pgUpdate UPDATE_STATUS_OWNER 2)),
   (.resume 2, up (fun m => m.put pgSys SYS_STATUS_PHASE 5))]

noncomputable def witReg : List (Instr × State) :=
  [(.softRst 2 pgRail, up id), (.lock 2 pgRail 1, up id), (.evtRawClear 2 pgRail 3, up (fun m => m.raise pgRail 1)),
   (.fltStatClear 2 pgRail 2, up (fun m => m.setReg pgRail FLT_STAT 2)), (.fltWinWrite 2 (rkey pgRail FLT_WIN) 0x0230FDCF, up id),
   (.registerWrite 2 (rkey pgSeq SEQ_CFG) 1 [], up id), (.registerWrite 2 (rkey pgRail RAIL_CFG) 0x02581010 [], up id),
   (.registerWrite 2 (rkey pgTherm THERM_RR_CFG) 5 [], up id),
   (.profileChange 2 1, up id), (.doorbell 4 4 0x0003FFFC, up (chSet' 4 chDone 4 5)),
   (.lifeArm 1 0x1001EFFE true, up id), (.lifeCommit 1 0x2001DFFE true, up (fun m => (m.put pgSys SYS_STATUS_HOLD_OK 1).updLc (fun x => { x with arm := some 1 })))]

noncomputable def witXfer : List (Instr × State) :=
  [(.tblDataAccess 2 pgSeqtbl (some 0x0001FFFE), up id), (.tblDataAccess 2 pgEpe (some 0x00010000), up id),
   (.mboxBind 8 5 0x0054FFAB, up id),
   (.taken 5 4 0x0000FFFF (mkPair chTaken), up (chSet' 4 chFull 4 5)),
   (.done 5 4 0x0000FFFF (mkPair chDone), up (chSet' 4 chFull 4 5)),
   (.rdSeq 2 0 1, up id), (.submit 4 (0x04000004 :: rep 10 7), up id), (.submit 2 (0xE0000004 :: rep 10 7), up id),
   (.updateBlock (rep 64 3), up (fun m => ((((m.put pgUpdate UPDATE_STATUS_STATE usOpen).put pgUpdate UPDATE_STATUS_OWNER 1).put pgUpdate UPDATE_STATUS_TARGET 1).setReg pgUpdate UPDATE_BLK_OFS 256).updUp (fun x => { x with len := 1024 }))),
   (.battCommitLearn 2 0 0x0001FFFE 0x0001FFFE 0x0001FFFE 0x0001FFFE 3, up (fun m => (m.put pgBatt BATT_STATUS_PRES 1).put pgBatt BATT_ID_CODE 3))]

noncomputable def witRead : List (Instr × State) :=
  [(.rdData 2 true, up id), (.rdData 2 false, up id), (.optimeHRead 2, up id), (.taiSRead 2 5 6, up id),
   (.tblDataAccess 2 pgEpe none, up id)]

/-! ### Every row of the tables has a state that meets its condition -/

def readyAt (row : Instr → State → Row) (x : Instr × State) : Bool :=
  x.2.m.powered && (match row x.1 x.2 with | some r => r.1 { x.2.m with out := {} } | none => false)
def readyAt2 (row : Instr → State → Row2) (x : Instr × State) : Bool :=
  (match row x.1 x.2 with | some r => r.1 x.2.nv { x.2.m with out := {} } | none => false)
def readyAtP (row : Instr → State → Option Port) (x : Instr × State) : Bool :=
  x.2.m.powered && (match row x.1 x.2 with | some r => r.open { x.2.m with out := {} } | none => false)

set_option maxRecDepth 20000

theorem witness_railRow : witRail.all (readyAt (fun c _ => railRow c)) = true := by decide
theorem witness_phaseRow : witPhase.all (readyAt (fun c _ => phaseRow c)) = true := by decide
theorem witness_adcRow : witAdc.all (readyAt (fun c _ => adcRow c)) = true := by decide
theorem witness_placeRow : witPlace.all (readyAt (fun c _ => placeRow c)) = true := by decide
theorem witness_twcRow : witTwc.all (readyAt (fun c _ => twcRow c)) = true := by decide
theorem witness_epeRow : witEpe.all (readyAt (fun c _ => epeRow c)) = true := by decide
theorem witness_capRow : witCap.all (readyAt (fun c _ => capRow c)) = true := by decide
theorem witness_xingRow : witXing.all (readyAt (fun c _ => xingRow c)) = true := by decide
theorem witness_feedRow : witFeed.all (readyAt (fun c _ => feedRow c)) = true := by decide
theorem witness_seqRow : witSeq.all (readyAt (fun c _ => seqRow c)) = true := by decide
theorem witness_wdogRow : witWdog.all (readyAt (fun c _ => wdogRow c)) = true := by decide
theorem witness_battRow : witBatt.all (readyAt (fun c _ => battRow c)) = true := by decide
theorem witness_thermRow : witTherm.all (readyAt (fun c s => thermRow c s.nv)) = true := by decide
theorem witness_netRow : witNet.all (readyAt (fun c _ => netRow c)) = true := by decide
theorem witness_groveRow : witGrove.all (readyAt (fun c _ => groveRow c)) = true := by decide
theorem witness_ptpRow : witPtp.all (readyAt (fun c _ => ptpRow c)) = true := by decide
theorem witness_moduleRow : witModule.all (readyAt (fun c s => moduleRow c s.nv)) = true := by decide
theorem witness_nvRow : witNv.all (readyAt2 (fun c _ => nvRow c)) = true := by decide
theorem witness_powerRow : witPower.all (readyAt2 (fun c _ => powerRow c)) = true := by decide
theorem witness_twtRow : witTwt.all (readyAt2 (fun c _ => twtRow c)) = true := by decide
theorem witness_mgmtRow : witMgmt.all (readyAt2 (fun c _ => mgmtRow c)) = true := by decide
theorem witness_enRow : witEn.all (readyAtP (fun c _ => enRow c)) = true := by decide
theorem witness_commitRow : witCommit.all (readyAtP (fun c _ => commitRow c)) = true := by decide
theorem witness_cmdRow : witCmd.all (readyAtP (fun c s => cmdRow c s.nv)) = true := by decide
theorem witness_regRow : witReg.all (readyAtP (fun c _ => regRow c)) = true := by decide
theorem witness_xferRow : witXfer.all (readyAtP (fun c s => xferRow c s.nv)) = true := by decide
theorem witness_readRow : witRead.all (readyAt (fun c s => readRow c s.nv)) = true := by decide

/-! ### The hypotheses of the other statements -/

theorem witness_on_up : On (up id) upM := ⟨rfl, rfl⟩

theorem witness_EmptyQueue_idle : (up id).pending = [] ∧ (up id).m.powered = true ∧ (up id).m.txStep = none :=
  ⟨rfl, rfl, by decide⟩

/-- A module with a path and a frame that waits. -/
def sending : State :=
  up (fun m => (m.setEng 0 esActive).updNet (fun n => { n with fly := some ⟨0, 0, 0, 0, 0, 0, 0, 0, [1, 2], false, 0⟩ }))

theorem witness_EmptyQueue_sends : sending.pending = [] ∧ sending.m.powered = true ∧ sending.m.txStep.isSome = true :=
  ⟨rfl, rfl, by decide⟩

theorem witness_NoSupply : State.reset.m.sys.pwr = .off ∧ State.reset.m.sys.goOn = false
    ∧ State.reset.m.sys.resetDue = none ∧ needsNoPower .brownOut = false := by decide

/-- A state that meets every invariant, with a command to run. -/
def ready : State := { up id with pending := [.brownOut] }

theorem witness_Invariants : MramForm ready.nv ∧ SramForm ready.m ∧ Shaped ready.m ∧ Bounded ready.nv
    ∧ ∃ t, step ready = .next t := ⟨rfl, rfl, by unfold Shaped; decide, by unfold Bounded; decide, _, rfl⟩

theorem witness_AbsentAddress : On (up id) upM ∧ mayRead upM 1 = true ∧ 0xF020 % 4 = 0 ∧ regAt upM 0xF0 0x20 = none
    ∧ regAt upM 0x10 0xF8 = none ∧ pagePresent 0x9612 0x2F = false := ⟨⟨rfl, rfl⟩, by decide⟩

/-- PHASE0.CFG of a running and of a stopped phase, and ISNS_SCALE with a valid pair. -/
def runningPhase : State := up (fun m => m.setReg pgPhase CTRL 1)

theorem witness_StopField_running : On runningPhase runningPhase.m ∧ Serves runningPhase.m 1 .phase = true
    ∧ (∃ r, rowAt runningPhase.m 0x1020 .phase 0 r ∧ r.eff = .stop ∧ r.acc = .rw) ∧ plain .phase 0x1020
    ∧ pair32Hi .phase 0x20 = none ∧ unlocked runningPhase.m 0x10 = true ∧ runningPhase.m.en 0x10 = true
    ∧ runningPhase.m.cfgRec = none :=
  ⟨⟨rfl, rfl⟩, by decide, ⟨_, ⟨by decide, by decide, rfl⟩, rfl, rfl⟩, by unfold plain; decide, by decide, by decide, by decide, rfl⟩

theorem witness_StopField_stopped : On (up id) upM ∧ Serves upM 1 .phase = true
    ∧ (∃ r, rowAt upM 0x1024 .phase 0 r ∧ r.eff = .stop ∧ r.acc = .rwp) ∧ plain .phase 0x1024
    ∧ pairOk (mkPair 2000) = true ∧ pair32Hi .phase 0x24 = none ∧ unlocked upM 0x10 = true ∧ upM.en 0x10 = false
    ∧ encOk upM.sys.part .phase 0x24 (kept upM.sys.part .phase 0x24 (mkPair 2000)) = true ∧ isWin .phase 0x24 = false :=
  ⟨⟨rfl, rfl⟩, by decide, ⟨_, ⟨by decide, by decide, rfl⟩, rfl, rfl⟩, by unfold plain; decide, by decide, by decide, by decide, by decide, by decide,
    by decide⟩

theorem witness_StopField_recorded : (upM.updRc (fun x => { x with started := true })).rc.started = true
    ∧ (upM.updRc (fun x => { x with started := true })).staged < 960 := by decide

/-- Master 1 may write a register of this access at this address. -/
def reachable (s : State) (a : Nat) (b : Blk) (n : Nat) (acc : Acc) : Prop :=
  On s s.m ∧ s.m.busOpen 1 = true ∧ s.m.busDenied 1 = false ∧ (∃ r, rowAt s.m a b n r ∧ r.acc = acc) ∧ plain b a

theorem reachable_cfg (f : Module → Module) (h : (f upM).out = {} ∧ (f upM).powered = true)
    (h1 : (f upM).busOpen 1 = true) (h2 : (f upM).busDenied 1 = false)
    (h3 : ∃ r, regAt (f upM) 0x10 0x20 = some (.phase, 0, r) ∧ r.acc = .rw) :
    reachable (up f) 0x1020 .phase 0 .rw := by
  refine ⟨⟨?_, h.2⟩, h1, h2, ?_, by unfold plain; decide⟩
  · show f upM = { f upM with out := {} }
    rw [← h.1]
  · obtain ⟨r, e, a⟩ := h3
    exact ⟨r, ⟨by decide, by decide, e⟩, a⟩

/-- Each refusal of PHASE0.CFG: brown-out, AUTONOMOUS, lock, encoding; and of ISNS_SCALE: pair. -/
theorem witness_Refused_brown : reachable (up (fun m => m.put pgSys SYS_STATUS_BROWN 1)) 0x1020 .phase 0 .rw
    ∧ (upM.put pgSys SYS_STATUS_BROWN 1).get pgSys SYS_STATUS_BROWN = 1 :=
  ⟨reachable_cfg _ (by decide) (by decide) (by decide) ⟨_, rfl, rfl⟩, by decide⟩
theorem witness_Refused_autonomous : reachable (up (fun m => m.put pgWdog WDOG_STATUS_AUTONOMOUS 1)) 0x1020 .phase 0 .rw
    ∧ (upM.put pgWdog WDOG_STATUS_AUTONOMOUS 1).autonomous = true
    ∧ (upM.put pgWdog WDOG_STATUS_AUTONOMOUS 1).get pgSys SYS_STATUS_BROWN = 0 :=
  ⟨reachable_cfg _ (by decide) (by decide) (by decide) ⟨_, rfl, rfl⟩, by decide⟩
theorem witness_Refused_locked : reachable (up (fun m => m.setReg pgPhase LOCK 1)) 0x1020 .phase 0 .rw
    ∧ unlocked (upM.setReg pgPhase LOCK 1) 0x10 = false ∧ (upM.setReg pgPhase LOCK 1).autonomous = false :=
  ⟨reachable_cfg _ (by decide) (by decide) (by decide) ⟨_, rfl, rfl⟩, by decide⟩
theorem witness_Refused_encoding : reachable (up id) 0x1020 .phase 0 .rw
    ∧ encOk upM.sys.part .phase 0x20 (kept upM.sys.part .phase 0x20 0xFFFFFFFF) = false ∧ pair32Hi .phase 0x20 = none ∧ upM.en 0x10 = false
    ∧ unlocked upM 0x10 = true :=
  ⟨reachable_cfg id (by decide) (by decide) (by decide) ⟨_, rfl, rfl⟩, by decide⟩
theorem witness_Refused_pair : reachable (up id) 0x1024 .phase 0 .rwp ∧ pairOk 0x12341234 = false ∧ unlocked upM 0x10 = true :=
  ⟨⟨⟨rfl, rfl⟩, by decide, by decide, ⟨_, ⟨by decide, by decide, rfl⟩, rfl⟩, by unfold plain; decide⟩, by decide⟩

/-- CAP.LOCAL_CAP_H is half of a critical 32-bit value. -/
theorem witness_Half : On (up id) upM ∧ Serves upM 1 .cap = true
    ∧ (∃ r, rowAt upM (rkey pgCap CAP_LOCAL_CAP_H) .cap 0 r ∧ r.acc = .rwp) ∧ plain .cap (rkey pgCap CAP_LOCAL_CAP_H)
    ∧ (pair32Hi .cap (rkey pgCap CAP_LOCAL_CAP_H % 256)).isSome = true ∧ unlocked upM pgCap = true :=
  ⟨⟨rfl, rfl⟩, by decide, ⟨_, ⟨by decide, by decide, rfl⟩, rfl⟩, by unfold plain; decide, by decide, by decide⟩

theorem witness_Window : On (up id) upM ∧ Serves upM 1 .cle = true ∧ hasTbl .cle = true
    ∧ (∃ r, rowAt upM (rkey pgCle TBL_SEL) .cle 0 r ∧ r.acc = .rw)
    ∧ (∃ r, rowAt upM (rkey pgCle TBL_IDX) .cle 0 r ∧ r.acc = .rw)
    ∧ (∃ r, rowAt upM (rkey pgCle TBL_DATA) .cle 0 r ∧ r.acc ≠ .wo) :=
  ⟨⟨rfl, rfl⟩, by decide, by decide, ⟨_, ⟨by decide, by decide, rfl⟩, rfl⟩, ⟨_, ⟨by decide, by decide, rfl⟩, rfl⟩,
    ⟨_, ⟨by decide, by decide, rfl⟩, by decide⟩⟩

/-- XING.SLOPE_THR is Live and XING.BUS_REF in the group BUS, on a stopped block and on a running one. -/
theorem witness_Class_live : effOf (rkey pgXing XING_SLOPE_THR) = .live
    ∧ upM.waits (rkey pgXing XING_SLOPE_THR) = false
    ∧ (upM.setReg pgXing CTRL 1).waits (rkey pgXing XING_SLOPE_THR) = true := by decide
theorem witness_Class_group : effOf (rkey pgXing XING_BUS_REF) = .group 0
    ∧ upM.waits (rkey pgXing XING_BUS_REF) = false
    ∧ (upM.setReg pgXing CTRL 1).waits (rkey pgXing XING_BUS_REF) = true ∧ upM.snap = [] := by decide

theorem witness_Raised : pagePresent upM.sys.part pgPhase = true := by decide

theorem witness_Profile : (upM.applyWrite (rkey pgRail RAIL_CFG) 5).ovr.contains (rkey pgRail RAIL_CFG) = true := by decide
theorem witness_Profile_key : profileKey (rkey pgRail RAIL_CFG) := Or.inl ⟨0, by decide, Or.inl rfl⟩

/-- A source below its threshold, due and not due to be recorded, and one that reaches it, unlatched and latched. -/
def counting (n : Nat) (since : Option Nat) : Module :=
  { upM with ctrs := [⟨pgPhase, 2, 0, rkey pgPhase FLT_WIN, n :: rep 7 0, since, 0⟩] }
theorem witness_Fault_transient : sumN (counted (counting 2 none) pgPhase 2 0 (rkey pgPhase FLT_WIN))
      < (counting 2 none).winThr (rkey pgPhase FLT_WIN)
    ∧ ((counting 2 (some 8)).ctr pgPhase 2 0 (rkey pgPhase FLT_WIN)).since = some 8
    ∧ ((counting 2 (some 9)).ctr pgPhase 2 0 (rkey pgPhase FLT_WIN)).since = some 9
    ∧ pairOk ((counting 2 none).liveKey (rkey pgPhase FLT_WIN)) = true := by decide
theorem witness_Fault_lasting : (counting 15 none).winThr (rkey pgPhase FLT_WIN)
      ≤ sumN (counted (counting 15 none) pgPhase 2 0 (rkey pgPhase FLT_WIN))
    ∧ (counting 15 none).latched pgPhase 2 = false
    ∧ ((counting 15 none).setReg pgPhase FLT_STAT 4).latched pgPhase 2 = true := by decide

theorem witness_Buckets : ((counting 15 none).ctr pgPhase 2 0 (rkey pgPhase FLT_WIN)).buckets.length = 8
    ∧ ((counting 15 none).ctr pgPhase 2 0 (rkey pgPhase FLT_WIN)).win = rkey pgPhase FLT_WIN
    ∧ rkey pgPhase FLT_WIN ≠ rkey pgSched FLT_WIN ∧ bit (upM.reg pgSched CTRL) 8 = false := by decide

/-- The members of the worked example at Kettle Ford, the cap 120,000 W (R272). -/
def kettleFord : List Counted :=
  [⟨0, 40000, 20000, 50000, 0, 0⟩, ⟨1, 35000, 15000, 45000, 1, 1⟩, ⟨2, 30000, 10000, 40000, 1, 2⟩,
    ⟨3, 25000, 10000, 35000, 2, 3⟩]
theorem witness_Shares : distinct kettleFord := by unfold distinct; decide
theorem witness_Shares_cap : 85000 ≤ 120000 ∧ sumN (kettleFord.map (fun a => min a.f a.mx)) ≤ 85000 := by decide

/-- An entry of a source, and frames of each kind against it. -/
def knows (h : Nat) (w : W32) : Module := upM.updNet (fun n => { n with dup := [⟨0, 77, h, w, 5, false, false, 0⟩] })
theorem witness_Duplicate : (knows 100 4).net.dup.find? (fun x => decide (x.mac = 77)) = some ⟨0, 77, 100, 4, 5, false, false, 0⟩
    ∧ bit (4 : W32) ((100 + 65536 - 98) % 65536) = true ∧ bit (4 : W32) ((100 + 65536 - 97) % 65536) = false
    ∧ (101 + 65536 - 100) % 65536 = 1 ∧ 32768 ≤ (60 + 65536 - 100) % 65536 ∧ 32 ≤ (100 + 65536 - 60) % 65536 := by decide
theorem witness_SecondCopy : ((knows 100 4).dupJudge 0 77 101).2 = true
    ∧ (knows 100 4).net.dup.all (fun d => decide (d.h < 65536)) = true := by decide

theorem witness_Repair :
    (cmdPort 1 .netpair 0 pgNetpair NETPAIR_CMD (fun m => m.eng 1 = esFailed) id).open (upM.setEng 1 esFailed) = true
    ∧ (cmdPort 1 .netpair 0 pgNetpair NETPAIR_CMD (fun m => decide (m.eng 1 ≠ esFailed)) id).open (upM.setEng 1 esStep) = true := by
  decide

/-- A channel bound from cluster 4 to cluster 5, with a message that waits. -/
def rung (st : Nat) : Module := chSet' 4 st 4 5 upM
theorem witness_Answers : (ackPort 5 4 0x0000FFFF (mkPair chTaken) chTaken id).open (rung chFull) = true
    ∧ (ackPort 5 4 0x0000FFFF (mkPair chDone) chDone id).open (rung chTaken) = true := by decide
theorem witness_Bind : Serves upM 8 .mbox = true ∧ (regAt upM (chPage 5) TBL_DATA).isSome = true
    ∧ unlocked upM (chPage 5) = true ∧ mayBind 8 = true ∧ upM.chBound 5 = false
    ∧ (tblRow .mbox (5 / 8) 8 (5 % 8)).any (fun r => encTblOk .mbox 8 5 (maskVal r.acc r.mask 0x0054FFAB)
      && bindOk (maskVal r.acc r.mask 0x0054FFAB)) = true ∧ pairOk 0x0054FFAB = true := by decide
theorem witness_Submit : Serves upM 4 .recd = true ∧ (rep 10 (7 : W32)).length = 10
    ∧ Module.submitType 4 (bits 0x04000004 16 16) = true ∧ bits 0x04000004 0 8 ≤ 40
    ∧ (isCluster 4 && (upM.task 9).fallback) = false := by decide

/-- An image that is open at offset 256, and a string present whose ID is 3. -/
def opened : Module :=
  ((((upM.put pgUpdate UPDATE_STATUS_STATE usOpen).put pgUpdate UPDATE_STATUS_OWNER 1).put pgUpdate
    UPDATE_STATUS_TARGET 1).setReg pgUpdate UPDATE_BLK_OFS 256).updUp (fun x => { x with len := 1024 })
theorem witness_Block : Serves opened 1 .update = true
    ∧ (opened.blockTake State.reset.nv 1 (opened.get pgUpdate ⟨UPDATE_BLK_OFS, 0, 20⟩)
      (wordBytes ((rep 64 3).take 64))).2.2 = 0 := by decide
def cellOf3 : Module := (upM.put pgBatt BATT_STATUS_PRES 1).put pgBatt BATT_ID_CODE 3
theorem witness_Learn : Serves cellOf3 2 .batt = true ∧ (regAt cellOf3 pgBatt BATT_COMMIT).isSome = true
    ∧ learnTaken cellOf3 0 0x0001FFFE 0x0001FFFE 0x0001FFFE 0x0001FFFE 3 = true := by decide

/-- Masters 5, 8 and 1, whose writes arrive together (R73). -/
theorem witness_Together : List.Perm [(1, RegWr.mk 0x1020 5), (5, RegWr.mk 0x1020 6), (8, RegWr.mk 0x1020 7)]
      ((5, RegWr.mk 0x1020 6) :: [(8, RegWr.mk 0x1020 7), (1, RegWr.mk 0x1020 5)])
    ∧ [(1, RegWr.mk 0x1020 5), (5, RegWr.mk 0x1020 6), (8, RegWr.mk 0x1020 7)].Pairwise (fun c d => c.1 < d.1) := by decide

theorem witness_PowerCycle : State.reset.m.sys.pwr = .off
    ∧ (upM.updRc (fun x => { x with pcc := 0xFFFFFF })).rc.pcc = 0xFFFFFF := by decide

/-- A module whose firmware restart is pending. -/
def restarting : Module := upM.updSys (fun x => { x with restart := .pending 1 })
theorem witness_Merge : (cmdPort 1 .sys 0 pgSys SYS_CMD (fun m => m.fwCan && decide (m.sys.restart ≠ .none)) id).open
    restarting = true := by decide

/-- A rail with a member and a rating, and CLE at work, but without coefficients. -/
def noCoef : Module :=
  (((((phOn 0 psInactive upM).setReg pgPhase CTRL 1).setReg pgCle CTRL 1).setBoth (rkey pgPhase PHASE_ISNS_SCALE)
    (mkPair 100)).setBoth (rkey pgPhase PHASE_ILIM_POS) (mkPair 300)).setBoth (rkey pgRail RAIL_PH_RATING) (mkPair 300)
theorem witness_CoefZero : bit (noCoef.reg pgRail CTRL) 0 = false ∧ (enRisen noCoef 0).en pgCle = true
    ∧ (enRisen noCoef 0).railLatched 0 = false ∧ (enRisen noCoef 0).val pgRail RAIL_PH_RATING ≠ 0
    ∧ (enRisen noCoef 0).hasMember 0 = true ∧ (enRisen noCoef 0).coefZero 0 = true := by decide

/-- Three active phases of rail 0 (R150). -/
def threePhases : Module := phOn 9 psActive (phOn 4 psActive (phOn 1 psActive upM))
theorem witness_Spaced : Shaped threePhases ∧ threePhases.actives 0 = [1, 4, 9] := by unfold Shaped; decide

theorem witness_Memory : On (up id) upM ∧ SramForm upM ∧ Shaped upM ∧ upM.cluServed 4 = true ∧ placeOf upM.sys.part 4 0x20000008 = some (.sram 8192)
    ∧ memRank 4 < 20 ∧ upM.memAllowed (.sram 8192) 4 true = true ∧ upM.memAllowed (.sram 8192) 4 false = true :=
  ⟨⟨rfl, rfl⟩, rfl, by unfold Shaped; decide, by decide, by decide, by decide, by decide, by decide⟩

theorem witness_Bytes : On (up id) upM ∧ upM.twtOn = true
    ∧ (((upM.boundary pgTwt).twtBusy true).twtPoint 0x1024).busPoison State.reset.nv 1 0x1024 = false := ⟨⟨rfl, rfl⟩, by decide⟩

theorem witness_Frames : railEvents (.uv 0 0) = true ∧ feedEvents (.full 0) = true ∧ placementEvents .released = true
    ∧ supervisionEvents .calDone = true ∧ networkEvents (.linkDown 0) = true ∧ busEvents (.busStuck 0) = true
    ∧ readsThatMove (.rdData 1 true) = true ∧ memoryUpkeep .scanDone = true ∧ recorderUpkeep .recordDrain = true := by decide

/-! ### Single steps, with results from the spec -/

/-- The page, register and event after a write. -/
def after (c : Instr) (s : State) : State := match exec c s with | .next t => t | _ => s

/-- R91: FLT_WIN of CLE-like pages takes 0x1811E7EE, whose halves complement, and not 0x1811E7EF. -/
theorem test_fltWin_pair : pairOk 0x1811E7EE = true ∧ pairOk 0x1811E7EF = false := by decide

/-- R91: master 1 writes 0x1811E7EF to FLT_WIN of page 0x15; PAIR_LAST names the master and the address. -/
theorem test_refused_pair :
    (after (.registerWrite 1 0x1518 0x1811E7EF []) (up id)).m.reg pgInteg INTEG_PAIR_LAST = 0x10001518
    ∧ (after (.registerWrite 1 0x1518 0x1811E7EF []) (up id)).m.reg 0x15 FLT_WIN = upM.reg 0x15 FLT_WIN := by decide
theorem test_accepted_window :
    (after (.registerWrite 1 0x1518 0x1811E7EE []) (up id)).m.reg 0x15 FLT_WIN = 0x1811E7EE := by decide

/-- R73: of two writes of one register that arrive together the one of the higher master stays. -/
theorem test_together : ((after (.registerWrite 8 (rkey pgXing XING_SLOPE_THR) (mkPair 9) [(2, ⟨rkey pgXing XING_SLOPE_THR, mkPair 7⟩)])
      (up id)).m.reg pgXing XING_SLOPE_THR,
    (after (.registerWrite 2 (rkey pgXing XING_SLOPE_THR) (mkPair 7) [(8, ⟨rkey pgXing XING_SLOPE_THR, mkPair 9⟩)]) (up id)).m.reg pgXing
      XING_SLOPE_THR) = (mkPair 9, mkPair 9) := by decide

/-- R84: a Stop write to a running block is refused with reason 1. -/
theorem test_stop_refused :
    (after (.registerWrite 2 0x1020 5 []) runningPhase).m.reg pgInteg INTEG_CFG_LAST = 0x21001020 := by decide

/-- R148: 600 kHz gives 21,333 taps, 3 MHz 4,267. -/
theorem test_perTaps : roundDiv 12800000 600 = 21333 ∧ roundDiv 12800000 3000 = 4267 := by decide

/-- R150: three phases of 21,333 taps start at 0, 7,111 and 14,222. -/
theorem test_spacing : ((((threePhases.put pgRail ⟨RAIL_PER_TAPS, 0, 20⟩ 21333).spaceOut 0).ph.map (fun x => x.offset)).take 10)
    = [0, 0, 0, 0, 7111, 0, 0, 0, 0, 14222] := by decide

/-- R213: EN is accepted, the rail stays OFF and CLE names it. -/
theorem test_coefZero : bit ((noCoef.railEnable 0).reg pgRail CTRL) 0 = true ∧ (noCoef.railEnable 0).rlSt 0 = noCoef.rlSt 0
    ∧ bit ((noCoef.railEnable 0).reg pgCle EVT_RAW) CLE_EV_COEF_ZERO = true := by decide

/-- R392: a late frame sets its bit, a newer one moves the window, a far one restarts it. -/
theorem test_duplicate : ((knows 100 4).dupJudge 0 77 98).2 = false ∧ ((knows 100 4).dupJudge 0 77 97).2 = true
    ∧ (((knows 100 4).dupJudge 0 77 102).1.net.dup.map (fun d => (d.h, d.w))) = [(102, 0x14)]
    ∧ (((knows 100 4).dupJudge 0 77 60).1.net.dup.map (fun d => (d.h, d.w))) = [(60, 0)] := by decide

/-- R520: the count stops at 0xFFFFFF. -/
theorem test_pcc_stops :
    (after (.powerOn 12000 0 0) { State.reset with nv := { State.reset.nv with pcc := 0xFFFFFF } }).nv.pcc = 0xFFFFFF := by decide

/-- R449, R477: bytes over the two-wire target, most significant first; memory, least significant first. -/
theorem test_twt_bytes : (after (.twtRead (some 0x0000) 4 true) (up id)).m.out.bytes
    = toBytes 4 (pageId pgSys).toNat := by decide
theorem test_memory_word : (after (.memoryAccess (wordAccess 4 0x20000008 none))
      { after (.memoryAccess (wordAccess 4 0x20000008 (some 0x0102030405060708))) (up id) with pending := [] }).m.out.dword
    = some 0x0102030405060708 := by decide

/-- R272, the example at Kettle Ford: every report counted, and member 1's view without the report of member 3. -/
theorem test_kettleFord : allocate 120000 [] kettleFord = [(0, 40000), (1, 35000), (2, 30000), (3, 15000)]
    ∧ allocate 120000 [35000] (kettleFord.take 3) = [(0, 40000), (1, 25000), (2, 20000)] := by decide

/-- R272, the example of a join: member 4 with floor 10,000 W. -/
theorem test_join : allocate 120000 [] (kettleFord ++ [⟨4, 20000, 10000, 30000, 2, 4⟩])
    = [(0, 40000), (1, 32500), (2, 27500), (3, 10000), (4, 10000)] := by decide

/-- R104, R75: the reset windows of the table of R104 and PAGE_ID of PHASE5. -/
theorem test_reset_values : resetVal (rkey pgSched FLT_WIN) = 0x0820F7DF ∧ resetVal (rkey pgInteg FLT_WIN) = 0x0430FBCF
    ∧ resetVal (rkey pgSeq FLT_WIN) = 0x0514FAEB ∧ resetVal (rkey pgRail FLT_WIN) = 0x0130FECF
    ∧ resetVal (rkey (pgPhase + 47) FLT_WIN) = 0x1010EFEF ∧ pageId (pgPhase + 5) = 0x10050101 := by decide

end Sys2Proof.Tests
end

section
/-! An address of the register space that holds no register (R71): what the fabric answers there, and what else a
MEMORY_ACCESS does in its step. -/

namespace Sys2Proof.Machine

/-! ### Pages without registers -/

/-- R72 gives the pages from 0xF0 on to no block. -/
theorem blkOf_top_pages {p : Nat} (h : 240 ≤ p) : blkOf p = none := by
  unfold blkOf
  repeat rw [if_neg (by omega)]

theorem pagePresent_top_pages (part : Nat) {p : Nat} (h : 240 ≤ p) : pagePresent part p = false := by
  simp [pagePresent, blkOf_top_pages h]

theorem regAt_absent_page {m : Module} {p : Nat} (off : Nat) (h : pagePresent m.sys.part p = false) :
    regAt m p off = none := by
  simp [regAt, h]

/-- Every part has the REC page with all its registers. -/
theorem regAt_recd (m : Module) {off : Nat} {r : RegRow} (h : rowOf .recd off = some r) :
    regAt m pgRec off = some (.recd, 0, r) := by
  have hblk : blkOf pgRec = some (.recd, 0) := rfl
  simp [regAt, pagePresent, hblk, regAbsent, h]

/-! ### Who is served -/

theorem mayRead_iff (m : Module) (x : Nat) : mayRead m x = true ↔ m.busOpen x = true ∧ m.busDenied x = false := by
  simp [mayRead]

theorem busServes_of_busOpen {m : Module} {x : Nat} (h : m.busOpen x = true) (as : List Nat) :
    m.busServes x as = true := by
  simp [Module.busServes, h]

theorem cluServed_of_busOpen {m : Module} {x : Nat} (h : m.busOpen x = true) : m.cluServed x = true := by
  simp only [Module.busOpen, Module.masterHere, Bool.and_eq_true] at h
  obtain ⟨⟨_, _, hserved⟩, _⟩ := h
  exact hserved

/-! ### A write -/

theorem write_absent {t : Txn} {w : RegWr} (h : regAt t.m (w.addr / 256) (w.addr % 256) = none) : t.write w = t := by
  simp [Txn.write, h]

theorem transact_absent {m : Module} {w : RegWr} (nv : NonVol) (x : Nat) (auth brown : Bool)
    (h : regAt m (w.addr / 256) (w.addr % 256) = none) : m.transact nv x auth brown [w] = (nv, m, 0) := by
  simp [Module.transact, write_absent, h, Txn.finish, Txn.on, Txn.takeBlock, Txn.ctrlOrder, Module.submitAll]

/-- R71: the write is ignored; a reset that is due, and a start-up that goes on, follow as after any transaction. -/
theorem busDo_absent {m : Module} {x a : Nat} (nv : NonVol) (auth : Bool) (v : W32) (hread : mayRead m x = true)
    (halign : a % 4 = 0) (hlt : a < 65536) (h : regAt m (a / 256) (a % 256) = none) :
    m.busDo nv x auth [⟨a, v⟩] = Module.settle (nv, m) := by
  obtain ⟨hopen, hdenied⟩ := (mayRead_iff m x).1 hread
  have hin : ¬ 65536 ≤ a := by omega
  simp [Module.busDo, Module.busWrite, busServes_of_busOpen hopen, hdenied, halign, hin, transact_absent, h]

theorem exec_writeAt {s : State} {m : Module} (x a : Nat) (v : W32) (hon : On s m) :
    Turns2 (writeAt x a v) s (m.busDo s.nv x false [⟨a, v⟩]) := by
  rw [hon.1]; rfl

/-! ### A read -/

/-- The module as it stands, with the reply of a read that answers 0. -/
def Module.repliesZero (m : Module) : Module := { m with out := { words := [0] } }

theorem busPoison_absent {m : Module} {a : Nat} (nv : NonVol) (x : Nat)
    (h : regAt m (a / 256) (a % 256) = none) : m.busPoison nv x a = false := by
  have hport : a ≠ rkey pgRec REC_RD_DATA := by
    rintro rfl
    exact Option.some_ne_none _ ((regAt_recd m rfl).symm.trans h)
  have hwin : a ≠ rkey pgRec TBL_DATA := by
    rintro rfl
    exact Option.some_ne_none _ ((regAt_recd m rfl).symm.trans h)
  simp [Module.busPoison, hport, hwin]

theorem busFetch_absent {m : Module} {x a : Nat} (nv : NonVol) (took : Bool) (hread : mayRead m x = true)
    (halign : a % 4 = 0) (hlt : a < 65536) (h : regAt m (a / 256) (a % 256) = none) :
    m.busFetch nv x a took = m.repliesZero := by
  obtain ⟨hopen, hdenied⟩ := (mayRead_iff m x).1 hread
  have hin : ¬ 65536 ≤ a := by omega
  simp [Module.busFetch, busServes_of_busOpen hopen, hdenied, halign, hin, busPoison_absent, Module.busRead, h,
    Module.repliesZero]

theorem inRegs_offset {a : Nat} (h : a < 65536) : inRegs (0x50000000 + a) = true := by
  have hlow : regBase ≤ 0x50000000 + a := Nat.le_add_right _ _
  have hhigh : 0x50000000 + a < regBase + 65536 := Nat.add_lt_add_left h _
  simp [inRegs, hlow, hhigh]

/-- A read of a word of the register space that no task makes is a read on the fabric. -/
theorem memCommand_readAt {m : Module} {x a : Nat} (nv : NonVol) (hread : mayRead m x = true) (hlt : a < 65536) :
    m.memCommand nv ⟨x, 0x50000000 + a, 4, none, 0, 0, 0, [], none⟩ = (nv, m.busFetch nv x a true) := by
  obtain ⟨hopen, hdenied⟩ := (mayRead_iff m x).1 hread
  simp [Module.memCommand, cluServed_of_busOpen hopen, hdenied, Module.stageTask, Module.memDirect,
    inRegs_offset hlt, Module.regSpace]

/-- The read answers 0; the step of a MEMORY_ACCESS then ends with `fallNow`, whatever the access was (R118). -/
theorem exec_readAt_absent {s : State} {m : Module} {x a : Nat} (hon : On s m) (hread : mayRead m x = true)
    (halign : a % 4 = 0) (hlt : a < 65536) (h : regAt m (a / 256) (a % 256) = none) :
    Turns (readAt x a) s m.repliesZero.fallNow := by
  obtain ⟨hm, hpow⟩ := hon
  have harm : exec (readAt x a) s = act2Live s (fun nv m =>
      let r := m.memCommand nv ⟨x, 0x50000000 + a, 4, none, 0, 0, 0, [], none⟩
      (r.1, r.2.fallNow)) := rfl
  simp only [Turns, harm, act2Live, act2, ← hm, if_pos hpow, memCommand_readAt s.nv hread hlt,
    busFetch_absent s.nv true hread halign hlt h]

/-! ### A task that has yet to enter its fallback -/

theorem fallNow_of_none_due {m : Module} (h : ∀ t, t < 12 → (m.task t).fallDue = false) : m.fallNow = m := by
  have hnone : (List.range 12).filter (fun t => (m.task t).fallDue) = [] := by
    simpa [List.filter_eq_nil_iff] using h
  simp [Module.fallNow, hnone]

/-- R71 in the words of O10, for a module in which no task has yet to enter its fallback (the last part of
`Shaped`). -/
theorem absent_address_reads_zero_of_none_due {s : State} {m : Module} {x a : Nat} (v : W32) (hon : On s m)
    (hread : mayRead m x = true) (halign : a % 4 = 0) (hlt : a < 65536)
    (h : regAt m (a / 256) (a % 256) = none) (hdue : ∀ t, t < 12 → (m.task t).fallDue = false) :
    Turns (readAt x a) s { m with out := { words := [0] } }
    ∧ Turns2 (writeAt x a v) s (Module.settle (s.nv, m))
    ∧ (∀ p off, 240 ≤ p ∧ p ≤ 255 ∨ pagePresent m.sys.part p = false → regAt m p off = none) := by
  refine ⟨?_, ?_, ?_⟩
  · have hstay : m.repliesZero.fallNow = m.repliesZero := fallNow_of_none_due hdue
    exact (exec_readAt_absent hon hread halign hlt h).trans (by rw [hstay]; rfl)
  · exact busDo_absent s.nv false v hread halign hlt h ▸ exec_writeAt x a v hon
  · rintro p off (⟨htop, -⟩ | habsent)
    · exact regAt_absent_page off (pagePresent_top_pages _ htop)
    · exact regAt_absent_page off habsent

/-- A powered module as reset leaves it. -/
def poweredModule : Module := { State.reset.m with sys := { State.reset.m.sys with pwr := .run } }

/-- Rootstock reads address 0xF020, of a page that no part has. -/
theorem absent_address_reads_zero_powered :
    Turns (readAt 8 0xF020) { State.reset with m := poweredModule } { poweredModule with out := { words := [0] } } :=
  (absent_address_reads_zero_of_none_due 0 ⟨rfl, rfl⟩ (by decide) rfl (by decide) (by decide) (by decide)).1

/-- That module with task 6 (SHARE_TRIM) due to enter its fallback. -/
def fallbackDueModule : Module := poweredModule.updTask 6 (fun t => { t with fallDue := true })

/-- SHARE_TRIM is in its fallback after `fallNow`, and was not before. -/
theorem fallNow_fallbackDueModule : fallbackDueModule.repliesZero.fallNow ≠ fallbackDueModule.repliesZero := by
  intro h
  have hafter : (fallbackDueModule.repliesZero.fallNow.task 6).fallback = true := by decide
  have hbefore : (fallbackDueModule.repliesZero.task 6).fallback = false := by decide
  rw [h, hbefore] at hafter
  exact Bool.false_ne_true hafter

end Sys2Proof.Machine

open Sys2Proof Sys2Proof.Machine

/-- Refutes O10: the statement takes every state, also one with a task that has yet to enter its fallback
(`fallDue`, which `Shaped` rules out and O10 does not). Rootstock's read of 0xF020 answers 0 there, but the step of
its MEMORY_ACCESS puts SHARE_TRIM into its fallback, so the module does not stay as it was.
`absent_address_reads_zero_of_none_due` is the statement with the missing premise. -/
theorem not_absentAddressReadsZero : ¬ Obligations.AbsentAddressReadsZero := by
  unfold Obligations.AbsentAddressReadsZero
  intro h
  have hon : On { State.reset with m := fallbackDueModule } fallbackDueModule := ⟨rfl, rfl⟩
  have hread : mayRead fallbackDueModule 8 = true := by decide
  have hnone : regAt fallbackDueModule (0xF020 / 256) (0xF020 % 256) = none := by decide
  have hstays := (h _ _ 8 0xF020 0 hon hread rfl (by decide) hnone).1
  have hfalls := exec_readAt_absent hon hread rfl (by decide) hnone
  have hstate := Host.Outcome.next.inj (hfalls.symm.trans hstays)
  exact fallNow_fallbackDueModule (congrArg State.m hstate)

end

section
/-! A served write of a command register (R69 to R92), and what CMD.REPAIR makes of it (R407). -/

namespace Sys2Proof.Machine

/-! ### A command register reaches its block -/

theorem serves_iff (m : Module) (x : Nat) (b : Blk) : Serves m x b = true ↔
    m.busOpen x = true ∧ m.busDenied x = false
    ∧ ((x = 1 || x = 2 || x = 3) && m.get pgSys SYS_STATUS_BROWN = 1) = false
    ∧ (m.autonomous && (x = 1 || x = 2) && b ≠ .sys && b ≠ .wdog) = false := by
  simp only [Serves, Bool.and_eq_true, Bool.not_eq_true', and_assoc]

theorem port_has_iff (q : Port) (m : Module) :
    q.has m = true ↔ ∃ r, regAt m q.p q.off = some (q.b, q.n, r) ∧ r.acc = q.acc := by
  unfold Port.has
  split
  next b n r h => simp [h, and_assoc]
  next h => simp [h]

theorem port_open_iff (q : Port) (m : Module) : q.open m = true ↔
    Serves m q.x q.b = true ∧ (∃ r, regAt m q.p q.off = some (q.b, q.n, r) ∧ r.acc = q.acc)
    ∧ q.ready m = true := by
  simp only [Port.open, Bool.and_eq_true, port_has_iff, and_assoc]

theorem rkey_page (p : Nat) {off : Nat} (h : off < 256) : rkey p off / 256 = p := by
  simp only [rkey]; omega

theorem rkey_off (p : Nat) {off : Nat} (h : off < 256) : rkey p off % 256 = off := by
  simp only [rkey]; omega

/-- Past the page header and the table window, a write of a WO register that neither brown-out (R453) nor AUTONOMOUS
(R337) refuses is a command to the block. -/
theorem write_wo {t : Txn} {b : Blk} {n p off : Nat} {r : RegRow} (v : W32) (hlow : 0x2C ≤ off) (hhigh : off < 256)
    (hreg : regAt t.m p off = some (b, n, r)) (hacc : r.acc = .wo) (hbrown : t.brown = false)
    (hauto : (t.m0.autonomous && (t.x = 1 || t.x = 2) && b ≠ .sys && b ≠ .wdog) = false) :
    t.write ⟨rkey p off, v⟩ = t.cmdWrite b p n (rkey p off) v := by
  have hname : off ≠ CTRL ∧ off ≠ EVT_RAW ∧ off ≠ EVT_EN ∧ off ≠ FLT_STAT ∧ off ≠ LOCK ∧ off ≠ TBL_SEL
      ∧ off ≠ TBL_IDX ∧ off ≠ TBL_DATA := by
    simp only [CTRL, EVT_RAW, EVT_EN, FLT_STAT, LOCK, TBL_SEL, TBL_IDX, TBL_DATA]
    omega
  obtain ⟨hctrl, hraw, hen, hflt, hlock, hsel, hidx, hdata⟩ := hname
  simp only [Txn.write, rkey_page p hhigh, rkey_off p hhigh, hreg, hbrown, hauto, hacc, hctrl, hraw, hen, hflt, hlock,
    hsel, hidx, hdata, decide_false, Bool.and_false, Bool.false_eq_true, reduceCtorEq, reduceIte]

/-- Nothing of the transaction applies after its writes. -/
structure Txn.Plain (t : Txn) : Prop where
  ctrl : t.ctrl = []
  locks : t.locks = []
  rings : t.rings = []
  acks : t.acks = []
  place : t.place = false
  words : t.words = []
  blk : t.blk = []

theorem finish_plain {t : Txn} (h : t.Plain) : t.finish = t := by
  cases t
  obtain ⟨rfl, rfl, rfl, rfl, rfl, rfl, rfl⟩ := h
  rfl

section
variable {m : Module} {x n p off : Nat} {b : Blk} {v : W32} {ready : Module → Bool} {eff : Module → Module}

/-- A served write of a command register whose commands act on the module alone. -/
theorem transact_blkCmd (nv : NonVol) (auth : Bool) (hopen : (cmdPort x b n p off ready eff).open m = true)
    (hlow : 0x2C ≤ off) (hhigh : off < 256)
    (hcmd : ∀ t : Txn, t.cmdWrite b p n (rkey p off) v = t.on (fun m => m.blkCmd b n v)) :
    m.transact nv x auth false [⟨rkey p off, v⟩] = (nv, m.blkCmd b n v, 0) := by
  obtain ⟨hserves, ⟨r, hreg, hacc⟩, -⟩ := (port_open_iff _ m).1 hopen
  obtain ⟨-, -, hbrown, hauto⟩ := (serves_iff m x b).1 hserves
  have hwrite := fun t hm hb ha => (write_wo (t := t) v hlow hhigh hm hacc hb ha).trans (hcmd t)
  simp only [Module.transact, Bool.false_or, hbrown, List.foldl_cons, List.foldl_nil]
  rw [hwrite _ hreg rfl hauto, finish_plain ⟨rfl, rfl, rfl, rfl, rfl, rfl, rfl⟩]
  rfl

theorem busDo_blkCmd (nv : NonVol) (auth : Bool) (hopen : (cmdPort x b n p off ready eff).open m = true)
    (hlow : 0x2C ≤ off) (hhigh : off < 256) (halign : off % 4 = 0) (hpage : p < 256)
    (hcmd : ∀ t : Txn, t.cmdWrite b p n (rkey p off) v = t.on (fun m => m.blkCmd b n v)) :
    m.busDo nv x auth [⟨rkey p off, v⟩] = Module.settle (nv, m.blkCmd b n v) := by
  obtain ⟨hserves, -, -⟩ := (port_open_iff _ m).1 hopen
  obtain ⟨hfabric, hdenied, -, -⟩ := (serves_iff m x b).1 hserves
  have haddr : rkey p off % 4 = 0 ∧ ¬ 65536 ≤ rkey p off := by
    simp only [rkey]
    omega
  simp [Module.busDo, Module.busWrite, busServes_of_busOpen hfabric, hdenied, haddr,
    transact_blkCmd nv auth hopen hlow hhigh hcmd]

end

/-! ### The state of a path engine -/

theorem eng_setEng_same (m : Module) (e st : Nat) : (m.setEng e st).eng e = st % 8 := by
  unfold Module.eng Module.setEng
  split
  · exact m.get_put_same pgNetpair NETPAIR_STATUS_STATE0 st (by decide)
  · exact m.get_put_same pgNetpair NETPAIR_STATUS_STATE1 st (by decide)

/-- SIMPLEX lies apart from the states of both engines. -/
theorem eng_pathSimplex (m : Module) (e : Nat) : m.pathSimplex.eng e = m.eng e := by
  unfold Module.eng Module.pathSimplex
  exact m.get_put_apart pgNetpair NETPAIR_STATUS_SIMPLEX _ _ (by split <;> rfl) (by decide) (by split <;> decide)

/-- Repair begins at RESET (R403). -/
theorem eng_engRepair (m : Module) (e : Nat) : (m.engRepair e).eng e = esReset := by
  simp only [Module.engRepair, eng_pathSimplex, eng_setEng_same, esReset]

theorem netRepair_of_failed {m : Module} {e : Nat} (h : m.eng e = esFailed) : m.netRepair e = m.engRepair e := if_pos h

theorem netRepair_of_not_failed {m : Module} {e : Nat} (h : m.eng e ≠ esFailed) : m.netRepair e = m := if_neg h

/-! ### CMD.REPAIR -/

/-- The word that the REPAIR command writes: bit 1 REPAIR, bit 8 the engine (R412). -/
def repairWord (e : Nat) : W32 := BitVec.ofNat 32 (2 + e % 2 * 256)

/-- SWITCH is not asked for, REPAIR is, and of the engine that the command names. -/
theorem repairWord_fields (e : Nat) :
    bit (repairWord e) 0 = false ∧ bit (repairWord e) 1 = true ∧ bits (repairWord e) 8 1 = e % 2 := by
  unfold repairWord
  obtain h | h := Nat.mod_two_eq_zero_or_one e <;> rw [h] <;> decide

theorem blkCmd_repairWord (m : Module) (n e : Nat) : m.blkCmd .netpair n (repairWord e) = m.netRepair (e % 2) := by
  obtain ⟨hswitch, hrepair, hengine⟩ := repairWord_fields e
  simp [Module.blkCmd, hswitch, hrepair, hengine]

/-- The row of REPAIR through the fabric, whatever the engine's state. -/
theorem exec_repair {s : State} {m : Module} {x : Nat} (e : Nat) {ready : Module → Bool} {eff : Module → Module}
    (hon : On s m) (hopen : (cmdPort x .netpair 0 pgNetpair NETPAIR_CMD ready eff).open m = true) :
    Turns2 (.repair x e) s (Module.settle (s.nv, m.netRepair (e % 2))) := by
  have harm : Turns2 (.repair x e) s (m.busDo s.nv x false [⟨rkey pgNetpair NETPAIR_CMD, repairWord e⟩]) := by
    rw [hon.1]; rfl
  have hdo : m.busDo s.nv x false [⟨rkey pgNetpair NETPAIR_CMD, repairWord e⟩]
      = Module.settle (s.nv, m.blkCmd .netpair 0 (repairWord e)) :=
    busDo_blkCmd s.nv false hopen (by decide) (by decide) (by decide) (by decide) (fun _ => rfl)
  rwa [hdo, blkCmd_repairWord] at harm

end Sys2Proof.Machine

open Sys2Proof Sys2Proof.Machine

/-- Settles O46: a served write of CMD.REPAIR is `netRepair` of the engine it names (`exec_repair`), which splits on
FAILED. -/
theorem repairCommand : Obligations.RepairCommand := by
  unfold Obligations.RepairCommand
  intro s m x e hon
  refine ⟨fun hopen => ?_, fun hopen => ?_⟩
  · have hfailed : m.eng (e % 2) = esFailed := of_decide_eq_true ((port_open_iff _ m).1 hopen).2.2
    exact ⟨netRepair_of_failed hfailed ▸ exec_repair e hon hopen, eng_engRepair m (e % 2)⟩
  · have hother : m.eng (e % 2) ≠ esFailed := of_decide_eq_true ((port_open_iff _ m).1 hopen).2.2
    have hruns := exec_repair e hon hopen
    rwa [netRepair_of_not_failed hother] at hruns

end

section
/-! The bytes of a register over the two-wire target (R449): how four bytes spell a word, what a read of one whole
register sends (R454), and what four data bytes stage (R450). -/

namespace Sys2Proof.Machine

/-! ### Words and their bytes -/

theorem ofNat_bits_byte (v : W32) (lo : Nat) : BitVec.ofNat 8 (bits v lo 8) = BitVec.ofNat 8 (v.toNat / 2 ^ lo) :=
  BitVec.eq_of_toNat_eq (by simp [bits])

/-- Bits [31:24] of a word are its first byte, bits [7:0] its last. -/
theorem wordBytes_single (v : W32) : wordBytes [v] =
    [BitVec.ofNat 8 (bits v 24 8), BitVec.ofNat 8 (bits v 16 8), BitVec.ofNat 8 (bits v 8 8),
      BitVec.ofNat 8 (bits v 0 8)] := by
  simp [wordBytes, toBytes, ofNat_bits_byte]

theorem append_toNat_byte {w : Nat} (x : BitVec w) (b : Byte) : (x ++ b).toNat = x.toNat * 256 + b.toNat := by
  rw [BitVec.toNat_append, ← Nat.shiftLeft_add_eq_or_of_lt b.isLt, Nat.shiftLeft_eq]

/-- The number of four bytes is the word that they make side by side. -/
theorem ofNat_ofBytes_four (b0 b1 b2 b3 : Byte) :
    BitVec.ofNat 32 (ofBytes [b0, b1, b2, b3]) = b0 ++ b1 ++ b2 ++ b3 := by
  have hnum : ofBytes [b0, b1, b2, b3] = (b0 ++ b1 ++ b2 ++ b3).toNat := by
    simp only [append_toNat_byte, ofBytes, List.foldl_cons, List.foldl_nil, Nat.zero_mul, Nat.zero_add]
  rw [hnum]
  exact (BitVec.ofNat_toNat ..).trans (BitVec.setWidth_eq _)

/-! ### A read of one register -/

namespace Module

theorem twtSend_zero (m : Module) (nv : NonVol) (last : Bool) (fuel a : Nat) :
    m.twtSend nv last fuel a 0 = ([], m.twtPoint a) := by
  cases fuel <;> rfl

/-- A whole register is fetched once, and its four bytes are that word's (R454). -/
theorem twtSend_register {m : Module} {nv : NonVol} {a : Nat} (fuel : Nat) (halign : a % 4 = 0)
    (hgood : m.busPoison nv 1 a = false) :
    (m.twtSend nv true (fuel + 1) a 4).1 = wordBytes [(m.busRead nv 1 a true).1] := by
  simp [twtSend, halign, hgood, twtSend_zero, wordBytes_single]

theorem twtRead_register {m : Module} {nv : NonVol} {a : Nat} (halign : a % 4 = 0) (hlt : a < 65536)
    (hgood : (((m.boundary pgTwt).twtBusy true).twtPoint a).busPoison nv 1 a = false) :
    (m.twtRead nv (some a) 4 true).out.bytes
      = wordBytes [((((m.boundary pgTwt).twtBusy true).twtPoint a).busRead nv 1 a true).1] := by
  rw [← twtSend_register 4 halign hgood]
  simp only [twtRead, Option.getD_some, Nat.mod_eq_of_lt hlt]

end Module

theorem exec_twtRead_of_on {s : State} {m : Module} (ptr : Option Nat) (n : Nat) (last : Bool) (hon : On s m)
    (hserves : m.twtOn = true) : Turns (.twtRead ptr n last) s (m.twtRead s.nv ptr n last) := by
  have harm : exec (.twtRead ptr n last) s
      = act s (fun m => if m.twtOn then m.twtRead s.nv ptr n last else m) := rfl
  simp only [Turns, harm, act, ← hon.1, if_pos hserves]

/-! ### Four bytes written at an aligned pointer -/

theorem twtStage_single (w : RegWr) : twtStage [w] = [w] := by
  unfold twtStage
  cases h : isPort w.addr <;> simp [h]

/-- From an aligned pointer no byte is discarded (R451). -/
theorem twtStaged_of_aligned {a : Nat} (data : List Byte) (halign : a % 4 = 0) :
    twtStaged a data = twtStage (twtWords a data) := by
  simp [twtStaged, halign, twtSkip]

theorem twtWords_register (a : Nat) (b0 b1 b2 b3 : Byte) :
    twtWords a [b0, b1, b2, b3] = [⟨a, b0 ++ b1 ++ b2 ++ b3⟩] := by
  simp only [twtWords, ofNat_ofBytes_four]

end Sys2Proof.Machine

open Sys2Proof Sys2Proof.Machine

/-- Settles O53: a read sends the `wordBytes` of the register fetched (`twtRead_register`), a write stages the word of
its four bytes (`twtWords_register`); both put bits [31:24] first. -/
theorem bytesGoMostSignificantFirst : Obligations.BytesGoMostSignificantFirst := by
  unfold Obligations.BytesGoMostSignificantFirst
  refine ⟨fun s m a hon hserves halign hlt hgood => ?_, fun a b0 b1 b2 b3 halign => ?_⟩
  · refine ⟨m.twtRead s.nv (some a) 4 true, exec_twtRead_of_on (some a) 4 true hon hserves, ?_⟩
    rw [Module.twtRead_register halign hlt hgood, wordBytes_single]
  · rw [twtStaged_of_aligned _ halign, twtWords_register, twtStage_single]

end

section
/-! The power-cycle count that the non-volatile part stores (R520): no operation of a unit, of the register fabric
or of start-up changes it. In the order of the model's definitions. -/

namespace Sys2Proof.Machine

/-! ### Module state and the memories -/

theorem nvApply_pcc (nv : NonVol) (w : NvWr) : (nvApply nv w).pcc = nv.pcc := by
  cases w <;> rfl

theorem foldl_nvApply_pcc (ws : List NvWr) (nv : NonVol) : (ws.foldl nvApply nv).pcc = nv.pcc := by
  induction ws generalizing nv with
  | nil => rfl
  | cons w ws ih => rw [List.foldl_cons, ih, nvApply_pcc]

/-- A fold of operations that keep the count keeps it. -/
theorem foldl_pcc {α : Type} (l : List α) (f : NonVol × Module → α → NonVol × Module) (s : NonVol × Module)
    (h : ∀ s x, (f s x).1.pcc = s.1.pcc) : (l.foldl f s).1.pcc = s.1.pcc := by
  induction l generalizing s with
  | nil => rfl
  | cons x l ih => rw [List.foldl_cons, ih, h]

theorem ite_pcc (c : Prop) [Decidable c] (a b : NonVol) : (if c then a else b).pcc = if c then a.pcc else b.pcc :=
  apply_ite NonVol.pcc c a b

namespace Module

@[simp] theorem nvWrite_pcc (m : Module) (nv : NonVol) (w : NvWr) : (m.nvWrite nv w).1.pcc = nv.pcc := by
  simp only [nvWrite]
  split
  · rfl
  · exact nvApply_pcc nv w

@[simp] theorem rowRetired_pcc (m : Module) (nv : NonVol) (u row : Nat) :
    (m.rowRetired nv u row).1.pcc = nv.pcc := by
  simp only [rowRetired]
  split
  · rfl
  · exact nvWrite_pcc ..

@[simp] theorem setPoison_pcc (m : Module) (nv : NonVol) (p : Place) : (m.setPoison nv p).1.pcc = nv.pcc := by
  simp only [setPoison]
  (repeat' split) <;> rfl

@[simp] theorem unPoison_pcc (m : Module) (nv : NonVol) (p : Place) : (m.unPoison nv p).1.pcc = nv.pcc := by
  cases p <;> rfl

@[simp] theorem setWord_pcc (m : Module) (nv : NonVol) (p : Place) (v : W64) : (m.setWord nv p v).1.pcc = nv.pcc := by
  simp only [setWord]
  (repeat' split) <;> rfl

@[simp] theorem mramFlush_pcc (m : Module) (nv : NonVol) : (m.mramFlush nv).1.pcc = nv.pcc := by
  simp only [mramFlush]
  split
  · rfl
  · exact foldl_nvApply_pcc ..

@[simp] theorem writeBack_pcc (m : Module) (nv : NonVol) (p : Place) : (m.writeBack nv p).1.pcc = nv.pcc := by
  simp only [writeBack]
  split
  · rfl
  · exact setWord_pcc ..

@[simp] theorem readWord_pcc (m : Module) (nv : NonVol) (p : Place) (bad sym : Nat) :
    (m.readWord nv p bad sym).1.pcc = nv.pcc := by
  simp only [readWord]
  (repeat' split) <;> simp

@[simp] theorem partAccess_pcc (m : Module) (nv : NonVol) (p : Place) (i n : Nat) (wr : Option Nat) (bad sym : Nat) :
    (m.partAccess nv p i n wr bad sym).1.pcc = nv.pcc := by
  simp only [partAccess]
  (repeat' split) <;> simp

/-- Where the access lies and what it is refused by plays no part. -/
@[simp] theorem memAccess_pcc (m : Module) (nv : NonVol) (q : MemReq) : (m.memAccess nv q).1.pcc = nv.pcc := by
  unfold memAccess
  extract_lets n i n1 n2 wr deny p1 p2
  clear_value deny p1 p2 wr n2 n1 i
  split
  · split
    · rfl
    · split
      · rfl
      · simp only
        (repeat' split) <;> simp only [partAccess_pcc]
  · rfl

@[simp] theorem scrubStep_pcc (m : Module) (nv : NonVol) (sram : Bool) (bad sym : Nat) :
    (m.scrubStep nv sram bad sym).1.pcc = nv.pcc := by
  simp only [scrubStep]
  (repeat' split) <;> simp

@[simp] theorem clkBack_pcc (m : Module) (nv : NonVol) (c : Nat) : (m.clkBack nv c).1.pcc = nv.pcc := by
  simp only [clkBack]
  split
  · rfl
  · exact mramFlush_pcc ..

/-! ### Heartwood, keys and the recorder -/

@[simp] theorem wipeStart_pcc (m : Module) (nv : NonVol) (cause : Nat) : (m.wipeStart nv cause).1.pcc = nv.pcc := by
  simp only [wipeStart]
  split <;> rfl

@[simp] theorem wiped_pcc (m : Module) (nv : NonVol) (cause : Nat) : (m.wiped nv cause).1.pcc = nv.pcc := rfl

@[simp] theorem tampered_pcc (m : Module) (nv : NonVol) (j : Nat) : (m.tampered nv j).1.pcc = nv.pcc := by
  simp only [tampered]
  split
  · exact wipeStart_pcc ..
  · rfl

@[simp] theorem glitched_pcc (m : Module) (nv : NonVol) (kind : Nat) : (m.glitched nv kind).1.pcc = nv.pcc := by
  simp only [glitched]
  split
  · rfl
  · exact wipeStart_pcc ..

@[simp] theorem keyService_pcc (m : Module) (nv : NonVol) (c : Nat) : (m.keyService nv c).1.pcc = nv.pcc := by
  simp only [keyService]
  split <;> rfl

@[simp] theorem recReserve_pcc (m : Module) (nv : NonVol) : (m.recReserve nv).1.pcc = nv.pcc := by
  simp only [recReserve]
  split <;> rfl

/-- The record goes to the Ring log, and to the Root log where it is marked. -/
@[simp] theorem recDrain_pcc (m : Module) (nv : NonVol) : (m.recDrain nv).1.pcc = nv.pcc := by
  simp only [recDrain]
  split
  · rfl
  · split
    · rfl
    · rw [recReserve_pcc]
      split <;> rfl

@[simp] theorem recScan_pcc (m : Module) (nv : NonVol) : (m.recScan nv).1.pcc = nv.pcc := by
  simp only [recScan]
  split
  · rfl
  · exact recReserve_pcc ..

@[simp] theorem breathWrite_pcc (m : Module) (nv : NonVol) (us : Nat) (torn : Bool) :
    (m.breathWrite nv us torn).1.pcc = nv.pcc := by
  simp only [breathWrite]
  (repeat' split) <;> rfl

@[simp] theorem breathEnter_pcc (m : Module) (nv : NonVol) (us : Nat) (torn : Bool) :
    (m.breathEnter nv us torn).1.pcc = nv.pcc := by
  simp only [breathEnter]
  split
  · rfl
  · exact breathWrite_pcc ..

@[simp] theorem lastBreath_pcc (m : Module) (nv : NonVol) (us : Nat) (torn : Bool) :
    (m.lastBreath nv us torn).1.pcc = nv.pcc := breathEnter_pcc ..

@[simp] theorem collapse_pcc (m : Module) (nv : NonVol) (va vb : Nat) (torn : Bool) :
    (m.collapse nv va vb torn).1.pcc = nv.pcc := by
  simp only [collapse]
  split
  · rfl
  · exact lastBreath_pcc ..

/-! ### The ROM and the resets -/

@[simp] theorem romRepair_pcc (m : Module) (nv : NonVol) : (m.romRepair nv).1.pcc = nv.pcc := by
  simp only [romRepair]
  (repeat' split) <;> rfl

@[simp] theorem romStart_pcc (m : Module) (nv : NonVol) (cause : W32) : (m.romStart nv cause).1.pcc = nv.pcc :=
  romRepair_pcc ..

@[simp] theorem moduleReset_pcc (m : Module) (nv : NonVol) (cause clk cmd unit : Nat) :
    (m.moduleReset nv cause clk cmd unit).1.pcc = nv.pcc := romStart_pcc ..

/-! ### Updates and the life cycle -/

@[simp] theorem writeBytes_pcc (m : Module) (nv : NonVol) (a : Nat) (bs : List Byte) :
    (m.writeBytes nv a bs).1.pcc = nv.pcc :=
  foldl_pcc _ _ _ (fun _ _ => by simp only [setWord_pcc, unPoison_pcc])

@[simp] theorem setMark_pcc (m : Module) (nv : NonVol) (on : Bool) : (m.setMark nv on).1.pcc = nv.pcc := rfl

@[simp] theorem blockWrite_pcc (m : Module) (nv : NonVol) (ofs : Nat) (data : List Byte) :
    (m.blockWrite nv ofs data).1.pcc = nv.pcc := by
  simp only [blockWrite]
  split <;> simp only [writeBytes_pcc]

@[simp] theorem blockFirst_pcc (m : Module) (nv : NonVol) (data : List Byte) :
    (m.blockFirst nv data).1.pcc = nv.pcc := by
  simp only [blockFirst]
  (repeat' split) <;> simp

@[simp] theorem blockTake_pcc (m : Module) (nv : NonVol) (x ofs : Nat) (data : List Byte) :
    (m.blockTake nv x ofs data).1.pcc = nv.pcc := by
  simp only [blockTake]
  (repeat' split) <;> simp

@[simp] theorem block_pcc (m : Module) (nv : NonVol) (x ofs : Nat) (data : List Byte) :
    (m.block nv x ofs data).1.pcc = nv.pcc := blockTake_pcc ..

@[simp] theorem makeRun_pcc (m : Module) (nv : NonVol) (ver : Nat) : (m.makeRun nv ver).1.pcc = nv.pcc := rfl

@[simp] theorem updActivate_pcc (m : Module) (nv : NonVol) : (m.updActivate nv).1.pcc = nv.pcc := by
  simp only [updActivate]
  (repeat' split) <;> rfl

@[simp] theorem updVerify_pcc (m : Module) (nv : NonVol) : (m.updVerify nv).1.pcc = nv.pcc := by
  simp only [updVerify]
  (repeat' split) <;> simp

@[simp] theorem planStored_pcc (m : Module) (nv : NonVol) : (m.planStored nv).1.pcc = nv.pcc := by
  simp only [planStored]
  split
  · rfl
  · simp only [writeBytes_pcc]

@[simp] theorem updOp_pcc (m : Module) (nv : NonVol) (x op : Nat) : (m.updOp nv x op).1.pcc = nv.pcc := by
  simp only [updOp]
  (repeat' split) <;> simp

@[simp] theorem updCommand_pcc (m : Module) (nv : NonVol) (x op : Nat) : (m.updCommand nv x op).1.pcc = nv.pcc :=
  updOp_pcc ..

@[simp] theorem lifeCommit_pcc (m : Module) (nv : NonVol) (x : Nat) (auth : Bool) (target : Nat) :
    (m.lifeCommit nv x auth target).1.pcc = nv.pcc := by
  simp only [lifeCommit]
  split
  · rfl
  · exact wipeStart_pcc ..

@[simp] theorem lifeCmd_pcc (m : Module) (nv : NonVol) (x : Nat) (auth : Bool) (v : W32) :
    (m.lifeCmd nv x auth v).1.pcc = nv.pcc := by
  simp only [lifeCmd]
  split
  · rfl
  · exact lifeCommit_pcc ..

@[simp] theorem lifeChanged_pcc (m : Module) (nv : NonVol) (target : Nat) :
    (m.lifeChanged nv target).1.pcc = nv.pcc := by
  simp only [lifeChanged]
  split
  · exact moduleReset_pcc ..
  · rfl

end Module

/-! ### A staged transaction -/

namespace Txn

theorem ite_nv (c : Prop) [Decidable c] (t u : Txn) : (if c then t else u).nv = if c then t.nv else u.nv :=
  apply_ite Txn.nv c t u

@[simp] theorem on_nv (t : Txn) (f : Module → Module) : (t.on f).nv = t.nv := rfl

@[simp] theorem refuse_nv (t : Txn) (addr why : Nat) : (t.refuse addr why).nv = t.nv := rfl

@[simp] theorem accept_nv (t : Txn) (k : Nat) (v : W32) : (t.accept k v).nv = t.nv := rfl

@[simp] theorem turnDown_nv (t : Txn) (addr : Nat) (acc : Acc) (pairs : Bool) (why : Nat) :
    (t.turnDown addr acc pairs why).nv = t.nv := by
  simp only [turnDown]
  split <;> rfl

@[simp] theorem mailWord_nv (t : Txn) (p c i : Nat) (v : W32) : (t.mailWord p c i v).nv = t.nv := by
  simp only [mailWord]
  (repeat' split) <;> rfl

@[simp] theorem mailBind_nv (t : Txn) (p c addr : Nat) (v : W32) : (t.mailBind p c addr v).nv = t.nv := by
  simp only [mailBind]
  (repeat' split) <;> rfl

@[simp] theorem mailReg_nv (t : Txn) (p n addr : Nat) (v : W32) : (t.mailReg p n addr v).nv = t.nv := by
  simp only [mailReg]
  (repeat' split) <;> rfl

@[simp] theorem tblWrite_nv (t : Txn) (b : Blk) (p n addr : Nat) (v : W32) : (t.tblWrite b p n addr v).nv = t.nv := by
  simp only [tblWrite]
  (repeat' split) <;> simp

@[simp] theorem sysCmd_nv (t : Txn) (addr : Nat) (v : W32) : (t.sysCmd addr v).nv = t.nv := by
  simp only [sysCmd]
  (repeat' split) <;> rfl

@[simp] theorem submitGone_nv (t : Txn) (addr : Nat) : (t.submitGone addr).nv = t.nv := by
  simp only [submitGone]
  split <;> rfl

@[simp] theorem ctrlWrite_nv (t : Txn) (p : Nat) (v : W32) : (t.ctrlWrite p v).nv = t.nv := by
  simp only [ctrlWrite]
  split
  · rfl
  · simp [ite_nv]

/-- HEART.WIPE_CMD starts a wipe; every other command register acts on the module. -/
@[simp] theorem cmdWrite_pcc (t : Txn) (b : Blk) (p n addr : Nat) (v : W32) :
    (t.cmdWrite b p n addr v).nv.pcc = t.nv.pcc := by
  simp only [cmdWrite]
  (repeat' split) <;> simp

/-- LIFE.CMD and UPDATE.CMD reach the non-volatile part; every other register acts on the module. -/
@[simp] theorem regWrite_pcc (t : Txn) (b : Blk) (p n addr : Nat) (row : RegRow) (v : W32) :
    (t.regWrite b p n addr row v).nv.pcc = t.nv.pcc := by
  simp only [regWrite]
  (repeat' split) <;> simp

@[simp] theorem write_pcc (t : Txn) (w : RegWr) : (t.write w).nv.pcc = t.nv.pcc := by
  simp only [write]
  split
  · rfl
  · simp [ite_nv, ite_pcc]

@[simp] theorem takeBlock_pcc (t : Txn) : t.takeBlock.nv.pcc = t.nv.pcc := by
  simp only [takeBlock]
  (repeat' split) <;> simp

theorem foldl_txn_pcc {α : Type} (l : List α) (f : Txn → α → Txn) (t : Txn)
    (h : ∀ t x, (f t x).nv.pcc = t.nv.pcc) : (l.foldl f t).nv.pcc = t.nv.pcc := by
  induction l generalizing t with
  | nil => rfl
  | cons x l ih => rw [List.foldl_cons, ih, h]

@[simp] theorem finish_pcc (t : Txn) : t.finish.nv.pcc = t.nv.pcc := by
  have hlocks : ∀ (l : List (Nat × W32)) (t : Txn),
      (l.foldl (fun t l => t.on (fun m => m.setReg l.1 LOCK (m.reg l.1 LOCK ||| (l.2 &&& 3)))) t).nv.pcc = t.nv.pcc :=
    fun l t => foldl_txn_pcc l _ t (fun _ _ => rfl)
  have hctrl : ∀ (l : List (Nat × W32)) (t : Txn), (l.foldl (fun t c => t.ctrlWrite c.1 c.2) t).nv.pcc = t.nv.pcc :=
    fun l t => foldl_txn_pcc l _ t (fun t c => by rw [ctrlWrite_nv])
  simp only [finish, hlocks, hctrl, on_nv, takeBlock_pcc, ite_nv, ite_self]

end Txn

namespace Module

@[simp] theorem transact_pcc (m : Module) (nv : NonVol) (x : Nat) (auth brown : Bool) (ws : List RegWr) :
    (m.transact nv x auth brown ws).1.pcc = nv.pcc :=
  (Txn.finish_pcc _).trans (Txn.foldl_txn_pcc _ _ _ Txn.write_pcc)

@[simp] theorem busWrite_pcc (m : Module) (nv : NonVol) (x : Nat) (auth : Bool) (ws : List RegWr) :
    (m.busWrite nv x auth ws).1.pcc = nv.pcc := by
  simp only [busWrite]
  (repeat' split) <;> simp

/-! ### Start-up and the end of a transaction -/

@[simp] theorem rootWrite_pcc (s : NonVol × Module) (ws : List RegWr) : (rootWrite s ws).1.pcc = s.1.pcc :=
  transact_pcc ..

@[simp] theorem planRun_pcc (rs : List PlanRec) (cnt : List Nat) (s : NonVol × Module) :
    (planRun rs cnt s).1.pcc = s.1.pcc := by
  induction rs generalizing cnt s with
  | nil => rfl
  | cons r rs ih =>
    simp only [planRun]
    (repeat' split) <;> simp [ih]

@[simp] theorem planCommit_pcc (s : NonVol × Module) : (planCommit s).1.pcc = s.1.pcc := by
  refine foldl_pcc _ _ _ (fun s p => ?_)
  (repeat' split) <;> simp

@[simp] theorem planLoad_pcc (m : Module) (nv : NonVol) (rs : List PlanRec) : (m.planLoad nv rs).1.pcc = nv.pcc := by
  simp only [planLoad, planCommit_pcc, planRun_pcc]

@[simp] theorem settings_pcc (m : Module) (nv : NonVol) : (m.settings nv).1.pcc = nv.pcc := by
  simp only [settings]
  (repeat' split) <;> simp

@[simp] theorem sapling_pcc (m : Module) (nv : NonVol) : (m.sapling nv).1.pcc = nv.pcc := by
  simp only [sapling]
  split
  · rfl
  · simp only [planLoad_pcc]

@[simp] theorem imageStep_pcc (m : Module) (nv : NonVol) : (m.imageStep nv).1.pcc = nv.pcc := by
  simp only [imageStep]
  split
  · exact settings_pcc ..
  · exact sapling_pcc ..

@[simp] theorem selfTest_pcc (m : Module) (nv : NonVol) (fails : List UnitFail) (rows : List (Nat × Nat)) (ms : Nat)
    (ro : Bool) : (m.selfTest nv fails rows ms ro).1.pcc = nv.pcc := by
  have hrows : ∀ l : List (Nat × Nat), (l.foldl retireNow (nv, m)).1.pcc = nv.pcc :=
    fun l => foldl_pcc l retireNow (nv, m) (fun _ _ => rowRetired_pcc ..)
  simp only [selfTest]
  (repeat' split) <;> simp [hrows]

@[simp] theorem release'_pcc (m : Module) (nv : NonVol) (lv : List Sensed) (ms : Nat) :
    (m.release' nv lv ms).1.pcc = nv.pcc := by
  simp only [release', rootWrite_pcc]

@[simp] theorem leaveSapling_pcc (m : Module) (nv : NonVol) : (m.leaveSapling nv).1.pcc = nv.pcc := by
  simp only [leaveSapling, imageStep_pcc]

@[simp] theorem settle_pcc (s : NonVol × Module) : (settle s).1.pcc = s.1.pcc := by
  simp only [settle]
  (repeat' split) <;> simp

@[simp] theorem busDo_pcc (m : Module) (nv : NonVol) (x : Nat) (auth : Bool) (ws : List RegWr) :
    (m.busDo nv x auth ws).1.pcc = nv.pcc :=
  (settle_pcc _).trans (busWrite_pcc ..)

/-! ### Accesses, frames and tasks -/

@[simp] theorem regSpace_pcc (m : Module) (nv : NonVol) (q : MemReq) : (m.regSpace nv q).1.pcc = nv.pcc := by
  simp only [regSpace]
  (repeat' split) <;> simp

@[simp] theorem memDirect_pcc (m : Module) (nv : NonVol) (q : MemReq) : (m.memDirect nv q).1.pcc = nv.pcc := by
  simp only [memDirect]
  split <;> simp

@[simp] theorem stageRead_pcc (m : Module) (nv : NonVol) (t : Nat) (q : MemReq) (as : List Nat) :
    (m.stageRead nv t q as).1.pcc = nv.pcc := by
  simp only [stageRead]
  (repeat' split) <;> simp

@[simp] theorem memCommand_pcc (m : Module) (nv : NonVol) (q : MemReq) : (m.memCommand nv q).1.pcc = nv.pcc := by
  simp only [memCommand]
  (repeat' split) <;> simp

@[simp] theorem twtCommit_pcc (m : Module) (nv : NonVol) (brown : Bool) (ws : List RegWr) :
    (m.twtCommit nv brown ws).1.pcc = nv.pcc := by
  simp only [twtCommit]
  (repeat' split) <;> simp

@[simp] theorem twtData_pcc (m : Module) (nv : NonVol) (x : TwtWr) (acked : List Byte) :
    (m.twtData nv x acked).1.pcc = nv.pcc := by
  simp only [twtData]
  (repeat' split) <;> simp

@[simp] theorem twtWrite_pcc (m : Module) (nv : NonVol) (x : TwtWr) : (m.twtWrite nv x).1.pcc = nv.pcc := by
  simp only [twtWrite]
  (repeat' split) <;> simp

/-- A request keeps the count where its run does. -/
theorem mgmtOnce_pcc (m : Module) (nv : NonVol) (q : MgmtHdr) (addr count : Nat)
    (run : NonVol → Module → NonVol × Module × MgmtRes) (hrun : (run nv m).1.pcc = nv.pcc) :
    (m.mgmtOnce nv q addr count run).1.pcc = nv.pcc := by
  simp only [mgmtOnce]
  (repeat' split) <;> simp [hrun]

@[simp] theorem mgmtRead_pcc (m : Module) (nv : NonVol) (q : MgmtHdr) (addr count step : Nat) :
    (m.mgmtRead nv q addr count step).1.pcc = nv.pcc :=
  mgmtOnce_pcc _ _ _ _ _ _ (by split <;> rfl)

@[simp] theorem mgmtWrite_pcc (m : Module) (nv : NonVol) (q : MgmtHdr) (addr step : Nat) (data : List W32) :
    (m.mgmtWrite nv q addr step data).1.pcc = nv.pcc :=
  mgmtOnce_pcc _ _ _ _ _ _ (by simp only; split <;> simp)

@[simp] theorem mgmtBlock_pcc (m : Module) (nv : NonVol) (q : MgmtHdr) (ofs : Nat) (data : List Byte) :
    (m.mgmtBlock nv q ofs data).1.pcc = nv.pcc :=
  mgmtOnce_pcc _ _ _ _ _ _ (by simp only; (repeat' split) <;> simp)

@[simp] theorem mgmtMbox_pcc (m : Module) (nv : NonVol) (q : MgmtHdr) (ch : Nat) (payload : List W32) :
    (m.mgmtMbox nv q ch payload).1.pcc = nv.pcc := by
  simp only [mgmtMbox]
  split
  · rfl
  · exact mgmtOnce_pcc _ _ _ _ _ _ rfl

@[simp] theorem mgmtAck_pcc (m : Module) (nv : NonVol) (q : MgmtHdr) (ch : Nat) :
    (m.mgmtAck nv q ch).1.pcc = nv.pcc :=
  mgmtOnce_pcc _ _ _ _ _ _ (by split <;> rfl)

@[simp] theorem capsetWrite_pcc (m : Module) (nv : NonVol) (f : Capset) (late : Bool) :
    (m.capsetWrite nv f late).1.pcc = nv.pcc := transact_pcc ..

@[simp] theorem capset_pcc (m : Module) (nv : NonVol) (f : Capset) : (m.capset nv f).1.pcc = nv.pcc := by
  simp only [capset]
  (repeat' split) <;> simp

@[simp] theorem capsetApply_pcc (m : Module) (nv : NonVol) : (m.capsetApply nv).1.pcc = nv.pcc :=
  foldl_pcc _ _ _ (fun _ _ => capsetWrite_pcc ..)

@[simp] theorem majorFrame_pcc (m : Module) (nv : NonVol) (done : List Nat) :
    (m.majorFrame nv done).1.pcc = nv.pcc := mramFlush_pcc ..

@[simp] theorem bufWrites_pcc (m : Module) (nv : NonVol) (x : Nat) (buf : List Staged) :
    (m.bufWrites nv x buf).1.pcc = nv.pcc :=
  foldl_pcc _ _ _ (fun _ _ => memAccess_pcc ..)

@[simp] theorem taskCommit_pcc (m : Module) (nv : NonVol) (r : TaskRun) : (m.taskCommit nv r).1.pcc = nv.pcc := by
  simp only [taskCommit]
  split <;> simp

@[simp] theorem taskDeadline_pcc (m : Module) (nv : NonVol) (r : TaskRun) :
    (m.taskDeadline nv r).1.pcc = nv.pcc := by
  simp only [taskDeadline]
  (repeat' split) <;> simp

end Module

end Sys2Proof.Machine
end

section
/-! The stored power-cycle count through every command (R520). -/

namespace Sys2Proof.Machine

/-- Where a command goes on, the stored power-cycle count is as it was. -/
structure KeepsPcc (s : State) (o : Host.Outcome State Fault Refusal) : Prop where
  stored : ∀ t, o = .next t → t.nv.pcc = s.nv.pcc

theorem act_keepsPcc (s : State) (f : Module → Module) : KeepsPcc s (act s f) :=
  ⟨by rintro t ⟨⟩; rfl⟩

theorem act2_keepsPcc {s : State} {f : NonVol → Module → NonVol × Module}
    (h : (f s.nv { s.m with out := {} }).1.pcc = s.nv.pcc) : KeepsPcc s (act2 s f) :=
  ⟨by rintro t ⟨⟩; exact h⟩

theorem act2Live_keepsPcc {s : State} {f : NonVol → Module → NonVol × Module}
    (h : ∀ m, (f s.nv m).1.pcc = s.nv.pcc) : KeepsPcc s (act2Live s f) :=
  act2_keepsPcc (by
    split
    · exact h _
    · rfl)

theorem busGet_keepsPcc (s : State) (x addr : Nat) (took : Bool) : KeepsPcc s (busGet s x addr took) :=
  act_keepsPcc ..

theorem busCmd_keepsPcc (s : State) (x : Nat) (ws : List RegWr) : KeepsPcc s (busCmd s x ws) :=
  act2_keepsPcc (Module.busDo_pcc ..)

theorem busAt_keepsPcc (s : State) (x i n base off : Nat) (v : W32) : KeepsPcc s (busAt s x i n base off v) :=
  act2_keepsPcc (by
    split
    · exact Module.busDo_pcc ..
    · rfl)

theorem answer_keepsPcc (x ch : Nat) (h l : W32) (s : State) : KeepsPcc s (answer x ch h l s) :=
  act2_keepsPcc (by
    split
    · exact Module.busDo_pcc ..
    · rfl)

/-- Every command leaves the stored count, but POWER_ON without supply (R520). The commands stand by the way on which
they reach the non-volatile part; those of the last case act on the module alone. -/
theorem exec_keepsPcc (c : Instr) (s : State)
    (h : ∀ va vb straps, c = .powerOn va vb straps → s.m.sys.pwr ≠ .off) : KeepsPcc s (exec c s) := by
  unfold exec
  cases c with
  | powerOn va vb straps =>
    have hpow : s.m.sys.pwr ≠ .off := h va vb straps rfl
    exact act2_keepsPcc (by rw [if_neg hpow])
  | fwRestart | moduleResetCmd | saplingCmd | profileChange | wipeCmd | schedEn | bistReq | calReq | cleCommit | cleEn
  | epeCommitSrc | groveEn | xingEn | xingCommitBus | seqReqOn | seqReqOff | seqEn | seqtblCommitUp | seqtblCommitDown
  | kick | wdogEn | cal | repair | forget | helloNow | benufEn | rdSeq | submit | startImage | startPlan | activate
  | abort | resume | updateBlock => exact busCmd_keepsPcc ..
  | softRst | lock | evtRawClear | fltStatClear | railEn | phaseEn | railCommitRef | railCommitProt | railCommitShed
  | traceEn | arm | stop | feedEn | feedCommitWin | feedCommitTrip | accept | impGo | battEn | battCommitOcv
  | battCommitChg | battCommitLvl | twcCommitPoll | doorbell => exact busAt_keepsPcc ..
  | tblDataAccess x p wr =>
    unfold execTblDataAccess
    cases wr with
    | none => exact busGet_keepsPcc ..
    | some v => exact busAt_keepsPcc ..
  | rdData | optimeHRead => exact busGet_keepsPcc ..
  | taken | done => exact answer_keepsPcc ..
  | lifeArm | lifeCommit | switch => exact act2_keepsPcc (Module.busDo_pcc ..)
  | fltWinWrite | force | battCommitLearn | mboxBind => exact act2_keepsPcc (by simp only; split <;> simp)
  | registerWrite x a v others =>
    exact act2_keepsPcc (foldl_pcc _ _ _ (fun _ _ => Module.busDo_pcc ..))
  | read | readFixed => exact act2_keepsPcc (Module.mgmtRead_pcc ..)
  | write | writeFixed => exact act2_keepsPcc (Module.mgmtWrite_pcc ..)
  | updateBlk => exact act2_keepsPcc (Module.mgmtBlock_pcc ..)
  | send => exact act2_keepsPcc (Module.mgmtMbox_pcc ..)
  | ackRead => exact act2_keepsPcc (Module.mgmtAck_pcc ..)
  | capset => exact act2_keepsPcc (Module.capset_pcc ..)
  | capsetApply => exact act2_keepsPcc (by split <;> simp)
  | twtWrite => exact act2_keepsPcc (by split <;> simp)
  | collapse | lastBreathEntry | resetRelease => exact act2_keepsPcc (by (repeat' split) <;> simp)
  | wiped => exact act2_keepsPcc (by simp only; (repeat' split) <;> simp)
  | clkLoss => exact act2Live_keepsPcc (fun m => by (repeat' split) <;> simp)
  | clkResume => exact act2Live_keepsPcc (fun m => m.clkBack_pcc _ _)
  | memoryAccess q => exact act2Live_keepsPcc (fun m => m.memCommand_pcc _ q)
  | retired u row => exact act2Live_keepsPcc (fun m => m.rowRetired_pcc _ u row)
  | scrubStep => exact act2Live_keepsPcc (fun m => m.scrubStep_pcc ..)
  | tamperPulseCheck =>
    refine act2Live_keepsPcc (fun m => ?_)
    split
    · simp only
      split <;> simp
    · rfl
  | tamper | install | erase | adoptWindowEnd | majorFrame | selftestDone | scanDone | changed =>
    exact act2Live_keepsPcc (fun m => by (repeat' split) <;> simp)
  | glitch => exact act2Live_keepsPcc (fun m => m.glitched_pcc ..)
  | taskDeadline r => exact act2Live_keepsPcc (fun m => m.taskDeadline_pcc _ r)
  | wearSave | optimeStore => exact act2Live_keepsPcc (fun m => m.nvWrite_pcc ..)
  | thermRound => exact act2Live_keepsPcc (fun m => Module.mramFlush_pcc ..)
  | recordDrain => exact act2Live_keepsPcc (fun m => m.recDrain_pcc _)
  | verifyDone => exact act2Live_keepsPcc (fun m => m.updVerify_pcc _)
  | planStoreDone => exact act2Live_keepsPcc (fun m => m.planStored_pcc _)
  | _ => exact act_keepsPcc ..

end Sys2Proof.Machine
end

section
/-! The first records of a power cycle (R520): what POWER_ON makes of the recorder. -/

namespace Sys2Proof.Machine

/-- The recorder counts power cycle `n`, and every record that waits for START bears it. -/
def RecSt.CountsCycle (n : Nat) (x : RecSt) : Prop := x.pcc = n ∧ ∀ r ∈ x.early, r.pcc = n

namespace Module

/-! ### What leaves the recorder alone -/

theorem ite_rc (c : Prop) [Decidable c] (m m' : Module) : (if c then m else m').rc = if c then m.rc else m'.rc :=
  apply_ite Module.rc c m m'

theorem foldl_rc {α : Type} (l : List α) (f : Module → α → Module) (m : Module)
    (h : ∀ m x, (f m x).rc = m.rc) : (l.foldl f m).rc = m.rc := by
  induction l generalizing m with
  | nil => rfl
  | cons x l ih => rw [List.foldl_cons, ih, h]

@[simp] theorem applyPend_rc (m : Module) (sel : Nat → Bool) : (m.applyPend sel).rc = m.rc :=
  foldl_rc _ _ _ (fun _ _ => rfl)

@[simp] theorem applySnap_rc (m : Module) (sel : Nat → Bool) : (m.applySnap sel).rc = m.rc :=
  foldl_rc _ _ _ (fun _ _ => rfl)

@[simp] theorem boundary_rc (m : Module) (p : Nat) : (m.boundary p).rc = m.rc := by
  simp only [boundary, applySnap_rc, applyPend_rc]

@[simp] theorem memTables_rc (m : Module) (nv : NonVol) : (m.memTables nv).rc = m.rc :=
  foldl_rc _ _ _ (fun _ _ => rfl)

@[simp] theorem wearWords_rc (m : Module) : m.wearWords.rc = m.rc := foldl_rc _ _ _ (fun _ _ => rfl)

@[simp] theorem toPhase_rc (m : Module) (x : Nat) : (m.toPhase x).rc = m.rc := rfl

@[simp] theorem wipeSram_rc (m : Module) : m.wipeSram.rc = m.rc := rfl

@[simp] theorem romMac_rc (m : Module) : m.romMac.rc = m.rc := by
  simp only [romMac, setReg_rc, put_rc]

@[simp] theorem romRegs_rc (m : Module) (nv : NonVol) : (m.romRegs nv).rc = m.rc := by
  have hstrings : ∀ (l : List Nat) (m : Module),
      (l.foldl (fun m b => m.put (pgBatt + b) BATT_STATUS_UNLEARNED 1) m).rc = m.rc :=
    fun l m => foldl_rc l _ m (fun _ _ => rfl)
  simp only [romRegs, memTables_rc, updSys_rc]
  rw [ite_rc]
  simp only [setBoth_rc, hstrings, put_rc, setReg_rc, ite_self]

/-! ### Records that wait for START -/

variable {n : Nat} {m : Module}

/-- A record bears the count of the module (R517), and waits for START where START is not yet made. -/
theorem recMake_countsCycle (h : m.rc.CountsCycle n) (typ src len flags : Nat) (payload : List Byte) (mark : Bool) :
    (m.recMake typ src len flags payload mark).rc.CountsCycle n := by
  rw [← boundary_rc m pgRec] at h
  obtain ⟨hpcc, hearly⟩ := h
  simp only [recMake]
  split
  · split
    · exact ⟨hpcc, hearly⟩
    · refine ⟨hpcc, fun r hr => ?_⟩
      obtain hr | hr := List.mem_append.1 hr
      · exact hearly r hr
      · rw [List.mem_singleton.1 hr]
        exact hpcc
  · simp only [recLost]
    split <;> exact ⟨hpcc, hearly⟩

theorem latchBit_countsCycle (h : m.rc.CountsCycle n) (p b sub : Nat) : (m.latchBit p b sub).rc.CountsCycle n := by
  refine recMake_countsCycle ?_ ..
  simp only [ite_rc]
  generalize m.firstLasting _ = mark
  cases mark <;> exact h

theorem latchNow_countsCycle (h : m.rc.CountsCycle n) (p b : Nat) : (m.latchNow p b).rc.CountsCycle n := by
  simp only [latchNow]
  split
  · exact h
  · exact latchBit_countsCycle h ..

theorem wiped_countsCycle (h : m.rc.CountsCycle n) (nv : NonVol) (cause : Nat) :
    (m.wiped nv cause).2.rc.CountsCycle n := by
  refine recMake_countsCycle ?_ ..
  simpa only [raise_rc, put_rc, setReg_rc, wipeSram_rc] using h

theorem lifeRecord_countsCycle (h : m.rc.CountsCycle n) (old new : Nat) : (m.lifeRecord old new).rc.CountsCycle n :=
  recMake_countsCycle h ..

/-! ### The ROM start -/

theorem romIdent_countsCycle (h : m.rc.CountsCycle n) (nv : NonVol) : (m.romIdent nv).rc.CountsCycle n := by
  have hident : ∀ l : List (W32 × Nat), (l.foldl (fun m x => m.setTbl pgSys 0 x.2 x.1) m).rc = m.rc :=
    fun l => foldl_rc l _ m (fun _ _ => rfl)
  simp only [romIdent, ite_rc, updSys_rc, ite_self, hident]
  split
  · exact h
  · exact latchNow_countsCycle (by simpa only [raise_rc, put_rc, hident] using h) ..

theorem romRepair_countsCycle (h : m.rc.CountsCycle n) (nv : NonVol) : (m.romRepair nv).2.rc.CountsCycle n := by
  have hwipe : (if nv.wipePending then m.wiped nv 8 else (nv, m)).2.rc.CountsCycle n := by
    split
    · exact wiped_countsCycle h ..
    · exact h
  simp only [romRepair]
  generalize (if nv.wipePending then m.wiped nv 8 else (nv, m)) = r at hwipe
  split
  · dsimp only
    exact lifeRecord_countsCycle (wiped_countsCycle hwipe ..) ..
  · exact hwipe

theorem romStart_countsCycle (h : m.rc.CountsCycle n) (nv : NonVol) (cause : W32) :
    (m.romStart nv cause).2.rc.CountsCycle n := by
  simp only [romStart, toPhase_rc, wearWords_rc, romRegs_rc, romMac_rc]
  refine romRepair_countsCycle (romIdent_countsCycle ?_ nv) nv
  exact h

/-- VAUX newly applied: one cycle more, at most 0xFFFFFF, counted before any record is made. -/
theorem powerOn_pcc (m : Module) (nv : NonVol) (va vb straps : Nat) :
    (m.powerOn nv va vb straps).1.pcc = satAdd 24 nv.pcc 1 := by
  simp only [powerOn, romStart_pcc]

theorem powerOn_countsCycle (m : Module) (nv : NonVol) (va vb straps : Nat) :
    (m.powerOn nv va vb straps).2.rc.CountsCycle (satAdd 24 nv.pcc 1) := by
  simp only [powerOn]
  refine romStart_countsCycle ⟨rfl, fun r hr => ?_⟩ ..
  exact absurd hr List.not_mem_nil

/-- PCC_SAT is bit 1 of FLAGS (R517). The flags that a record is made with leave it clear, FW of the host and the
firmware (bit 3) too. -/
theorem recHeader_pccSat {m : Module} {flags : Nat} (typ src len : Nat) (payload : List Byte) (mark : Bool)
    (hflags : flags.testBit 1 = false) (hsat : m.rc.pcc = 0xFFFFFF) :
    (m.recHeader typ src len flags payload mark).flags.testBit 1 = true := by
  simp only [Nat.testBit_eq_decide_div_mod_eq, decide_eq_false_iff_not, decide_eq_true_eq] at hflags ⊢
  simp only [recHeader, if_pos hsat]
  split <;> omega

end Module

end Sys2Proof.Machine

open Sys2Proof Sys2Proof.Machine

/-- Settles O47: POWER_ON without supply is `powerOn`, which counts before the ROM starts (`powerOn_pcc`,
`powerOn_countsCycle`); every other command keeps the count (`exec_keepsPcc`); `recHeader_pccSat` is the flag. -/
theorem powerCycleCount : Obligations.PowerCycleCount := by
  unfold Obligations.PowerCycleCount
  refine ⟨fun s va vb straps hoff => ?_, fun c s t ht hother => (exec_keepsPcc c s hother).stored t ht,
    fun m typ src len flags payload mark hflags hsat => ⟨?_, hsat⟩⟩
  · have harm : exec (.powerOn va vb straps) s
        = act2 s (fun nv m => if m.sys.pwr = .off then m.powerOn nv va vb straps else (nv, m)) := rfl
    have hstored := Module.powerOn_pcc { s.m with out := {} } s.nv va vb straps
    obtain ⟨hcount, hearly⟩ := Module.powerOn_countsCycle { s.m with out := {} } s.nv va vb straps
    refine ⟨_, harm, ?_⟩
    simp only [if_pos hoff]
    exact ⟨hstored, hcount.trans hstored.symm, fun r hr => (hearly r hr).trans hstored.symm⟩
  · have hbit : flags.testBit 1 = false := Nat.testBit_lt_two_pow hflags
    exact Module.recHeader_pccSat typ src len payload mark hbit hsat

end

section
/-! The shares of a grove allocation (R272, R273), claimant by claimant: what one claimant has after the classes, and
with it that the shares fit the cap and fall with it. -/

namespace Sys2Proof.Machine

/-! ### Sums and proportional parts -/

theorem sumN_eq_sum (l : List Nat) : sumN l = l.sum := List.sum_eq_foldl.symm

/-- Parts of `r` in proportion to weights, each rounded down, sum to at most `r`. -/
theorem sum_parts_le {α : Type} (l : List α) (w : α → Nat) (r : Nat) :
    (l.map (fun a => w a * r / (l.map w).sum)).sum ≤ r := by
  generalize hn : (l.map w).sum = n
  have hscaled : (l.map (fun a => w a * r / n)).sum * n ≤ (l.map w).sum * r := by
    clear hn
    induction l with
    | nil => simp
    | cons a l ih =>
      simp only [List.map_cons, List.sum_cons, Nat.add_mul]
      exact Nat.add_le_add (Nat.div_mul_le_self _ _) ih
  rcases Nat.eq_zero_or_pos n with rfl | hpos
  · simp
  · rw [hn, Nat.mul_comm n r] at hscaled
    exact Nat.le_of_mul_le_mul_right hscaled hpos

/-- A part is no more than its weight where what is shared out is no more than the weights. -/
theorem part_le_weight (w r n : Nat) (h : r ≤ n) : w * r / n ≤ w :=
  Nat.div_le_of_le_mul (by rw [Nat.mul_comm n w]; exact Nat.mul_le_mul_left w h)

theorem part_mono (w n : Nat) {r r' : Nat} (h : r ≤ r') : w * r / n ≤ w * r' / n :=
  Nat.div_le_div_right (Nat.mul_le_mul_left w h)

/-! ### One claimant through the classes -/

/-- What the claimants of class `p` ask for above their floors. -/
def classAsk (cs : List Counted) (p : Nat) : Nat := sumN ((cs.filter (fun c => c.prio = p)).map (fun c => c.d - c.f))

/-- What a claimant that held `cur` has after the classes `ps`, `r` left before them. -/
def classShare (cs : List Counted) (a : Counted) : List Nat → Nat → Nat → Nat
  | [], _, cur => cur
  | p :: ps, r, cur =>
    if classAsk cs p = 0 then classShare cs a ps r cur
    else if classAsk cs p ≤ r then classShare cs a ps (r - classAsk cs p) (if a.prio = p then a.d else cur)
    else if a.prio = p then a.f + (a.d - a.f) * r / classAsk cs p else cur

/-- What the classes leave, and whether the allocation ended inside one. -/
def classLeft (cs : List Counted) : List Nat → Nat → Nat × Bool
  | [], r => (r, false)
  | p :: ps, r =>
    if classAsk cs p = 0 then classLeft cs ps r
    else if classAsk cs p ≤ r then classLeft cs ps (r - classAsk cs p)
    else (0, true)

/-- Of distinct claimants a member's number finds its own report. -/
theorem find_who_of_mem {cs : List Counted} (hd : distinct cs) {a : Counted} (ha : a ∈ cs) :
    cs.find? (fun c => c.who = a.who) = some a := by
  induction cs with
  | nil => exact absurd ha List.not_mem_nil
  | cons b cs ih =>
    obtain ⟨hb, hcs⟩ := List.pairwise_cons.1 hd
    rcases List.mem_cons.1 ha with rfl | ha
    · simp
    · rw [List.find?_cons_of_neg (by simpa using hb a ha)]
      exact ih hcs ha

theorem distinct_filter {cs : List Counted} (hd : distinct cs) (q : Counted → Bool) : distinct (cs.filter q) :=
  List.Pairwise.filter q hd

theorem find_class_of_mem {cs : List Counted} (hd : distinct cs) {a : Counted} (ha : a ∈ cs) (p : Nat) :
    (cs.filter (fun c => c.prio = p)).find? (fun c => c.who = a.who) = if a.prio = p then some a else none := by
  split
  next hp => exact find_who_of_mem (distinct_filter hd _) (List.mem_filter.2 ⟨ha, by simpa using hp⟩)
  next hp =>
    refine List.find?_eq_none.2 (fun b hb => ?_)
    obtain ⟨hb, hprio⟩ := List.mem_filter.1 hb
    intro hwho
    have hsame : b = a := Option.some.inj ((find_who_of_mem hd hb).symm.trans
      ((of_decide_eq_true hwho : b.who = a.who) ▸ find_who_of_mem hd ha))
    exact hp (by simpa [hsame] using hprio)

theorem allocClasses_cons (cs : List Counted) (p : Nat) (ps : List Nat) (r : Nat) (x : List (Nat × Nat)) :
    allocClasses cs (p :: ps) r x =
      if classAsk cs p = 0 then allocClasses cs ps r x
      else if classAsk cs p ≤ r then
        allocClasses cs ps (r - classAsk cs p) (x.map (fun y =>
          match (cs.filter (fun c => c.prio = p)).find? (fun c => c.who = y.1) with
          | some c => (y.1, c.d) | none => y))
      else
        (x.map (fun y => match (cs.filter (fun c => c.prio = p)).find? (fun c => c.who = y.1) with
          | some c => (y.1, c.f + (c.d - c.f) * r / classAsk cs p) | none => y), 0, true) := rfl

theorem allocClasses_eq {cs : List Counted} (hd : distinct cs) (ps : List Nat) (r : Nat) (cur : Counted → Nat) :
    allocClasses cs ps r (cs.map (fun a => (a.who, cur a)))
      = (cs.map (fun a => (a.who, classShare cs a ps r (cur a))), classLeft cs ps r) := by
  induction ps generalizing r cur with
  | nil => rfl
  | cons p ps ih =>
    rw [allocClasses_cons]
    by_cases hnone : classAsk cs p = 0
    · simp only [classShare, classLeft, if_pos hnone, ih]
    · by_cases hpass : classAsk cs p ≤ r
      · simp only [classShare, classLeft, if_neg hnone, if_pos hpass, ← ih, List.map_map]
        congr 1
        refine List.map_congr_left (fun a ha => ?_)
        simp only [Function.comp_apply, find_class_of_mem hd ha p]
        by_cases hp : a.prio = p <;> simp only [hp, if_true, if_false]
      · simp only [classShare, classLeft, if_neg hnone, if_neg hpass, List.map_map]
        congr 1
        refine List.map_congr_left (fun a ha => ?_)
        simp only [Function.comp_apply, find_class_of_mem hd ha p]
        by_cases hp : a.prio = p <;> simp only [hp, if_true, if_false]

/-! ### Bounds of one claimant -/

section
variable {cs : List Counted} {a : Counted} {cur : Nat}

theorem classShare_le (hfd : a.f ≤ a.d) (hcur : cur ≤ a.d) (ps : List Nat) (r : Nat) :
    classShare cs a ps r cur ≤ a.d := by
  induction ps generalizing r cur with
  | nil => exact hcur
  | cons p ps ih =>
    simp only [classShare]
    split
    · exact ih hcur r
    · split
      · exact ih (by split <;> omega) _
      · split
        · have := part_le_weight (a.d - a.f) r (classAsk cs p) (by omega)
          omega
        · exact hcur

/-- What a claimant holds before its class is served it does not lose. -/
theorem le_classShare {ps : List Nat} (hps : ps.Nodup) (hfd : a.f ≤ a.d) (hcur : a.prio ∈ ps → cur = a.f) (r : Nat) :
    cur ≤ classShare cs a ps r cur := by
  induction ps generalizing r cur with
  | nil => exact Nat.le_refl _
  | cons p ps ih =>
    obtain ⟨hp, hps⟩ := List.nodup_cons.1 hps
    have hrest : a.prio ∈ ps → cur = a.f := fun h => hcur (List.mem_cons_of_mem p h)
    simp only [classShare]
    split
    · exact ih hps hrest r
    · split
      · split
        next hprio =>
          have hfloor : cur = a.f := hcur (by simp [hprio])
          have hrise := ih (cur := a.d) hps (fun h => absurd (hprio ▸ h) hp) (r - classAsk cs p)
          omega
        · exact ih hps hrest _
      · split
        next hprio =>
          exact (hcur (by simp [hprio])).trans_le (Nat.le_add_right _ _)
        · exact Nat.le_refl _

/-- A claimant has no less where more is left to serve. -/
theorem classShare_mono {ps : List Nat} (hps : ps.Nodup) (hfd : a.f ≤ a.d) (hcur : a.prio ∈ ps → cur = a.f)
    {r r' : Nat} (hr : r ≤ r') : classShare cs a ps r cur ≤ classShare cs a ps r' cur := by
  induction ps generalizing r r' cur with
  | nil => exact Nat.le_refl _
  | cons p ps ih =>
    obtain ⟨hp, hnodup⟩ := List.nodup_cons.1 hps
    have hrest : a.prio ∈ ps → (if a.prio = p then a.d else cur) = a.f := fun h => by
      rw [if_neg (fun e : a.prio = p => hp (e ▸ h))]
      exact hcur (List.mem_cons_of_mem p h)
    simp only [classShare]
    by_cases hnone : classAsk cs p = 0
    · simp only [if_pos hnone]
      exact ih hnodup (fun h => hcur (List.mem_cons_of_mem p h)) hr
    · simp only [if_neg hnone]
      by_cases hpass : classAsk cs p ≤ r
      · rw [if_pos hpass, if_pos (hpass.trans hr)]
        exact ih hnodup hrest (by omega)
      · rw [if_neg hpass]
        by_cases hpass' : classAsk cs p ≤ r'
        · rw [if_pos hpass']
          refine le_trans ?_ (le_classShare hnodup hfd hrest (r' - classAsk cs p))
          have := part_le_weight (a.d - a.f) r (classAsk cs p) (by omega)
          split <;> omega
        · rw [if_neg hpass']
          have := part_mono (a.d - a.f) (classAsk cs p) hr
          split <;> omega

end

theorem classLeft_le (cs : List Counted) (ps : List Nat) (r : Nat) : (classLeft cs ps r).1 ≤ r := by
  induction ps generalizing r with
  | nil => exact Nat.le_refl _
  | cons p ps ih =>
    simp only [classLeft]
    split
    · exact ih r
    · split
      · exact (ih _).trans (Nat.sub_le _ _)
      · exact Nat.zero_le _

/-- With more to serve the classes end inside one no sooner, and leave no less. -/
theorem classLeft_mono (cs : List Counted) (ps : List Nat) {r r' : Nat} (hr : r ≤ r')
    (hends : (classLeft cs ps r).2 = false) :
    (classLeft cs ps r').2 = false ∧ (classLeft cs ps r).1 ≤ (classLeft cs ps r').1
      ∧ ∀ a cur, classShare cs a ps r cur = classShare cs a ps r' cur := by
  induction ps generalizing r r' with
  | nil => exact ⟨rfl, hr, fun _ _ => rfl⟩
  | cons p ps ih =>
    simp only [classLeft, classShare] at hends ⊢
    by_cases hnone : classAsk cs p = 0
    · simp only [if_pos hnone] at hends ⊢
      exact ih hr hends
    · by_cases hpass : classAsk cs p ≤ r
      · simp only [if_neg hnone, if_pos hpass, if_pos (hpass.trans hr)] at hends ⊢
        obtain ⟨hend, hleft, hshare⟩ := ih (Nat.sub_le_sub_right hr _) hends
        exact ⟨hend, hleft, fun a cur => hshare a _⟩
      · simp [if_neg hnone, if_neg hpass] at hends

/-! ### The sum of the shares -/

/-- A class that is served changes the sum by what its members are given above their floors. -/
theorem sum_class_given {cs : List Counted} {p : Nat} {cur : Counted → Nat} (g : Counted → Nat)
    (hcur : ∀ a ∈ cs, a.prio = p → cur a = a.f) :
    (cs.map (fun a => if a.prio = p then a.f + g a else cur a)).sum
      = (cs.map cur).sum + ((cs.filter (fun a => a.prio = p)).map g).sum := by
  induction cs with
  | nil => rfl
  | cons a cs ih =>
    have hrest := ih (fun b hb => hcur b (List.mem_cons_of_mem a hb))
    simp only [List.map_cons, List.sum_cons, hrest]
    by_cases hp : a.prio = p
    · have hfloor := hcur a List.mem_cons_self hp
      rw [List.filter_cons_of_pos (by simpa using hp), List.map_cons, List.sum_cons, if_pos hp]
      omega
    · rw [List.filter_cons_of_neg (by simpa using hp), if_neg hp]
      omega

/-- What the classes give and what they leave is no more than there was. -/
theorem sum_classShare_le {cs : List Counted} {ps : List Nat} (hps : ps.Nodup) {cur : Counted → Nat}
    (hfd : ∀ a ∈ cs, a.f ≤ a.d) (hcur : ∀ a ∈ cs, a.prio ∈ ps → cur a = a.f) (r : Nat) :
    (cs.map (fun a => classShare cs a ps r (cur a))).sum + (classLeft cs ps r).1 ≤ (cs.map cur).sum + r := by
  induction ps generalizing r cur with
  | nil => exact Nat.le_refl _
  | cons p ps ih =>
    obtain ⟨hp, hnodup⟩ := List.nodup_cons.1 hps
    have hrest : ∀ a ∈ cs, a.prio ∈ ps → cur a = a.f := fun a ha h => hcur a ha (List.mem_cons_of_mem p h)
    have hmine : ∀ a ∈ cs, a.prio = p → cur a = a.f := fun a ha h => hcur a ha (by simp [h])
    have hask : classAsk cs p = ((cs.filter (fun a => a.prio = p)).map (fun a => a.d - a.f)).sum := sumN_eq_sum _
    simp only [classShare, classLeft]
    by_cases hnone : classAsk cs p = 0
    · simp only [if_pos hnone]
      exact ih hnodup hrest r
    · by_cases hpass : classAsk cs p ≤ r
      · simp only [if_neg hnone, if_pos hpass]
        have hserved := ih (cur := fun a => if a.prio = p then a.d else cur a) hnodup
          (fun a ha h => by rw [if_neg (fun e : a.prio = p => hp (e ▸ h))]; exact hrest a ha h) (r - classAsk cs p)
        have hfull : cs.map (fun a => if a.prio = p then a.d else cur a)
            = cs.map (fun a => if a.prio = p then a.f + (a.d - a.f) else cur a) :=
          List.map_congr_left (fun a ha => by rw [Nat.add_sub_cancel' (hfd a ha)])
        rw [hfull, sum_class_given _ hmine, ← hask] at hserved
        omega
      · simp only [if_neg hnone, if_neg hpass]
        have hparts := sum_parts_le (cs.filter (fun a => a.prio = p)) (fun a => a.d - a.f) r
        rw [← hask] at hparts
        rw [sum_class_given _ hmine]
        omega

/-! ### The share of a claimant -/

/-- A report with its floor and its demand bounded by its maximum (R272). -/
def boundedReport (a : Counted) : Counted := { a with f := min a.f a.mx, d := max (min a.f a.mx) (min a.d a.mx) }

/-- The floors of the claimants. -/
def floorSum (cs : List Counted) : Nat := sumN (cs.map (·.f))

/-- What a claimant has after the classes, with the cap `c`. -/
def afterClasses (cs : List Counted) (c : Nat) (a : Counted) : Nat :=
  classShare cs a (List.range 8) (c - floorSum cs) a.f

/-- The room that the claimants have left up to their maxima. -/
def roomSum (cs : List Counted) (c : Nat) : Nat := sumN (cs.map (fun a => a.mx - afterClasses cs c a))

/-- What a claimant gets of the cap `c`: in the proportion of the floors where they do not fit, else what the classes
give it and its part of what they leave (R272). -/
def grantOf (cs : List Counted) (c : Nat) (a : Counted) : Nat :=
  if c < floorSum cs then a.f * c / floorSum cs
  else if (classLeft cs (List.range 8) (c - floorSum cs)).2 then afterClasses cs c a
  else afterClasses cs c a + (a.mx - afterClasses cs c a)
    * min (classLeft cs (List.range 8) (c - floorSum cs)).1 (roomSum cs c) / roomSum cs c

theorem distinct_bounded {cs : List Counted} (hd : distinct cs) : distinct (cs.map boundedReport) :=
  List.Pairwise.map _ (fun _ _ h => h) hd

/-- The room that a member's allocation leaves up to its maximum. -/
def memberRoom (cs : List Counted) (y : Nat × Nat) : Nat :=
  match cs.find? (fun a => a.who = y.1) with | some a => a.mx - y.2 | none => 0

theorem memberRoom_of_mem {cs : List Counted} (hd : distinct cs) {a : Counted} (ha : a ∈ cs) (v : Nat) :
    memberRoom cs (a.who, v) = a.mx - v := by
  simp only [memberRoom, find_who_of_mem hd ha]

/-- R272 as the model has it: floors in proportion, or the classes, or the classes and the room. -/
theorem allocate_cases (cap : Nat) (missed : List Nat) (cs : List Counted) :
    allocate cap missed cs =
      let c := missed.foldl (fun c w => c - w) cap
      let bs := cs.map boundedReport
      let q := allocClasses bs (List.range 8) (c - floorSum bs) (bs.map (fun a => (a.who, a.f)))
      let h := sumN (q.1.map (memberRoom bs))
      if c < floorSum bs then bs.map (fun a => (a.who, a.f * c / floorSum bs))
      else if q.2.2 then q.1
      else if h = 0 || q.2.1 = 0 then q.1
      else q.1.map (fun y => (y.1, y.2 + memberRoom bs y * min q.2.1 h / h)) := rfl

theorem allocate_eq {cs : List Counted} (hd : distinct cs) (cap : Nat) (missed : List Nat) :
    allocate cap missed cs = (cs.map boundedReport).map (fun a =>
      (a.who, grantOf (cs.map boundedReport) (missed.foldl (fun c w => c - w) cap) a)) := by
  have hdb := distinct_bounded hd
  rw [allocate_cases]
  generalize cs.map boundedReport = bs at hdb ⊢
  generalize missed.foldl (fun c w => c - w) cap = c
  have hrooms : sumN ((bs.map (fun a => (a.who, afterClasses bs c a))).map (memberRoom bs)) = roomSum bs c := by
    rw [List.map_map]
    exact congrArg sumN (List.map_congr_left (fun a ha => memberRoom_of_mem hdb ha _))
  simp only [allocClasses_eq hdb, ← afterClasses.eq_1, hrooms]
  by_cases hshort : c < floorSum bs
  · simp only [grantOf, if_pos hshort]
  · by_cases hended : (classLeft bs (List.range 8) (c - floorSum bs)).2 = true
    · simp only [grantOf, if_neg hshort, if_pos hended]
    · simp only [grantOf, if_neg hshort, if_neg hended]
      split
      next hnothing =>
        refine List.map_congr_left (fun a _ => ?_)
        rcases (by simpa using hnothing : roomSum bs c = 0 ∨ (classLeft bs (List.range 8) (c - floorSum bs)).1 = 0)
          with h | h <;> simp [h]
      next =>
        rw [List.map_map]
        exact List.map_congr_left (fun a ha => by simp only [Function.comp_apply, memberRoom_of_mem hdb ha])

section
variable {cs : List Counted}

/-- Each claimant's floor lies within its demand, and its demand within its maximum. -/
structure Ordered (cs : List Counted) : Prop where
  floor : ∀ a ∈ cs, a.f ≤ a.d
  demand : ∀ a ∈ cs, a.d ≤ a.mx

theorem ordered_bounded (cs : List Counted) : Ordered (cs.map boundedReport) := by
  constructor <;> intro b hb <;> obtain ⟨a, -, rfl⟩ := List.mem_map.1 hb <;> simp only [boundedReport] <;> omega

theorem afterClasses_le_max (ho : Ordered cs) {a : Counted} (ha : a ∈ cs) (c : Nat) : afterClasses cs c a ≤ a.mx :=
  (classShare_le (ho.floor a ha) (ho.floor a ha) _ _).trans (ho.demand a ha)

theorem floor_le_afterClasses (ho : Ordered cs) {a : Counted} (ha : a ∈ cs) (c : Nat) : a.f ≤ afterClasses cs c a :=
  le_classShare List.nodup_range (ho.floor a ha) (fun _ => rfl) _

/-- No claimant gets more than its maximum. -/
theorem grantOf_le_max (ho : Ordered cs) {a : Counted} (ha : a ∈ cs) (c : Nat) : grantOf cs c a ≤ a.mx := by
  have hfloor := ho.floor a ha
  have hdemand := ho.demand a ha
  have hclasses := afterClasses_le_max ho ha c
  simp only [grantOf]
  split
  next hshort => exact (part_le_weight a.f c _ hshort.le).trans (hfloor.trans hdemand)
  · split
    · exact hclasses
    · have := part_le_weight (a.mx - afterClasses cs c a)
        (min (classLeft cs (List.range 8) (c - floorSum cs)).1 (roomSum cs c)) (roomSum cs c) (Nat.min_le_right _ _)
      omega

/-- Where the cap covers the floors, a claimant gets at least its own. -/
theorem floor_le_grantOf (ho : Ordered cs) {a : Counted} (ha : a ∈ cs) {c : Nat} (hc : floorSum cs ≤ c) :
    a.f ≤ grantOf cs c a := by
  have hclasses := floor_le_afterClasses ho ha c
  simp only [grantOf, if_neg (Nat.not_lt.2 hc)]
  split
  · exact hclasses
  · exact hclasses.trans (Nat.le_add_right _ _)

theorem sum_grantOf_le (ho : Ordered cs) (c : Nat) : (cs.map (grantOf cs c)).sum ≤ c := by
  have hclasses := sum_classShare_le (ps := List.range 8) (cur := (·.f)) List.nodup_range ho.floor (fun _ _ _ => rfl) (c - floorSum cs)
  have hfloor : floorSum cs = (cs.map (·.f)).sum := sumN_eq_sum _
  by_cases hshort : c < floorSum cs
  · have hgrant : grantOf cs c = fun a => a.f * c / floorSum cs := funext (fun a => if_pos hshort)
    rw [hgrant, hfloor]
    exact sum_parts_le cs (·.f) c
  · have hbelow : (cs.map (afterClasses cs c)).sum + (classLeft cs (List.range 8) (c - floorSum cs)).1 ≤ c := by
      have hsame : afterClasses cs c = fun a => classShare cs a (List.range 8) (c - floorSum cs) a.f := rfl
      rw [hsame]
      omega
    by_cases hended : (classLeft cs (List.range 8) (c - floorSum cs)).2 = true
    · have hgrant : grantOf cs c = afterClasses cs c := funext (fun a => by simp only [grantOf, if_neg hshort, if_pos hended])
      rw [hgrant]
      omega
    · have hgrant : grantOf cs c = fun a => afterClasses cs c a + (a.mx - afterClasses cs c a)
          * min (classLeft cs (List.range 8) (c - floorSum cs)).1 (roomSum cs c) / roomSum cs c :=
        funext (fun a => by simp only [grantOf, if_neg hshort, if_neg hended])
      have hparts := sum_parts_le cs (fun a => a.mx - afterClasses cs c a)
        (min (classLeft cs (List.range 8) (c - floorSum cs)).1 (roomSum cs c))
      rw [← sumN_eq_sum (cs.map (fun a => a.mx - afterClasses cs c a)), ← roomSum.eq_1] at hparts
      rw [hgrant, List.sum_map_add]
      omega

/-- No claimant gets more of a smaller cap. -/
theorem grantOf_mono (ho : Ordered cs) {a : Counted} (ha : a ∈ cs) {c c' : Nat} (hc : c' ≤ c) :
    grantOf cs c' a ≤ grantOf cs c a := by
  by_cases hshort : c < floorSum cs
  · simp only [grantOf, if_pos hshort, if_pos (hc.trans_lt hshort)]
    exact part_mono _ _ hc
  · by_cases hshort' : c' < floorSum cs
    · refine le_trans ?_ (floor_le_grantOf ho ha (Nat.not_lt.1 hshort))
      simp only [grantOf, if_pos hshort']
      exact part_le_weight _ _ _ hshort'.le
    · have hleft : c' - floorSum cs ≤ c - floorSum cs := Nat.sub_le_sub_right hc _
      have hclasses : afterClasses cs c' a ≤ afterClasses cs c a :=
        classShare_mono List.nodup_range (ho.floor a ha) (fun _ => rfl) hleft
      have habove : afterClasses cs c a ≤ grantOf cs c a := by
        simp only [grantOf, if_neg hshort]
        split
        · exact Nat.le_refl _
        · exact Nat.le_add_right _ _
      by_cases hended : (classLeft cs (List.range 8) (c' - floorSum cs)).2 = true
      · refine le_trans ?_ (hclasses.trans habove)
        simp only [grantOf, if_neg hshort', if_pos hended, Nat.le_refl]
      · obtain ⟨hends, hmore, hsame⟩ := classLeft_mono cs (List.range 8) hleft (Bool.eq_false_iff.2 hended)
        have hshare : ∀ b, afterClasses cs c' b = afterClasses cs c b := fun b => hsame b b.f
        have hroom : roomSum cs c' = roomSum cs c := by simp only [roomSum, hshare]
        simp only [grantOf, if_neg hshort, if_neg hshort', if_neg hended, hends, Bool.false_eq_true, if_false, hshare,
          hroom]
        exact Nat.add_le_add_left (part_mono _ _ (min_le_min_right _ hmore)) _

end

/-! ### Shares by member -/

theorem shareFor_map {cs : List Counted} (hd : distinct cs) (g : Counted → Nat) {a : Counted} (ha : a ∈ cs) :
    shareFor (cs.map (fun b => (b.who, g b))) a.who = g a := by
  have hfind : (cs.map (fun b => (b.who, g b))).find? (fun y => y.1 = a.who) = some (a.who, g a) := by
    rw [List.find?_map, Function.comp_def, find_who_of_mem hd ha]
    rfl
  simp only [shareFor, hfind]

theorem shareFor_map_of_none {cs : List Counted} (g : Counted → Nat) {w : Nat} (hw : ∀ a ∈ cs, a.who ≠ w) :
    shareFor (cs.map (fun b => (b.who, g b))) w = 0 := by
  have hfind : (cs.map (fun b => (b.who, g b))).find? (fun y => y.1 = w) = none := by
    simpa [List.find?_eq_none] using hw
  simp only [shareFor, hfind]

theorem shareFor_allocate {cs : List Counted} (hd : distinct cs) (cap : Nat) (missed : List Nat) {a : Counted}
    (ha : a ∈ cs) : shareFor (allocate cap missed cs) a.who
      = grantOf (cs.map boundedReport) (missed.foldl (fun c w => c - w) cap) (boundedReport a) := by
  rw [allocate_eq hd]
  exact shareFor_map (distinct_bounded hd) _ (List.mem_map_of_mem ha)

theorem shareFor_allocate_of_none {cs : List Counted} (hd : distinct cs) (cap : Nat) (missed : List Nat) {w : Nat}
    (hw : ∀ a ∈ cs, a.who ≠ w) : shareFor (allocate cap missed cs) w = 0 := by
  rw [allocate_eq hd]
  refine shareFor_map_of_none _ (fun b hb => ?_)
  obtain ⟨a, ha, rfl⟩ := List.mem_map.1 hb
  exact hw a ha

theorem foldl_sub_mono (missed : List Nat) {c c' : Nat} (h : c' ≤ c) :
    missed.foldl (fun c w => c - w) c' ≤ missed.foldl (fun c w => c - w) c := by
  induction missed generalizing c c' with
  | nil => exact h
  | cons w missed ih => exact ih (Nat.sub_le_sub_right h w)

/-- A member's share is no larger where what is left of the cap after the missed reports is no larger. -/
theorem shareFor_allocate_mono {cs : List Counted} (hd : distinct cs) (w : Nat) {cap cap' : Nat}
    {missed missed' : List Nat}
    (h : missed'.foldl (fun c w => c - w) cap' ≤ missed.foldl (fun c w => c - w) cap) :
    shareFor (allocate cap' missed' cs) w ≤ shareFor (allocate cap missed cs) w := by
  by_cases hw : ∃ a ∈ cs, a.who = w
  · obtain ⟨a, ha, rfl⟩ := hw
    rw [shareFor_allocate hd _ _ ha, shareFor_allocate hd _ _ ha]
    exact grantOf_mono (ordered_bounded cs) (List.mem_map_of_mem ha) h
  · have hnone : ∀ a ∈ cs, a.who ≠ w := fun a ha e => hw ⟨a, ha, e⟩
    simp only [shareFor_allocate_of_none hd _ _ hnone, Nat.le_refl]

end Sys2Proof.Machine

open Sys2Proof Sys2Proof.Machine

/-- Settles O42: a share is `grantOf` of its claimant (`allocate_eq`), whose sum and bounds are
`sum_grantOf_le`, `grantOf_le_max` and `floor_le_grantOf`. -/
theorem groveSharesFitTheCap : Obligations.GroveSharesFitTheCap := by
  unfold Obligations.GroveSharesFitTheCap
  intro cap missed cs hd
  have ho := ordered_bounded cs
  refine ⟨?_, ?_, fun a ha => ?_, fun hcover a ha => ?_⟩
  · rw [allocate_eq hd, shareSum, List.map_map, sumN_eq_sum]
    exact sum_grantOf_le ho _
  · rw [allocate_eq hd, List.map_map, List.map_map]
    rfl
  · rw [shareFor_allocate hd _ _ ha]
    exact grantOf_le_max ho (List.mem_map_of_mem ha) _
  · rw [shareFor_allocate hd _ _ ha]
    refine floor_le_grantOf ho (List.mem_map_of_mem ha) (le_trans (le_of_eq ?_) hcover)
    rw [floorSum, List.map_map]
    rfl

/-- Settles O43: both a smaller cap and one more missed report leave no more to share out (`foldl_sub_mono`), and
`grantOf` is monotone in what is left (`shareFor_allocate_mono`). -/
theorem groveSharesFallWithTheCap : Obligations.GroveSharesFallWithTheCap := by
  unfold Obligations.GroveSharesFallWithTheCap
  intro cap cap' missed cs w hd hcap
  exact ⟨shareFor_allocate_mono hd w (foldl_sub_mono missed hcap),
    fun M => shareFor_allocate_mono hd w (foldl_sub_mono missed (Nat.sub_le cap M))⟩

end

section
/-! The block as a machine (R73, R83 to R85, R392): a step, the state after reset, writes that arrive together, and what
an accepted write and a judged frame change. -/

namespace Sys2Proof.Machine

/-! ### A command goes on -/

/-- The outcome is a next state with the queue as it was. -/
def GoesOn (s : State) (o : Host.Outcome State Fault Refusal) : Prop := ∃ t, o = .next t ∧ t.pending = s.pending

theorem act_goesOn (s : State) (f : Module → Module) : GoesOn s (act s f) := ⟨_, rfl, rfl⟩

theorem act2_goesOn (s : State) (f : NonVol → Module → NonVol × Module) : GoesOn s (act2 s f) := ⟨_, rfl, rfl⟩

/-- Each command acts on the module, or on it and the non-volatile part; nothing else of the state is its own. -/
theorem exec_goesOn (c : Instr) (s : State) : GoesOn s (exec c s) := by
  unfold exec
  cases c with
  | tblDataAccess x p wr => cases wr <;> exact ⟨_, rfl, rfl⟩
  | _ => exact ⟨_, rfl, rfl⟩

/-! ### Writes that arrive together (R73) -/

theorem insMaster_eq_orderedInsert (w : Nat × RegWr) (l : List (Nat × RegWr)) :
    insMaster w l = l.orderedInsert (fun c d => c.1 ≤ d.1) w := by
  induction l with
  | nil => rfl
  | cons v l ih => simp only [insMaster, List.orderedInsert, ih]

/-- The model's order of the writes is the one list of them in which the masters rise. -/
theorem foldr_insMaster_eq {w : Nat × RegWr} {others l : List (Nat × RegWr)} (hperm : l.Perm (w :: others))
    (hrise : l.Pairwise (fun c d => c.1 < d.1)) : others.foldr insMaster [w] = l := by
  have hsort : others.foldr insMaster [w] = (others ++ [w]).insertionSort (fun c d => c.1 ≤ d.1) := by
    rw [List.insertionSort, List.foldr_append]
    congr 1
    exact funext₂ insMaster_eq_orderedInsert
  have hsame : ((others ++ [w]).insertionSort (fun c d => c.1 ≤ d.1)).Perm l :=
    (List.perm_insertionSort _ _).trans ((List.perm_append_singleton w others).trans hperm.symm)
  rw [hsort]
  refine hsame.eq_of_pairwise (le := fun c d => c.1 ≤ d.1) (fun c d hc hd hcd hdc => ?_) ?_
    (hrise.imp (fun h => Nat.le_of_lt h))
  · have hdiff : l.Pairwise (fun a b => a.1 ≠ b.1) := hrise.imp (fun h => Nat.ne_of_lt h)
    by_contra hne
    have hsymm : Std.Symm (fun a b : Nat × RegWr => a.1 ≠ b.1) := ⟨fun _ _ h e => h e.symm⟩
    exact hdiff.forall (hsame.mem_iff.1 hc) hd hne (Nat.le_antisymm hcd hdc)
  · exact List.pairwise_insertionSort _ _

/-! ### Keys -/

theorem mem_insKey_self (l : List Nat) (k : Nat) : k ∈ insKey l k := by
  induction l with
  | nil => exact List.mem_cons_self
  | cons j l ih =>
    simp only [insKey]
    split
    · exact List.mem_cons_self
    · split
      next e => exact e ▸ List.mem_cons_self
      next => exact List.mem_cons_of_mem j ih

theorem contains_insKey_self (l : List Nat) (k : Nat) : (insKey l k).contains k = true :=
  List.contains_iff_mem.2 (mem_insKey_self l k)

theorem mem_putK_self {α : Type} (l : List (Nat × α)) (k : Nat) (v : α) : (k, v) ∈ putK l k v := by
  induction l with
  | nil => exact List.mem_cons_self
  | cons x l ih =>
    simp only [putK]
    split
    · exact List.mem_cons_self
    · split
      · exact List.mem_cons_self
      · exact List.mem_cons_of_mem x ih

theorem mem_of_mem_putK {α : Type} {l : List (Nat × α)} {k : Nat} {v : α} {x : Nat × α} (h : x ∈ putK l k v) :
    x = (k, v) ∨ x ∈ l := by
  induction l with
  | nil => exact Or.inl (List.mem_singleton.1 h)
  | cons y l ih =>
    simp only [putK] at h
    split at h
    · exact List.mem_cons.1 h
    · split at h
      · exact (List.mem_cons.1 h).imp_right (List.mem_cons_of_mem y)
      · rcases List.mem_cons.1 h with rfl | h
        · exact Or.inr List.mem_cons_self
        · exact (ih h).imp_right (List.mem_cons_of_mem y)

theorem mem_putK_of_ne {α : Type} {l : List (Nat × α)} {k : Nat} {x : Nat × α} (h : x ∈ l) (hk : x.1 ≠ k) (v : α) :
    x ∈ putK l k v := by
  induction l with
  | nil => exact absurd h List.not_mem_nil
  | cons y l ih =>
    simp only [putK]
    split
    · exact List.mem_cons_of_mem _ h
    · split
      next e =>
        rcases List.mem_cons.1 h with rfl | h
        · exact absurd e.symm hk
        · exact List.mem_cons_of_mem _ h
      next =>
        rcases List.mem_cons.1 h with rfl | h
        · exact List.mem_cons_self
        · exact List.mem_cons_of_mem y (ih h)

/-! ### Forced values -/

namespace Module

theorem foldl_force_key (l : List (Nat × W32)) (m : Module) (j : Nat) :
    (l.foldl (fun x kv => x.force kv.1 kv.2) m).key j = m.key j := by
  induction l generalizing m with
  | nil => rfl
  | cons kv l ih => rw [List.foldl_cons, ih, key_force]

theorem foldl_force_snap (l : List (Nat × W32)) (m : Module) :
    (l.foldl (fun x kv => x.force kv.1 kv.2) m).snap = m.snap := by
  induction l generalizing m with
  | nil => rfl
  | cons kv l ih => rw [List.foldl_cons, ih, force_snap]

/-- Values that all say the same of a key put it into force. -/
theorem foldl_force_liveKey_of_all {l : List (Nat × W32)} {k : Nat} {v : W32} (hall : ∀ kv ∈ l, kv.1 = k → kv.2 = v)
    (m : Module) (h : (∃ kv ∈ l, kv.1 = k) ∨ m.liveKey k = v) :
    (l.foldl (fun x kv => x.force kv.1 kv.2) m).liveKey k = v := by
  induction l generalizing m with
  | nil => simpa using h
  | cons kv l ih =>
    refine ih (fun x hx => hall x (List.mem_cons_of_mem kv hx)) _ ?_
    by_cases hk : kv.1 = k
    · right
      rw [← hk, liveKey_force_same]
      exact hall kv List.mem_cons_self hk
    · rw [liveKey_force_other _ _ _ _ (Ne.symm hk)]
      rcases h with ⟨x, hx, hxk⟩ | h
      · rcases List.mem_cons.1 hx with rfl | hx
        · exact absurd hxk hk
        · exact Or.inl ⟨x, hx, hxk⟩
      · exact Or.inr h

theorem foldl_force_liveKey_of_none {l : List (Nat × W32)} {k : Nat} (h : ∀ kv ∈ l, kv.1 ≠ k) (m : Module) :
    (l.foldl (fun x kv => x.force kv.1 kv.2) m).liveKey k = m.liveKey k :=
  foldl_force_liveKey_of_all (fun kv hkv e => absurd e (h kv hkv)) m (Or.inr rfl)

/-- The waiting writes of the keys picked, each with the value of the shadow. -/
theorem applyPend_eq (m : Module) (sel : Nat → Bool) : m.applyPend sel =
    { ((m.pend.filter sel).map (fun k => (k, m.key k))).foldl (fun x kv => x.force kv.1 kv.2) m with
      pend := m.pend.filter (fun k => !sel k) } := by
  simp only [applyPend, List.foldl_map]

theorem applyPend_snap (m : Module) (sel : Nat → Bool) : (m.applyPend sel).snap = m.snap := by
  rw [applyPend_eq]
  exact foldl_force_snap _ _

/-- A waiting write of a key that is picked goes into force. -/
theorem applyPend_liveKey_of_mem {m : Module} {sel : Nat → Bool} {k : Nat} (hk : k ∈ m.pend) (hsel : sel k = true) :
    (m.applyPend sel).liveKey k = m.key k := by
  rw [applyPend_eq]
  refine foldl_force_liveKey_of_all (fun kv hkv e => ?_) m (Or.inl ⟨(k, m.key k), ?_, rfl⟩)
  · obtain ⟨j, -, rfl⟩ := List.mem_map.1 hkv
    exact congrArg m.key e
  · exact List.mem_map.2 ⟨k, List.mem_filter.2 ⟨hk, hsel⟩, rfl⟩

theorem applySnap_liveKey_of_all {m : Module} {sel : Nat → Bool} {k : Nat} {v : W32}
    (hall : ∀ kv ∈ m.snap, kv.1 = k → kv.2 = v) (h : (sel k = true ∧ ∃ kv ∈ m.snap, kv.1 = k) ∨ m.liveKey k = v) :
    (m.applySnap sel).liveKey k = v := by
  refine foldl_force_liveKey_of_all (fun kv hkv => hall kv (List.mem_of_mem_filter hkv)) m (h.imp_left ?_)
  rintro ⟨hsel, kv, hkv, rfl⟩
  exact ⟨kv, List.mem_filter.2 ⟨hkv, hsel⟩, rfl⟩

theorem applySnap_liveKey_of_none {m : Module} {sel : Nat → Bool} {k : Nat} (h : ∀ kv ∈ m.snap, kv.1 = k → sel k = false) :
    (m.applySnap sel).liveKey k = m.liveKey k := by
  refine foldl_force_liveKey_of_none (fun kv hkv e => ?_) m
  obtain ⟨hkv, hsel⟩ := List.mem_filter.1 hkv
  rw [e, h kv hkv e] at hsel
  exact Bool.false_ne_true hsel

end Module

/-! ### An accepted write (R83 to R85) -/

namespace Module

theorem applyWrite_key_same (m : Module) (k : Nat) (v : W32) : (m.applyWrite k v).key k = v := by
  have h : (m.setKey k v).key k = v := key_setKey_same m k v
  simp only [applyWrite]
  cases effOf k
  case live => dsimp only; split <;> exact h
  all_goals exact h

theorem applyWrite_key_other (m : Module) {k j : Nat} (v : W32) (hj : j ≠ k) : (m.applyWrite k v).key j = m.key j := by
  have h : (m.setKey k v).key j = m.key j := key_setKey_other m k j v hj
  simp only [applyWrite]
  cases effOf k
  case live => dsimp only; split <;> exact h
  all_goals exact h

theorem applyWrite_liveKey_other (m : Module) {k j : Nat} (v : W32) (hj : j ≠ k) :
    (m.applyWrite k v).liveKey j = m.liveKey j := by
  have h : ∀ m' : Module, (m'.force k v).liveKey j = m'.liveKey j := fun m' => liveKey_force_other m' k j v hj
  simp only [applyWrite]
  cases effOf k
  case live =>
    dsimp only
    split
    · rfl
    · exact h _
  case group => rfl
  all_goals exact h _

/-- The parts of the module that an accepted write may change. -/
theorem applyWrite_parts (m : Module) (k : Nat) (v : W32) : m.applyWrite k v =
    { m with regs := (m.applyWrite k v).regs, live := (m.applyWrite k v).live, pend := (m.applyWrite k v).pend,
             unc := (m.applyWrite k v).unc, ovr := insKey m.ovr k, defer := m.defer.filter (fun kv => kv.1 ≠ k) } := by
  simp only [applyWrite]
  cases effOf k
  case live => dsimp only; split <;> rfl
  all_goals rfl

theorem applyWrite_snap (m : Module) (k : Nat) (v : W32) : (m.applyWrite k v).snap = m.snap := by
  rw [applyWrite_parts]

end Module

/-! ### What a key's boundary is judged by (R83) -/

theorem page_lt_of_blkOf {p : Nat} {q : Blk × Nat} (h : blkOf p = some q) : p < 240 := by
  by_contra hp
  rw [blkOf_top_pages (Nat.not_lt.1 hp)] at h
  exact Option.some_ne_none q h.symm

set_option maxRecDepth 4000 in
theorem blkOf_rail {p r : Nat} (h : blkOf p = some (.rail, r)) : p = pgRail + r ∧ r < 12 := by
  have hall : ∀ p < 240, (blkOf p).all (fun q => q.1 ≠ .rail || (p = pgRail + q.2 && q.2 < 12)) = true := by decide
  simpa [h] using hall p (page_lt_of_blkOf h)

/-- CTRL acts at once. -/
theorem effOf_ctrl {p : Nat} (hp : p < 240) : effOf (rkey p CTRL) = .now := by
  have hin : rkey p CTRL < 65536 := by simp only [rkey, CTRL]; omega
  have hrow : ∀ b, rowOf b CTRL = some ⟨CTRL, .rw, .now, 0, 0xFFFFFFFF⟩ := fun _ => rfl
  simp only [effOf, if_pos hin, rkey_off p (by decide : CTRL < 256), hrow]
  split <;> rfl

theorem effOf_railStatus {r : Nat} (h : r < 12) : effOf (rkey (pgRail + r) RAIL_STATUS_STATE.off) = .now := by
  revert r
  decide

theorem effOf_seqStatus : effOf (rkey pgSeq SEQ_STATUS_STATE.off) = .now := rfl

/-- A table word of the coefficient page belongs to a rail's group or to none. -/
theorem cle_word_group_lt {n t i r : Nat} {row : TRow} (hrow : tblRow .cle n t i = some row)
    (hgroup : row.eff = .group r) : r < 12 := by
  obtain _ | _ | _ | _ | t := t
  case succ.succ.succ.succ => exact absurd hrow (Option.some_ne_none row).symm
  all_goals
    simp only [tblRow] at hrow
    (repeat' split at hrow) <;> simp only [Option.some.injEq, reduceCtorEq] at hrow <;> subst hrow <;>
      simp only [roWord, pairWord, pairBits, Eff.group.injEq, reduceCtorEq] at hgroup
    all_goals omega

/-- The groups of the coefficient page are the rails (R225). -/
theorem cle_group_lt {k n r : Nat} (hblk : blkOf (pageOfKey k) = some (.cle, n)) (heff : effOf k = .group r) :
    r < 12 := by
  have hregs : ∀ row ∈ blkRows .cle ++ blkRows .hdr, ∀ g, row.eff ≠ .group g := by
    have hnow : ∀ row ∈ blkRows .cle ++ blkRows .hdr, row.eff = .now ∨ row.eff = .live := by decide
    intro row hrow g heq
    rcases hnow row hrow with h | h <;> rw [h] at heq <;> exact Eff.noConfusion heq
  unfold effOf at heff
  split at heff
  next hin =>
    have hpage : pageOfKey k = k / 256 := if_pos hin
    rw [← hpage, hblk] at heff
    cases hrow : rowOf .cle (k % 256) with
    | none => simp only [hrow, reduceCtorEq] at heff
    | some row =>
      simp only [hrow] at heff
      refine absurd heff (hregs row ?_ r)
      have hmem := List.mem_of_find?_eq_some hrow
      split at hmem
      · exact List.mem_append_right _ hmem
      · exact List.mem_append_left _ hmem
  next =>
    rw [hblk] at heff
    generalize (k / 65536 - 1) % 16 = t at heff
    generalize k % 65536 = i at heff
    cases hrow : tblRow .cle n t i with
    | none => simp only [hrow, reduceCtorEq] at heff
    | some row =>
      simp only [hrow] at heff
      exact cle_word_group_lt hrow heff

namespace Module

/-- What says whether a key waits lies in registers that act at once, so a write of a field that does not is no part
of it. -/
theorem waits_setKey {m : Module} {k : Nat} (v : W32) (heff : effOf k ≠ .now) : (m.setKey k v).waits k = m.waits k := by
  have hother : ∀ p off, effOf (rkey p off) = .now → (m.setKey k v).reg p off = m.reg p off := fun p off h =>
    key_setKey_other m k _ v (fun e => heff (e ▸ h))
  have hrun : ∀ b n, blkOf (pageOfKey k) = some (b, n) → (m.setKey k v).en (pageOfKey k) = m.en (pageOfKey k) := fun b n hblk => by
    simp only [en, hblk, hother _ _ (effOf_ctrl (page_lt_of_blkOf hblk))]
  have hrail : ∀ r, r < 12 → (m.setKey k v).get (pgRail + r) RAIL_STATUS_STATE = m.get (pgRail + r) RAIL_STATUS_STATE :=
    fun r hr => by simp only [get, hother _ _ (effOf_railStatus hr)]
  unfold waits
  cases hblk : blkOf (pageOfKey k) with
  | none => simp only [en, hblk]
  | some q =>
    obtain ⟨b, n⟩ := q
    cases b
    case rail => simp only [hrail n (blkOf_rail hblk).2]
    case cle =>
      cases heffk : effOf k
      case group r => simp only [hrail r (cle_group_lt hblk heffk)]
      all_goals exact hrun _ _ hblk
    case seqtbl =>
      have hseq : (m.setKey k v).get pgSeq SEQ_STATUS_STATE = m.get pgSeq SEQ_STATUS_STATE := by
        simp only [get, hother _ _ effOf_seqStatus]
      simp only [hseq]
    all_goals exact hrun _ _ hblk

/-- An accepted write of a field that does not act at once changes nothing that its boundary is judged by. -/
theorem waits_applyWrite {m : Module} {k : Nat} (v : W32) (heff : effOf k ≠ .now) :
    (m.applyWrite k v).waits k = m.waits k := by
  have hregs : (m.applyWrite k v).waits k = (m.setKey k v).waits k := by
    simp only [applyWrite]
    cases effOf k
    case live => dsimp only; split <;> rfl
    all_goals rfl
  exact hregs.trans (waits_setKey v heff)

/-- A Live field waits for the boundary of its block, or is in force at once (R83). -/
theorem applyWrite_live {m : Module} {k : Nat} (v : W32) (hlive : effOf k = .live) : m.applyWrite k v =
    let m' := { m.setKey k v with ovr := insKey m.ovr k, defer := m.defer.filter (fun kv => kv.1 ≠ k) }
    if m.waits k then { m' with pend := insKey m.pend k } else m'.force k v := by
  rw [← waits_setKey v (by simp [hlive])]
  simp only [applyWrite, hlive]
  rfl

/-- A field of a group is taken up among those that are written and not committed (R85). -/
theorem applyWrite_group {m : Module} {k g : Nat} (v : W32) (hgroup : effOf k = .group g) :
    (m.applyWrite k v).live = m.live ∧ (m.applyWrite k v).unc = insKey m.unc k := by
  simp only [applyWrite, hgroup]
  exact ⟨rfl, rfl⟩

/-! ### Boundaries and COMMIT (R83, R85) -/

/-- A boundary puts a waiting write into force where no snapshot of the key waits too. -/
theorem boundary_liveKey_of_pend {m : Module} {k : Nat} (hk : k ∈ m.pend) (hsnap : ∀ kv ∈ m.snap, kv.1 ≠ k) :
    (m.boundary (pageOfKey k)).liveKey k = m.key k := by
  simp only [boundary]
  rw [applySnap_liveKey_of_none (fun kv hkv e => absurd e (hsnap kv (applyPend_snap m _ ▸ hkv)))]
  exact applyPend_liveKey_of_mem hk (decide_eq_true rfl)

/-- The snapshots of the keys that a COMMIT takes. -/
def snapped (m : Module) (ks : List Nat) (l : List (Nat × W32)) : List (Nat × W32) :=
  ks.foldl (fun l k => putK l k (m.key k)) l

theorem foldl_snap_eq (cs : List Nat) (m : Module) :
    cs.foldl (fun x k => { x with snap := putK x.snap k (x.key k) }) m = { m with snap := m.snapped cs m.snap } := by
  induction cs generalizing m with
  | nil => rfl
  | cons k cs ih => rw [List.foldl_cons, ih]; rfl

theorem commit_eq (m : Module) (p : Nat) (ks : Nat → Bool) : m.commit p ks =
    Module.applySnap { m with unc := m.unc.filter (fun k => !ks k), snap := m.snapped (m.unc.filter ks) m.snap }
      (fun k => decide (pageOfKey k = p) && !m.waits k) := by
  simp only [commit, foldl_snap_eq]
  rfl

/-- Of a key that had no snapshot, the snapshots taken hold the value of the shadow. -/
theorem snapped_all {m : Module} {k : Nat} {l : List (Nat × W32)} (hl : ∀ kv ∈ l, kv.1 = k → kv.2 = m.key k)
    (cs : List Nat) : ∀ kv ∈ m.snapped cs l, kv.1 = k → kv.2 = m.key k := by
  induction cs generalizing l with
  | nil => exact hl
  | cons c cs ih =>
    refine ih (fun kv hkv e => ?_)
    rcases mem_of_mem_putK hkv with rfl | hkv
    · exact congrArg m.key e
    · exact hl kv hkv e

theorem snapped_exists {m : Module} {k : Nat} {l : List (Nat × W32)} {cs : List Nat}
    (h : k ∈ cs ∨ ∃ kv ∈ l, kv.1 = k) : ∃ kv ∈ m.snapped cs l, kv.1 = k := by
  induction cs generalizing l with
  | nil => exact h.resolve_left List.not_mem_nil
  | cons c cs ih =>
    refine ih ?_
    by_cases hc : k = c
    · exact Or.inr ⟨(c, m.key c), mem_putK_self _ _ _, hc.symm⟩
    · refine h.imp (fun h => (List.mem_cons.1 h).resolve_left hc) ?_
      rintro ⟨kv, hkv, e⟩
      exact ⟨kv, mem_putK_of_ne hkv (fun e' => hc (e.symm.trans e')) _, e⟩

section
variable {m : Module} {k : Nat} {ks : Nat → Bool} (hunc : k ∈ m.unc) (hks : ks k = true)
  (hsnap : ∀ kv ∈ m.snap, kv.1 ≠ k)
include hunc hks hsnap

/-- Where no boundary comes, a committed key takes force at once (R85). -/
theorem commit_liveKey_now (hw : m.waits k = false) : (m.commit (pageOfKey k) ks).liveKey k = m.key k := by
  rw [commit_eq]
  refine applySnap_liveKey_of_all (snapped_all (fun kv hkv e => absurd e (hsnap kv hkv)) _) (Or.inl ⟨by simp [hw], ?_⟩)
  exact snapped_exists (Or.inl (List.mem_filter.2 ⟨hunc, hks⟩))

/-- Else it takes force at the boundary after it (R85). -/
theorem commit_liveKey_waits (hw : m.waits k = true) : (m.commit (pageOfKey k) ks).liveKey k = m.liveKey k
    ∧ ((m.commit (pageOfKey k) ks).boundary (pageOfKey k)).liveKey k = m.key k := by
  have hall := snapped_all (m := m) (fun kv hkv e => absurd e (hsnap kv hkv)) (m.unc.filter ks)
  have hex := snapped_exists (m := m) (l := m.snap) (Or.inl (List.mem_filter.2 ⟨hunc, hks⟩))
  rw [commit_eq]
  refine ⟨applySnap_liveKey_of_none (fun kv _ _ => by simp [hw]), ?_⟩
  generalize hsel : (fun j => decide (pageOfKey j = pageOfKey k) && !m.waits j) = sel
  have hskip : sel k = false := by simp [← hsel, hw]
  simp only [boundary]
  refine applySnap_liveKey_of_all ?_ (Or.inl ⟨decide_eq_true rfl, ?_⟩)
  · rw [applyPend_snap]
    exact fun kv hkv => hall kv (List.mem_of_mem_filter hkv)
  · rw [applyPend_snap]
    obtain ⟨kv, hkv, rfl⟩ := hex
    exact ⟨kv, List.mem_filter.2 ⟨hkv, by simp [hskip]⟩, rfl⟩

end
end Module

/-! ### A frame judged twice (R392) -/

namespace Module

theorem setDup_dup (m : Module) (d : List DupEnt) : (m.setDup d).net.dup = d := rfl

/-- A source whose entry holds the sequence number, as its newest or in its window, is a duplicate. -/
theorem dupJudge_of_held {m : Module} {mac q : Nat} {d : DupEnt} (p : Nat)
    (hfind : m.net.dup.find? (fun x => x.mac = mac) = some d)
    (hheld : (q + 65536 - d.h) % 65536 = 0
      ∨ ((d.h + 65536 - q) % 65536 < 32 ∧ bit d.w ((d.h + 65536 - q) % 65536) = true)) :
    (m.dupJudge p mac q).2 = false := by
  have hfind' : (m.updNet (fun n => { n with stamp := n.stamp + 1 })).net.dup.find? (fun x => x.mac = mac) = some d :=
    hfind
  simp only [dupJudge, hfind']
  rw [if_pos (by simpa using hheld)]

/-- An entry replaced in the table is the one that its source finds. -/
theorem find_map_replaced {l : List DupEnt} {mac : Nat} {d d' : DupEnt} (hfind : l.find? (fun x => x.mac = mac) = some d)
    (hmac : d'.mac = mac) : (l.map (fun x => if x.mac = mac then d' else x)).find? (fun x => x.mac = mac) = some d' := by
  induction l with
  | nil => exact absurd hfind (Option.some_ne_none d).symm
  | cons x l ih =>
    by_cases hx : x.mac = mac
    · simp [hx, hmac]
    · rw [List.find?_cons_of_neg (by simpa using hx)] at hfind
      rw [List.map_cons, if_neg hx, List.find?_cons_of_neg (by simpa using hx)]
      exact ih hfind

theorem find_append_entered {l : List DupEnt} {mac : Nat} {d : DupEnt} (hnone : l.find? (fun x => x.mac = mac) = none)
    (hmac : d.mac = mac) : (l ++ [d]).find? (fun x => x.mac = mac) = some d := by
  simp [hnone, hmac]

/-- Only an empty table has no entry that was heard longest ago. -/
theorem foldl_oldest_eq_none {l : List DupEnt} (h : l.foldl (fun b d => match b with
      | none => some d | some x => if d.heard < x.heard then some d else some x) none = none) : l = [] := by
  have hsome : ∀ (l : List DupEnt) (x : DupEnt), l.foldl (fun b d => match b with
      | none => some d | some x => if d.heard < x.heard then some d else some x) (some x) ≠ none := by
    intro l
    induction l with
    | nil => exact fun x => Option.some_ne_none x
    | cons d l ih =>
      intro x
      simp only [List.foldl_cons]
      split <;> exact ih _
  cases l with
  | nil => rfl
  | cons d l => exact absurd h (hsome l d)

/-- After a frame was accepted, the entry of its source holds its sequence number. -/
theorem dupJudge_holds {m : Module} {p mac q : Nat} (hacc : (m.dupJudge p mac q).2 = true) :
    ∃ d, (m.dupJudge p mac q).1.net.dup.find? (fun x => x.mac = mac) = some d
      ∧ ((q + 65536 - d.h) % 65536 = 0
        ∨ ((d.h + 65536 - q) % 65536 < 32 ∧ bit d.w ((d.h + 65536 - q) % 65536) = true)) := by
  have hnew : (q + 65536 - q) % 65536 = 0 := by omega
  cases hfind : m.net.dup.find? (fun x => x.mac = mac) with
  | some d =>
    have hfind' : (m.updNet (fun n => { n with stamp := n.stamp + 1 })).net.dup.find? (fun x => x.mac = mac) = some d :=
      hfind
    have hmac : d.mac = mac := by simpa using List.find?_some hfind
    simp only [dupJudge, hfind'] at hacc ⊢
    split at hacc
    · exact absurd hacc Bool.false_ne_true
    next hheld =>
      rw [if_neg hheld]
      split
      next hb =>
        refine ⟨_, find_map_replaced hfind' hmac, Or.inr ⟨hb, bit_setBit_same _ _ hb⟩⟩
      next =>
        split
        · exact ⟨_, find_map_replaced hfind' hmac, Or.inl hnew⟩
        · exact ⟨_, find_map_replaced hfind' hmac, Or.inl hnew⟩
  | none =>
    have hfind' : (m.updNet (fun n => { n with stamp := n.stamp + 1 })).net.dup.find? (fun x => x.mac = mac) = none :=
      hfind
    simp only [dupJudge, hfind']
    split
    · exact ⟨_, find_append_entered hfind' rfl, Or.inl hnew⟩
    · refine ⟨_, find_append_entered (List.find?_eq_none.2 (fun x hx => ?_)) rfl, Or.inl hnew⟩
      exact List.find?_eq_none.1 hfind' x (List.mem_of_mem_filter hx)
    next hfree hold =>
      rw [foldl_oldest_eq_none hold] at hfree
      exact absurd hfree (by decide)

end Module

/-! ### The host's summary (R78, R106, R510) -/

/-- A powered module whose MBOX channel 0 is FULL for the host over the two-wire target. -/
def hostFullModule : Module :=
  (poweredModule.setTbl pgMbox 8 0 0x100000).put pgMbox ⟨MBOX_ACK_L0, 16, 4⟩ 1

end Sys2Proof.Machine

open Sys2Proof Sys2Proof.Machine

/-- Settles O1: `step` matches on the queue. -/
theorem stepRunsTheFrontCommand : Obligations.StepRunsTheFrontCommand := by
  unfold Obligations.StepRunsTheFrontCommand
  intro c cs s hq
  simp only [step, hq]

/-- Settles O2: an empty queue is `idle`, which asks `powered` and `txStep`. -/
theorem emptyQueueTransmitsOrIdles : Obligations.EmptyQueueTransmitsOrIdles := by
  unfold Obligations.EmptyQueueTransmitsOrIdles
  intro s hq
  refine ⟨fun hoff => ?_, fun hon hnone => ?_, fun m hon hsome => ?_⟩
  · simp [step, hq, idle, hoff]
  · simp [step, hq, idle, hon, hnone]
  · simp [step, hq, idle, hon, hsome]

/-- Settles O3 with `exec_goesOn`. -/
theorem everyCommandGoesOn : Obligations.EveryCommandGoesOn := by
  unfold Obligations.EveryCommandGoesOn
  exact exec_goesOn

/-- Settles O4: an empty register file reads its defaults; the words named are evaluated. -/
theorem resetState : Obligations.ResetState := by
  unfold Obligations.ResetState
  exact ⟨rfl, rfl, fun _ => ⟨rfl, rfl⟩, by decide, by decide, by decide, by decide, by decide, by decide⟩

/-- Settles O9 with `reset_form`; the entries and sizes of the reset state are evaluated. -/
theorem invariantsAtReset : Obligations.InvariantsAtReset := by
  unfold Obligations.InvariantsAtReset
  obtain ⟨hmram, hsram⟩ := reset_form
  exact ⟨hmram, hsram, ⟨rfl, rfl, rfl, rfl, rfl, by decide⟩, by decide, by decide, by decide⟩

/-- Settles O15: an accepted write by its class (`applyWrite_live`, `applyWrite_group`), and what a boundary and a
COMMIT make of it (`boundary_liveKey_of_pend`, `commit_liveKey_now`, `commit_liveKey_waits`). -/
theorem writesTakeEffectByClass : Obligations.WritesTakeEffectByClass := by
  unfold Obligations.WritesTakeEffectByClass
  intro m k v hsnap w p
  have hkey : w.key k = v := m.applyWrite_key_same k v
  have hfree : ∀ kv ∈ w.snap, kv.1 ≠ k := by
    rw [show w.snap = m.snap from m.applyWrite_snap k v]
    simpa using hsnap
  refine ⟨hkey, fun hlive hw => ?_, fun hlive hw => ?_, fun g hgroup => ?_⟩
  · simp only [w, Module.applyWrite_live v hlive, hw]
    exact Module.liveKey_force_same _ k v
  · have hdef : w = _ := Module.applyWrite_live v hlive
    simp only [hw, if_true] at hdef
    have hpend : k ∈ w.pend := by rw [hdef]; exact mem_insKey_self m.pend k
    exact ⟨by rw [hdef]; rfl, (Module.boundary_liveKey_of_pend hpend hfree).trans hkey⟩
  · obtain ⟨hlive, hunc⟩ := Module.applyWrite_group (m := m) v hgroup
    have hsame : w.liveKey k = m.liveKey k := congrArg (getK resetVal · k) hlive
    have hmem : k ∈ w.unc := by rw [show w.unc = _ from hunc]; exact mem_insKey_self m.unc k
    have hks : inGroup p g k = true := by simp [inGroup, p, hgroup]
    refine ⟨hsame, fun hw => (Module.commit_liveKey_now hmem hks hfree hw).trans hkey, fun hw => ?_⟩
    obtain ⟨hstay, hforce⟩ := Module.commit_liveKey_waits hmem hks hfree hw
    exact ⟨hstay.trans hsame, hforce.trans hkey⟩

/-- Refutes O16: a page of MBOX also asks for the host while one of its channels is FULL for the host over the two-wire
target (R510, `Module.hostFull`), with no event raised and enabled. -/
theorem not_raisedAndEnabledAsksForTheHost : ¬ Obligations.RaisedAndEnabledAsksForTheHost := by
  unfold Obligations.RaisedAndEnabledAsksForTheHost
  intro h
  have hbit : bit (hostFullModule.irqSum (pgMbox / 32)) (pgMbox % 32) = true := by decide
  have hevents : decide (hostFullModule.reg pgMbox EVT_RAW &&& hostFullModule.reg pgMbox EVT_EN ≠ 0) = false := by decide
  have hsame := h hostFullModule pgMbox (by decide) (by decide)
  rw [hbit, hevents] at hsame
  exact Bool.false_ne_true hsame.symm

/-- Settles O36: the model's order of the writes is the list in which the masters rise (`foldr_insMaster_eq`). -/
theorem writesThatArriveTogether : Obligations.WritesThatArriveTogether := by
  unfold Obligations.WritesThatArriveTogether
  intro s m x a v others l hon hperm hrise
  have harm : exec (.registerWrite x a v others) s = act2 s (fun nv m =>
      (others.foldr insMaster [(x, ⟨a, v⟩)]).foldl (fun z w => z.2.busDo z.1 w.1 false [w.2]) (nv, m)) := rfl
  simp only [harm, foldr_insMaster_eq hperm hrise, act2, ← hon.1]

/-- Settles O38 with the lemmas on `applyWrite`. -/
theorem frameOfAppliedWrite : Obligations.FrameOfAppliedWrite := by
  unfold Obligations.FrameOfAppliedWrite
  intro m k v
  have hparts := m.applyWrite_parts k v
  refine ⟨fun j hj => m.applyWrite_key_other v hj, fun j hj => m.applyWrite_liveKey_other v hj, ?_, ?_⟩
  · rw [hparts]
  · rw [hparts]

/-- Settles O45: an accepted frame's entry holds its number (`dupJudge_holds`), and what an entry holds is a duplicate
on either port (`dupJudge_of_held`). -/
theorem secondCopyIsDiscarded : Obligations.SecondCopyIsDiscarded := by
  unfold Obligations.SecondCopyIsDiscarded
  intro m p p' mac q _ _ hacc
  obtain ⟨d, hfind, hheld⟩ := Module.dupJudge_holds hacc
  exact Module.dupJudge_of_held p' hfind hheld

end

section
/-! A change of profile and the overridden registers (R35 to R37): each step of it leaves them as they are. -/

namespace Sys2Proof.Machine

/-- A register's shadow and value in force, and all override marks, are as before. -/
structure KeepsKey (k : Nat) (m m' : Module) : Prop where
  key : m'.key k = m.key k
  live : m'.liveKey k = m.liveKey k
  ovr : m'.ovr = m.ovr

namespace KeepsKey

theorem refl {k : Nat} (m : Module) : KeepsKey k m m := ⟨rfl, rfl, rfl⟩

theorem trans {k : Nat} {m m' m'' : Module} (h : KeepsKey k m m') (h' : KeepsKey k m' m'') : KeepsKey k m m'' :=
  ⟨h'.key.trans h.key, h'.live.trans h.live, h'.ovr.trans h.ovr⟩

/-- A fold of steps that keep the register where it is overridden keeps it. -/
theorem foldl {α : Type} {k : Nat} (f : Module → α → Module)
    (h : ∀ m x, m.ovr.contains k = true → KeepsKey k m (f m x)) (l : List α) {m : Module}
    (ho : m.ovr.contains k = true) : KeepsKey k m (l.foldl f m) := by
  induction l generalizing m with
  | nil => exact refl m
  | cons x l ih =>
    have hx := h m x ho
    exact hx.trans (ih (hx.ovr ▸ ho))

end KeepsKey

namespace Module

theorem keepsKey_setKey (m : Module) {k j : Nat} (v : W32) (h : k ≠ j) : KeepsKey k m (m.setKey j v) :=
  ⟨key_setKey_other m j k v h, rfl, rfl⟩

theorem keepsKey_setBoth (m : Module) {k j : Nat} (v : W32) (h : k ≠ j) : KeepsKey k m (m.setBoth j v) :=
  ⟨key_setKey_other m j k v h, liveKey_force_other _ j k v h, rfl⟩

/-- A default goes to its own key, and there not over an override (R36, R37). -/
theorem keepsKey_profKey (m : Module) {k : Nat} (j : Nat) (v : W32) (ho : m.ovr.contains k = true) :
    KeepsKey k m (m.profKey j v) := by
  unfold profKey
  split
  · exact .refl m
  next hskip =>
    have hkj : k ≠ j := fun e => hskip (by simp only [profSkips, ← e, ho, Bool.true_or])
    have hkey := m.keepsKey_setKey v hkj
    have hboth := m.keepsKey_setBoth v hkj
    cases effOf j <;> dsimp only
    case now => exact hboth
    case stop =>
      split
      · exact ⟨rfl, rfl, rfl⟩
      · exact ⟨hboth.key, hboth.live, hboth.ovr⟩
    all_goals
      split
      · exact ⟨hkey.key, rfl, rfl⟩
      · exact hboth

/-- The registers of a profile lie apart from those that follow a change of profile. -/
theorem profileKey_off {k : Nat} (h : profileKey k) :
    k % 256 ∉ [EVT_RAW, RAIL_PER_TAPS, RAIL_CAPACITY, 0xFC] := by
  rcases h with ⟨r, hr, rfl | rfl | rfl⟩ | rfl | rfl | rfl
  case inr.inl | inr.inr.inl | inr.inr.inr => decide
  all_goals
    rw [rkey_off _ (by decide)]
    decide

theorem ne_rkey_of_off {k p off : Nat} {l : List Nat} (h : k % 256 ∉ l) (hmem : off ∈ l) (hlt : off < 256) : k ≠ rkey p off :=
  fun e => h (by rwa [e, rkey_off p hlt])

section
variable {k : Nat} (hk : k % 256 ∉ [EVT_RAW, RAIL_PER_TAPS, RAIL_CAPACITY, 0xFC])
include hk

theorem keepsKey_perTaps (m : Module) (r : Nat) : KeepsKey k m (m.perTaps r) :=
  m.keepsKey_setKey _ (ne_rkey_of_off hk (by decide) (by decide))

theorem keepsKey_profShed (m : Module) (r : Nat) (w dwell : W32) (ho : m.ovr.contains k = true) :
    KeepsKey k m (m.profShed r w dwell) := by
  have hpct : k ≠ pctKey r := ne_rkey_of_off hk (by decide) (by decide)
  unfold profShed
  split
  · exact .refl m
  · dsimp only
    split
    · exact (m.keepsKey_setKey _ (ne_rkey_of_off hk (by decide) (by decide))).trans
        (keepsKey_setKey _ _ (ne_rkey_of_off hk (by decide) (by decide)))
    · refine (m.keepsKey_profKey (rkey (pgRail + r) RAIL_SHED_CFG) dwell ho).trans ?_
      split
      · have hkey := fun m' : Module => m'.keepsKey_setKey w hpct
        exact ⟨(hkey _).key, rfl, rfl⟩
      · exact keepsKey_setBoth _ w hpct

theorem keepsKey_profOnRail (sel : Nat) (m : Module) (r : Nat) (ho : m.ovr.contains k = true) :
    KeepsKey k m (profOnRail sel m r) := by
  have hrail : KeepsKey k m ((profRail sel).foldl (fun m x =>
      if x.1 = RAIL_SHED_CFG then m else m.profKey (rkey (pgRail + r) x.1) x.2) m) := by
    refine KeepsKey.foldl _ (fun m x ho => ?_) _ ho
    split
    · exact .refl m
    · exact m.keepsKey_profKey _ _ ho
  have hshed := hrail.trans (keepsKey_profShed hk _ r (profPct sel) (nth (0, 0) (profRail sel) 2).2 (hrail.ovr ▸ ho))
  simp only [profOnRail]
  split
  · exact hshed
  · exact hshed.trans (keepsKey_perTaps hk _ r)

theorem keepsKey_profile (m : Module) (sel : Nat) (ho : m.ovr.contains k = true) : KeepsKey k m (m.profile sel) := by
  have hrails := KeepsKey.foldl (profOnRail sel) (keepsKey_profOnRail hk sel) (List.range (nRails m.sys.part)) ho
  exact hrails.trans (KeepsKey.foldl _ (fun m x ho => m.keepsKey_profKey _ _ ho) _ (hrails.ovr ▸ ho))

end

end Module

end Sys2Proof.Machine

open Sys2Proof Sys2Proof.Machine

/-- Settles O37: an accepted write marks its key, and each step of a change of profile keeps an overridden one
(`keepsKey_profile`). -/
theorem profileKeepsOverridden : Obligations.ProfileKeepsOverridden := by
  unfold Obligations.ProfileKeepsOverridden
  intro m k sel v
  refine ⟨?_, fun hk ho => ?_⟩
  · rw [Module.applyWrite_parts]
    exact contains_insKey_self m.ovr k
  · obtain ⟨hkey, hlive, hovr⟩ := Module.keepsKey_profile (Module.profileKey_off hk) m sel ho
    exact ⟨hkey, hlive, hovr⟩

end

section
/-! The events of rails and phases (O17): each function of a unit takes the branch that its row names. -/

namespace Sys2Proof.Machine

/-! ### The outcome of a command in a powered module -/

theorem On.turns_act {s : State} {m m' : Module} {c : Instr} (f : Module → Module) (hon : On s m)
    (hexec : exec c s = act s f) (hf : f m = m') : Turns c s m' := by
  obtain ⟨rfl, -⟩ := hon
  rw [Turns, hexec, act, hf]

theorem On.turns_live {s : State} {m m' : Module} {c : Instr} (f : Module → Module) (hon : On s m)
    (hexec : exec c s = actLive s f) (hf : f m = m') : Turns c s m' :=
  hon.turns_act _ hexec (by rw [if_pos hon.2, hf])

theorem On.turns_at {s : State} {m m' : Module} {c : Instr} {i : Nat} {n : Nat → Nat}
    (f : Module → Module) (hon : On s m) (hexec : exec c s = actAt i n s f) (hi : i < n m.sys.part) (hf : f m = m') :
    Turns c s m' :=
  hon.turns_live (fun m => if i < n m.sys.part then f m else m) hexec (by rw [if_pos hi, hf])

/-! ### What the time of a command leaves as it is -/

namespace Module

variable (m : Module) (cyc r n : Nat)

@[simp] theorem arriveAt_rlRuns : (m.arriveAt cyc).rlRuns r = m.rlRuns r := rfl
@[simp] theorem arriveAt_rlSt : (m.arriveAt cyc).rlSt r = m.rlSt r := rfl
@[simp] theorem arriveAt_rail : (m.arriveAt cyc).rail r = m.rail r := rfl
@[simp] theorem arriveAt_phase : (m.arriveAt cyc).phase n = m.phase n := rfl
@[simp] theorem arriveAt_actives : (m.arriveAt cyc).actives r = m.actives r := rfl
@[simp] theorem arriveAt_get (p : Nat) (f : Fld) : (m.arriveAt cyc).get p f = m.get p f := rfl
@[simp] theorem arriveAt_val (p off : Nat) : (m.arriveAt cyc).val p off = m.val p off := rfl

end Module

namespace Module

/-- A free value drawn for a probe touches no register. -/
@[simp] theorem probeResp_cfg (m : Module) (n p : Nat) (f : Fld) : (m.probeResp n).2.cfg p f = m.cfg p f := by
  by_cases h : (m.phase n).prCntA = 0 ∨ (m.phase n).prCntB = 0
  · simp only [probeResp, h, Bool.or_eq_true, decide_eq_true_eq, if_true]; rfl
  · simp only [probeResp, h, Bool.or_eq_true, decide_eq_true_eq, if_false]

end Module

/-! ### The rows -/

theorem railRow_turns {s : State} {m : Module} {c : Instr} {r : (Module → Bool) × (Module → Module)}
    (hon : On s m) (hc : railRow c = some r) (hr : r.1 m = true) : Turns c s (r.2 m) := by
  unfold railRow at hc
  split at hc
  case h_15 => cases hc
  all_goals
    obtain rfl := Option.some.inj hc
    clear hc
    simp only [Bool.and_eq_true, Bool.not_eq_true', decide_eq_true_eq, decide_not] at hr
  case h_1 r x => exact hon.turns_at (fun m => m.loopSample r x) rfl hr.1 rfl
  case h_2 r t =>
    obtain ⟨⟨hi, hrun⟩, hdue⟩ := hr
    exact hon.turns_at (fun m => (m.arrive t).dutyRelease r) rfl hi (if_neg (by simp [hrun, hdue]))
  case h_3 r t => exact hon.turns_at (fun m => (m.arrive t).railPeriod r) rfl hr.1 rfl
  case h_4 r x t =>
    obtain ⟨⟨⟨hi, hrun⟩, hno⟩, habove⟩ := hr
    exact hon.turns_at (fun m => (m.arrive t).truncOn r x) rfl hi (if_neg (by simp [hrun, hno, habove]))
  case h_5 r x t =>
    obtain ⟨⟨hi, htr⟩, hbelow⟩ := hr
    exact hon.turns_at (fun m => (m.arrive t).truncOff r x) rfl hi (if_neg (by simp [htr, hbelow]))
  case h_6 r cyc =>
    obtain ⟨⟨hi, hrun⟩, htr⟩ := hr
    exact hon.turns_at (fun m => (m.arriveAt cyc).overVolt r) rfl hi (if_neg (by simp [hrun, htr]))
  case h_7 r x => exact hon.turns_at (fun m => m.uvFalls r x) rfl hr.1 (if_pos hr.2)
  case h_8 r x => exact hon.turns_at (fun m => m.uvRises r x) rfl hr.1 (if_neg (by simp [hr.2]))
  case h_9 r cyc =>
    obtain ⟨⟨⟨hi, hreg⟩, hlow⟩, hthr⟩ := hr
    exact hon.turns_at (fun m => (m.arriveAt cyc).underVolt r) rfl hi (if_neg (by simp_all))
  case h_10 r mean =>
    obtain ⟨⟨⟨⟨hi, hreg⟩, hadapt⟩, htr⟩, hcur⟩ := hr
    exact hon.turns_at (fun m => m.dtAdapt r mean) rfl hi rfl
  case h_11 r =>
    obtain ⟨⟨hi, hdwell⟩, hrun⟩ := hr
    exact hon.turns_at (fun m => m.dropReady r) rfl hi (if_pos (by simp [hdwell, hrun]))
  case h_12 r cyc =>
    obtain ⟨⟨hi, hsoft⟩, hstall⟩ := hr
    exact hon.turns_at (fun m => (m.arriveAt cyc).ssStall r) rfl hi (if_pos (by simp [hsoft, hstall]))
  case h_13 r cyc =>
    obtain ⟨⟨⟨hi, hsoft⟩, hact⟩, hall⟩ := hr
    exact hon.turns_at (fun m => (m.arriveAt cyc).ssCbc r) rfl hi
      (if_pos (by rw [Bool.and_eq_true, Bool.and_eq_true]; exact ⟨⟨decide_eq_true hsoft, by simpa using hact⟩, hall⟩))
  case h_14 r => exact hon.turns_at (fun m => m.shortRetry r) rfl hr.1 (if_pos hr.2)

theorem phaseRow_turns {s : State} {m : Module} {c : Instr} {r : (Module → Bool) × (Module → Module)}
    (hon : On s m) (hc : phaseRow c = some r) (hr : r.1 m = true) : Turns c s (r.2 m) := by
  unfold phaseRow at hc
  split at hc
  case h_5 => cases hc
  all_goals
    obtain rfl := Option.some.inj hc
    clear hc
    simp only [Bool.and_eq_true, Bool.or_eq_true, Bool.not_eq_true', decide_eq_true_eq] at hr
  case h_1 n x t =>
    obtain ⟨⟨⟨⟨hi, hsw⟩, hobs⟩, habove⟩, hleb⟩ := hr
    have hprot : (m.arrive t).protects n = true := by simp [Module.protects, hsw, hobs]
    exact hon.turns_at (fun m => (m.arrive t).cbcTrip n x) rfl hi (if_neg (by simp [hprot, habove, hleb]))
  case h_2 n x t =>
    obtain ⟨⟨⟨⟨hi, hsw⟩, hobs⟩, hbelow⟩, hbidi⟩ := hr
    have hprot : (m.arrive t).protects n = true := by simp [Module.protects, hsw, hobs]
    refine hon.turns_at (fun m => (m.arrive t).negTrip n x) rfl hi ((if_neg (by simp [hprot, hbelow])).trans ?_)
    by_cases hb : (m.arrive t).bidi ((m.arrive t).railOf n) = true
    · simp only [hb, if_true]; rfl
    · have hlow : (m.arrive t).lowInterval n x.pwm = true := by
        simpa [Module.lowInterval] using hbidi.resolve_left hb
      simp only [hb, hlow]; rfl
  case h_3 n =>
    obtain ⟨⟨⟨⟨⟨⟨hi, hsap⟩, hhead⟩, hrun⟩, htr⟩, hramp⟩, hno⟩ := hr
    exact hon.turns_at (fun m => m.probeStart n) rfl hi (if_neg (by simp_all))
  case h_4 n =>
    obtain ⟨⟨hi, hst⟩, hn⟩ := hr
    refine hon.turns_at (fun m => m.probeDone n) rfl hi ?_
    have hcfg := m.probeResp_cfg n (pgRail + m.railOf n) RAIL_PROBE_CFG_PROBE_THR
    rw [Module.probeDone, if_neg (by simp [hst, hn])]
    dsimp only
    rw [← hcfg]

end Sys2Proof.Machine

open Sys2Proof Sys2Proof.Machine

/-- Settles O17, row by row. -/
theorem railAndPhaseEvents : Obligations.RailAndPhaseEvents := by
  intro s m c r hon hc hr
  exact hc.elim (railRow_turns hon · hr) (phaseRow_turns hon · hr)
end

section
/-! The events of converters, clusters and tasks (O18). -/

namespace Sys2Proof.Machine

theorem adcRow_turns {s : State} {m : Module} {c : Instr} {r : (Module → Bool) × (Module → Module)}
    (hon : On s m) (hc : adcRow c = some r) (hr : r.1 m = true) : Turns c s (r.2 m) := by
  unfold adcRow at hc
  split at hc
  case h_7 => cases hc
  all_goals
    obtain rfl := Option.some.inj hc
    clear hc
    simp only [Bool.and_eq_true, Bool.not_eq_true', decide_eq_true_eq] at hr
  case h_1 i x t =>
    obtain ⟨⟨hi, hen⟩, habove⟩ := hr
    exact hon.turns_live (fun m => if (m.arrive t).en pgAdccal then (m.arrive t).ginHi i x else m.arrive t) rfl
      ((if_pos hen).trans (if_neg (by simp [hi, habove])))
  case h_2 i x t =>
    exact hon.turns_live (fun m => (m.arrive t).ginHiEnd i x) rfl (if_neg (by simp [hr.1, hr.2]))
  case h_3 i x cyc =>
    obtain ⟨⟨hi, hen⟩, hbelow⟩ := hr
    have hi' : i < nGin (m.arriveAt cyc).sys.part := hi
    have hbelow' : Module.below x ((m.arriveAt cyc).thrB (60 + i)) = true := hbelow
    exact hon.turns_live (fun m => if (m.arriveAt cyc).en pgAdccal then (m.arriveAt cyc).ginLo i x else m.arriveAt cyc)
      rfl ((if_pos hen).trans (if_neg (by simp [hi', hbelow'])))
  case h_4 off gain span =>
    obtain ⟨⟨⟨⟨hen, -⟩, -⟩, -⟩, -⟩ := hr
    exact hon.turns_live (fun m => if m.en pgAdccal then m.rollSlotEnd off gain span else m) rfl (if_pos hen)
  case h_5 off gain ok => exact hon.turns_live (fun m => m.refCalDone off gain ok) rfl rfl
  case h_6 i val =>
    obtain ⟨⟨⟨hphase, hen⟩, -⟩, -⟩ := hr
    exact hon.turns_live (fun m => if m.get pgSys SYS_STATUS_PHASE = 4 && m.en pgAdccal then m.monReading i val else m)
      rfl (if_pos (by simp [hphase, hen]))

/-- What CLUSTERS_START does. -/
def clustersStarted (ok : List Bool) (m : Module) : Module :=
  match m.sys.restart with
  | .halted 1 _ => m
  | .halted _ _ => m.fwStart ok
  | _ => m

theorem placeRow_turns {s : State} {m : Module} {c : Instr} {r : (Module → Bool) × (Module → Module)}
    (hon : On s m) (hc : placeRow c = some r) (hr : r.1 m = true) : Turns c s (r.2 m) := by
  unfold placeRow at hc
  split at hc
  case h_13 => cases hc
  all_goals
    obtain rfl := Option.some.inj hc
    clear hc
    simp only [Bool.and_eq_true, Bool.not_eq_true', decide_eq_true_eq] at hr
  case h_1 c =>
    refine hon.turns_live (fun m => m.cluReady c) rfl ((if_neg (by rw [hr]; decide)).trans ?_)
    by_cases hb : m.sched.bist = some c <;> simp [hb]
  case h_2 c =>
    obtain ⟨⟨⟨hb, hno⟩, hbusy⟩, hclu⟩ := hr
    exact hon.turns_live (fun m => m.bistIsolate c) rfl (if_pos (by simp [hb, hno, hbusy, hclu]))
  case h_3 c pass =>
    exact hon.turns_live (fun m => m.bistEnd c pass) rfl (if_neg (by simp [hr.1, hr.2]))
  case h_4 => exact hon.turns_live (fun m => m.rotExpire) rfl (if_neg (by simp_all))
  case h_5 bank =>
    exact hon.turns_live (fun m => if m.sched.bankMove.contains bank then
      ({ m with sched := { m.sched with bankMove := delKey m.sched.bankMove bank } }).bankMoved bank else m) rfl
      (if_pos hr)
  case h_6 id jit gin acok late =>
    obtain ⟨hi, hcan⟩ := hr
    exact hon.turns_at (i := id) (n := fun _ => 12) (fun m => m.taskStart id jit gin acok late) rfl hi
      (if_neg (c := (!(taskDue m id).taskCan id) = true) (by simp [hcan]))
  case h_7 id =>
    exact hon.turns_at (i := id) (n := fun _ => 12)
      (fun m => if (m.task id).started then m.taskDropped id 2 else m) rfl hr.1 (if_pos hr.2)
  case h_8 win => exact hon.turns_live (fun m => m.bucketEnd win) rfl rfl
  case h_9 c =>
    obtain ⟨⟨hi, hcan⟩, hno⟩ := hr
    refine hon.turns_at (fun m => m.fwAsk 3) rfl hi ((if_neg (by simp [hcan])).trans ?_)
    simp [hno]
  case h_10 => exact hon.turns_live (fun m => if m.thawDue then m.fwThaw.updRan else m) rfl (if_pos hr)
  case h_11 =>
    exact hon.turns_live (fun m => if m.halted && m.sched.run then m.fwLose.updRan else m) rfl
      (if_pos (by simp [hr.1, hr.2]))
  case h_12 ok =>
    refine hon.turns_live (fun m => clustersStarted ok m) rfl ?_
    unfold clustersStarted
    cases hrest : m.sys.restart with
    | halted c ms =>
      have hc : c ≠ 1 := by simpa [hrest] using hr
      split
      · simp_all
      · rfl
      · simp_all
    | _ => simp [hrest] at hr

end Sys2Proof.Machine

open Sys2Proof Sys2Proof.Machine

/-- Settles O18, row by row. -/
theorem converterAndPlacementEvents : Obligations.ConverterAndPlacementEvents := by
  intro s m c r hon hc hr
  exact hc.elim (adcRow_turns hon · hr) (placeRow_turns hon · hr)
end

section
/-! The events of the two-wire controllers (O19), of energy placement and the cap (O20). -/

namespace Sys2Proof.Machine

/-- What the end of a transaction does to a controller port. -/
def twcEnded (p : Nat) (res : TwcRes) (m : Module) : Module :=
  match (m.port p).cur, res with
  | some (.read e 0), .ok _ => (m.twcEnd p res).rectSeen p e
  | _, _ => m.twcEnd p res

/-- A result other than a value read ends no rectifier's WAKING. -/
theorem twcEnded_of_not_ok {p : Nat} {res : TwcRes} (m : Module) (h : ∀ v, res ≠ .ok v) :
    twcEnded p res m = m.twcEnd p res := by
  unfold twcEnded
  split
  · exact absurd rfl (h _)
  · rfl

theorem On.turns_twcEnd {s : State} {m m' : Module} {p : Nat} {res : TwcRes} (hon : On s m)
    (hp : p < 4) (hm : twcEnded p res m = m') : Turns (.twcTransactionEnd p res) s m' :=
  hon.turns_at (i := p) (n := fun _ => 4) (twcEnded p res) rfl hp hm

/-- A transaction in progress ends by its result. -/
theorem twcEnd_busy {m : Module} {p : Nat} (hcur : (m.port p).cur.isSome = true)
    (hwait : (m.port p).wait = false) :
    ¬((m.port p).cur.isNone || (m.port p).wait) = true := by
  cases h : (m.port p).cur <;> simp_all

theorem twcRow_turns {s : State} {m : Module} {c : Instr} {r : (Module → Bool) × (Module → Module)}
    (hon : On s m) (hc : twcRow c = some r) (hr : r.1 m = true) : Turns c s (r.2 m) := by
  unfold twcRow at hc
  split at hc
  case h_13 => cases hc
  all_goals
    obtain rfl := Option.some.inj hc
    clear hc
    simp only [Bool.and_eq_true, Bool.not_eq_true', decide_eq_true_eq] at hr
  case h_1 p =>
    obtain ⟨⟨hp, hen⟩, hclk⟩ := hr
    exact hon.turns_at (i := p) (n := fun _ => 4) (fun m => m.pollRound p) rfl hp
      (if_neg (by rw [hen, hclk]; decide))
  case h_2 p => exact hon.turns_at (i := p) (n := fun _ => 4) (fun m => m.twcStart p) rfl hr.1.1 rfl
  case h_3 p v =>
    obtain ⟨⟨hp, hcur⟩, hwait⟩ := hr
    refine hon.turns_twcEnd hp ?_
    have hend : m.twcEnd p (.ok v) = m.twcFinish p (some v) := if_neg (twcEnd_busy hcur hwait)
    unfold twcEnded
    rw [hend]
    dsimp only
    cases hj : (m.port p).cur with
    | none => rfl
    | some j =>
      cases j with
      | read e b => cases b <;> rfl
      | _ => rfl
  case h_4 p =>
    obtain ⟨⟨hp, hcur⟩, hwait⟩ := hr
    exact hon.turns_twcEnd hp ((twcEnded_of_not_ok m (by simp)).trans
      (if_neg (twcEnd_busy hcur hwait)))
  case h_5 p =>
    obtain ⟨⟨hp, hcur⟩, hwait⟩ := hr
    exact hon.turns_twcEnd hp ((twcEnded_of_not_ok m (by simp)).trans
      (if_neg (twcEnd_busy hcur hwait)))
  case h_6 p =>
    obtain ⟨⟨hp, hcur⟩, hwait⟩ := hr
    exact hon.turns_twcEnd hp ((twcEnded_of_not_ok m (by simp)).trans
      (if_neg (twcEnd_busy hcur hwait)))
  case h_7 p pos => exact hon.turns_twcEnd hr.1.1 (twcEnded_of_not_ok m (by simp))
  case h_8 p => exact hon.turns_at (i := p) (n := fun _ => 4) (fun m => m.twcRetry p) rfl hr.1 rfl
  case h_9 p =>
    exact hon.turns_at (i := p) (n := fun _ => 4) (fun m => m.twcStretch p) rfl hr.1
      (if_neg (by simpa [Option.isNone_iff_eq_none, Option.isSome_iff_ne_none] using hr.2))
  case h_10 p =>
    obtain ⟨⟨hp, hen⟩, hst⟩ := hr
    exact hon.turns_at (i := p) (n := fun _ => 4) (fun m => m.twcStuck p) rfl hp (if_neg (by rw [hen, hst]; decide))
  case h_11 p => exact hon.turns_at (i := p) (n := fun _ => 4) (fun m => m.twcRecover p true) rfl hr.1 rfl
  case h_12 p addr =>
    obtain ⟨⟨⟨⟨hp, hen⟩, hal⟩, hn⟩, hst⟩ := hr
    exact hon.turns_at (i := p) (n := fun _ => 4) (fun m => m.twcAlert p addr) rfl hp
      (if_neg (by simp [hen, hal, hn, hst]))

theorem epeRow_turns {s : State} {m : Module} {c : Instr} {r : (Module → Bool) × (Module → Module)}
    (hon : On s m) (hc : epeRow c = some r) (hr : r.1 m = true) : Turns c s (r.2 m) := by
  unfold epeRow at hc
  split at hc
  case h_5 => cases hc
  all_goals
    obtain rfl := Option.some.inj hc
    clear hc
    simp only [Bool.and_eq_true, decide_eq_true_eq] at hr
  case h_1 =>
    refine hon.turns_live (fun m => m.epeSolved) rfl ?_
    obtain ⟨q, hq⟩ := Option.isSome_iff_exists.mp hr
    simp [Module.epeSolved, hq]
  case h_2 slot =>
    exact hon.turns_live (fun m => m.rectSilent slot) rfl (if_neg (by simp [hr.1, hr.2]))
  case h_3 gin =>
    exact hon.turns_live (fun m => if (m.vbusTake gin).vbusNow.isSome then (m.vbusTake gin).droopWake
      else m.vbusTake gin) rfl (if_pos hr)
  case h_4 => exact hon.turns_live (fun m => m.wearTick) rfl rfl

/-- An assist step while assist runs and V_bus is valid. -/
theorem assistStep_of_valid {m : Module} {mean v : Nat} {gin : List Int} (hen : (m.ginNow gin).en pgCap = true)
    (hassist : (m.ginNow gin).cp.assist = true) (hno : (m.ginNow gin).crossing = false)
    (hv : (voltSeen m gin).vbusNow = some v) :
    m.assistStep mean gin =
      let m := voltSeen m gin
      let low := m.capC * (400 - m.cfg pgCap CAP_QUAL_HYS) / 400
      if m.capC < mean then m.assistSet (m.cp.a + m.assistAmps (mean - m.capC) v) true
      else if mean < low then
        m.assistSet (m.cp.a - m.assistAmps (low - mean) v)
          (decide (m.cp.a - m.assistAmps (low - mean) v ≠ 0) || m.cp.qual)
      else m := by
  rw [Module.assistStep, if_neg (by simp [hen, hassist, hno])]
  unfold voltSeen at hv ⊢
  simp only [hv]

theorem capRow_turns {s : State} {m : Module} {c : Instr} {r : (Module → Bool) × (Module → Module)}
    (hon : On s m) (hc : capRow c = some r) (hr : r.1 m = true) : Turns c s (r.2 m) := by
  unfold capRow at hc
  split at hc
  case h_6 => cases hc
  all_goals
    obtain rfl := Option.some.inj hc
    clear hc
    simp only [Bool.and_eq_true, Bool.not_eq_true', decide_eq_true_eq] at hr
  case h_1 gin => exact hon.turns_live (fun m => m.capEstimate gin) rfl rfl
  case h_2 mean gin =>
    obtain ⟨⟨⟨hen, hassist⟩, hno⟩, hvalid⟩ := hr
    obtain ⟨v, hv⟩ := Option.isSome_iff_exists.mp hvalid
    refine hon.turns_live (fun m => m.assistStep mean gin) rfl ((assistStep_of_valid hen hassist hno hv).trans ?_)
    simp only [hv, Option.getD_some]
  case h_3 =>
    obtain ⟨⟨⟨hen, hhl⟩, hq⟩, hoff⟩ := hr
    exact hon.turns_live (fun m => m.hardLimit) rfl (if_neg (by simp [hen, hhl, hq, hoff]))
  case h_4 => exact hon.turns_live (fun m => m.limitRelease) rfl ((if_pos hr.1).trans (if_neg hr.2))
  case h_5 => exact hon.turns_live (fun m => m.sustained) rfl (if_neg (by simp [hr.1, hr.2]))

end Sys2Proof.Machine

open Sys2Proof Sys2Proof.Machine

/-- Settles O19, row by row. -/
theorem twcEvents : Obligations.TwcEvents := by
  intro s m c r hon hc hr
  exact twcRow_turns hon hc hr

/-- Settles O20, row by row. -/
theorem energyAndCapEvents : Obligations.EnergyAndCapEvents := by
  intro s m c r hon hc hr
  exact hc.elim (epeRow_turns hon · hr) (capRow_turns hon · hr)
end

section
/-! The events of the Crossing logic and of the feed channels (O21). -/

namespace Sys2Proof.Machine

/-! ### The input samples of a command of the Crossing logic -/

/-- A valid V_bus is kept, of any other nothing is. -/
theorem busSeen_eq_xingVbus (m : Module) (gin : List Int) : busSeen m gin = m.xingVbus gin := by
  unfold busSeen Module.xingVbus voltSeen Module.vbusTake
  dsimp only
  cases h : (((m.ginNow gin).vbusSeen (m.ginNow gin).vbusNow).boundary pgXing).vbusNow with
  | some v => simp only [Option.isSome_some, Option.getD_some, if_true]
  | none => rfl

/-- The slope detector is armed by a valid V_bus below its level. -/
theorem slopeArmed_iff (v : Option Nat) (arm : Nat) :
    v.any (fun v => arm = 0xFFFF || v < arm) = true ↔
      v.isSome = true ∧ (arm = 0xFFFF ∨ v.getD 0 < arm) := by
  cases v <;> simp

theorem xingRow_turns {s : State} {m : Module} {c : Instr} {r : (Module → Bool) × (Module → Module)}
    (hon : On s m) (hc : xingRow c = some r) (hr : r.1 m = true) : Turns c s (r.2 m) := by
  unfold xingRow at hc
  split at hc
  case h_10 => cases hc
  all_goals
    obtain rfl := Option.some.inj hc
    clear hc
    simp only [busSeen_eq_xingVbus, Bool.and_eq_true, Bool.or_eq_true, Bool.not_eq_true', decide_eq_true_eq] at hr ⊢
  case h_1 cyc gin =>
    obtain ⟨⟨-, hen⟩, hmask⟩ := hr
    exact hon.turns_live (fun m => if (m.xingVbus gin).flag pgXing XING_DET_FEED_EN
      && (m.xingVbus gin).cfg pgXing XING_DET_FEED_MASK ≠ 0 then (m.xingVbus gin).xingDetect 0 cyc
      else m.xingVbus gin) rfl (if_pos (by simp [hen, hmask]))
  case h_2 cyc gin =>
    obtain ⟨⟨⟨-, hen⟩, hvalid⟩, harm⟩ := hr
    exact hon.turns_live (fun m => if (m.xingVbus gin).flag pgXing XING_DET_SLOPE_EN
      && (m.xingVbus gin).vbusNow.any (fun v => (m.xingVbus gin).cfg pgXing XING_SLOPE_CFG_VBUS_ARM = 0xFFFF
        || v < (m.xingVbus gin).cfg pgXing XING_SLOPE_CFG_VBUS_ARM) then (m.xingVbus gin).xingDetect 1 cyc
      else m.xingVbus gin) rfl
      (if_pos (by rw [Bool.and_eq_true, slopeArmed_iff]; exact ⟨hen, hvalid, harm⟩))
  case h_3 cyc gin =>
    obtain ⟨⟨-, hen⟩, hmask⟩ := hr
    exact hon.turns_live (fun m => if (m.xingVbus gin).flag pgXing XING_DET_ACOK_EN
      && (m.xingVbus gin).cfg pgXing XING_DET_ACOK_MASK ≠ 0 then (m.xingVbus gin).xingDetect 2 cyc
      else m.xingVbus gin) rfl (if_pos (by simp [hen, hmask]))
  case h_4 tx =>
    exact hon.turns_live (fun m => m.xingFull tx) rfl (if_neg (by simp [hr.1, hr.2]))
  case h_5 gin =>
    obtain ⟨hvalid, hcross⟩ := hr
    obtain ⟨v, hv⟩ := Option.isSome_iff_exists.mp hvalid
    refine hon.turns_live (fun m => m.busSample gin) rfl ?_
    simp only [Module.busSample, hv, hcross, Bool.not_true, Bool.false_eq_true, if_false, Option.getD_some]
  case h_6 => exact hon.turns_live (fun m => m.xingShed) rfl rfl
  case h_7 acok => exact hon.turns_live (fun m => m.inGoodSee acok) rfl (if_neg (by simpa using hr))
  case h_8 =>
    obtain ⟨⟨hst, hgood⟩, hno⟩ := hr
    exact hon.turns_live (fun m => m.xingQualified) rfl
      ((if_neg (by simp [hst, hgood])).trans (if_neg (by simp [hno])))
  case h_9 =>
    exact hon.turns_live (fun m => m.xingCutoffExit) rfl (if_neg (by simp [hr.1, hr.2]))

theorem feedRow_turns {s : State} {m : Module} {c : Instr} {r : (Module → Bool) × (Module → Module)}
    (hon : On s m) (hc : feedRow c = some r) (hr : r.1 m = true) : Turns c s (r.2 m) := by
  unfold feedRow at hc
  split at hc
  case h_12 => cases hc
  all_goals
    obtain rfl := Option.some.inj hc
    clear hc
    simp only [Bool.and_eq_true, Bool.or_eq_true, Bool.not_eq_true', decide_eq_true_eq] at hr
  case h_1 c =>
    obtain ⟨⟨⟨hi, hwin⟩, hen⟩, hqual⟩ := hr
    refine hon.turns_at (fun m => m.fdInserted c) rfl hi ((if_neg (by simp [hwin, hen])).trans ?_)
    dsimp only
    cases hp : m.fdPaired c with
    | true => rw [if_pos rfl, if_pos rfl, if_pos (by simpa [hp] using hqual)]
    | false =>
      rw [if_neg Bool.false_ne_true, if_neg Bool.false_ne_true, if_neg (not_not.mpr (by simpa [hp] using hqual))]
  case h_2 c hi' =>
    obtain ⟨hi, hst⟩ := hr
    exact hon.turns_at (fun m => m.fdExcursion c hi') rfl hi (if_pos (by simpa using hst))
  case h_3 c => exact hon.turns_at (fun m => m.fdOn c) rfl hr.1 (if_pos hr.2)
  case h_4 c vin vout vs vgs => exact hon.turns_at (fun m => m.fdSample c vin vout vs vgs) rfl hr rfl
  case h_5 c => exact hon.turns_at (fun m => m.fdFast c) rfl hr.1 (if_pos (by simpa using hr.2))
  case h_6 c => exact hon.turns_at (fun m => m.fdRetry c) rfl hr.1 (if_pos hr.2)
  case h_7 c =>
    obtain ⟨⟨⟨hi, hst⟩, hwin⟩, hmate⟩ := hr
    exact hon.turns_at (fun m => m.fdConduct c) rfl hi (if_pos (by simp [hst, hwin, hmate]))
  case h_8 c => exact hon.turns_at (fun m => m.fdReverse c) rfl hr.1 (if_neg (by simp [hr.2]))
  case h_9 c =>
    obtain ⟨⟨hi, hdrive⟩, hvgs⟩ := hr
    exact hon.turns_at (fun m => m.fdDamaged c) rfl hi (if_neg (by simp [hdrive, hvgs]))
  case h_10 c =>
    obtain ⟨⟨hi, hdrive⟩, hvgs⟩ := hr
    exact hon.turns_at (fun m => m.fdNoConduct c) rfl hi (if_neg (by simp [hdrive, hvgs]))
  case h_11 c =>
    obtain ⟨⟨hi, hst⟩, hrs⟩ := hr
    exact hon.turns_at (fun m => m.fdDegraded c) rfl hi (if_neg (by simpa [hrs, ← or_iff_not_imp_left] using hst))

end Sys2Proof.Machine

open Sys2Proof Sys2Proof.Machine

/-- Settles O21, row by row. -/
theorem crossingAndFeedEvents : Obligations.CrossingAndFeedEvents := by
  intro s m c r hon hc hr
  exact hc.elim (xingRow_turns hon · hr) (feedRow_turns hon · hr)
end

section
/-! The events of the sequencer and the watchdog (O22). -/

namespace Sys2Proof.Machine

theorem seqRow_turns {s : State} {m : Module} {c : Instr} {r : (Module → Bool) × (Module → Module)}
    (hon : On s m) (hc : seqRow c = some r) (hr : r.1 m = true) : Turns c s (r.2 m) := by
  unfold seqRow at hc
  split at hc
  case h_9 => cases hc
  all_goals
    obtain rfl := Option.some.inj hc
    clear hc
    simp only [Bool.and_eq_true, Bool.or_eq_true, decide_eq_true_eq] at hr
  case h_1 acok => exact hon.turns_live (fun m => m.seqTick acok) rfl (if_neg (by simp [hr.1, hr.2]))
  case h_2 => exact hon.turns_live (fun m => m.seqWaitDone) rfl (if_pos (by simpa using hr))
  case h_3 => exact hon.turns_live (fun m => m.seqTimeout) rfl (if_pos (by simpa using hr))
  case h_4 => exact hon.turns_live (fun m => m.seqRetry) rfl (if_pos (by simpa using hr))
  case h_5 => exact hon.turns_live (fun m => m.seqLead) rfl (if_pos (by simpa using hr))
  case h_6 => exact hon.turns_live (fun m => m.seqRested) rfl (if_pos hr)
  case h_7 id =>
    refine hon.turns_live (fun m => m.seqRailFail id) rfl ((if_neg (by simp [hr.1, hr.2])).trans ?_)
    rfl
  case h_8 id level => exact hon.turns_live (fun m => m.seqDeglitch id level) rfl (if_neg (by simpa using hr))

theorem wdogRow_turns {s : State} {m : Module} {c : Instr} {r : (Module → Bool) × (Module → Module)}
    (hon : On s m) (hc : wdogRow c = some r) (hr : r.1 m = true) : Turns c s (r.2 m) := by
  unfold wdogRow at hc
  split at hc
  case h_5 => cases hc
  all_goals
    obtain rfl := Option.some.inj hc
    clear hc
    simp only [Bool.and_eq_true, Bool.or_eq_true, decide_eq_true_eq] at hr
  case h_1 => exact hon.turns_live (fun m => m.wdiEdge) rfl (if_pos (by simpa using hr))
  case h_2 => exact hon.turns_live (fun m => m.wdOpens) rfl (if_pos hr)
  case h_3 =>
    refine hon.turns_live (fun m => m.wdElapsed) rfl ?_
    by_cases hb : m.wdSt = wdBoot
    · simp [Module.wdElapsed, hb]
    · have hopen := hr.resolve_left hb
      dsimp only
      rw [Module.wdElapsed, if_neg hb, if_pos hopen, if_neg hb]
  case h_4 => exact hon.turns_live (fun m => m.wdPulseEnd) rfl rfl

end Sys2Proof.Machine

open Sys2Proof Sys2Proof.Machine

/-- Settles O22, row by row. -/
theorem sequencerAndWatchdogEvents : Obligations.SequencerAndWatchdogEvents := by
  intro s m c r hon hc hr
  exact hc.elim (seqRow_turns hon · hr) (wdogRow_turns hon · hr)
end

section
/-! The events of the strings and the sensors (O23). -/

namespace Sys2Proof.Machine

theorem battRow_turns {s : State} {m : Module} {c : Instr} {r : (Module → Bool) × (Module → Module)}
    (hon : On s m) (hc : battRow c = some r) (hr : r.1 m = true) : Turns c s (r.2 m) := by
  unfold battRow at hc
  split at hc
  case h_7 => cases hc
  all_goals
    obtain rfl := Option.some.inj hc
    clear hc
    simp only [Bool.and_eq_true, Bool.not_eq_true', decide_eq_true_eq] at hr
  case h_1 b rid => exact hon.turns_at (fun m => m.battIdRead b rid) rfl hr.1 rfl
  case h_2 b =>
    obtain ⟨⟨⟨hi, hrun⟩, hen⟩, hno⟩ := hr
    exact hon.turns_at (fun m => m.impAsk b) rfl hi (if_pos (by simp [hrun, hen, hno]))
  case h_3 b zmag zph zreal =>
    refine hon.turns_at _ (rfl : execImpFreqStep b zmag zph zreal s = actAt b nStrings s _) hr.1 ?_
    exact if_neg (by simp [hr.2])
  case h_4 b mv => exact hon.turns_at (fun m => m.battVoltage b mv) rfl hr.1 rfl
  case h_5 b lvl =>
    obtain ⟨⟨⟨⟨hi, hrun⟩, hlo⟩, hhi⟩, hv⟩ := hr
    exact hon.turns_at (fun m => if lvl = 0 then m else m.battLevelTimer b (lvl - 1) true) rfl hi
      ((if_neg (by omega)).trans ((if_neg (by simp [hrun]; omega)).trans ((if_pos rfl).trans (if_pos hv))))
  case h_6 b lvl =>
    obtain ⟨⟨⟨⟨hi, hrun⟩, hlo⟩, hhi⟩, hv⟩ := hr
    exact hon.turns_at (fun m => if lvl = 0 then m else m.battLevelTimer b (lvl - 1) false) rfl hi
      ((if_neg (by omega)).trans ((if_neg (by simp [hrun]; omega)).trans ((if_neg (by simp)).trans (if_pos hv))))

theorem thermRow_turns {s : State} {m : Module} {c : Instr} {r : (Module → Bool) × (Module → Module)}
    (hon : On s m) (hc : thermRow c s.nv = some r) (hr : r.1 m = true) : Turns c s (r.2 m) := by
  unfold thermRow at hc
  split at hc
  case h_3 => cases hc
  all_goals
    obtain rfl := Option.some.inj hc
    clear hc
    simp only [Bool.and_eq_true, decide_eq_true_eq] at hr
  case h_1 i =>
    obtain ⟨⟨hi, hin⟩, hbeyond⟩ := hr
    exact hon.turns_at (i := i) (n := fun _ => 16) (fun m => m.ringExclude i) rfl hi
      (if_neg (by rw [hin, hbeyond]; decide))
  case h_2 => exact hon.turns_live (fun m => (m.ringCal s.nv.otp.ringOfs).tryAdopt) rfl rfl

end Sys2Proof.Machine

open Sys2Proof Sys2Proof.Machine

/-- Settles O23, row by row. -/
theorem batteryAndThermalEvents : Obligations.BatteryAndThermalEvents := by
  intro s m c r hon hc hr
  exact hc.elim (battRow_turns hon · hr) (thermRow_turns hon · hr)
end

section
/-! The events of ports, path engines and PTP (O24), of the grove and of Benuf (O25). -/

namespace Sys2Proof.Machine

/-- The engines that flag one after the other, the standby not in step. -/
theorem engFlag_each {m : Module} {mask reason : Nat} (hno : m.net.rebuild = false)
    (hboth : ¬(mask = 3 ∧ m.eng (1 - m.engA) = esStep)) (hmask : mask ≤ 3) :
    m.engFlag mask reason =
      let m := if mask.testBit 0 then m.engFlag1 0 reason else m
      if mask.testBit 1 && !m.net.rebuild then m.engFlag1 1 reason else m := by
  rw [Module.engFlag, if_neg (by simp [hno]), if_neg (by simpa [Nat.mod_eq_of_lt (show mask < 4 by omega)] using hboth)]
  simp [List.range_succ, hno]

theorem netRow_turns {s : State} {m : Module} {c : Instr} {r : (Module → Bool) × (Module → Module)}
    (hon : On s m) (hc : netRow c = some r) (hr : r.1 m = true) : Turns c s (r.2 m) := by
  unfold netRow at hc
  split at hc
  case h_10 => cases hc
  all_goals
    obtain rfl := Option.some.inj hc
    clear hc
    simp only [Bool.and_eq_true, Bool.or_eq_true, Bool.not_eq_true', decide_eq_true_eq] at hr
  case h_1 p an fd =>
    obtain ⟨⟨⟨⟨hp, hen⟩, hclk⟩, han⟩, hdown⟩ := hr
    refine hon.turns_at (i := p) (n := fun _ => 2) (fun m => m.linkUp p an fd) rfl hp (if_neg ?_)
    rw [hen, hclk, hdown]
    cases an
    · simpa using han
    · simp
  case h_2 p =>
    exact hon.turns_at (i := p) (n := fun _ => 2) (fun m => m.linkDown p) rfl hr.1 (if_neg (by simp [hr.2]))
  case h_3 p bs ok =>
    obtain ⟨⟨⟨⟨⟨⟨hp, hup⟩, hok⟩, hlen⟩, hda⟩, hno⟩, hroom⟩ := hr
    refine hon.turns_at (i := p) (n := fun _ => 2) (fun m => m.frameIn p bs ok) rfl hp ?_
    rw [Module.frameIn, if_neg (by simp [hup]), if_neg (by simp [hok]), if_neg (by simp [hda]; omega),
      if_neg (by simp [hno]), if_neg (by omega)]
  case h_4 e equal =>
    refine hon.turns_live (fun m => m.mergeEntry e equal) rfl ((if_neg (by simp [hr])).trans ?_)
    cases e <;> rfl
  case h_5 mask reason cyc =>
    obtain ⟨⟨hno, hlo⟩, hhi⟩ := hr
    have hno' : (m.arriveAt cyc).net.rebuild = false := hno
    refine hon.turns_live (fun m => (m.arriveAt cyc).engFlag mask reason) rfl ?_
    by_cases hboth : mask = 3 ∧ (m.arriveAt cyc).eng (1 - (m.arriveAt cyc).engA) = esStep
    · rw [Module.engFlag, if_neg (by simp [hno']), if_pos (by simp [hboth])]
      exact (if_pos (by simp [hboth])).symm
    · rw [engFlag_each hno' hboth hhi]
      exact (if_neg (by simpa using hboth)).symm
  case h_6 =>
    obtain ⟨hlife, hon'⟩ := hr
    refine hon.turns_live _ (rfl : execSupervisionSend s = actLive s _) ?_
    exact if_neg (by simp [hlife, hon'])
  case h_7 i => exact hon.turns_live (fun m => m.setDup (m.net.dup.filter (fun d => d.slot ≠ i))) rfl rfl
  case h_8 e ok =>
    obtain ⟨⟨hi, hno⟩, hst⟩ := hr
    refine hon.turns_at (i := e) (n := fun _ => 2) (fun m => m.repairStage e ok) rfl hi ?_
    rcases hst with ((hst | hst) | hst) | hst <;> cases ok <;>
      simp [Module.repairStage, hst, hno, esReset, esTest, esCopy, esCatch]
  case h_9 e =>
    obtain ⟨⟨hi, hre⟩, hst⟩ := hr
    exact hon.turns_at (i := e) (n := fun _ => 2) (fun m => m.rebuilt e) rfl hi (if_neg (by simp [hre, hst]))

theorem ptpRow_turns {s : State} {m : Module} {c : Instr} {r : (Module → Bool) × (Module → Module)}
    (hon : On s m) (hc : ptpRow c = some r) (hr : r.1 m = true) : Turns c s (r.2 m) := by
  unfold ptpRow at hc
  split at hc
  case h_6 => cases hc
  all_goals
    obtain rfl := Option.some.inj hc
    clear hc
    simp only [Bool.and_eq_true, Bool.or_eq_true, Bool.not_eq_true', decide_eq_true_eq] at hr
  case h_1 x => exact hon.turns_live (fun m => m.ptpMessage x) rfl rfl
  case h_2 p =>
    exact hon.turns_at (i := p) (n := fun _ => 2) (fun m => m.ptpPortLost p) rfl hr.1 (if_neg (by simp [hr.2]))
  case h_3 rise =>
    obtain ⟨⟨⟨⟨hserv, hpin⟩, hen⟩, hpps⟩, hlock⟩ := hr
    refine hon.turns_live _ (rfl : execPpsEdge rise s = actLive s _) ?_
    have hdrives : m.ppsDrives = true := by simp [Module.ppsDrives, hserv, hpin]
    have hruns : m.ppsRuns = true := by simpa [Module.ppsRuns, hpps] using hlock
    rw [if_neg (by simp [hdrives, hen]), if_pos hruns]
  case h_4 p =>
    obtain ⟨⟨⟨hp, hen⟩, hcfg⟩, hup⟩ := hr
    refine hon.turns_at (i := p) _ (rfl : execSyncInterval p s = actAt p (fun _ => 2) s _) hp ?_
    exact if_neg (by simp [hen, hcfg, hup])
  case h_5 =>
    refine hon.turns_live _ (rfl : execAnchorInterval s = actLive s _) ?_
    exact if_neg (by simpa using hr)

theorem groveRow_turns {s : State} {m : Module} {c : Instr} {r : (Module → Bool) × (Module → Module)}
    (hon : On s m) (hc : groveRow c = some r) (hr : r.1 m = true) : Turns c s (r.2 m) := by
  unfold groveRow at hc
  split at hc
  case h_14 => cases hc
  all_goals
    obtain rfl := Option.some.inj hc
    clear hc
    simp only [Bool.and_eq_true, Bool.or_eq_true, Bool.not_eq_true', decide_eq_true_eq] at hr
  case h_1 f =>
    obtain ⟨⟨⟨hen, hshelf⟩, hgrove⟩, hother⟩ := hr
    refine hon.turns_live (fun m => m.hello f) rfl ((if_neg (by simp [hen, hshelf, hgrove])).trans ?_)
    by_cases hsrc : f.src = m.shelf
    · have hmac : f.mac ≠ m.ownMac := hother.resolve_left (not_not.mpr hsrc)
      simp only [hsrc, hmac, if_true, if_false]
    · simp only [hsrc, if_false]
  case h_2 f =>
    obtain ⟨⟨⟨⟨⟨⟨⟨⟨⟨⟨hen, hlock⟩, hshelf⟩, hgrove⟩, hsrc⟩, hst⟩, hgood⟩, hper⟩, hofs⟩, harr⟩, hnew⟩ := hr
    refine hon.turns_live (fun m => m.shareIn f) rfl ?_
    have hheard : m.heardOwn f.src = m := if_neg (by simp [hsrc])
    rw [Module.shareIn, if_pos hen, hheard, if_neg (by simp [hen, hlock, hshelf, hgrove, hsrc])]
    dsimp only
    rw [if_neg (not_not.mpr hst), if_neg (by rw [hgood, hnew]; simp [hper]; omega)]
  case h_3 f =>
    obtain ⟨⟨⟨⟨⟨⟨⟨hen, hlock⟩, hcan⟩, hgood⟩, hper⟩, hofs⟩, harr⟩, hnew⟩ := hr
    exact hon.turns_live (fun m => m.sumIn f) rfl
      (if_neg (by rw [hen, hlock, hcan, hgood, hnew]; simp [hper]; omega))
  case h_4 =>
    refine hon.turns_live _ (rfl : execHelloSend s = actLive s _) ?_
    exact if_pos (by simpa using hr)
  case h_5 => exact hon.turns_live (fun m => m.joinEnd) rfl (if_neg (by simp [hr]))
  case h_6 =>
    refine hon.turns_live _ (rfl : execLeavingHello s = actLive s _) ?_
    exact if_neg hr
  case h_7 i =>
    obtain ⟨⟨⟨hi, hdrop⟩, hst⟩, hown⟩ := hr
    refine hon.turns_at (i := i) _ (rfl : execMemberDrop i s = actAt i (fun _ => 64) s _) hi ?_
    exact if_neg (by simp [hdrop, hst, hown])
  case h_8 => exact hon.turns_live (fun m => m.updBn (fun x => { x with dupHeard := false })) rfl rfl
  case h_9 =>
    refine hon.turns_live _ (rfl : execHealthSend s = actLive s _) ?_
    exact if_pos hr
  case h_10 => exact hon.turns_live (fun m => m.groveCut) rfl rfl
  case h_11 =>
    obtain ⟨x, hx⟩ := Option.isSome_iff_exists.mp hr
    exact hon.turns_live (fun m => m.shareUp) rfl (by simp [Module.shareUp, hx])
  case h_12 =>
    obtain ⟨x, hx⟩ := Option.isSome_iff_exists.mp hr
    exact hon.turns_live (fun m => m.canopyUp) rfl (by simp [Module.canopyUp, hx])
  case h_13 => exact hon.turns_live (fun m => m.canopyCut) rfl rfl

end Sys2Proof.Machine

open Sys2Proof Sys2Proof.Machine

/-- Settles O24, row by row. -/
theorem networkAndPtpEvents : Obligations.NetworkAndPtpEvents := by
  intro s m c r hon hc hr
  exact hc.elim (netRow_turns hon · hr) (ptpRow_turns hon · hr)

/-- Settles O25, row by row. -/
theorem groveAndBenufEvents : Obligations.GroveAndBenufEvents := by
  intro s m c r hon hc hr
  exact groveRow_turns hon hc hr
end

section
/-! Module-wide events, and the reads that pop, advance or latch (O26). -/

namespace Sys2Proof.Machine

theorem On.turns_supply {s : State} {m m' : Module} {c : Instr} (f : Module → Module) (hon : On s m)
    (hexec : exec c s = actSupply s f) (hf : f m = m') : Turns c s m' :=
  hon.turns_act _ hexec (by rw [if_pos (by simp [hon.2]), hf])

theorem moduleRow_turns {s : State} {m : Module} {c : Instr} {r : (Module → Bool) × (Module → Module)}
    (hon : On s m) (hc : moduleRow c s.nv = some r) (hr : r.1 m = true) : Turns c s (r.2 m) := by
  unfold moduleRow at hc
  split at hc
  case h_18 => cases hc
  all_goals
    obtain rfl := Option.some.inj hc
    clear hc
  case h_1 ch =>
    simp only [Bool.and_eq_true, decide_eq_true_eq] at hr
    obtain ⟨⟨⟨hch, hmac⟩, hrecv⟩, hfull⟩ := hr
    obtain ⟨mac, hmac⟩ := Option.isSome_iff_exists.mp hmac
    refine hon.turns_live _ (rfl : execMboxResend ch s = actLive s _) ((if_pos hch).trans ?_)
    simp only [Module.chFrame, hmac, hrecv, hfull, decide_true, Bool.and_self, if_true]
  case h_2 =>
    simp only [Bool.and_eq_true, decide_eq_true_eq] at hr
    obtain ⟨⟨⟨⟨⟨⟨hen, hdest⟩, hbenuf⟩, hpath⟩, hroom⟩, hstart⟩, hnext⟩ := hr
    refine hon.turns_live (fun m => m.streamSend s.nv) rfl (if_neg ?_)
    have h0 : streamStart s.nv (m.boundary pgRec) ≠ 0 := by omega
    have h1 : ¬ (m.boundary pgRec).rc.next ≤ streamStart s.nv (m.boundary pgRec) := by omega
    rw [hen, hbenuf, hpath, decide_eq_true hroom]
    simp only [decide_eq_false hdest, Bool.not_true, Bool.false_or, Bool.or_eq_true, decide_eq_true_eq]
    exact fun h => h.elim h0 h1
  case h_3 =>
    refine hon.turns_live _ (rfl : execArmExpiry s = actLive s _) ?_
    exact if_pos hr
  case h_4 => exact hon.turns_supply (fun m => m.setHold true) rfl rfl
  case h_5 =>
    exact hon.turns_live (fun m => m.holdRelease) rfl (if_pos hr)
  case h_6 clk =>
    exact hon.turns_live (fun m => m.clkTry clk true) rfl (if_pos (by simpa using hr))
  case h_7 ferr =>
    simp only [Bool.and_eq_true] at hr
    exact hon.turns_live (fun m => m.syncPresent ferr) rfl ((if_neg (by simp [hr.1])).trans (if_pos hr.2))
  case h_8 ferr =>
    simp only [Bool.and_eq_true, decide_eq_true_eq] at hr
    exact hon.turns_live (fun m => m.syncLock ferr) rfl
      ((if_pos (by simp [hr.1.1, hr.1.2])).trans (if_neg hr.2))
  case h_9 =>
    exact hon.turns_live (fun m => m.syncLost) rfl (if_neg (of_decide_eq_true hr))
  case h_10 => exact hon.turns_supply (fun m => m.brown true) rfl rfl
  case h_11 => exact hon.turns_supply (fun m => m.brown false) rfl rfl
  case h_12 i =>
    refine hon.turns_supply _ (rfl : execVauxInputLost i s = actSupply s _) ?_
    exact if_pos (of_decide_eq_true hr)
  case h_13 i =>
    refine hon.turns_supply _ (rfl : execVauxInputReturn i s = actSupply s _) ?_
    exact if_pos (of_decide_eq_true hr)
  case h_14 lowest us =>
    refine hon.turns_act _ (rfl : execVauxDip lowest us s = act s _) ?_
    exact if_pos (of_decide_eq_true hr)
  case h_15 addr =>
    simp only [Bool.and_eq_true, Bool.not_eq_true', decide_eq_true_eq] at hr
    obtain ⟨⟨⟨hlow, hshut⟩, hclk⟩, hpoison⟩ := hr
    exact hon.turns_live (fun m => m.shadowReload s.nv addr) rfl
      (if_neg (by rw [hshut, hclk, hpoison, decide_eq_false (by omega)]; decide))
  case h_16 ok =>
    have hhalted : ∃ ms, m.sys.restart = .halted 1 ms := by
      dsimp only at hr
      split at hr
      · next ms hrestart => exact ⟨ms, hrestart⟩
      · cases hr
    obtain ⟨ms, hrestart⟩ := hhalted
    refine hon.turns_live _ (rfl : execCodeShadowLoaded ok s = actLive s _) ?_
    simp only [hrestart]
  case h_17 => exact hon.turns_live (fun m => (m.updLost).cleared .pinReset) rfl rfl

/-! ### Reads -/

/-- Every part has the PTP page with all its registers. -/
theorem regAt_ptp (m : Module) {off : Nat} {r : RegRow} (h : rowOf .ptp off = some r) :
    regAt m pgPtp off = some (.ptp, 0, r) := by
  have hblk : blkOf pgPtp = some (.ptp, 0) := rfl
  simp [regAt, pagePresent, hblk, regAbsent, h]

/-- A served read of an aligned register that is not poisoned answers its word. -/
theorem busFetch_of_mayRead {m : Module} {nv : NonVol} {x addr : Nat} (took : Bool) (hread : mayRead m x = true)
    (halign : addr % 4 = 0) (hlt : addr < 65536) (hgood : m.busPoison nv x addr = false) :
    m.busFetch nv x addr took =
      { (m.busRead nv x addr took).2 with out := { words := [(m.busRead nv x addr took).1] } } := by
  obtain ⟨hopen, hdenied⟩ := (mayRead_iff m x).1 hread
  have hin : ¬ 65536 ≤ addr := by omega
  simp [Module.busFetch, busServes_of_busOpen hopen, hdenied, halign, hin, hgood]

/-- Only the ports of the recorder read the MRAM. -/
theorem busPoison_of_ne {m : Module} {nv : NonVol} {x addr : Nat} (hport : addr ≠ rkey pgRec REC_RD_DATA)
    (hwin : addr ≠ rkey pgRec TBL_DATA) : m.busPoison nv x addr = false := by
  simp [Module.busPoison, hport, hwin]

theorem busRead_rdData (m : Module) (nv : NonVol) (x : Nat) (took : Bool) :
    m.busRead nv x (rkey pgRec REC_RD_DATA) took = m.recRead nv x took := by
  have hreg := regAt_recd m (off := REC_RD_DATA) rfl
  simp only [Module.busRead, rkey_page pgRec (show REC_RD_DATA < 256 by decide),
    rkey_off pgRec (show REC_RD_DATA < 256 by decide), hreg]
  rfl

theorem busRead_optimeH (m : Module) (nv : NonVol) (x : Nat) (took : Bool) :
    m.busRead nv x (rkey pgRec REC_OPTIME_H) took =
      (m.peek pgRec REC_OPTIME_H, m.setLatch x (rkey pgRec REC_OPTIME_L) (BitVec.ofNat 32 m.rc.optime)) := by
  have hreg := regAt_recd m (off := REC_OPTIME_H) rfl
  simp only [Module.busRead, rkey_page pgRec (show REC_OPTIME_H < 256 by decide),
    rkey_off pgRec (show REC_OPTIME_H < 256 by decide), hreg]
  rfl

theorem busRead_taiS (m : Module) (nv : NonVol) (x : Nat) (took : Bool) :
    m.busRead nv x (rkey pgPtp PTP_TAI_S) took =
      (m.peek pgPtp PTP_TAI_S, m.setLatch x (rkey pgPtp PTP_TAI_NS) (m.reg pgPtp PTP_TAI_NS)) := by
  have hreg := regAt_ptp m (off := PTP_TAI_S) rfl
  simp only [Module.busRead, rkey_page pgPtp (show PTP_TAI_S < 256 by decide),
    rkey_off pgPtp (show PTP_TAI_S < 256 by decide), hreg]
  rfl

/-- A read of TBL_DATA inside the selected table answers the word and advances the index. -/
theorem busRead_tblData {m : Module} {nv : NonVol} {x p n : Nat} {b : Blk} {r : RegRow}
    (hreg : regAt m p TBL_DATA = some (b, n, r)) (hacc : r.acc ≠ .wo) (htbl : hasTbl b = true)
    (hword : (wordAt m b n p x).isSome = true) (htrace : (b = .trace && selOf m p x = 0) = false) :
    m.busRead nv x (rkey p TBL_DATA) true =
      (m.tblRead nv b p n x (selOf m p x) (idxOf m p x),
        { m with idx := putK m.idx (16 * p + x) (idxOf m p x + 1) }) := by
  obtain ⟨w, hw⟩ := Option.isSome_iff_exists.mp hword
  simp only [wordAt] at hw
  simp only [Module.busRead, rkey_page p (show TBL_DATA < 256 by decide),
    rkey_off p (show TBL_DATA < 256 by decide), hreg, hacc, htbl, if_false, decide_true, Bool.and_self, if_true,
    Module.tblPop, hw, htrace, Bool.false_eq_true]

theorem readRow_turns {s : State} {m : Module} {c : Instr} {r : (Module → Bool) × (Module → Module)}
    (hon : On s m) (hc : readRow c s.nv = some r) (hr : r.1 m = true) : Turns c s (r.2 m) := by
  unfold readRow at hc
  split at hc
  case h_5 => cases hc
  case h_1 x took =>
    obtain rfl := Option.some.inj hc
    simp only [Bool.and_eq_true, Bool.not_eq_true'] at hr
    refine hon.turns_act (fun m => m.busFetch s.nv x (rkey pgRec REC_RD_DATA) took) rfl ?_
    rw [busFetch_of_mayRead took hr.1 (by decide) (by decide) hr.2, busRead_rdData]
    cases took <;> rfl
  case h_2 x =>
    obtain rfl := Option.some.inj hc
    refine hon.turns_act (fun m => m.busFetch s.nv x (rkey pgRec REC_OPTIME_H) true) rfl ?_
    rw [busFetch_of_mayRead true hr (by decide) (by decide) (busPoison_of_ne (by decide) (by decide)),
      busRead_optimeH]
  case h_3 x sec ns =>
    obtain rfl := Option.some.inj hc
    simp only [Bool.and_eq_true] at hr
    obtain ⟨hopen, hdenied⟩ := (mayRead_iff m x).1 hr.1
    refine hon.turns_act _ (rfl : execTaiSRead x sec ns s = act s _) ?_
    dsimp only
    rw [if_neg (by simp [hopen]), if_neg (by simp [hdenied]),
      busFetch_of_mayRead true hr.2 (by decide) (by decide) (busPoison_of_ne (by decide) (by decide)), busRead_taiS]
  case h_4 x p =>
    split at hc
    case h_2 => cases hc
    case h_1 b n hblk =>
      obtain rfl := Option.some.inj hc
      simp only [Bool.and_eq_true, Bool.not_eq_true', Option.any_eq_true, decide_eq_true_eq] at hr
      obtain ⟨⟨⟨⟨⟨⟨⟨hread, htbl⟩, hpage⟩, hthere⟩, row, hrow, hacc⟩, hword⟩, htrace⟩, hgood⟩ := hr
      have hreg : regAt m p TBL_DATA = some (b, n, row) := by simp [regAt, hpage, hblk, hthere, hrow]
      have hp := page_lt_of_blkOf hblk
      refine hon.turns_act (fun m => m.busFetch s.nv x (rkey p TBL_DATA) true) rfl ?_
      rw [busFetch_of_mayRead true hread (by simp only [rkey, TBL_DATA]; omega) (by simp only [rkey, TBL_DATA]; omega)
        hgood, busRead_tblData hreg hacc htbl hword htrace]

end Sys2Proof.Machine

open Sys2Proof Sys2Proof.Machine

/-- Settles O26, row by row. -/
theorem moduleEventsAndReads : Obligations.ModuleEventsAndReads := by
  intro s m c r hon hc hr
  exact hc.elim (moduleRow_turns hon · hr) (readRow_turns hon · hr)
end

section
/-! The events that reach the non-volatile part (O27), and those of the supply (O28). -/

namespace Sys2Proof.Machine

/-! ### The outcome of a command that also reaches the non-volatile part -/

theorem turns2_act2 {s : State} {m : Module} {x : NonVol × Module} {c : Instr}
    (f : NonVol → Module → NonVol × Module) (hm : m = { s.m with out := {} }) (hexec : exec c s = act2 s f)
    (hf : f s.nv m = x) : Turns2 c s x := by
  rw [Turns2, hexec, act2, ← hm, hf]

theorem On.turns2_live {s : State} {m : Module} {x : NonVol × Module} {c : Instr}
    (f : NonVol → Module → NonVol × Module) (hon : On s m) (hexec : exec c s = act2Live s f)
    (hf : f s.nv m = x) : Turns2 c s x :=
  turns2_act2 _ hon.1 hexec (by rw [if_pos hon.2, hf])

/-! ### An access of one aligned word -/

/-- An access of one aligned word that is allowed and granted is an access of the bank, and of nothing else. -/
theorem memAccess_word {m : Module} {nv : NonVol} {q : MemReq} {p : Place} (hsize : q.size = 8)
    (halign : q.addr % 8 = 0) (hplace : placeOf m.sys.part q.m q.addr = some p)
    (hallow : m.memAllowed p q.m q.wr.isSome = true) (hgo : (m.granted p q).2 = true) :
    m.memAccess nv q =
      let a := (m.granted p q).1.partAccess nv p 0 8 (q.wr.map (fun (v : W64) => v.toNat % 2 ^ 64)) q.bad q.sym
      match a.2.2 with
      | none => (a.1, a.2.1.busError (some p) q.m)
      | some v => (a.1, { a.2.1 with out :=
          { dword := if q.wr.isSome then none else some (BitVec.ofNat 64 v) } }) := by
  cases hwr : q.wr with
  | none =>
    have hread : m.memAllowed p q.m false = true := by simpa [hwr] using hallow
    simp [Module.memAccess, hsize, halign, hplace, hread, hgo, hwr]
      <;> rfl
  | some v =>
    have hwrite : m.memAllowed p q.m true = true := by simpa [hwr] using hallow
    simp [Module.memAccess, hsize, halign, hplace, hwrite, hgo, hwr]
      <;> rfl

/-- A word of no task, outside the register space, is accessed at its bank. -/
theorem memCommand_direct {m : Module} {nv : NonVol} {q : MemReq} (hserved : m.cluServed q.m = true)
    (hfree : m.busDenied q.m = false) (htask : q.task = none) (hout : inRegs q.addr = false) :
    m.memCommand nv q = m.memAccess nv q := by
  have hstage : m.stageTask q = none := by simp [Module.stageTask, htask]
  simp [Module.memCommand, hserved, hfree, hstage, Module.memDirect, hout]

/-! ### The rows -/

theorem nvRow_turns {s : State} {m : Module} {c : Instr}
    {r : (NonVol → Module → Bool) × (NonVol → Module → NonVol × Module)}
    (hon : On s m) (hc : nvRow c = some r) (hr : r.1 s.nv m = true) : Turns2 c s (r.2 s.nv m) := by
  unfold nvRow at hc
  split at hc
  case h_26 => cases hc
  all_goals
    obtain rfl := Option.some.inj hc
    clear hc
    simp only [Bool.and_eq_true, Bool.or_eq_true, Bool.not_eq_true', decide_eq_true_eq] at hr
  case h_1 va vb torn =>
    refine turns2_act2 _ hon.1 (rfl : execCollapse va vb torn s = act2 s _) ?_
    exact if_pos hr
  case h_2 us torn =>
    refine turns2_act2 _ hon.1 (rfl : execLastBreathEntry us torn s = act2 s _) ?_
    exact if_pos hr
  case h_3 clk =>
    refine hon.turns2_live _ (rfl : execClkLoss clk s = act2Live s _) ?_
    dsimp only
    by_cases hlow : clk < 4
    · rw [if_pos hlow, if_pos hlow]
    · obtain ⟨hhigh, hon⟩ := hr.resolve_left hlow
      rw [if_neg hlow, if_neg hlow, if_pos hhigh, Module.clkLost, if_neg (by rw [hon]; decide)]
  case h_4 clk => exact hon.turns2_live (fun nv m => m.clkBack nv clk) rfl (if_neg (by rw [hr]; decide))
  case h_5 => exact hon.turns2_live (fun nv m => m.nvWrite nv (.wear m.ep.wear)) rfl rfl
  case h_6 u row =>
    exact hon.turns2_live (fun nv m => m.rowRetired nv u row) rfl (if_neg (by rw [hr]; decide))
  case h_7 sram bad sym =>
    exact hon.turns2_live (fun nv m => m.scrubStep nv sram bad sym) rfl
      (if_neg (by cases sram <;> simp_all))
  case h_8 j =>
    obtain ⟨⟨hj, hbit⟩, -⟩ := hr
    refine hon.turns2_live _ (rfl : execTamper j s = act2Live s _) ?_
    exact (if_pos hj).trans (if_pos hbit)
  case h_9 j lo hi =>
    refine hon.turns2_live _ (rfl : execTamperPulseCheck j lo hi s = act2Live s _) ?_
    exact if_pos (by simp [hr.1, hr.2])
  case h_10 kind =>
    exact hon.turns2_live (fun nv m => m.glitched nv kind) rfl (if_neg (by omega))
  case h_11 =>
    obtain ⟨⟨hwipe, htarget⟩, hbreath⟩ := hr
    obtain ⟨c, hc⟩ := Option.isSome_iff_exists.mp hwipe
    have hpow : m.sys.pwr = .run ∨ m.sys.pwr = .ride := by simpa [Module.powered] using hon.2
    refine turns2_act2 _ hon.1 (rfl : execWiped s = act2 s _) ?_
    dsimp only
    rw [hc, Option.isNone_iff_eq_none.mp htarget, Option.isNone_iff_eq_none.mp hbreath]
    exact if_neg (by rcases hpow with h | h <;> simp [h])
  case h_12 x => exact hon.turns2_live (fun nv m => (m.thermRound nv.otp.ringOfs x).mramFlush nv) rfl rfl
  case h_13 =>
    refine hon.turns2_live (fun nv m => m.recDrain nv) rfl ((if_neg (by simp [hr.1])).trans ?_)
    cases hst : m.rc.stage with
    | nil => simp [hst] at hr
    | cons r rest =>
      dsimp only
      simp only [hst]
  case h_14 => exact hon.turns2_live (fun nv m => m.nvWrite nv (.optime m.rc.optime)) rfl rfl
  case h_15 ch =>
    refine hon.turns2_live _ (rfl : execInstall ch s = act2Live s _) ?_
    exact if_pos (by simp_all)
  case h_16 ch =>
    refine hon.turns2_live _ (rfl : execErase ch s = act2Live s _) ?_
    exact if_pos (by simp_all)
  case h_17 => exact hon.turns2_live (fun nv m => m.updVerify nv) rfl rfl
  case h_18 =>
    exact hon.turns2_live (fun nv m => m.planStored nv) rfl (if_neg (by simp [hr.1, hr.2]))
  case h_19 =>
    refine hon.turns2_live _ (rfl : execChanged s = act2Live s _) ?_
    obtain ⟨target, ht⟩ := Option.isSome_iff_exists.mp hr.1
    simp only [ht, hr.2, if_true]
  case h_20 =>
    refine hon.turns2_live _ (rfl : execScanDone s = act2Live s _) ?_
    exact if_neg hr.1
  case h_21 fails rows ms ro =>
    refine hon.turns2_live _ (rfl : execSelftestDone fails rows ms ro s = act2Live s _) ?_
    exact if_pos (by simp [hr.1, hr.2])
  case h_22 lv ms =>
    refine hon.turns2_live _ (rfl : execAdoptWindowEnd lv ms s = act2Live s _) ?_
    exact if_pos hr
  case h_23 done =>
    refine hon.turns2_live _ (rfl : execMajorFrame done s = act2Live s _) ?_
    exact if_pos hr
  case h_24 r =>
    refine hon.turns2_live _ (rfl : execTaskDeadline r s = act2Live s _) ?_
    have hid : ¬ 12 ≤ r.id := by omega
    cases hfin : r.fin <;> simp [Module.taskDeadline, hid, hr.2, hfin]
  case h_25 q =>
    obtain ⟨⟨⟨⟨⟨⟨hserved, hfree⟩, htask⟩, hout⟩, halign⟩, hsize⟩, hplace⟩ := hr
    refine hon.turns2_live _ (rfl : execMemoryAccess q s = act2Live s _) ?_
    dsimp only
    rw [memCommand_direct hserved hfree (by simpa using htask) hout]
    split at hplace
    · next p hp =>
      rw [Bool.and_eq_true] at hplace
      rw [memAccess_word hsize halign hp hplace.1 hplace.2]
      simp only [hp] <;> rfl
    · cases hplace

theorem powerRow_turns {s : State} {m : Module} {c : Instr}
    {r : (NonVol → Module → Bool) × (NonVol → Module → NonVol × Module)}
    (hm : m = { s.m with out := {} }) (hc : powerRow c = some r) (hr : r.1 s.nv m = true) :
    Turns2 c s (r.2 s.nv m) := by
  unfold powerRow at hc
  split at hc
  case h_4 => cases hc
  all_goals
    obtain rfl := Option.some.inj hc
    clear hc
  case h_1 va vb straps =>
    refine turns2_act2 _ hm (rfl : execPowerOn va vb straps s = act2 s _) ?_
    exact if_pos (of_decide_eq_true hr)
  case h_2 =>
    have hoff : (if m.sys.pwr = .lastBreath then m.unpowered else m) = m.unpowered := if_pos (of_decide_eq_true hr)
    have harm : exec .lastBreathReset s
        = .next { s with m := if m.sys.pwr = .lastBreath then m.unpowered else m } := by rw [hm]; rfl
    rw [hoff] at harm
    exact harm
  case h_3 straps =>
    refine turns2_act2 _ hm (rfl : execResetRelease straps s = act2 s _) ?_
    exact if_pos hr

end Sys2Proof.Machine

open Sys2Proof Sys2Proof.Machine

/-- Settles O27, row by row. -/
theorem nonVolatileEvents : Obligations.NonVolatileEvents := by
  intro s m c r hon hc hr
  exact nvRow_turns hon hc hr

/-- Settles O28, row by row. -/
theorem powerEvents : Obligations.PowerEvents := by
  intro s m c r hm hc hr
  exact powerRow_turns hm hc hr
end

section
/-! The two-wire target (O29) and the management requests (O30). -/

namespace Sys2Proof.Machine

theorem On.turns2_act {s : State} {m m' : Module} {c : Instr} (f : Module → Module) (hon : On s m)
    (hexec : exec c s = act s f) (hf : f m = m') : Turns2 c s (s.nv, m') := by
  obtain ⟨rfl, -⟩ := hon
  rw [Turns2, hexec, act, hf]

theorem twtRow_turns {s : State} {m : Module} {c : Instr}
    {r : (NonVol → Module → Bool) × (NonVol → Module → NonVol × Module)}
    (hon : On s m) (hc : twtRow c = some r) (hr : r.1 s.nv m = true) : Turns2 c s (r.2 s.nv m) := by
  unfold twtRow at hc
  split at hc
  case h_5 => cases hc
  all_goals
    obtain rfl := Option.some.inj hc
    clear hc
    simp only [Bool.and_eq_true, Bool.or_eq_true, decide_eq_true_eq] at hr
  case h_1 x =>
    obtain ⟨⟨htwt, hlen⟩, hacked⟩ := hr
    refine turns2_act2 _ hon.1 (rfl : execTwtWrite x s = act2 s _) ((if_pos htwt).trans ?_)
    have hlong : ¬ (if x.lastAcked then x.bytes else x.bytes.dropLast).length < 2 := by
      split
      · omega
      · next hlast =>
        have := hacked.resolve_left hlast
        simp only [List.length_dropLast]
        omega
    exact congrArg Module.settle (if_neg hlong)
  case h_2 ptr n last =>
    exact hon.turns2_act _ (rfl : execTwtRead ptr n last s = act s _) (if_pos hr)
  case h_3 =>
    exact hon.turns2_act _ (rfl : execTimeout s = act s _) (if_pos (by simp [hr]))
  case h_4 reading =>
    exact hon.turns2_act _ (rfl : execStretchLimit reading s = act s _) (if_neg (by simp [hr]))

/-- A request that is served for the first time runs, and is counted, kept and answered. -/
theorem mgmtOnce_of_first {m : Module} {q : MgmtHdr} (nv : NonVol) (addr count : Nat)
    (run : NonVol → Module → NonVol × Module × MgmtRes) (hfirst : mgmtFirst m q = true) :
    m.mgmtOnce nv q addr count run = mgmtEnd q addr count (run nv m) := by
  simp only [mgmtFirst, Bool.and_eq_true, Bool.not_eq_true', List.any_eq_false] at hfirst
  obtain ⟨⟨hopen, hroom⟩, hnew⟩ := hfirst
  have hnone : m.bn.kept.find? (fun k => k.mac = q.mac && k.seq = q.seq) = none :=
    List.find?_eq_none.mpr (by simpa using hnew)
  simp only [Module.mgmtOnce, hopen, hnone, hroom, Bool.not_true, Bool.false_eq_true, if_false,
    Module.mgmtAnswer, Module.mgmtCount, decide_eq_true_eq, Module.mgmtSend, mgmtEnd]

theorem capsetMine_busOpen {m : Module} {f : Capset} (h : m.capsetMine f = true) : m.busOpen 2 = true := by
  simp only [Module.capsetMine, Bool.and_eq_true] at h
  exact h.1.1.1

theorem mgmtRow_turns {s : State} {m : Module} {c : Instr}
    {r : (NonVol → Module → Bool) × (NonVol → Module → NonVol × Module)}
    (hon : On s m) (hc : mgmtRow c = some r) (hr : r.1 s.nv m = true) : Turns2 c s (r.2 s.nv m) := by
  unfold mgmtRow at hc
  split at hc
  case h_10 => cases hc
  all_goals
    obtain rfl := Option.some.inj hc
    clear hc
    simp only [Bool.and_eq_true, Bool.or_eq_true, Bool.not_eq_true', decide_eq_true_eq] at hr
  case h_1 q addr count =>
    obtain ⟨⟨⟨⟨hfirst, halign⟩, haddr⟩, hpos⟩, hmax⟩ := hr
    refine turns2_act2 _ hon.1 (rfl : execRead q addr count s = act2 s _)
      ((mgmtOnce_of_first _ _ _ _ hfirst).trans ?_)
    rw [if_neg (by simp only [Bool.or_eq_true, decide_eq_true_eq]; omega)]
  case h_2 q addr count =>
    obtain ⟨⟨⟨⟨hfirst, halign⟩, haddr⟩, hpos⟩, hmax⟩ := hr
    refine turns2_act2 _ hon.1 (rfl : execReadFixed q addr count s = act2 s _)
      ((mgmtOnce_of_first _ _ _ _ hfirst).trans ?_)
    rw [if_neg (by simp only [Bool.or_eq_true, decide_eq_true_eq]; omega)]
    simp only [Nat.zero_mul, Nat.add_zero, List.map_const', List.length_range]
  case h_3 q addr ws =>
    obtain ⟨⟨⟨⟨⟨hfirst, halign⟩, haddr⟩, hpos⟩, hmax⟩, hpage⟩ := hr
    have hlen : ws.length ≠ 0 := by cases ws <;> simp_all
    refine turns2_act2 _ hon.1 (rfl : execWrite q addr ws s = act2 s _)
      ((mgmtOnce_of_first _ _ _ _ hfirst).trans ?_)
    rw [if_neg (by simp only [Bool.or_eq_true, Bool.and_eq_true, decide_eq_true_eq]; omega)]
  case h_4 q addr ws =>
    obtain ⟨⟨⟨⟨hfirst, halign⟩, haddr⟩, hpos⟩, hmax⟩ := hr
    have hlen : ws.length ≠ 0 := by cases ws <;> simp_all
    refine turns2_act2 _ hon.1 (rfl : execWriteFixed q addr ws s = act2 s _)
      ((mgmtOnce_of_first _ _ _ _ hfirst).trans ?_)
    rw [if_neg (by simp only [Bool.or_eq_true, Bool.and_eq_true, decide_eq_true_eq]; omega)]
    have hmap : ws.zipIdx.map (fun x => (⟨addr + 0 * x.2, x.1⟩ : RegWr)) = ws.map (fun x => ⟨addr, x⟩) := by
      conv_rhs => rw [← List.zipIdx_map_fst 0 ws, List.map_map]
      exact List.map_congr_left fun x _ => by simp
    rw [hmap]
  case h_5 q ofs data =>
    obtain ⟨⟨⟨hfirst, hbrown⟩, hauto⟩, hlen⟩ := hr
    refine turns2_act2 _ hon.1 (rfl : execUpdateBlk q ofs data s = act2 s _)
      ((mgmtOnce_of_first _ _ _ _ hfirst).trans ?_)
    simp only [if_neg hbrown, hauto, Bool.false_eq_true, if_false, if_neg (Nat.not_lt.mpr hlen)]
  case h_6 q ch payload =>
    obtain ⟨hfirst, hauth⟩ := hr
    refine turns2_act2 _ hon.1 (rfl : execSend q ch payload s = act2 s _) ((if_neg ?_).trans
      (mgmtOnce_of_first _ _ _ _ hfirst))
    simp only [Bool.and_eq_true, Bool.not_eq_true', decide_eq_true_eq]
    rintro ⟨⟨⟨hch, hno⟩, hkeys⟩, -⟩
    rcases hauth with (h | h) | h <;> simp_all
  case h_7 q ch =>
    obtain ⟨hfirst, hch⟩ := hr
    refine turns2_act2 _ hon.1 (rfl : execAckRead q ch s = act2 s _)
      ((mgmtOnce_of_first _ _ _ _ hfirst).trans ?_)
    rw [if_neg (by omega)]
  case h_8 f =>
    refine turns2_act2 _ hon.1 (rfl : execCapset f s = act2 s _) ?_
    exact if_neg (by simp [hr])
  case h_9 =>
    exact turns2_act2 _ hon.1 (rfl : execCapsetApply s = act2 s _) (if_pos hr.1)

end Sys2Proof.Machine

open Sys2Proof Sys2Proof.Machine

/-- Settles O29, row by row. -/
theorem twoWireTarget : Obligations.TwoWireTarget := by
  intro s m c r hon hc hr
  exact twtRow_turns hon hc hr

/-- Settles O30, row by row. -/
theorem managementRequests : Obligations.ManagementRequests := by
  intro s m c r hon hc hr
  exact mgmtRow_turns hon hc hr
end

section
/-! Served writes of the register fabric (R69 to R92): the transaction of a master that nothing refuses, by the kind of
register that it writes; with these the enables and the commits (O31). -/

namespace Sys2Proof.Machine

/-! ### The transaction of a served master -/

/-- The transaction of a master that the fabric serves, before its first write. -/
def Txn.opened (nv : NonVol) (m : Module) (x : Nat) (auth : Bool) (ws : List RegWr) : Txn where
  nv := nv
  m := m
  m0 := m
  x := x
  auth := auth
  all := ws
  brown := false

/-- What a transaction leaves. -/
def Txn.result (t : Txn) : NonVol × Module := (t.nv, t.m)

/-- Neither brown-out nor AUTONOMOUS refuses a write of the transaction to a block. -/
def Txn.Clear (t : Txn) (b : Blk) : Prop :=
  t.brown = false ∧ (t.m0.autonomous && (t.x = 1 || t.x = 2) && b ≠ .sys && b ≠ .wdog) = false

theorem opened_clear {m : Module} {x : Nat} {b : Blk} (nv : NonVol) (auth : Bool) (ws : List RegWr)
    (hserves : Serves m x b = true) : (Txn.opened nv m x auth ws).Clear b := by
  obtain ⟨-, -, -, hauto⟩ := (serves_iff m x b).1 hserves
  exact ⟨rfl, hauto⟩

theorem transact_served {m : Module} {x : Nat} {b : Blk} (nv : NonVol) (auth : Bool) (ws : List RegWr)
    (hserves : Serves m x b = true) :
    m.transact nv x auth false ws =
      let t := (ws.foldl Txn.write (Txn.opened nv m x auth ws)).finish
      (t.nv, t.m, t.why) := by
  obtain ⟨-, -, hbrown, -⟩ := (serves_iff m x b).1 hserves
  simp only [Module.transact, Bool.false_or, hbrown]
  rfl

/-- A transaction of a served master, and what follows it. -/
theorem busDo_served {m : Module} {x : Nat} {b : Blk} {ws : List RegWr} (nv : NonVol) (auth : Bool)
    (hserves : Serves m x b = true) (hin : ∀ w ∈ ws, w.addr % 4 = 0 ∧ w.addr < 65536) :
    m.busDo nv x auth ws
      = Module.settle (ws.foldl Txn.write (Txn.opened nv m x auth ws)).finish.result := by
  obtain ⟨hopen, hdenied, -, -⟩ := (serves_iff m x b).1 hserves
  have hgood : ws.any (fun w => w.addr % 4 ≠ 0 || 65536 ≤ w.addr) = false := by
    rw [List.any_eq_false]
    intro w hw
    obtain ⟨halign, hlt⟩ := hin w hw
    simp [halign, hlt]
  simp only [Module.busDo, Module.busWrite, busServes_of_busOpen hopen, hdenied, hgood, transact_served _ _ _ hserves,
    Bool.not_true, Bool.or_self, Bool.false_eq_true, if_false]
  rfl

theorem rkey_fits {p off : Nat} (hp : p < 256) (hoff : off < 256) (halign : off % 4 = 0) :
    rkey p off % 4 = 0 ∧ rkey p off < 65536 := by
  simp only [rkey]
  omega

theorem regAt_blk {m : Module} {p off n : Nat} {b : Blk} {r : RegRow} (h : regAt m p off = some (b, n, r)) :
    blkOf p = some (b, n) ∧ rowOf b off = some r := by
  unfold regAt at h
  split at h
  · cases h
  · split at h
    · cases h
    · next b' n' hblk =>
      split at h
      · cases h
      · split at h
        · next r' hrow =>
          obtain ⟨rfl, rfl, rfl⟩ : b' = b ∧ n' = n ∧ r' = r := by simpa using h
          exact ⟨hblk, hrow⟩
        · cases h

/-- One served write of a register. -/
theorem busDo_port {q : Port} {m : Module} (nv : NonVol) (auth : Bool) (v : W32) (hopen : q.open m = true)
    (hoff : q.off < 256) (halign : q.off % 4 = 0) :
    m.busDo nv q.x auth [⟨rkey q.p q.off, v⟩]
      = Module.settle
          ((Txn.opened nv m q.x auth [⟨rkey q.p q.off, v⟩]).write ⟨rkey q.p q.off, v⟩).finish.result := by
  obtain ⟨hserves, ⟨r, hreg, -⟩, -⟩ := (port_open_iff _ m).1 hopen
  have hpage : q.p < 256 := (page_lt_of_blkOf (regAt_blk hreg).1).trans (by decide)
  refine busDo_served nv auth hserves fun w hw => ?_
  obtain rfl := List.mem_singleton.mp hw
  exact rkey_fits hpage hoff halign

/-! ### A command of a block -/

theorem cmdWrite_commit {t : Txn} {b : Blk} {p off : Nat} (n : Nat) (v : W32) (hoff : off < 256)
    (hcommit : Module.commitOff b = some off) :
    t.cmdWrite b p n (rkey p off) v = t.on (fun m => m.blkCommit b p n v t.wrote) := by
  simp only [Txn.cmdWrite, rkey_off p hoff, hcommit, if_true]

theorem finish_opened_on (nv : NonVol) (m : Module) (x : Nat) (auth : Bool) (ws : List RegWr) (f : Module → Module) :
    ((Txn.opened nv m x auth ws).on f).finish.result = (nv, f m) := by
  rw [finish_plain ⟨rfl, rfl, rfl, rfl, rfl, rfl, rfl⟩]
  rfl

section
variable {m : Module} {x n p off : Nat} {b : Blk} {ready : Module → Bool} {eff : Module → Module}

/-- A served write of a command register, in terms of what the command does to the transaction. -/
theorem busDo_cmdPort (nv : NonVol) (auth : Bool) (v : W32) (hopen : (cmdPort x b n p off ready eff).open m = true)
    (hlow : 0x2C ≤ off) (hoff : off < 256) (halign : off % 4 = 0) :
    m.busDo nv x auth [⟨rkey p off, v⟩]
      = Module.settle ((Txn.opened nv m x auth [⟨rkey p off, v⟩]).cmdWrite b p n (rkey p off) v).finish.result := by
  obtain ⟨hserves, ⟨r, hreg, hwo⟩, -⟩ := (port_open_iff _ m).1 hopen
  obtain ⟨hbrown, hauto⟩ := opened_clear nv auth [⟨rkey p off, v⟩] hserves
  refine (busDo_port nv auth v hopen hoff halign).trans ?_
  exact congrArg (fun t : Txn => Module.settle t.finish.result) (write_wo v hlow hoff hreg hwo hbrown hauto)

/-- A served write of a command register that acts on the module alone. -/
theorem busDo_cmdPort_on (nv : NonVol) (auth : Bool) (v : W32) (f : Module → Module)
    (hopen : (cmdPort x b n p off ready eff).open m = true) (hlow : 0x2C ≤ off) (hoff : off < 256)
    (halign : off % 4 = 0)
    (hcmd : (Txn.opened nv m x auth [⟨rkey p off, v⟩]).cmdWrite b p n (rkey p off) v
      = (Txn.opened nv m x auth [⟨rkey p off, v⟩]).on f) (hf : f m = eff m) :
    m.busDo nv x auth [⟨rkey p off, v⟩] = Module.settle ((cmdPort x b n p off ready eff).eff nv m) := by
  rw [busDo_cmdPort nv auth v hopen hlow hoff halign, hcmd, finish_opened_on, hf]
  rfl

/-- A served COMMIT. -/
theorem busDo_commit (nv : NonVol) (auth : Bool) (v : W32) (hopen : (cmdPort x b n p off ready eff).open m = true)
    (hcommit : Module.commitOff b = some off) (hm : m.blkCommit b p n v [] = eff m) :
    m.busDo nv x auth [⟨rkey p off, v⟩] = Module.settle ((cmdPort x b n p off ready eff).eff nv m) := by
  have hoff : 0x2C ≤ off ∧ off < 256 ∧ off % 4 = 0 := by
    cases b <;> cases hcommit <;> decide
  obtain ⟨hlow, hoff, halign⟩ := hoff
  exact busDo_cmdPort_on nv auth v _ hopen hlow hoff halign (cmdWrite_commit n v hoff hcommit) hm

end

/-! ### EN -/

theorem write_ctrl {t : Txn} {b : Blk} {n p : Nat} {r : RegRow} (v : W32)
    (hreg : regAt t.m p CTRL = some (b, n, r)) (hacc : r.acc ≠ .ro) (hclear : t.Clear b) :
    t.write ⟨rkey p CTRL, v⟩ = { t with ctrl := t.ctrl ++ [(p, v)] } := by
  obtain ⟨hbrown, hauto⟩ := hclear
  have hoff : CTRL < 256 := by decide
  have hname : CTRL ≠ TBL_DATA ∧ CTRL ≠ TBL_SEL ∧ CTRL ≠ TBL_IDX ∧ CTRL ≠ EVT_RAW ∧ CTRL ≠ EVT_EN ∧ CTRL ≠ FLT_STAT
      ∧ CTRL ≠ LOCK := by decide
  obtain ⟨hdata, hsel, hidx, hraw, hen, hflt, hlock⟩ := hname
  simp only [Txn.write, rkey_page p hoff, rkey_off p hoff, hreg, hbrown, hauto, hacc, hdata, hsel, hidx, hraw, hen, hflt,
    hlock, decide_false, Bool.and_false, Bool.false_eq_true, reduceIte]

theorem Txn.ctrlOrder_singleton (w : Nat × W32) : Txn.ctrlOrder [w] = [w] := by
  simp only [Txn.ctrlOrder, List.filter_cons, List.filter_nil]
  cases hcle : decide (w.1 = pgCle) && bit w.2 0
  · cases hph : decide (pgPhase ≤ w.1) && decide (w.1 < pgPhase + 48) && bit w.2 0 <;> rfl
  · have hpage : w.1 = pgCle := of_decide_eq_true (Bool.and_eq_true _ _ ▸ hcle).1
    have hph : (decide (pgPhase ≤ w.1) && decide (w.1 < pgPhase + 48) && bit w.2 0) = false := by rw [hpage]; rfl
    rw [hph]
    rfl

/-- A write of CTRL alone applies at the end of its transaction (R86). -/
theorem finish_ctrl {t : Txn} (p : Nat) (v : W32) (hplain : t.Plain) :
    ({ t with ctrl := t.ctrl ++ [(p, v)] } : Txn).finish
      = (({ t with ctrl := [(p, v)] } : Txn).ctrlWrite p v).locks.foldl
          (fun t l => t.on (fun m => m.setReg l.1 LOCK (m.reg l.1 LOCK ||| (l.2 &&& 3))))
          (({ t with ctrl := [(p, v)] } : Txn).ctrlWrite p v) := by
  cases t
  obtain ⟨rfl, rfl, rfl, rfl, rfl, rfl, rfl⟩ := hplain
  simp only [Txn.finish, List.nil_append, Txn.on, List.length_nil, Module.submitAll, Bool.false_eq_true, if_false,
    Txn.takeBlock, List.isEmpty_nil, Bool.true_or, if_true, List.foldl_nil, Txn.ctrlOrder_singleton, List.foldl_cons]

/-- A served write of CTRL that only moves EN of a block whose EN can move. -/
theorem ctrlWrite_en {t : Txn} {b : Blk} {n p : Nat} {v : W32} (hblk : blkOf p = some (b, n))
    (halways : alwaysOn b = false) (hmove : t.m.en p ≠ bit v 0) (hsoft : bit v 1 = false)
    (hlock : bit (t.m.reg p LOCK) 1 = false)
    (hbits : (t.m.reg p CTRL).toNat &&& ctrlBits b = v.toNat &&& ctrlBits b)
    (hgood : t.m.enBad t.m0 b n (bit v 0) = 0) :
    t.ctrlWrite p v = t.on (fun m => if bit v 0 then m.blkStart b p n else m.blkStop b p n) := by
  simp only [Txn.ctrlWrite, hblk, halways, hsoft, hlock, hbits, hgood, hmove.symm, ne_eq, not_true, Bool.false_eq_true,
    if_false, if_true, Bool.not_false, Bool.false_and]

theorem busDo_enPort {m : Module} {x : Nat} {b : Blk} {n p : Nat} {v : W32} (nv : NonVol)
    (halways : alwaysOn b = false) (hopen : (enPort x b n p v).open m = true) :
    m.busDo nv x false [⟨rkey p CTRL, v⟩] = Module.settle ((enPort x b n p v).eff nv m) := by
  obtain ⟨hserves, ⟨r, hreg, hacc⟩, hready⟩ := (port_open_iff _ m).1 hopen
  simp only [enPort, Bool.and_eq_true, Bool.not_eq_true', decide_eq_true_eq] at hready hreg hacc hserves
  obtain ⟨⟨⟨⟨hmove, hsoft⟩, hlock⟩, hbits⟩, hgood⟩ := hready
  have hro : r.acc ≠ .ro := by rw [hacc]; decide
  have hwrite := write_ctrl v hreg hro (opened_clear nv false [⟨rkey p CTRL, v⟩] hserves)
  have hen := ctrlWrite_en (t := { Txn.opened nv m x false [⟨rkey p CTRL, v⟩] with ctrl := [(p, v)] })
    (regAt_blk hreg).1 halways hmove hsoft hlock hbits hgood
  have hdo : m.busDo nv x false [⟨rkey p CTRL, v⟩]
      = Module.settle ((Txn.opened nv m x false [⟨rkey p CTRL, v⟩]).write ⟨rkey p CTRL, v⟩).finish.result :=
    busDo_port (q := enPort x b n p v) nv false v hopen (by simp only [enPort]; decide) (by simp only [enPort]; decide)
  rw [hdo, hwrite, finish_ctrl p v ⟨rfl, rfl, rfl, rfl, rfl, rfl, rfl⟩, hen]
  rfl

theorem some_of_guard {α : Type} {p : Prop} [Decidable p] {a b : α} (h : (if p then some a else none) = some b) :
    p ∧ a = b := by
  obtain ⟨hp, hab⟩ := Option.ite_none_right_eq_some.mp h
  exact ⟨hp, Option.some.inj hab⟩

theorem On.busCmd_turns {s : State} {m : Module} {c : Instr} {x : Nat} {ws : List RegWr} {z : NonVol × Module}
    (hon : On s m) (hexec : exec c s = busCmd s x ws) (hz : m.busDo s.nv x false ws = z) : Turns2 c s z :=
  turns2_act2 _ hon.1 hexec hz

theorem On.busAt_turns {s : State} {m : Module} {c : Instr} {x i n base off : Nat} {v : W32} {z : NonVol × Module}
    (hon : On s m) (hexec : exec c s = busAt s x i n base off v) (hi : i < n)
    (hz : m.busDo s.nv x false [⟨rkey (base + i) off, v⟩] = z) : Turns2 c s z :=
  turns2_act2 _ hon.1 hexec ((if_pos hi).trans hz)

theorem enRow_turns {s : State} {m : Module} {c : Instr} {q : Port} (hon : On s m) (hc : enRow c = some q)
    (hopen : q.open m = true) : Turns2 c s (Module.settle (q.eff s.nv m)) := by
  unfold enRow at hc
  split at hc
  case h_13 => cases hc
  case h_1 x v =>
    obtain rfl := Option.some.inj hc
    exact hon.busCmd_turns (rfl : execSchedEn x v s = busCmd s x _) (busDo_enPort _ rfl hopen)
  case h_4 x v =>
    obtain rfl := Option.some.inj hc
    exact hon.busCmd_turns (rfl : execCleEn x v s = busCmd s x _) (busDo_enPort _ rfl hopen)
  case h_6 x v =>
    obtain rfl := Option.some.inj hc
    exact hon.busCmd_turns (rfl : execGroveEn x v s = busCmd s x _) (busDo_enPort _ rfl hopen)
  case h_7 x v =>
    obtain rfl := Option.some.inj hc
    exact hon.busCmd_turns (rfl : execXingEn x v s = busCmd s x _) (busDo_enPort _ rfl hopen)
  case h_9 x v =>
    obtain rfl := Option.some.inj hc
    exact hon.busCmd_turns (rfl : execSeqEn x v s = busCmd s x _) (busDo_enPort _ rfl hopen)
  case h_10 x v =>
    obtain rfl := Option.some.inj hc
    exact hon.busCmd_turns (rfl : execWdogEn x v s = busCmd s x _) (busDo_enPort _ rfl hopen)
  case h_12 x v =>
    obtain rfl := Option.some.inj hc
    exact hon.busCmd_turns (rfl : execBenufEn x v s = busCmd s x _) (busDo_enPort _ rfl hopen)
  case h_2 x r v =>
    obtain ⟨hr, rfl⟩ := some_of_guard hc
    exact hon.busAt_turns (rfl : execRailEn x r v s = busAt s x _ _ _ _ _) hr (busDo_enPort _ rfl hopen)
  case h_3 x n v =>
    obtain ⟨hn, rfl⟩ := some_of_guard hc
    exact hon.busAt_turns (rfl : execPhaseEn x n v s = busAt s x _ _ _ _ _) hn (busDo_enPort _ rfl hopen)
  case h_5 x k v =>
    obtain ⟨hk, rfl⟩ := some_of_guard hc
    exact hon.busAt_turns (rfl : execTraceEn x k v s = busAt s x _ _ _ _ _) hk (busDo_enPort _ rfl hopen)
  case h_8 x c v =>
    obtain ⟨hch, rfl⟩ := some_of_guard hc
    exact hon.busAt_turns (rfl : execFeedEn x c v s = busAt s x _ _ _ _ _) hch (busDo_enPort _ rfl hopen)
  case h_11 x b v =>
    obtain ⟨hb, rfl⟩ := some_of_guard hc
    exact hon.busAt_turns (rfl : execBattEn x b v s = busAt s x _ _ _ _ _) hb (busDo_enPort _ rfl hopen)

/-! ### COMMIT (R85) -/

theorem bits_commitOne : bit 1 0 = true ∧ bit 1 1 = false ∧ bit 1 2 = false ∧ bit 1 3 = false := by decide
theorem bits_commitTwo : bit 2 0 = false ∧ bit 2 1 = true ∧ bit 2 2 = false ∧ bit 2 3 = false := by decide
theorem bits_commitFour : bit 4 0 = false ∧ bit 4 1 = false ∧ bit 4 2 = true ∧ bit 4 3 = false := by decide

theorem commitShed_of_good {m : Module} {r : Nat}
    (h : (Module.shedBad (m.val (pgRail + r) RAIL_PH_RATING) (fun n => bits (m.shedWord r 0 n) 16 16)
      (fun n => bits (m.shedWord r 1 n) 16 16)).isNone = true) :
    m.commitShed r = m.commit (pgRail + r) (inGroup (pgRail + r) 2) := by
  simp only [Module.commitShed, Option.isNone_iff_eq_none.mp h]

theorem commitSrc_of_good {m : Module} (h : ((List.range 64).find? m.srcBad).isNone = true) :
    m.commitSrc = m.commit pgEpe (inGroup pgEpe 0) := by
  simp only [Module.commitSrc, Option.isNone_iff_eq_none.mp h]

theorem seqCommit_of_good {m : Module} {t : Nat}
    (h : (((List.range 64).takeWhile (fun s => bits (m.tbl pgSeqtbl t (4 * s)) 28 4 ≠ kEnd)).find?
      (fun s => (m.stepBad t s).isSome)).isNone = true) :
    m.seqCommit t = (m.commit pgSeqtbl (inGroup pgSeqtbl t)).seqLens := by
  simp only [Module.seqCommit, Option.isNone_iff_eq_none.mp h]

/-- A fold of operations that leave a part of the module alone leaves it alone. -/
theorem foldl_leaves {α β : Type} (part : Module → β) (l : List α) (f : Module → α → Module) (m : Module)
    (h : ∀ m x, part (f m x) = part m) : part (l.foldl f m) = part m := by
  induction l generalizing m with
  | nil => rfl
  | cons x l ih => rw [List.foldl_cons, ih, h]

theorem applySnap_regs (m : Module) (sel : Nat → Bool) : (m.applySnap sel).regs = m.regs :=
  foldl_leaves Module.regs _ _ m fun _ _ => rfl

/-- A COMMIT leaves the registers as written. -/
theorem commit_regs (m : Module) (p : Nat) (ks : Nat → Bool) : (m.commit p ks).regs = m.regs := by
  rw [Module.commit_eq, applySnap_regs]

theorem commit_en (m : Module) (p : Nat) (ks : Nat → Bool) (q : Nat) : (m.commit p ks).en q = m.en q := by
  simp only [Module.en, Module.reg, Module.key, commit_regs]

theorem commitPoll_of_en {m : Module} {p : Nat} (h : m.en (pgTwc + p) = true) :
    m.commitPoll p = m.commit (pgTwc + p) (inGroup (pgTwc + p) 0) := by
  simp only [Module.commitPoll, commit_en, h, if_true]

theorem commitRow_turns {s : State} {m : Module} {c : Instr} {q : Port} (hon : On s m) (hc : commitRow c = some q)
    (hopen : q.open m = true) : Turns2 c s (Module.settle (q.eff s.nv m)) := by
  unfold commitRow at hc
  split at hc
  case h_15 => cases hc
  case h_1 x r =>
    obtain ⟨hr, rfl⟩ := some_of_guard hc
    obtain ⟨hunc, -⟩ := Bool.and_eq_true _ _ ▸ ((port_open_iff _ m).1 hopen).2.2
    refine hon.busAt_turns (rfl : execRailCommitRef x r s = busAt s x _ _ _ _ _) hr
      (busDo_commit s.nv false 1 hopen rfl ?_)
    simp only [Module.blkCommit, bits_commitOne, hunc, Bool.and_self, Bool.false_and, if_true, Bool.false_eq_true,
      if_false, settled]
  case h_2 x r =>
    obtain ⟨hr, rfl⟩ := some_of_guard hc
    obtain ⟨hunc, -⟩ := Bool.and_eq_true _ _ ▸ ((port_open_iff _ m).1 hopen).2.2
    refine hon.busAt_turns (rfl : execRailCommitProt x r s = busAt s x _ _ _ _ _) hr
      (busDo_commit s.nv false 2 hopen rfl ?_)
    simp only [Module.blkCommit, bits_commitTwo, hunc, Bool.and_self, Bool.false_and, if_true, Bool.false_eq_true,
      if_false, settled]
  case h_3 x r =>
    obtain ⟨hr, rfl⟩ := some_of_guard hc
    obtain ⟨hunc, hgood⟩ := Bool.and_eq_true _ _ ▸ ((port_open_iff _ m).1 hopen).2.2
    refine hon.busAt_turns (rfl : execRailCommitShed x r s = busAt s x _ _ _ _ _) hr
      (busDo_commit s.nv false 4 hopen rfl ?_)
    simp only [Module.blkCommit, bits_commitFour, hunc, Bool.and_self, Bool.false_and, if_true, Bool.false_eq_true,
      if_false, settled, commitShed_of_good hgood]
  case h_4 x v =>
    obtain rfl := Option.some.inj hc
    exact hon.busCmd_turns (rfl : execCleCommit x v s = busCmd s x _) (busDo_commit s.nv false v hopen rfl rfl)
  case h_5 x =>
    obtain rfl := Option.some.inj hc
    obtain ⟨hunc, hgood⟩ := Bool.and_eq_true _ _ ▸ ((port_open_iff _ m).1 hopen).2.2
    refine hon.busCmd_turns (rfl : execEpeCommitSrc x s = busCmd s x _) (busDo_commit s.nv false 1 hopen rfl ?_)
    simp only [Module.blkCommit, bits_commitOne, hunc, Bool.and_self, if_true, commitSrc_of_good hgood]
  case h_6 x =>
    obtain rfl := Option.some.inj hc
    have hunc : m.unc.any (inGroup pgXing 0) = true := ((port_open_iff _ m).1 hopen).2.2
    refine hon.busCmd_turns (rfl : execXingCommitBus x s = busCmd s x _) (busDo_commit s.nv false 1 hopen rfl ?_)
    simp only [Module.blkCommit, bits_commitOne, hunc, Bool.and_self, if_true]
  case h_7 x c =>
    obtain ⟨hch, rfl⟩ := some_of_guard hc
    have hunc : m.unc.any (inGroup (pgFeed + c) 0) = true := ((port_open_iff _ m).1 hopen).2.2
    refine hon.busAt_turns (rfl : execFeedCommitWin x c s = busAt s x _ _ _ _ _) hch
      (busDo_commit s.nv false 1 hopen rfl ?_)
    simp only [Module.blkCommit, bits_commitOne, hunc, Bool.and_self, Bool.false_and, if_true, Bool.false_eq_true,
      if_false]
  case h_8 x c =>
    obtain ⟨hch, rfl⟩ := some_of_guard hc
    have hunc : m.unc.any (inGroup (pgFeed + c) 1) = true := ((port_open_iff _ m).1 hopen).2.2
    refine hon.busAt_turns (rfl : execFeedCommitTrip x c s = busAt s x _ _ _ _ _) hch
      (busDo_commit s.nv false 2 hopen rfl ?_)
    simp only [Module.blkCommit, bits_commitTwo, hunc, Bool.and_self, Bool.false_and, if_true, Bool.false_eq_true,
      if_false]
  case h_9 x =>
    obtain rfl := Option.some.inj hc
    obtain ⟨hunc, hgood⟩ := Bool.and_eq_true _ _ ▸ ((port_open_iff _ m).1 hopen).2.2
    refine hon.busCmd_turns (rfl : execSeqtblCommitUp x s = busCmd s x _) (busDo_commit s.nv false 1 hopen rfl ?_)
    simp only [Module.blkCommit, bits_commitOne, hunc, Bool.and_self, Bool.false_and, if_true, Bool.false_eq_true,
      if_false, seqCommit_of_good hgood]
  case h_10 x =>
    obtain rfl := Option.some.inj hc
    obtain ⟨hunc, hgood⟩ := Bool.and_eq_true _ _ ▸ ((port_open_iff _ m).1 hopen).2.2
    refine hon.busCmd_turns (rfl : execSeqtblCommitDown x s = busCmd s x _) (busDo_commit s.nv false 2 hopen rfl ?_)
    simp only [Module.blkCommit, bits_commitTwo, hunc, Bool.and_self, Bool.false_and, if_true, Bool.false_eq_true,
      if_false, seqCommit_of_good hgood]
  case h_11 x b =>
    obtain ⟨hb, rfl⟩ := some_of_guard hc
    obtain ⟨hunc, hgood⟩ := Bool.and_eq_true _ _ ▸ ((port_open_iff _ m).1 hopen).2.2
    refine hon.busAt_turns (rfl : execBattCommitOcv x b s = busAt s x _ _ _ _ _) hb
      (busDo_commit s.nv false 1 hopen rfl ?_)
    simp only [Module.blkCommit, bits_commitOne, hunc, Bool.and_self, Bool.false_and, if_true, Bool.false_eq_true,
      if_false, Module.commitOcv, hgood]
  case h_12 x b =>
    obtain ⟨hb, rfl⟩ := some_of_guard hc
    have hunc : m.unc.any (inGroup (pgBatt + b) 1) = true := ((port_open_iff _ m).1 hopen).2.2
    refine hon.busAt_turns (rfl : execBattCommitChg x b s = busAt s x _ _ _ _ _) hb
      (busDo_commit s.nv false 2 hopen rfl ?_)
    simp only [Module.blkCommit, bits_commitTwo, hunc, Bool.and_self, Bool.false_and, if_true, Bool.false_eq_true,
      if_false]
  case h_13 x b =>
    obtain ⟨hb, rfl⟩ := some_of_guard hc
    have hunc : m.unc.any (inGroup (pgBatt + b) 2) = true := ((port_open_iff _ m).1 hopen).2.2
    refine hon.busAt_turns (rfl : execBattCommitLvl x b s = busAt s x _ _ _ _ _) hb
      (busDo_commit s.nv false 4 hopen rfl ?_)
    simp only [Module.blkCommit, bits_commitFour, hunc, Bool.and_self, Bool.false_and, if_true, Bool.false_eq_true,
      if_false]
  case h_14 x p =>
    obtain ⟨hp, rfl⟩ := some_of_guard hc
    obtain ⟨hunc, hen⟩ := Bool.and_eq_true _ _ ▸ ((port_open_iff _ m).1 hopen).2.2
    refine hon.busAt_turns (rfl : execTwcCommitPoll x p s = busAt s x _ _ _ _ _) hp
      (busDo_commit s.nv false 1 hopen rfl ?_)
    simp only [Module.blkCommit, bits_commitOne, hunc, Bool.and_self, if_true, commitPoll_of_en hen]

end Sys2Proof.Machine

open Sys2Proof Sys2Proof.Machine

/-- Settles O31: the enables by `busDo_enPort`, the commits by `busDo_commit`. -/
theorem enableAndCommitWrites : Obligations.EnableAndCommitWrites := by
  intro s m c q hon hc hopen
  exact hc.elim (enRow_turns hon · hopen) (commitRow_turns hon · hopen)
end

section
/-! The command registers of the blocks (O32). -/

namespace Sys2Proof.Machine

/-! ### A write of a register that holds its value -/

theorem kept_of_row {part off : Nat} {b : Blk} {r : RegRow} (v : W32) (h : rowOf b off = some r) :
    kept part b off v = regVal part b off r v := by
  simp only [kept, h]

/-- The offsets of the registers of a page that are not written through `regWrite`. -/
def plainOffset (b : Blk) (off : Nat) : Prop :=
  off < 256 ∧ off % 4 = 0 ∧ off ≠ CTRL ∧ off ≠ LOCK ∧ off ≠ EVT_RAW ∧ off ≠ EVT_EN ∧ off ≠ FLT_STAT
    ∧ (hasTbl b = true → off ≠ TBL_SEL ∧ off ≠ TBL_IDX ∧ off ≠ TBL_DATA)

/-- Such an offset is not one of the table window. -/
theorem plainOffset_window {b : Blk} {off : Nat} (h : plainOffset b off) :
    (hasTbl b && decide (off = TBL_DATA)) = false ∧ (hasTbl b && decide (off = TBL_SEL)) = false
      ∧ (hasTbl b && decide (off = TBL_IDX)) = false := by
  obtain ⟨-, -, -, -, -, -, -, htbl⟩ := h
  cases h : hasTbl b
  · exact ⟨rfl, rfl, rfl⟩
  · obtain ⟨hsel, hidx, hdata⟩ := htbl h
    simp [hsel, hidx, hdata]

theorem write_reg {t : Txn} {b : Blk} {n p off : Nat} {r : RegRow} (v : W32) (hplain : plainOffset b off)
    (hreg : regAt t.m p off = some (b, n, r)) (hacc : r.acc = .rw ∨ r.acc = .rwp) (hclear : t.Clear b) :
    t.write ⟨rkey p off, v⟩ = t.regWrite b p n (rkey p off) r v := by
  obtain ⟨hbrown, hauto⟩ := hclear
  obtain ⟨hdata, hsel, hidx⟩ := plainOffset_window hplain
  obtain ⟨hoff, -, hctrl, hlock, hraw, hen, hflt, -⟩ := hplain
  have hro : r.acc ≠ .ro ∧ r.acc ≠ .wo := by rcases hacc with h | h <;> rw [h] <;> decide
  simp only [Txn.write, rkey_page p hoff, rkey_off p hoff, hreg, hbrown, hauto, hro, hdata, hsel, hidx, hraw, hen, hflt,
    hlock, hctrl, Bool.false_eq_true, reduceIte]

/-- A write of a command register of a block (R89). -/
theorem write_command {t : Txn} {b : Blk} {n p off : Nat} {r : RegRow} (v : W32) (hplain : plainOffset b off)
    (hreg : regAt t.m p off = some (b, n, r)) (hacc : r.acc = .wo) (hclear : t.Clear b) :
    t.write ⟨rkey p off, v⟩ = t.cmdWrite b p n (rkey p off) v := by
  obtain ⟨hbrown, hauto⟩ := hclear
  obtain ⟨hdata, hsel, hidx⟩ := plainOffset_window hplain
  obtain ⟨hoff, -, hctrl, hlock, hraw, hen, hflt, -⟩ := hplain
  simp only [Txn.write, rkey_page p hoff, rkey_off p hoff, hreg, hbrown, hauto, hacc, reduceCtorEq, hdata, hsel, hidx, hraw, hen, hflt,
    hlock, hctrl, Bool.false_eq_true, reduceIte]

/-- Nothing refuses the write of an RW or RWP register or word (R84, R88, R91, R92). -/
theorem judge_accepts {t : Txn} {p : Nat} {acc : Acc} {eff : Eff} {pairs locks enc : Bool}
    (hlock : locks = true → bit (t.m.reg p LOCK) 0 = false) (hstop : eff = .stop → t.m0.en p = false)
    (hpair : acc = .rwp → pairs = true) (henc : enc = true) : t.judge p acc eff pairs locks enc = 0 := by
  have h1 : (locks && (acc = .rw || acc = .rwp) && bit (t.m.reg p LOCK) 0) = false := by
    cases hl : locks
    · rfl
    · rw [hlock hl, Bool.and_false]
  have h2 : (decide (eff = .stop) && t.m0.en p) = false := by
    by_cases he : eff = .stop
    · rw [hstop he, Bool.and_false]
    · rw [decide_eq_false he, Bool.false_and]
  have h3 : (decide (acc = .rwp) && !pairs) = false := by
    by_cases ha : acc = .rwp
    · rw [hpair ha, Bool.not_true, Bool.and_false]
    · rw [decide_eq_false ha, Bool.false_and]
  simp only [Txn.judge, h1, h2, h3, henc, Bool.not_true, Bool.false_eq_true, if_false]

/-- What `fits` says of the row of the register. -/
theorem fits_row {m : Module} {b : Blk} {p off : Nat} {v : W32} (h : fits m b p off v = true) :
    ∃ r, rowOf b off = some r ∧ (r.acc = .rw ∨ r.acc = .rwp) ∧ (r.acc = .rwp → pairOk v = true)
      ∧ (r.eff = .stop → m.en p = false) ∧ bit (m.reg p LOCK) 0 = false ∧ pair32Hi b off = none
      ∧ encOk m.sys.part b off (kept m.sys.part b off v) = true := by
  unfold fits at h
  split at h
  next r hr =>
    simp only [Bool.and_eq_true, Bool.or_eq_true, decide_eq_true_eq, Bool.not_eq_true', unlocked,
      Option.isNone_iff_eq_none] at h
    obtain ⟨⟨⟨hlock, hhalf⟩, henc⟩, ⟨hacc, hpair⟩, hstop⟩ := h
    exact ⟨r, hr, hacc, fun ha => hpair.resolve_left (fun hn => hn ha), fun he => hstop.resolve_left (fun hn => hn he),
      hlock, hhalf, henc⟩
  next => simp at h

theorem pairFits_whole {t : Txn} {b : Blk} {p off : Nat} (v : W32) (h : pair32Hi b off = none) :
    t.pairFits b p off v = pairOk v := by
  simp only [Txn.pairFits, h, Bool.and_true]

/-- One served write of a register. -/
theorem busDo_reg {m : Module} {x p off n : Nat} {b : Blk} {r : RegRow} (nv : NonVol) (auth : Bool) (v : W32)
    (hserves : Serves m x b = true) (hreg : regAt m p off = some (b, n, r)) (hoff : off < 256) (halign : off % 4 = 0) :
    m.busDo nv x auth [⟨rkey p off, v⟩]
      = Module.settle ((Txn.opened nv m x auth [⟨rkey p off, v⟩]).write ⟨rkey p off, v⟩).finish.result := by
  have hpage : p < 256 := (page_lt_of_blkOf (regAt_blk hreg).1).trans (by decide)
  refine busDo_served nv auth hserves fun w hw => ?_
  obtain rfl := List.mem_singleton.mp hw
  exact rkey_fits hpage hoff halign

/-! ### UPDATE.CMD -/

theorem regWrite_update {t : Txn} {r : RegRow} {v : W32} {op : Nat} (hm0 : t.m0 = t.m)
    (hrow : rowOf .update UPDATE_CMD = some r) (hfits : fits t.m .update pgUpdate UPDATE_CMD v = true)
    (hop : bits (kept t.m.sys.part .update UPDATE_CMD v) 16 16 = op) :
    t.regWrite .update pgUpdate 0 (rkey pgUpdate UPDATE_CMD) r v
      = { t with nv := (t.m.updCommand t.nv t.x op).1, m := (t.m.updCommand t.nv t.x op).2.1 } := by
  obtain ⟨r', hr', -, hpair, hstop, hlock, hhalf, henc⟩ := fits_row hfits
  obtain rfl : r' = r := Option.some.inj (hr'.symm.trans hrow)
  rw [kept_of_row v hrow] at henc hop
  have hjudge := judge_accepts (t := t) (locks := true) (fun _ => hlock) (fun he => hm0 ▸ hstop he) hpair henc
  have hoff : rkey pgUpdate UPDATE_CMD % 256 = UPDATE_CMD := by decide
  have hwin : isWin .update UPDATE_CMD = false := by decide
  simp only [Txn.regWrite, hoff, pairFits_whole v hhalf, reduceCtorEq, decide_false, Bool.false_and, Bool.not_false,
    Bool.false_eq_true, if_false, hjudge, ne_eq, not_true, hwin, false_and, and_self, if_true, hop]

theorem finish_opened_with (nv nv' : NonVol) (m m' : Module) (x : Nat) (auth : Bool) (ws : List RegWr) :
    ({ Txn.opened nv m x auth ws with nv := nv', m := m' } : Txn).finish.result = (nv', m') := by
  rw [finish_plain ⟨rfl, rfl, rfl, rfl, rfl, rfl, rfl⟩]
  rfl

/-- No field of UPDATE.CMD depends on the part. -/
theorem kept_update (part : Nat) (v : W32) : kept part .update UPDATE_CMD v = kept 0 .update UPDATE_CMD v := by
  simp only [kept, regVal, partBits, partFixed, reduceCtorEq, decide_false, Bool.and_false, Bool.false_and]

/-- A served write of UPDATE.CMD with an operation that is not refused. -/
theorem busDo_updPort {m : Module} {x op : Nat} {ready : Module → Bool} {eff : NonVol → Module → NonVol × Module}
    (nv : NonVol) (hop : bits (kept 0 .update UPDATE_CMD (mkPair op)) 16 16 = op)
    (hopen : (updPort x op ready eff).open m = true)
    (heff : ready m = true → ((m.updCommand nv x op).1, (m.updCommand nv x op).2.1) = eff nv m) :
    m.busDo nv x false [⟨rkey pgUpdate UPDATE_CMD, mkPair op⟩] = Module.settle (eff nv m) := by
  obtain ⟨hserves, ⟨r, hreg, hacc⟩, hready⟩ : Serves m x .update = true
      ∧ (∃ r, regAt m pgUpdate UPDATE_CMD = some (.update, 0, r) ∧ r.acc = .rwp) ∧ _ := (port_open_iff _ m).1 hopen
  obtain ⟨hfits, hready⟩ := Bool.and_eq_true _ _ ▸ hready
  have hplain : plainOffset .update UPDATE_CMD := by unfold plainOffset; decide
  have hwrite := write_reg (mkPair op) hplain hreg (Or.inr hacc)
    (opened_clear nv false [⟨rkey pgUpdate UPDATE_CMD, mkPair op⟩] hserves)
  have hop' : bits (kept m.sys.part .update UPDATE_CMD (mkPair op)) 16 16 = op := by rw [kept_update, hop]
  have hcmd := hwrite.trans (regWrite_update rfl (regAt_blk hreg).2 hfits hop')
  refine (busDo_reg nv false _ hserves hreg (by decide) (by decide)).trans ?_
  refine (congrArg (fun t : Txn => Module.settle t.finish.result) hcmd).trans ?_
  exact (congrArg Module.settle (finish_opened_with _ _ _ _ _ _ _)).trans (congrArg Module.settle (heff hready))

theorem updCommand_of_accepted {m : Module} {nv : NonVol} {x op : Nat} {z : NonVol × Module}
    (h : m.updOp nv x op = (z.1, z.2, 0)) :
    ((m.updCommand nv x op).1, (m.updCommand nv x op).2.1) = z := by
  simp only [Module.updCommand, h, if_true]

/-- A command register other than a COMMIT, of a block whose commands act on the module alone. -/
theorem cmdWrite_blkCmd {t : Txn} {b : Blk} {p off : Nat} (n : Nat) (v : W32) (hoff : off < 256)
    (hcommit : Module.commitOff b ≠ some off) (hb : b ≠ .sys ∧ b ≠ .heart ∧ b ≠ .recd ∧ b ≠ .update) :
    t.cmdWrite b p n (rkey p off) v = t.on (fun m => m.blkCmd b n v) := by
  obtain ⟨hsys, hheart, hrec, hupd⟩ := hb
  simp only [Txn.cmdWrite, rkey_off p hoff, hcommit, if_false]

section
variable {m : Module} {x n p off : Nat} {b : Blk} {ready : Module → Bool} {eff : Module → Module}

/-- A served write of a command register that `blkCmd` gives its meaning. -/
theorem busDo_blkCmdPort (nv : NonVol) (v : W32) (hopen : (cmdPort x b n p off ready eff).open m = true)
    (hoff : 0x2C ≤ off ∧ off < 256 ∧ off % 4 = 0) (hcommit : Module.commitOff b ≠ some off)
    (hb : b ≠ .sys ∧ b ≠ .heart ∧ b ≠ .recd ∧ b ≠ .update) (hcmd : m.blkCmd b n v = eff m) :
    m.busDo nv x false [⟨rkey p off, v⟩] = Module.settle ((cmdPort x b n p off ready eff).eff nv m) := by
  obtain ⟨hlow, hhigh, halign⟩ := hoff
  exact busDo_cmdPort_on nv false v _ hopen hlow hhigh halign (cmdWrite_blkCmd n v hhigh hcommit hb) hcmd

end

theorem updOp_abort {m : Module} {nv : NonVol} {x : Nat} (hidle : m.updSt ≠ usIdle) (hact : m.updSt ≠ usActivating)
    (howner : m.updOwner = x) (hhot : m.updHot = false) : m.updOp nv x 4 = (nv, m.updAbort, 0) := by
  have hcan : (m.updSt = usIdle || m.updSt = usActivating : Bool) = false := by simp [hidle, hact]
  simp only [Module.updOp, Nat.reduceEqDiff, if_false, if_true, hcan, Bool.false_eq_true, howner, ne_eq, not_true, hhot]

theorem updCommand_resume {m : Module} {nv : NonVol} {x : Nat} (hphase : m.lifePhase = 5) (hmark : nv.mark = false)
    (hhot : m.updHot = false) :
    ((m.updCommand nv x 5).1, (m.updCommand nv x 5).2.1)
      = (nv, if m.imageGood nv then m.updSys (fun y => { y with goOn := true }) else m.updRefuse 11 0) := by
  cases hgood : m.imageGood nv <;> simp [Module.updCommand, Module.updOp, hphase, hmark, hhot, hgood]

/-! ### HEART.WIPE_CMD -/

theorem wipeStart_of_none {m : Module} (nv : NonVol) (cause : Nat) (h : m.hw.wipe = none) :
    m.wipeStart nv cause = ({ nv with wipePending := true },
      (m.updHw (fun x => { x with wipe := some cause })).put pgHeart HEART_STATUS_WIPING 1) := by
  simp only [Module.wipeStart, h]

theorem cmdWrite_wipe (t : Txn) (n : Nat) :
    t.cmdWrite .heart pgHeart n (rkey pgHeart HEART_WIPE_CMD) 0x5A5AA5A5
      = { t with nv := (t.m.wipeStart t.nv 7).1, m := (t.m.wipeStart t.nv 7).2 } := by
  simp only [Txn.cmdWrite, Module.commitOff, reduceCtorEq, if_false, if_true]

/-- The wipe that HEART.WIPE_CMD starts (R495). -/
theorem busDo_wipe {m : Module} {x : Nat} {v : W32} (nv : NonVol) (eff : NonVol → Module → NonVol × Module)
    (hopen : ({ cmdPort x .heart 0 pgHeart HEART_WIPE_CMD (fun m => v = 0x5A5AA5A5 && m.hw.wipe.isNone) id with
      eff := eff } : Port).open m = true) :
    m.busDo nv x false [⟨rkey pgHeart HEART_WIPE_CMD, v⟩] = Module.settle ({ nv with wipePending := true },
      (m.updHw (fun y => { y with wipe := some 7 })).put pgHeart HEART_STATUS_WIPING 1) := by
  obtain ⟨hserves, hhas, hready⟩ := (port_open_iff _ m).1 hopen
  obtain ⟨hv, hfree⟩ := (Bool.and_eq_true _ _).mp hready
  obtain rfl : v = 0x5A5AA5A5 := of_decide_eq_true hv
  obtain ⟨r, hreg, hwo⟩ := hhas
  have hplain : plainOffset .heart HEART_WIPE_CMD := by unfold plainOffset; decide
  have hwrite := write_command 0x5A5AA5A5 hplain hreg hwo
    (opened_clear nv false [⟨rkey pgHeart HEART_WIPE_CMD, 0x5A5AA5A5⟩] hserves)
  have hdo := busDo_reg (off := HEART_WIPE_CMD) nv false 0x5A5AA5A5 hserves hreg (by decide) (by decide)
  refine hdo.trans ?_
  refine (congrArg (fun t : Txn => Module.settle t.finish.result) (hwrite.trans (cmdWrite_wipe _ 0))).trans ?_
  rw [finish_opened_with]
  exact congrArg Module.settle (wipeStart_of_none nv 7 (Option.isNone_iff_eq_none.mp hfree))

/-! ### SYS.CMD -/

theorem cmdWrite_sys {t : Txn} {v : W32} (n : Nat) (hpair : pairOk v = true)
    (henc : encOk t.m.sys.part .sys SYS_CMD v = true) :
    t.cmdWrite .sys pgSys n (rkey pgSys SYS_CMD) v = t.sysCmd (rkey pgSys SYS_CMD) v := by
  have hoff : rkey pgSys SYS_CMD % 256 = SYS_CMD := by decide
  simp only [Txn.cmdWrite, hoff, hpair, henc, Module.commitOff, reduceCtorEq, if_false, Bool.not_true,
    Bool.false_eq_true]

theorem sysCmd_restart {t : Txn} (addr : Nat) (hcan : t.m.fwCan = true) :
    t.sysCmd addr 0x0001FFFE = t.on (fun m => m.fwAsk 2) := by
  have hop : bits 0x0001FFFE 16 16 = 1 := by decide
  simp only [Txn.sysCmd, hop, hcan, if_true]

/-- A restart that no other one precedes waits for the major frame (R25). -/
theorem fwAsk_of_free {m : Module} (cause : Nat) (hcan : m.fwCan = true) (hrun : m.sys.restart = .none) :
    m.fwAsk cause =
      let m := m.put pgSys SYS_RESTART_CAUSE cause
      let m := (m.put pgSys SYS_RESTART_MERGED 0).put pgSys SYS_STATUS_RESTART_PEND 1
      { m with sys := { m.sys with restart := .pending cause } } := by
  have hfree : (m.put pgSys SYS_RESTART_CAUSE cause).sys.restart = .none := hrun
  simp only [Module.fwAsk, hcan, Bool.not_true, Bool.false_eq_true, if_false, hfree]

/-! ### The words that commands write -/

theorem forgetWord_fields (i : Nat) : bit (BitVec.ofNat 32 (1 + i % 64 * 256)) 0 = true
    ∧ bits (BitVec.ofNat 32 (1 + i % 64 * 256)) 8 6 = i % 64
    ∧ bit (BitVec.ofNat 32 (1 + i % 64 * 256)) 16 = false := by
  have hall : ∀ k < 64, bit (BitVec.ofNat 32 (1 + k * 256)) 0 = true
      ∧ bits (BitVec.ofNat 32 (1 + k * 256)) 8 6 = k ∧ bit (BitVec.ofNat 32 (1 + k * 256)) 16 = false := by decide
  exact hall (i % 64) (Nat.mod_lt _ (by decide))

theorem helloWord_fields : bit 0x00010000 0 = false ∧ bit 0x00010000 16 = true := by decide

/-! ### Commands whose meaning is that of the row -/

/-- The place of a command in the major frame does not change who is served. -/
theorem arriveAt_open {m : Module} {x n p off : Nat} {b : Blk} {ready ready' : Module → Bool}
    {eff eff' : Module → Module} (cyc : Nat) (hopen : (cmdPort x b n p off ready eff).open m = true)
    (hready : ready' (m.arriveAt cyc) = true) : (cmdPort x b n p off ready' eff').open (m.arriveAt cyc) = true := by
  obtain ⟨hserves, hhas, -⟩ := (port_open_iff _ m).1 hopen
  exact (port_open_iff _ _).2 ⟨hserves, hhas, hready⟩

theorem cmdRow_turns {s : State} {m : Module} {c : Instr} {q : Port} (hon : On s m) (hc : cmdRow c s.nv = some q)
    (hopen : q.open m = true) : Turns2 c s (Module.settle (q.eff s.nv m)) := by
  unfold cmdRow at hc
  split at hc
  case h_25 => cases hc
  case h_1 x =>
    obtain rfl := Option.some.inj hc
    obtain ⟨hcan, hrun⟩ := Bool.and_eq_true _ _ ▸ ((port_open_iff _ m).1 hopen).2.2
    exact hon.busCmd_turns (rfl : execFwRestart x s = busCmd s x _)
      (busDo_cmdPort_on s.nv false _ (fun m => m.fwAsk 2) hopen (by decide) (by decide) (by decide)
        ((cmdWrite_sys 0 (by decide) rfl).trans (sysCmd_restart _ hcan))
        (fwAsk_of_free 2 hcan (of_decide_eq_true hrun)))
  case h_2 x =>
    obtain rfl := Option.some.inj hc
    exact hon.busCmd_turns (rfl : execModuleResetCmd x s = busCmd s x _)
      (busDo_cmdPort_on s.nv false _ (fun m => m.updSys (fun y => { y with resetDue := some (4, 1) })) hopen (by decide)
        (by decide) (by decide) (cmdWrite_sys 0 (by decide) rfl) rfl)
  case h_3 x =>
    obtain rfl := Option.some.inj hc
    exact hon.busCmd_turns (rfl : execSaplingCmd x s = busCmd s x _)
      (busDo_cmdPort_on s.nv false _ (fun m => m.updSys (fun y => { y with resetDue := some (4, 2) })) hopen (by decide)
        (by decide) (by decide) (cmdWrite_sys 0 (by decide) rfl) rfl)
  case h_4 x v =>
    obtain rfl := Option.some.inj hc
    obtain ⟨hgo, -⟩ := Bool.and_eq_true _ _ ▸ ((port_open_iff _ m).1 hopen).2.2
    refine hon.busCmd_turns (rfl : execBistReq x v s = busCmd s x _)
      (busDo_blkCmdPort s.nv v hopen (by decide) (by decide) (by decide) ?_)
    simp only [Module.blkCmd, hgo, if_true]
  case h_5 x v =>
    obtain rfl := Option.some.inj hc
    exact hon.busCmd_turns (rfl : execCalReq x v s = busCmd s x _)
      (busDo_blkCmdPort s.nv v hopen (by decide) (by decide) (by decide)
        (if_pos ((port_open_iff _ m).1 hopen).2.2))
  case h_6 x k =>
    obtain ⟨hk, rfl⟩ := some_of_guard hc
    have hready : (m.en (pgTrace + k) && (m.trSt k = tsIdle || m.trSt k = tsDone)) = true :=
      ((port_open_iff _ m).1 hopen).2.2
    refine hon.busAt_turns (rfl : execArm x k s = busAt s x _ _ _ _ _) hk
      (busDo_blkCmdPort s.nv 1 hopen (by decide) (by decide) (by decide) ?_)
    simp only [Module.blkCmd, bits_commitOne, if_true, Bool.false_eq_true, if_false, Module.trArm, hready]
  case h_7 x k cyc =>
    obtain ⟨hk, rfl⟩ := some_of_guard hc
    have hopen' := arriveAt_open (ready' := fun _ => true) (eff' := fun m => m.trTrigger k 4) cyc hopen rfl
    have hpow : (if m.powered then m.arriveAt cyc else m) = m.arriveAt cyc := if_pos hon.2
    refine turns2_act2 _ hon.1 (rfl : execForce x k cyc s = act2 s _) ((if_pos hk).trans ?_)
    rw [hpow]
    refine busDo_blkCmdPort s.nv 2 hopen' (by decide)
      (by decide) (by decide) ?_
    simp only [Module.blkCmd, bits_commitTwo, if_true, Bool.false_eq_true, if_false]
  case h_8 x k =>
    obtain ⟨hk, rfl⟩ := some_of_guard hc
    refine hon.busAt_turns (rfl : execStop x k s = busAt s x _ _ _ _ _) hk
      (busDo_blkCmdPort s.nv 4 hopen (by decide) (by decide) (by decide) ?_)
    simp only [Module.blkCmd, bits_commitFour, if_true, Bool.false_eq_true, if_false, Module.trStop]
  case h_9 x =>
    obtain rfl := Option.some.inj hc
    have hen : m.en pgSeq = true := ((port_open_iff _ m).1 hopen).2.2
    refine hon.busCmd_turns (rfl : execSeqReqOn x s = busCmd s x _)
      (busDo_blkCmdPort s.nv 1 hopen (by decide) (by decide) (by decide) ?_)
    simp only [Module.blkCmd, bits_commitOne, if_true, Bool.false_eq_true, if_false, Module.seqRequest, hen,
      Bool.not_true]
  case h_10 x =>
    obtain rfl := Option.some.inj hc
    have hen : m.en pgSeq = true := ((port_open_iff _ m).1 hopen).2.2
    refine hon.busCmd_turns (rfl : execSeqReqOff x s = busCmd s x _)
      (busDo_blkCmdPort s.nv 2 hopen (by decide) (by decide) (by decide) ?_)
    simp only [Module.blkCmd, bits_commitTwo, if_true, Bool.false_eq_true, if_false, Module.seqRequest, hen,
      Bool.not_true]
  case h_11 x v =>
    obtain rfl := Option.some.inj hc
    have hready : (v = 0xA5A55A5A && m.cfg pgWdog WDOG_CFG_SRC ≠ 0) = true := ((port_open_iff _ m).1 hopen).2.2
    simp only [Bool.and_eq_true, decide_eq_true_eq] at hready
    obtain ⟨hv, hsrc⟩ := hready
    exact hon.busCmd_turns (rfl : execKick x v s = busCmd s x _)
      (busDo_blkCmdPort s.nv v hopen (by decide) (by decide) (by decide)
        ((if_neg (not_not.mpr hv)).trans (if_neg hsrc)))
  case h_12 x b =>
    obtain ⟨hb, rfl⟩ := some_of_guard hc
    have hpres : m.btPres b = 1 := of_decide_eq_true ((port_open_iff _ m).1 hopen).2.2
    refine hon.busAt_turns (rfl : execAccept x b s = busAt s x _ _ _ _ _) hb
      (busDo_blkCmdPort s.nv 1 hopen (by decide) (by decide) (by decide) ?_)
    simp only [Module.blkCmd, bits_commitOne, if_true, Bool.false_eq_true, if_false]
    exact if_neg (not_not.mpr hpres)
  case h_13 x b =>
    obtain ⟨hb, rfl⟩ := some_of_guard hc
    refine hon.busAt_turns (rfl : execImpGo x b s = busAt s x _ _ _ _ _) hb
      (busDo_blkCmdPort s.nv 2 hopen (by decide) (by decide) (by decide) ?_)
    simp only [Module.blkCmd, bits_commitTwo, if_true, Bool.false_eq_true, if_false]
    exact if_pos ((port_open_iff _ m).1 hopen).2.2
  case h_14 x =>
    obtain rfl := Option.some.inj hc
    refine hon.busCmd_turns (rfl : execCal x s = busCmd s x _)
      (busDo_blkCmdPort s.nv 1 hopen (by decide) (by decide) (by decide) ?_)
    simp only [Module.blkCmd, bits_commitOne, if_true, Module.calStart]
  case h_15 x cyc =>
    obtain rfl := Option.some.inj hc
    have hready : (!m.net.rebuild && m.eng (1 - m.engA) = esStep) = true := ((port_open_iff _ m).1 hopen).2.2
    simp only [Bool.and_eq_true, Bool.not_eq_true', decide_eq_true_eq] at hready
    have hfree : ((m.arriveAt cyc).net.rebuild
        || (m.arriveAt cyc).eng (1 - (m.arriveAt cyc).engA) ≠ esStep : Bool) = false :=
      Bool.or_eq_false_iff.mpr ⟨hready.1, decide_eq_false (not_not.mpr hready.2)⟩
    have hopen' := arriveAt_open (ready' := fun _ => true) (eff' := fun m => (m.switchOver 5 true).engRepair m.engA) cyc
      hopen rfl
    have hpow : (if m.powered then m.arriveAt cyc else m) = m.arriveAt cyc := if_pos hon.2
    refine turns2_act2 _ hon.1 (rfl : execSwitch x cyc s = act2 s _) ?_
    rw [hpow]
    refine busDo_blkCmdPort s.nv 1 hopen' (by decide) (by decide) (by decide) ?_
    simp only [Module.blkCmd, bits_commitOne, if_true, Bool.false_eq_true, if_false, Module.netSwitch, hfree]
  case h_16 x e =>
    obtain rfl := Option.some.inj hc
    have hfailed : m.eng (e % 2) = esFailed := of_decide_eq_true ((port_open_iff _ m).1 hopen).2.2
    have hruns := exec_repair e hon hopen
    rw [netRepair_of_failed hfailed] at hruns
    exact hruns
  case h_17 x i =>
    obtain rfl := Option.some.inj hc
    refine hon.busCmd_turns (rfl : execForget x i s = busCmd s x _)
      (busDo_blkCmdPort s.nv _ hopen (by decide) (by decide) (by decide) ?_)
    simp only [Module.blkCmd, Module.benufCmd, forgetWord_fields, if_true, Bool.false_and, Bool.false_eq_true, if_false]
  case h_18 x =>
    obtain rfl := Option.some.inj hc
    have hready : (m.get pgBenuf BENUF_STATUS_STATE = 1 || m.get pgBenuf BENUF_STATUS_STATE = 2) = true :=
      ((port_open_iff _ m).1 hopen).2.2
    refine hon.busCmd_turns (rfl : execHelloNow x s = busCmd s x _)
      (busDo_blkCmdPort s.nv 0x00010000 hopen (by decide) (by decide) (by decide) ?_)
    simp only [Module.blkCmd, Module.benufCmd, helloWord_fields, hready, Bool.and_self, if_true, Bool.false_eq_true,
      if_false]
  case h_19 x v =>
    obtain rfl := Option.some.inj hc
    exact hon.busCmd_turns (rfl : execWipeCmd x v s = busCmd s x _) (busDo_wipe s.nv _ hopen)
  case h_20 x =>
    obtain rfl := Option.some.inj hc
    exact hon.busCmd_turns (rfl : execStartImage x s = busCmd s x _)
      (busDo_updPort (op := 1) s.nv (by decide) hopen fun h => updCommand_of_accepted
        (congrArg (fun why => (s.nv, (m.updStart x false).1, why)) (of_decide_eq_true h)))
  case h_21 x =>
    obtain rfl := Option.some.inj hc
    exact hon.busCmd_turns (rfl : execStartPlan x s = busCmd s x _)
      (busDo_updPort (op := 2) s.nv (by decide) hopen fun h => updCommand_of_accepted
        (congrArg (fun why => (s.nv, (m.updStart x true).1, why)) (of_decide_eq_true h)))
  case h_22 x =>
    obtain rfl := Option.some.inj hc
    exact hon.busCmd_turns (rfl : execActivate x s = busCmd s x _)
      (busDo_updPort (op := 3) s.nv (by decide) hopen fun h => updCommand_of_accepted
        (congrArg (fun why => ((m.updActivate s.nv).1, (m.updActivate s.nv).2.1, why)) (of_decide_eq_true h)))
  case h_23 x =>
    obtain rfl := Option.some.inj hc
    refine hon.busCmd_turns (rfl : execAbort x s = busCmd s x _)
      (busDo_updPort (op := 4) s.nv (by decide) hopen fun h => updCommand_of_accepted ?_)
    simp only [Bool.and_eq_true, Bool.not_eq_true', decide_eq_true_eq] at h
    obtain ⟨⟨⟨hidle, hact⟩, howner⟩, hhot⟩ := h
    exact updOp_abort hidle hact howner hhot
  case h_24 x =>
    obtain rfl := Option.some.inj hc
    refine hon.busCmd_turns (rfl : execResume x s = busCmd s x _)
      (busDo_updPort (op := 5) s.nv (by decide) hopen fun h => ?_)
    simp only [Bool.and_eq_true, Bool.not_eq_true', decide_eq_true_eq] at h
    obtain ⟨⟨hphase, hmark⟩, hhot⟩ := h
    exact updCommand_resume hphase hmark hhot

end Sys2Proof.Machine

open Sys2Proof Sys2Proof.Machine

/-- Settles O32, row by row. -/
theorem blockCommands : Obligations.BlockCommands := by
  intro s m c q hon hc hopen
  exact cmdRow_turns hon hc hopen
end

section
/-! SOFT_RST of a stopped block whose configuration is locked (O33). -/

namespace Sys2Proof.Machine

/-- A powered module whose SCHED page has its configuration locked (LOCK bit 0), with its control free. -/
def softLockedModule : Module := poweredModule.setReg pgSched LOCK 1

/-- Rootstock's SOFT_RST of the SCHED page. -/
def softLockedPort : Port where
  x := 8
  b := .sched
  n := 0
  p := pgSched
  off := CTRL
  acc := .rw
  ready := fun m => !m.en pgSched && !bit (m.reg pgSched LOCK) 1
  eff := fun nv m => (nv, m.softReset .sched pgSched 0)

theorem softLocked_open : softLockedPort.open softLockedModule = true := by decide

/-- The fabric refuses it as locked and counts the refusal (R84, R88). -/
theorem softLocked_refused :
    (softLockedModule.busDo State.reset.nv 8 false [⟨rkey pgSched CTRL, softLockedModule.reg pgSched CTRL ||| 2⟩]).2.reg
      pgInteg INTEG_CFG_CNT = 1 := by decide

/-- The row has the block reset, and no refusal. -/
theorem softLocked_row :
    (Module.settle (softLockedPort.eff State.reset.nv softLockedModule)).2.reg pgInteg INTEG_CFG_CNT = 0 := by decide

end Sys2Proof.Machine

open Sys2Proof Sys2Proof.Machine

/-- Refutes O33: the row of SOFT_RST asks that LOCK bit 1 be clear and says nothing of bit 0. With bit 0 set (the
configuration is locked) and EN 0 the model refuses the write with reason 2 and resets nothing; the row has the block
reset. Rootstock's SOFT_RST of the SCHED page of a powered module with LOCK 1 is such a write. -/
theorem not_configurationWrites : ¬ Obligations.ConfigurationWrites := by
  unfold Obligations.ConfigurationWrites
  intro h
  have hrow := h { State.reset with m := softLockedModule } softLockedModule (.softRst 8 pgSched) softLockedPort
    ⟨rfl, rfl⟩ rfl softLocked_open
  have hruns : Turns2 (.softRst 8 pgSched) { State.reset with m := softLockedModule }
      (softLockedModule.busDo State.reset.nv 8 false
        [⟨rkey pgSched CTRL, softLockedModule.reg pgSched CTRL ||| 2⟩]) :=
    On.busAt_turns ⟨rfl, rfl⟩ (rfl : execSoftRst 8 pgSched _ = busAt _ 8 pgSched 256 0 CTRL _) (by decide) rfl
  have hcount := congrArg (fun t : State => t.m.reg pgInteg INTEG_CFG_CNT)
    (Host.Outcome.next.inj (hruns.symm.trans hrow))
  exact absurd (softLocked_refused.symm.trans (hcount.trans softLocked_row)) (by decide)
end

section
/-! Table words, mailboxes, records, blocks of an update and learned values (O34, O35). -/

namespace Sys2Proof.Machine

/-! ### The registers of a page -/

theorem regAt_of_part {m m' : Module} (p off : Nat) (h : m.sys.part = m'.sys.part) : regAt m p off = regAt m' p off := by
  simp only [regAt, h]

/-- A page that every part has holds every register of its table, but for the absent ones. -/
theorem regAt_of_row {m : Module} {p off n : Nat} {b : Blk} {r : RegRow} (hblk : blkOf p = some (b, n))
    (hpage : pagePresent m.sys.part p = true) (habsent : regAbsent m.sys.part b off = false) (hrow : rowOf b off = some r) :
    regAt m p off = some (b, n, r) := by
  simp only [regAt, hpage, hblk, habsent, hrow, Bool.not_true, Bool.false_eq_true, if_false]

theorem regAt_present {m : Module} {p off n : Nat} {b : Blk} {r : RegRow} (h : regAt m p off = some (b, n, r)) :
    pagePresent m.sys.part p = true := by
  unfold regAt at h
  split at h
  · cases h
  · next hp => simpa using hp

/-- A page with one register has the others of its table. -/
theorem regAt_other {m : Module} {p off off' n : Nat} {b : Blk} {r r' : RegRow} (h : regAt m p off = some (b, n, r))
    (hb : b ≠ .adccal) (hrow : rowOf b off' = some r') : regAt m p off' = some (b, n, r') := by
  refine regAt_of_row (regAt_blk h).1 (regAt_present h) ?_ hrow
  unfold regAbsent
  split
  · exact absurd rfl hb
  · rfl

/-! ### The table window (R80 to R82) -/

/-- A write through the table window of a page. -/
theorem write_tblData {t : Txn} {b : Blk} {n p : Nat} {r : RegRow} (v : W32) (hreg : regAt t.m p TBL_DATA = some (b, n, r))
    (htbl : hasTbl b = true) (hclear : t.Clear b) :
    t.write ⟨rkey p TBL_DATA, v⟩ = t.tblWrite b p n (rkey p TBL_DATA) v := by
  obtain ⟨hbrown, hauto⟩ := hclear
  have hoff : TBL_DATA < 256 := by decide
  simp only [Txn.write, rkey_page p hoff, rkey_off p hoff, hreg, hbrown, hauto, htbl, Bool.false_eq_true, if_false,
    decide_true, Bool.and_self, if_true]

/-- A table word that is present, writable and not refused takes its value. -/
theorem tblWrite_accepts {t : Txn} {b : Blk} {n p s i : Nat} {v : W32} {r : TRow} (addr : Nat)
    (hs : selOf t.m p t.x = s) (hi : idxOf t.m p t.x = i) (hrow : tblRow b n s i = some r)
    (hpresent : tblAbsent t.m.sys.part b s i = false) (hacc : r.acc ≠ .ro)
    (hlock : bit (t.m.reg p LOCK) 0 = false) (hstop : r.eff = .stop → t.m0.en p = false)
    (hpair : r.acc = .rwp → pairOk v = true) (henc : encTblOk b s i (maskVal r.acc r.mask v) = true) :
    t.tblWrite b p n addr v =
      let t' := t.on (fun m => { m with idx := putK m.idx (16 * p + t.x) (i + 1) })
      if b = .mbox then
        (if s = 8 then t'.mailBind p (8 * n + i) addr (maskVal r.acc r.mask v)
          else t'.mailWord p (8 * n + s) i (maskVal r.acc r.mask v))
      else
        let t' := t'.accept (tkey p s i) (maskVal r.acc r.mask v)
        if b = .adccal then t'.on (fun m => m.monWritten (m.reg p ADCCAL_MON_DIV)) else t' := by
  have hjudge := judge_accepts (t := t.on (fun m => { m with idx := putK m.idx (16 * p + t.x) (i + 1) })) (locks := true)
    (acc := r.acc) (fun _ => hlock) hstop hpair henc
  have hsome : (tblAbsent (t.on (fun m => { m with idx := putK m.idx (16 * p + t.x) (i + 1) })).m.sys.part b s i
      || decide (r.acc = .ro)) = false := by simpa [Txn.on, hpresent] using hacc
  simp only [Txn.tblWrite, hs, hi, hrow, hsome, Bool.false_eq_true, if_false, hjudge, ne_eq, not_true]

theorem finish_opened_accept (nv : NonVol) (m m' : Module) (x k : Nat) (v : W32) (auth : Bool) (ws : List RegWr) :
    (({ Txn.opened nv m x auth ws with m := m' } : Txn).accept k v).finish.result = (nv, m'.applyWrite k v) := by
  rw [finish_plain ⟨rfl, rfl, rfl, rfl, rfl, rfl, rfl⟩]
  rfl

/-- The transaction of a served master whose writes so far reached the module alone. -/
def Txn.openedAt (nv : NonVol) (m : Module) (x : Nat) (auth : Bool) (ws : List RegWr) (m' : Module) : Txn :=
  { Txn.opened nv m x auth ws with m := m' }

theorem finish_openedAt (nv : NonVol) (m m' : Module) (x : Nat) (auth : Bool) (ws : List RegWr) :
    (Txn.openedAt nv m x auth ws m').finish.result = (nv, m') := by
  rw [finish_plain ⟨rfl, rfl, rfl, rfl, rfl, rfl, rfl⟩]
  rfl

theorem openedAt_clear {m : Module} {x : Nat} {b : Blk} (nv : NonVol) (auth : Bool) (ws : List RegWr) (m' : Module)
    (hserves : Serves m x b = true) : (Txn.openedAt nv m x auth ws m').Clear b :=
  opened_clear nv auth ws hserves

/-! ### A binding (R505) -/

theorem write_tblSel {t : Txn} {b : Blk} {n p : Nat} {r : RegRow} (v : W32) (hreg : regAt t.m p TBL_SEL = some (b, n, r))
    (hacc : r.acc ≠ .ro) (htbl : hasTbl b = true) (hclear : t.Clear b) :
    t.write ⟨rkey p TBL_SEL, v⟩ = t.on (fun m => { m with sel := putK m.sel (16 * p + t.x) v.toNat }) := by
  obtain ⟨hbrown, hauto⟩ := hclear
  have hoff : TBL_SEL < 256 := by decide
  have hname : TBL_SEL ≠ TBL_DATA := by decide
  simp only [Txn.write, rkey_page p hoff, rkey_off p hoff, hreg, hbrown, hauto, htbl, hacc, hname, Bool.false_eq_true,
    if_false, decide_true, decide_false, Bool.and_self, Bool.and_false, if_true]

theorem write_tblIdx {t : Txn} {b : Blk} {n p : Nat} {r : RegRow} (v : W32) (hreg : regAt t.m p TBL_IDX = some (b, n, r))
    (hacc : r.acc ≠ .ro) (htbl : hasTbl b = true) (hclear : t.Clear b) :
    t.write ⟨rkey p TBL_IDX, v⟩ = t.on (fun m => { m with idx := putK m.idx (16 * p + t.x) v.toNat }) := by
  obtain ⟨hbrown, hauto⟩ := hclear
  have hoff : TBL_IDX < 256 := by decide
  have hname : TBL_IDX ≠ TBL_DATA ∧ TBL_IDX ≠ TBL_SEL := by decide
  simp only [Txn.write, rkey_page p hoff, rkey_off p hoff, hreg, hbrown, hauto, htbl, hacc, hname, Bool.false_eq_true,
    if_false, decide_true, decide_false, Bool.and_self, Bool.and_false, if_true]

theorem blkOf_mbox {k : Nat} (h : k < 4) : blkOf (pgMbox + k) = some (.mbox, k) := by
  have hall : ∀ k < 4, blkOf (pgMbox + k) = some (.mbox, k) := by decide
  exact hall k h

/-- Every part has every register of the MBOX pages. -/
theorem regAt_mbox (m : Module) {ch off : Nat} {r : RegRow} (hch : ch < 32) (hrow : rowOf .mbox off = some r) :
    regAt m (chPage ch) off = some (.mbox, ch / 8, r) := by
  have hblk : blkOf (chPage ch) = some (.mbox, ch / 8) := blkOf_mbox (by omega)
  exact regAt_of_row hblk (by simp [pagePresent, hblk]) rfl hrow

theorem selOf_put (m : Module) (p x v : Nat) :
    selOf { m with sel := putK m.sel (16 * p + x) v } p x = v := by
  simp only [selOf, getK_putK_same]

theorem idxOf_put (m : Module) (p x v : Nat) :
    idxOf { m with idx := putK m.idx (16 * p + x) v } p x = v := by
  simp only [idxOf, getK_putK_same]

theorem tblRow_binding {n i : Nat} {r : TRow} (h : tblRow .mbox n 8 i = some r) : r.acc = .rwp ∧ r.eff = .now := by
  simp only [tblRow] at h
  obtain ⟨-, rfl⟩ := some_of_guard h
  exact ⟨rfl, rfl⟩

/-- A position that a command writes into the table window. -/
theorem toNat_position {i : Nat} (h : i < 4096) : (BitVec.ofNat 32 i).toNat = i := by
  rw [BitVec.toNat_ofNat]
  omega

theorem mailBind_accepts {t : Txn} {p c addr : Nat} {v : W32} (hmay : mayBind t.x = true)
    (hfree : t.m.chBound c = false) (hok : bindOk v = true) :
    t.mailBind p c addr v = t.on (fun m => m.setBoth (tkey p 8 (c % 8)) v) := by
  simp only [Txn.mailBind, hmay, hfree, hok, Bool.not_true, Bool.false_eq_true, if_false]

/-- The module after a binding: the master's position, then the word. -/
def Module.bound (m : Module) (x ch : Nat) (v : W32) : Module :=
  { m.setBoth (tkey (chPage ch) 8 (ch % 8)) v with
    sel := putK m.sel (16 * chPage ch + x) 8
    idx := putK (putK m.idx (16 * chPage ch + x) (ch % 8)) (16 * chPage ch + x) (ch % 8 + 1) }

/-- The binding of a free channel by a master that may bind (R505). -/
theorem busDo_bind {m : Module} {x ch : Nat} {v : W32} {r : TRow} (nv : NonVol) (hch : ch < 32)
    (hserves : Serves m x .mbox = true) (hlock : unlocked m (chPage ch) = true) (hmay : mayBind x = true)
    (hfree : m.chBound ch = false) (hrow : tblRow .mbox (ch / 8) 8 (ch % 8) = some r) (hpair : pairOk v = true)
    (henc : encTblOk .mbox 8 (ch % 8) (maskVal r.acc r.mask v) = true) (hok : bindOk (maskVal r.acc r.mask v) = true) :
    m.busDo nv x false (Module.tableWrites (chPage ch) 8 (ch % 8) [v])
      = Module.settle (nv, m.bound x ch (maskVal r.acc r.mask v)) := by
  obtain ⟨hacc, heff⟩ := tblRow_binding hrow
  have hpage : chPage ch < 256 := by simp only [chPage, pgMbox]; omega
  have hwrites : Module.tableWrites (chPage ch) 8 (ch % 8) [v]
      = [⟨rkey (chPage ch) TBL_SEL, BitVec.ofNat 32 8⟩, ⟨rkey (chPage ch) TBL_IDX, BitVec.ofNat 32 (ch % 8)⟩,
        ⟨rkey (chPage ch) TBL_DATA, v⟩] := rfl
  have hin : ∀ w ∈ Module.tableWrites (chPage ch) 8 (ch % 8) [v], w.addr % 4 = 0 ∧ w.addr < 65536 := by
    rw [hwrites]
    simp only [List.forall_mem_cons, List.not_mem_nil, false_implies, implies_true, and_true]
    exact ⟨rkey_fits hpage (by decide) (by decide), rkey_fits hpage (by decide) (by decide),
      rkey_fits hpage (by decide) (by decide)⟩
  rw [busDo_served nv false hserves hin, hwrites]
  simp only [List.foldl_cons, List.foldl_nil]
  generalize hws : [(⟨rkey (chPage ch) TBL_SEL, BitVec.ofNat 32 8⟩ : RegWr),
    ⟨rkey (chPage ch) TBL_IDX, BitVec.ofNat 32 (ch % 8)⟩, ⟨rkey (chPage ch) TBL_DATA, v⟩] = ws
  have htbl : hasTbl .mbox = true := by decide
  have hlow : (BitVec.ofNat 32 (ch % 8)).toNat = ch % 8 := toNat_position (by omega)
  have hchan : 8 * (ch / 8) + ch % 8 = ch := Nat.div_add_mod ch 8
  have hlock : bit (m.reg (chPage ch) LOCK) 0 = false := by simpa [unlocked] using hlock
  let m1 : Module := { m with sel := putK m.sel (16 * chPage ch + x) 8 }
  let m2 : Module := { m1 with idx := putK m1.idx (16 * chPage ch + x) (ch % 8) }
  have hsel : (Txn.opened nv m x false ws).write ⟨rkey (chPage ch) TBL_SEL, BitVec.ofNat 32 8⟩
      = Txn.openedAt nv m x false ws m1 :=
    write_tblSel _ (regAt_mbox m hch rfl) (by decide) htbl (opened_clear nv false ws hserves)
  have hidx : (Txn.openedAt nv m x false ws m1).write ⟨rkey (chPage ch) TBL_IDX, BitVec.ofNat 32 (ch % 8)⟩
      = Txn.openedAt nv m x false ws m2 := by
    refine (write_tblIdx _ (regAt_mbox m1 hch rfl) (by decide) htbl (openedAt_clear nv false ws m1 hserves)).trans ?_
    rw [hlow]
    rfl
  have hdata : (Txn.openedAt nv m x false ws m2).write ⟨rkey (chPage ch) TBL_DATA, v⟩
      = Txn.openedAt nv m x false ws (m.bound x ch (maskVal r.acc r.mask v)) := by
    refine (write_tblData v (regAt_mbox m2 hch rfl) htbl (openedAt_clear nv false ws m2 hserves)).trans ?_
    refine (tblWrite_accepts (t := Txn.openedAt nv m x false ws m2) _ (selOf_put m (chPage ch) x 8)
      (idxOf_put m1 (chPage ch) x (ch % 8)) hrow rfl (by rw [hacc]; decide)
      hlock (by rw [heff]; exact fun h => nomatch h) (fun _ => hpair) henc).trans ?_
    rw [if_pos rfl, if_pos rfl, hchan]
    exact mailBind_accepts hmay hfree hok
  rw [hsel, hidx, hdata, finish_openedAt]

/-! ### An answer (R507, R508) -/

/-- The acknowledge registers of a channel are critical. -/
theorem rowOf_ack {k : Nat} (h : k < 8) :
    (∃ r, rowOf .mbox (MBOX_ACK_H0 + 12 * k) = some r ∧ r.acc = .rwp)
    ∧ ∃ r, rowOf .mbox (MBOX_ACK_L0 + 12 * k) = some r ∧ r.acc = .rwp := by
  have hall : ∀ k < 8, (rowOf .mbox (MBOX_ACK_H0 + 12 * k)).any (fun r => r.acc = .rwp) = true
      ∧ (rowOf .mbox (MBOX_ACK_L0 + 12 * k)).any (fun r => r.acc = .rwp) = true := by decide
  simpa only [Option.any_eq_true, decide_eq_true_eq] using hall k h

theorem plainOffset_mbox {off : Nat} (hlow : 0x2C ≤ off) (hhigh : off < 256) (halign : off % 4 = 0) :
    plainOffset .mbox off := by
  simp only [plainOffset, CTRL, LOCK, EVT_RAW, EVT_EN, FLT_STAT, TBL_SEL, TBL_IDX, TBL_DATA]
  omega

/-- A write of a mailbox register that the pair rule and the LOCK let pass reaches the channel. -/
theorem regWrite_mbox {t : Txn} {p n off : Nat} {r : RegRow} {v : W32} (hlow : 0x2C ≤ off) (hhigh : off < 256)
    (hrow : rowOf .mbox off = some r) (hm0 : t.m0 = t.m) (hfits : fits t.m .mbox p off v = true)
    (hpairs : ((off - MBOX_DOORBELL0) % 12 = 0
      || (t.hasPair (rkey p (off - (off - MBOX_DOORBELL0) % 12 + 4))
        && t.hasPair (rkey p (off - (off - MBOX_DOORBELL0) % 12 + 8)))) = true) :
    t.regWrite .mbox p n (rkey p off) r v = t.mailReg p n (rkey p off) (kept t.m.sys.part .mbox off v) := by
  obtain ⟨r', hr', hacc, hpair, hstop, hlock, -, henc⟩ := fits_row hfits
  obtain rfl : r' = r := Option.some.inj (hr'.symm.trans hrow)
  rw [kept_of_row v hrow] at henc ⊢
  have hne : off ≠ FLT_WIN := by simp only [FLT_WIN]; omega
  have hjudge := judge_accepts (t := t) (locks := true) (pairs := pairOk v && true) (fun _ => hlock)
    (fun he => hm0 ▸ hstop he) (fun ha => by rw [hpair ha, Bool.and_true]) henc
  simp only [Txn.regWrite, rkey_off p hhigh, hne, ne_eq, not_false_iff, decide_true, Bool.and_self, if_true, hpairs,
    reduceCtorEq, decide_false, Bool.false_and, Bool.not_false, hjudge, not_true, if_false, isWin, Bool.or_self,
    Bool.false_eq_true]

theorem chAckOk_of {m : Module} {ch : Nat} {l : W32} (htag : bits l 24 8 = m.chTag ch) (hzero : bits l 20 4 = 0)
    (hst : bits l 16 4 = chTaken ∨ bits l 16 4 = chDone) (hbegun : m.chBegun ch = true) : m.chAckOk ch l = true := by
  simp only [Module.chAckOk, htag, hzero, hbegun, decide_true, Bool.true_and, Bool.and_true, Bool.or_eq_true,
    decide_eq_true_eq]
  exact hst

/-- The words of an answer that the transaction holds. -/
theorem find_ack (p k : Nat) (h l : W32) :
    [(⟨rkey p (MBOX_ACK_H0 + 12 * k), h⟩ : RegWr), ⟨rkey p (MBOX_ACK_L0 + 12 * k), l⟩].find?
        (fun w => w.addr = rkey p (MBOX_ACK_H0 + 12 * k)) = some ⟨rkey p (MBOX_ACK_H0 + 12 * k), h⟩
    ∧ [(⟨rkey p (MBOX_ACK_H0 + 12 * k), h⟩ : RegWr), ⟨rkey p (MBOX_ACK_L0 + 12 * k), l⟩].find?
        (fun w => w.addr = rkey p (MBOX_ACK_L0 + 12 * k)) = some ⟨rkey p (MBOX_ACK_L0 + 12 * k), l⟩ := by
  have hne : rkey p (MBOX_ACK_H0 + 12 * k) ≠ rkey p (MBOX_ACK_L0 + 12 * k) := by
    simp only [rkey, MBOX_ACK_H0, MBOX_ACK_L0]
    omega
  exact ⟨List.find?_cons_of_pos (by simp), by
    rw [List.find?_cons_of_neg (by simpa using hne)]
    exact List.find?_cons_of_pos (by simp)⟩

/-- What the transaction of an answer of the receiver holds while its writes are judged. -/
structure Txn.Answers (t : Txn) (p n k : Nat) (h l : W32) : Prop where
  all : t.all = [⟨rkey p (MBOX_ACK_H0 + 12 * k), h⟩, ⟨rkey p (MBOX_ACK_L0 + 12 * k), l⟩]
  receiver : t.m0.chReceiver (8 * n + k) = t.x
  takes : t.m0.chAckOk (8 * n + k) l = true
  pairH : pairOk h = true
  pairL : pairOk l = true

section
variable {t : Txn} {p n k : Nat} {h l : W32}

/-- The upper register of an answer only belongs to it. -/
theorem mailReg_ackH (v : W32) (hk : k < 8) (hans : t.Answers p n k h l) :
    t.mailReg p n (rkey p (MBOX_ACK_H0 + 12 * k)) v = t := by
  obtain ⟨hall, hrecv, htakes, -, -⟩ := hans
  have hoff : rkey p (MBOX_ACK_H0 + 12 * k) % 256 = MBOX_ACK_H0 + 12 * k :=
    rkey_off p (by simp only [MBOX_ACK_H0]; omega)
  have hchan : (MBOX_ACK_H0 + 12 * k - MBOX_DOORBELL0) / 12 = k := by
    simp only [MBOX_ACK_H0, MBOX_DOORBELL0]
    omega
  have hring : MBOX_ACK_H0 + 12 * k ≠ MBOX_DOORBELL0 + 12 * k := by
    simp only [MBOX_ACK_H0, MBOX_DOORBELL0]
    omega
  have hlow : MBOX_ACK_H0 + 12 * k ≠ MBOX_ACK_L0 + 12 * k := by
    simp only [MBOX_ACK_H0, MBOX_ACK_L0]
    omega
  simp only [Txn.mailReg, hoff, hchan, hring, hlow, hall, (find_ack p k h l).2, hrecv, htakes, ne_eq, not_true,
    if_false, Bool.not_true, Bool.false_eq_true]

/-- The lower one hands the answer over to the end of the transaction (R507). -/
theorem mailReg_ackL (v : W32) (hk : k < 8) (hans : t.Answers p n k h l) :
    t.mailReg p n (rkey p (MBOX_ACK_L0 + 12 * k)) v = { t with acks := t.acks ++ [(8 * n + k, h, l)] } := by
  obtain ⟨hall, hrecv, htakes, -, -⟩ := hans
  have hoff : rkey p (MBOX_ACK_L0 + 12 * k) % 256 = MBOX_ACK_L0 + 12 * k :=
    rkey_off p (by simp only [MBOX_ACK_L0]; omega)
  have hchan : (MBOX_ACK_L0 + 12 * k - MBOX_DOORBELL0) / 12 = k := by
    simp only [MBOX_ACK_L0, MBOX_DOORBELL0]
    omega
  have hring : MBOX_ACK_L0 + 12 * k ≠ MBOX_DOORBELL0 + 12 * k := by
    simp only [MBOX_ACK_L0, MBOX_DOORBELL0]
    omega
  simp only [Txn.mailReg, hoff, hchan, hring, hall, (find_ack p k h l).1, (find_ack p k h l).2, hrecv, htakes, ne_eq,
    not_true, if_false, Bool.not_true, Bool.false_eq_true, if_true]

/-- Both halves of an answer are in its transaction (R91). -/
theorem answers_pairs (hans : t.Answers p n k h l) {off : Nat}
    (hoff : off = MBOX_ACK_H0 + 12 * k ∨ off = MBOX_ACK_L0 + 12 * k) :
    ((off - MBOX_DOORBELL0) % 12 = 0
      || (t.hasPair (rkey p (off - (off - MBOX_DOORBELL0) % 12 + 4))
        && t.hasPair (rkey p (off - (off - MBOX_DOORBELL0) % 12 + 8)))) = true := by
  obtain ⟨hall, -, -, hpairH, hpairL⟩ := hans
  have hbase : off - (off - MBOX_DOORBELL0) % 12 + 4 = MBOX_ACK_H0 + 12 * k
      ∧ off - (off - MBOX_DOORBELL0) % 12 + 8 = MBOX_ACK_L0 + 12 * k := by
    simp only [MBOX_ACK_H0, MBOX_ACK_L0, MBOX_DOORBELL0] at hoff ⊢
    omega
  rw [hbase.1, hbase.2]
  simp [Txn.hasPair, hall, hpairH, hpairL]

end

/-- A write of either register of an answer reaches the channel. -/
theorem write_ack {t : Txn} {p n k off : Nat} {h l v : W32} {r : RegRow} (hans : t.Answers p n k h l) (hk : k < 8)
    (hoff : off = MBOX_ACK_H0 + 12 * k ∨ off = MBOX_ACK_L0 + 12 * k) (hreg : regAt t.m p off = some (.mbox, n, r))
    (hacc : r.acc = .rwp) (hclear : t.Clear .mbox) (hm0 : t.m0 = t.m) (hfits : fits t.m .mbox p off v = true) :
    t.write ⟨rkey p off, v⟩ = t.mailReg p n (rkey p off) (kept t.m.sys.part .mbox off v) := by
  have hplace : 0x2C ≤ off ∧ off < 256 ∧ off % 4 = 0 := by
    simp only [MBOX_ACK_H0, MBOX_ACK_L0] at hoff
    omega
  obtain ⟨hlow, hhigh, halign⟩ := hplace
  rw [write_reg v (plainOffset_mbox hlow hhigh halign) hreg (Or.inr hacc) hclear]
  exact regWrite_mbox hlow hhigh (regAt_blk hreg).2 hm0 hfits (answers_pairs hans hoff)

theorem finish_acks (nv : NonVol) (m : Module) (x : Nat) (auth : Bool) (ws : List RegWr) (a : Nat × W32 × W32) :
    ({ Txn.opened nv m x auth ws with acks := [a] } : Txn).finish.result = (nv, m.chAck a.1 a.2.1 a.2.2) := rfl

/-- An answer that the receiver may give (R507). -/
def answerFits (m : Module) (x ch : Nat) (h l : W32) : Prop :=
  fits m .mbox (chPage ch) (MBOX_ACK_H0 + 12 * (ch % 8)) h = true
    ∧ fits m .mbox (chPage ch) (MBOX_ACK_L0 + 12 * (ch % 8)) l = true ∧ m.chReceiver ch = x ∧ m.chAckOk ch l = true

/-- An answer of the receiver applies (R508). -/
theorem busDo_answer {m : Module} {x ch : Nat} {h l : W32} (nv : NonVol) (hch : ch < 32)
    (hserves : Serves m x .mbox = true) (hfits : answerFits m x ch h l) :
    m.busDo nv x false [⟨rkey (chPage ch) (MBOX_ACK_H0 + 12 * (ch % 8)), h⟩,
        ⟨rkey (chPage ch) (MBOX_ACK_L0 + 12 * (ch % 8)), l⟩]
      = Module.settle (nv, m.chAck ch h l) := by
  obtain ⟨hfitH, hfitL, hrecv, htakes⟩ := hfits
  have hk : ch % 8 < 8 := Nat.mod_lt _ (by decide)
  obtain ⟨⟨rH, hrowH, haccH⟩, rL, hrowL, haccL⟩ := rowOf_ack hk
  have hpage : chPage ch < 256 := by simp only [chPage, pgMbox]; omega
  have hoffH : 0x2C ≤ MBOX_ACK_H0 + 12 * (ch % 8) ∧ MBOX_ACK_H0 + 12 * (ch % 8) < 256
      ∧ (MBOX_ACK_H0 + 12 * (ch % 8)) % 4 = 0 := by simp only [MBOX_ACK_H0]; omega
  have hoffL : 0x2C ≤ MBOX_ACK_L0 + 12 * (ch % 8) ∧ MBOX_ACK_L0 + 12 * (ch % 8) < 256
      ∧ (MBOX_ACK_L0 + 12 * (ch % 8)) % 4 = 0 := by simp only [MBOX_ACK_L0]; omega
  obtain ⟨hlowH, hhighH, halignH⟩ := hoffH
  obtain ⟨hlowL, hhighL, halignL⟩ := hoffL
  have hin : ∀ w ∈ [(⟨rkey (chPage ch) (MBOX_ACK_H0 + 12 * (ch % 8)), h⟩ : RegWr),
      ⟨rkey (chPage ch) (MBOX_ACK_L0 + 12 * (ch % 8)), l⟩], w.addr % 4 = 0 ∧ w.addr < 65536 := by
    simp only [List.forall_mem_cons, List.not_mem_nil, false_implies, implies_true, and_true]
    exact ⟨rkey_fits hpage hhighH halignH, rkey_fits hpage hhighL halignL⟩
  rw [busDo_served nv false hserves hin]
  simp only [List.foldl_cons, List.foldl_nil]
  generalize hws : [(⟨rkey (chPage ch) (MBOX_ACK_H0 + 12 * (ch % 8)), h⟩ : RegWr),
      ⟨rkey (chPage ch) (MBOX_ACK_L0 + 12 * (ch % 8)), l⟩] = ws
  have hchan : 8 * (ch / 8) + ch % 8 = ch := Nat.div_add_mod ch 8
  have hpairs : ∀ {off v}, fits m .mbox (chPage ch) off v = true → (∃ r, rowOf .mbox off = some r ∧ r.acc = .rwp) →
      pairOk v = true := by
    rintro off v hf ⟨r, hr, ha⟩
    obtain ⟨r', hr', -, hpair, -⟩ := fits_row hf
    exact hpair (by rw [Option.some.inj (hr'.symm.trans hr), ha])
  have hans : (Txn.opened nv m x false ws).Answers (chPage ch) (ch / 8) (ch % 8) h l :=
    ⟨hws.symm, by rw [hchan]; exact hrecv, by rw [hchan]; exact htakes, hpairs hfitH ⟨rH, hrowH, haccH⟩,
      hpairs hfitL ⟨rL, hrowL, haccL⟩⟩
  have hclear : (Txn.opened nv m x false ws).Clear .mbox := opened_clear nv false ws hserves
  have hupper : (Txn.opened nv m x false ws).write ⟨rkey (chPage ch) (MBOX_ACK_H0 + 12 * (ch % 8)), h⟩
      = Txn.opened nv m x false ws :=
    (write_ack hans hk (Or.inl rfl) (regAt_mbox m hch hrowH) haccH hclear rfl hfitH).trans (mailReg_ackH _ hk hans)
  have hlower : (Txn.opened nv m x false ws).write ⟨rkey (chPage ch) (MBOX_ACK_L0 + 12 * (ch % 8)), l⟩
      = { Txn.opened nv m x false ws with acks := [(8 * (ch / 8) + ch % 8, h, l)] } :=
    (write_ack hans hk (Or.inr rfl) (regAt_mbox m hch hrowL) haccL hclear rfl hfitL).trans (mailReg_ackL _ hk hans)
  rw [hupper, hlower, hchan, finish_acks]

end Sys2Proof.Machine
end

section
/-! Positions of readers, submitted records, blocks of an update and learned values (O34, O35). -/

namespace Sys2Proof.Machine

/-! ### The position of a reader (R531) -/

/-- A register of the REC page keeps of a value the bits of its mask. -/
theorem kept_rec {part off : Nat} {r : RegRow} (v : W32) (hrow : rowOf .recd off = some r) (hacc : r.acc = .rw) :
    kept part .recd off v = v &&& BitVec.ofNat 32 (r.mask &&& 0xFFFFFFFF) := by
  have hrw : ¬ r.acc = .rwp := by rw [hacc]; decide
  simp only [kept, hrow, regVal, maskVal, partBits, partFixed, hrw, if_false, reduceCtorEq, decide_false, Bool.and_false,
    Bool.false_and, Bool.false_eq_true]
  exact BitVec.or_zero

theorem kept_rdSeqH (part : Nat) (h : W32) : kept part .recd REC_RD_SEQ_H h = h &&& 0xFFFF := by
  rw [kept_rec (r := ⟨REC_RD_SEQ_H, .rw, .now, 0, 0xFFFF⟩) h rfl rfl]
  rfl

theorem kept_rdSeqL (part : Nat) (l : W32) : kept part .recd REC_RD_SEQ_L l = l := by
  have hones : BitVec.ofNat 32 (0xFFFFFFFF &&& 0xFFFFFFFF) = BitVec.allOnes 32 := by decide
  rw [kept_rec (r := ⟨REC_RD_SEQ_L, .rw, .now, 0, 0xFFFFFFFF⟩) l rfl rfl, hones, BitVec.and_allOnes]

/-- A position is written whatever the LOCK of the page (R531). -/
theorem regWrite_rdSeq {t : Txn} {off : Nat} {r : RegRow} {v w : W32} (hoff : off = REC_RD_SEQ_H ∨ off = REC_RD_SEQ_L)
    (hrow : rowOf .recd off = some r) (hw : kept t.m.sys.part .recd off v = w) :
    t.regWrite .recd pgRec 0 (rkey pgRec off) r v
      = (if off = REC_RD_SEQ_L then { t.accept (rkey pgRec off) w with place := true }
          else t.accept (rkey pgRec off) w) := by
  have hfacts : off < 256 ∧ isWin .recd off = false ∧ r.acc = .rw ∧ r.eff = .now := by
    rcases hoff with rfl | rfl
    · obtain rfl : r = ⟨REC_RD_SEQ_H, .rw, .now, 0, 0xFFFF⟩ := Option.some.inj (hrow.symm.trans (by decide))
      decide
    · obtain rfl : r = ⟨REC_RD_SEQ_L, .rw, .now, 0, 0xFFFFFFFF⟩ := Option.some.inj (hrow.symm.trans (by decide))
      decide
  obtain ⟨hlt, hwin, hacc, heff⟩ := hfacts
  have hfree : (decide (off = REC_RD_SEQ_H) || decide (off = REC_RD_SEQ_L)) = true := by simpa using hoff
  have henc : encOk t.m.sys.part .recd off w = true := by
    have hcfg : off ≠ REC_CFG := by rcases hoff with rfl | rfl <;> decide
    simp [encOk, hwin, encA, encB, encC, hcfg]
  have hjudge := judge_accepts (t := t) (p := pgRec) (acc := r.acc) (eff := r.eff) (pairs := t.pairFits .recd pgRec off v)
    (locks := false) (fun h => nomatch h) (fun h => by rw [heff] at h; cases h) (fun h => by rw [hacc] at h; cases h) henc
  rw [kept_of_row v hrow] at hw
  simp only [Txn.regWrite, rkey_off pgRec hlt, hw, hfree, hwin, hjudge, reduceCtorEq, decide_false, decide_true,
    Bool.true_and, Bool.false_and, Bool.not_true, Bool.false_eq_true, if_false, ne_eq, not_true, false_and,
    Module.wroteHook, Txn.on, decide_eq_true_eq]

theorem plainOffset_rec {off : Nat} (hlow : 0x2C ≤ off) (hhigh : off < 256) (halign : off % 4 = 0) :
    plainOffset .recd off := by
  simp only [plainOffset, CTRL, LOCK, EVT_RAW, EVT_EN, FLT_STAT, TBL_SEL, TBL_IDX, TBL_DATA]
  omega

theorem finish_place (nv : NonVol) (m m' : Module) (x : Nat) (auth : Bool) (ws : List RegWr) (wrote : List Nat) :
    ({ Txn.opened nv m x auth ws with m := m', place := true, wrote := wrote } : Txn).finish.result
      = (nv, m'.recPlace x) := rfl

/-- Both halves of a reader's position (R531). -/
theorem busDo_rdSeq {m : Module} {x : Nat} (nv : NonVol) (h l : W32) (hserves : Serves m x .recd = true) :
    m.busDo nv x false [⟨rkey pgRec REC_RD_SEQ_H, h⟩, ⟨rkey pgRec REC_RD_SEQ_L, l⟩]
      = Module.settle (nv, ((m.applyWrite (rkey pgRec REC_RD_SEQ_H) (h &&& 0xFFFF)).applyWrite
          (rkey pgRec REC_RD_SEQ_L) l).recPlace x) := by
  have hin : ∀ w ∈ [(⟨rkey pgRec REC_RD_SEQ_H, h⟩ : RegWr), ⟨rkey pgRec REC_RD_SEQ_L, l⟩],
      w.addr % 4 = 0 ∧ w.addr < 65536 := by
    simp only [List.forall_mem_cons, List.not_mem_nil, false_implies, implies_true, and_true]
    decide
  rw [busDo_served nv false hserves hin]
  simp only [List.foldl_cons, List.foldl_nil]
  generalize hws : [(⟨rkey pgRec REC_RD_SEQ_H, h⟩ : RegWr), ⟨rkey pgRec REC_RD_SEQ_L, l⟩] = ws
  have hclear : (Txn.opened nv m x false ws).Clear .recd := opened_clear nv false ws hserves
  let t1 : Txn := (Txn.opened nv m x false ws).accept (rkey pgRec REC_RD_SEQ_H) (h &&& 0xFFFF)
  have hplace : ∀ {off}, off = REC_RD_SEQ_H ∨ off = REC_RD_SEQ_L → plainOffset .recd off := by
    rintro off (rfl | rfl) <;> exact plainOffset_rec (by decide) (by decide) (by decide)
  have hupper : (Txn.opened nv m x false ws).write ⟨rkey pgRec REC_RD_SEQ_H, h⟩ = t1 :=
    (write_reg h (hplace (Or.inl rfl)) (regAt_recd m (off := REC_RD_SEQ_H) rfl) (Or.inl rfl) hclear).trans
      (regWrite_rdSeq (Or.inl rfl) rfl (kept_rdSeqH _ h))
  have hlower : t1.write ⟨rkey pgRec REC_RD_SEQ_L, l⟩
      = { t1.accept (rkey pgRec REC_RD_SEQ_L) l with place := true } :=
    (write_reg l (hplace (Or.inr rfl)) (regAt_recd t1.m (off := REC_RD_SEQ_L) rfl) (Or.inl rfl) hclear).trans
      (regWrite_rdSeq (Or.inr rfl) rfl (kept_rdSeqL _ l))
  rw [hupper, hlower]
  exact congrArg Module.settle (finish_place nv m _ x false ws _)

/-! ### A submitted record (R532, R535) -/

theorem cmdWrite_submit (t : Txn) (v : W32) :
    t.cmdWrite .recd pgRec 0 (rkey pgRec REC_SUBMIT) v = { t with words := t.words ++ [v] } := by
  simp only [Txn.cmdWrite, Module.commitOff, reduceCtorEq, if_false]

/-- The words of the port are kept in order. -/
theorem foldl_submit {t : Txn} (ws : List W32) (hclear : t.Clear .recd) :
    (ws.map (fun w => (⟨rkey pgRec REC_SUBMIT, w⟩ : RegWr))).foldl Txn.write t = { t with words := t.words ++ ws } := by
  induction ws generalizing t with
  | nil => simp
  | cons v ws ih =>
    have hwrite : t.write ⟨rkey pgRec REC_SUBMIT, v⟩ = { t with words := t.words ++ [v] } :=
      (write_wo v (by decide) (by decide) (regAt_recd t.m (off := REC_SUBMIT) rfl) rfl hclear.1 hclear.2).trans
        (cmdWrite_submit t v)
    rw [List.map_cons, List.foldl_cons, hwrite, ih (t := { t with words := t.words ++ [v] }) hclear]
    simp

theorem finish_words (nv : NonVol) (m : Module) (x : Nat) (auth : Bool) (ws : List RegWr) (words : List W32) :
    ({ Txn.opened nv m x auth ws with words := words } : Txn).finish.result
      = (nv, Module.submitAll x words.length words m) := rfl

/-- One record whose type and length the submitter may give. -/
theorem submitAll_one {m : Module} {x : Nat} {ws : List W32} (hlen : ws.length = 11)
    (htype : Module.submitType x (bits (ws.headD 0) 16 16) = true) (hsize : bits (ws.headD 0) 0 8 ≤ 40)
    (hrun : (isCluster x && (m.task 9).fallback) = false) :
    Module.submitAll x ws.length ws m
      = m.recMake (bits (ws.headD 0) 16 16) (0xFF00 + x) (bits (ws.headD 0) 0 8) 8
          ((wordBytes (ws.drop 1)).take (bits (ws.headD 0) 0 8)) false := by
  have hsome : ws.isEmpty = false := by cases ws <;> simp_all
  have htake : ws.take 11 = ws := List.take_of_length_le (by omega)
  have hdrop : ws.drop 11 = [] := List.drop_of_length_le (by omega)
  rw [hlen]
  simp only [Module.submitAll, hsome, hlen, Bool.false_eq_true, if_false, Nat.lt_irrefl, htake, hdrop, List.isEmpty_nil,
    if_true, Module.submitOne, hrun, htype, hsize, decide_true, Bool.and_self]

theorem forall_mem_port {p off : Nat} (hp : p < 256) (hoff : off < 256) (halign : off % 4 = 0) (ws : List W32) :
    ∀ w ∈ ws.map (fun w => (⟨rkey p off, w⟩ : RegWr)), w.addr % 4 = 0 ∧ w.addr < 65536 := by
  intro w hw
  obtain ⟨v, -, rfl⟩ := List.mem_map.mp hw
  exact rkey_fits hp hoff halign

theorem busDo_submit {m : Module} {x : Nat} {ws : List W32} (nv : NonVol) (hserves : Serves m x .recd = true)
    (hlen : ws.length = 11) (htype : Module.submitType x (bits (ws.headD 0) 16 16) = true)
    (hsize : bits (ws.headD 0) 0 8 ≤ 40) (hrun : (isCluster x && (m.task 9).fallback) = false) :
    m.busDo nv x false (ws.map (fun w => ⟨rkey pgRec REC_SUBMIT, w⟩))
      = Module.settle (nv, m.recMake (bits (ws.headD 0) 16 16) (0xFF00 + x) (bits (ws.headD 0) 0 8) 8
          ((wordBytes (ws.drop 1)).take (bits (ws.headD 0) 0 8)) false) := by
  rw [busDo_served nv false hserves (forall_mem_port (by decide) (by decide) (by decide) ws),
    foldl_submit ws (opened_clear nv false _ hserves)]
  refine congrArg Module.settle ((finish_words nv m x false _ ws).trans ?_)
  rw [submitAll_one hlen htype hsize hrun]

/-! ### A block of an update (R570, R571) -/

theorem cmdWrite_block (t : Txn) (v : W32) :
    t.cmdWrite .update pgUpdate 0 (rkey pgUpdate UPDATE_BLK_DATA) v = { t with blk := t.blk ++ [v] } := by
  simp only [Txn.cmdWrite, Module.commitOff, reduceCtorEq, if_false]

/-- Every part has the UPDATE page with all its registers. -/
theorem regAt_update (m : Module) {off : Nat} {r : RegRow} (h : rowOf .update off = some r) :
    regAt m pgUpdate off = some (.update, 0, r) := by
  have hblk : blkOf pgUpdate = some (.update, 0) := by decide
  exact regAt_of_row hblk (by simp [pagePresent, hblk]) rfl h

theorem foldl_block {t : Txn} (ws : List W32) (hclear : t.Clear .update) :
    (ws.map (fun w => (⟨rkey pgUpdate UPDATE_BLK_DATA, w⟩ : RegWr))).foldl Txn.write t
      = { t with blk := t.blk ++ ws } := by
  induction ws generalizing t with
  | nil => simp
  | cons v ws ih =>
    have hwrite : t.write ⟨rkey pgUpdate UPDATE_BLK_DATA, v⟩ = { t with blk := t.blk ++ [v] } :=
      (write_wo v (by decide) (by decide) (regAt_update t.m (off := UPDATE_BLK_DATA) rfl) rfl hclear.1 hclear.2).trans
        (cmdWrite_block t v)
    rw [List.map_cons, List.foldl_cons, hwrite, ih (t := { t with blk := t.blk ++ [v] }) hclear]
    simp

/-- The module and the non-volatile part after a block that is taken. -/
def blockDone (nv : NonVol) (m : Module) (ws : List W32) : NonVol × Module :=
  let ofs := m.get pgUpdate ⟨UPDATE_BLK_OFS, 0, 20⟩
  let r := m.blockTake nv 1 ofs (wordBytes (ws.take 64))
  (r.1, r.2.1.setBoth (rkey pgUpdate UPDATE_BLK_OFS) (BitVec.ofNat 32 ((ofs + 4 * (ws.take 64).length) % 2 ^ 20)))

theorem block_of_taken {m : Module} {nv : NonVol} {x ofs : Nat} {data : List Byte}
    (h : (m.blockTake nv x ofs data).2.2 = 0) : m.block nv x ofs data = m.blockTake nv x ofs data := by
  simp only [Module.block, h, if_true]
  exact Prod.ext rfl (Prod.ext rfl h.symm)

theorem finish_blk {nv : NonVol} {m : Module} {ws : List W32} (auth : Bool) (all : List RegWr) (hsome : ws ≠ [])
    (htaken : (m.blockTake nv 1 (m.get pgUpdate ⟨UPDATE_BLK_OFS, 0, 20⟩) (wordBytes (ws.take 64))).2.2 = 0) :
    ({ Txn.opened nv m 1 auth all with blk := ws } : Txn).finish.result = blockDone nv m ws := by
  have hne : (ws.isEmpty || decide ((1 : Nat) ≠ 1)) = false := by simpa using hsome
  simp only [Txn.finish, Txn.on, Txn.opened, List.length_nil, Module.submitAll, Bool.false_eq_true, if_false,
    Txn.takeBlock, hne, block_of_taken htaken, htaken, if_true]
  rfl

theorem busDo_block {m : Module} {nv : NonVol} {ws : List W32} (hserves : Serves m 1 .update = true) (hsome : ws ≠ [])
    (htaken : (m.blockTake nv 1 (m.get pgUpdate ⟨UPDATE_BLK_OFS, 0, 20⟩) (wordBytes (ws.take 64))).2.2 = 0) :
    m.busDo nv 1 false (ws.map (fun w => ⟨rkey pgUpdate UPDATE_BLK_DATA, w⟩)) = Module.settle (blockDone nv m ws) := by
  rw [busDo_served nv false hserves (forall_mem_port (by decide) (by decide) (by decide) ws),
    foldl_block ws (opened_clear nv false _ hserves)]
  exact congrArg Module.settle (finish_blk false _ hsome htaken)

/-! ### Learned values (R357) -/

/-- A transaction of a module whose writes so far left the LOCK of a page as it was. -/
structure Txn.Follows (t : Txn) (m : Module) (p : Nat) : Prop where
  m0 : t.m0 = m
  part : t.m.sys.part = m.sys.part
  lock : t.m.reg p LOCK = m.reg p LOCK

theorem applyWrite_sys (m : Module) (k : Nat) (v : W32) : (m.applyWrite k v).sys = m.sys := by
  rw [Module.applyWrite_parts]

theorem follows_accept {t : Txn} {m : Module} {p off : Nat} (v : W32) (h : t.Follows m p) (hoff : off ≠ LOCK) :
    (t.accept (rkey p off) v).Follows m p := by
  refine ⟨h.m0, ?_, ?_⟩
  · rw [Txn.accept, applyWrite_sys, h.part]
  · have hne : rkey p LOCK ≠ rkey p off := by
      simp only [rkey]
      omega
    rw [← h.lock]
    exact t.m.applyWrite_key_other v hne

/-- A write of a register of a string that nothing refuses. -/
theorem write_batt {t : Txn} {m : Module} {p b off : Nat} {r : RegRow} {v : W32} (h : t.Follows m p)
    (hplain : plainOffset .batt off) (hwin : isWin .batt off = false) (hreg : regAt m p off = some (.batt, b, r))
    (hclear : t.Clear .batt) (hfits : fits m .batt p off v = true) :
    t.write ⟨rkey p off, v⟩ = t.accept (rkey p off) (kept t.m.sys.part .batt off v) := by
  obtain ⟨r', hr', hacc, hpair, hstop, hlock, hhalf, henc⟩ := fits_row hfits
  obtain rfl : r' = r := Option.some.inj (hr'.symm.trans (regAt_blk hreg).2)
  rw [write_reg v hplain ((regAt_of_part p off h.part).trans hreg) hacc hclear]
  rw [kept_of_row v hr', ← h.part] at henc
  rw [kept_of_row v hr']
  have hjudge := judge_accepts (t := t) (p := p) (locks := true) (fun _ => by rw [h.lock]; exact hlock)
    (fun he => by rw [h.m0]; exact hstop he) hpair henc
  simp only [Txn.regWrite, rkey_off p hplain.1, pairFits_whole v hhalf, hwin, hjudge, reduceCtorEq, decide_false,
    Bool.false_and, Bool.not_false, Bool.false_eq_true, if_false, ne_eq, not_true, false_and, Module.wroteHook]
  rfl

theorem bits_commitLearn : bit 8 0 = false ∧ bit 8 1 = false ∧ bit 8 2 = false ∧ bit 8 3 = true := by decide

/-- The learned values of a string that are taken (R357). -/
def learnDone (m : Module) (b : Nat) (cap res cyc soh idExp : W32) : Module :=
  let m := learnWritten m b cap res cyc soh idExp
  let m := (m.commit (pgBatt + b) (inGroup (pgBatt + b) 3)).updBt b (fun y => { y with restore := true })
  if (m.batt b).run then m else m.battRestore b

theorem blkCommit_learn {m : Module} {b : Nat} {cap res cyc soh idExp : W32} {wrote : List Nat}
    (hwrote : wrote = [rkey (pgBatt + b) BATT_ID_EXPECT, rkey (pgBatt + b) BATT_LRN_CAP, rkey (pgBatt + b) BATT_LRN_R,
      rkey (pgBatt + b) BATT_LRN_CYC, rkey (pgBatt + b) BATT_LRN_SOH])
    (htaken : learnTaken m b cap res cyc soh idExp = true) :
    (learnWritten m b cap res cyc soh idExp).blkCommit .batt (pgBatt + b) b 8 wrote
      = learnDone m b cap res cyc soh idExp := by
  have hkeys : wrote.contains (rkey (pgBatt + b) BATT_LRN_CAP) = true
      ∧ wrote.contains (rkey (pgBatt + b) BATT_LRN_R) = true ∧ wrote.contains (rkey (pgBatt + b) BATT_LRN_CYC) = true
      ∧ wrote.contains (rkey (pgBatt + b) BATT_LRN_SOH) = true := by simp [hwrote]
  obtain ⟨hcap, hres, hcyc, hsoh⟩ := hkeys
  simp only [learnTaken, Bool.and_eq_true, Bool.not_eq_true', decide_eq_true_eq] at htaken
  obtain ⟨⟨⟨⟨⟨-, hcap0⟩, hres0⟩, hpres⟩, hswap⟩, hid⟩ := htaken
  simp only [Module.blkCommit, bits_commitLearn, Bool.false_and, Bool.false_eq_true, if_false, if_true,
    Module.commitLearn, hcap, hres, hcyc, hsoh, hcap0, hres0, hpres, hswap, hid, Bool.and_self, ne_eq, not_false_iff,
    decide_true, Bool.not_false]
  rfl

theorem plain_accept {t : Txn} (k : Nat) (v : W32) (h : t.Plain) : (t.accept k v).Plain :=
  ⟨h.ctrl, h.locks, h.rings, h.acks, h.place, h.words, h.blk⟩

theorem finish_on {t : Txn} (f : Module → Module) (h : t.Plain) : (t.on f).finish.result = (t.nv, f t.m) := by
  have hfinish : (t.on f).finish = t.on f :=
    finish_plain ⟨h.ctrl, h.locks, h.rings, h.acks, h.place, h.words, h.blk⟩
  rw [hfinish]
  rfl

/-- The next write of a learned value: what it takes is followed by the next one. -/
theorem write_learn {t : Txn} {m : Module} {p b off : Nat} {r : RegRow} {v : W32} (h : t.Follows m p) (hplain : t.Plain)
    (hoff : off ∈ [BATT_ID_EXPECT, BATT_LRN_CAP, BATT_LRN_R, BATT_LRN_CYC, BATT_LRN_SOH])
    (hreg : regAt m p BATT_COMMIT = some (.batt, b, r)) (hclear : t.Clear .batt)
    (hfits : fits m .batt p off v = true) :
    t.write ⟨rkey p off, v⟩ = t.accept (rkey p off) (kept t.m.sys.part .batt off v)
      ∧ (t.accept (rkey p off) (kept t.m.sys.part .batt off v)).Follows m p
      ∧ (t.accept (rkey p off) (kept t.m.sys.part .batt off v)).Plain := by
  have hplace : plainOffset .batt off ∧ isWin .batt off = false ∧ off ≠ LOCK := by
    simp only [List.mem_cons, List.not_mem_nil, or_false] at hoff
    unfold plainOffset
    rcases hoff with rfl | rfl | rfl | rfl | rfl <;> decide
  obtain ⟨hoff, hwin, hlock⟩ := hplace
  obtain ⟨r', hr', -⟩ := fits_row hfits
  exact ⟨write_batt h hoff hwin (regAt_other hreg (by decide) hr') hclear hfits, follows_accept _ h hlock,
    plain_accept _ _ hplain⟩

theorem blkOf_batt {b : Nat} (h : b < 8) : blkOf (pgBatt + b) = some (.batt, b) := by
  have hall : ∀ b < 8, blkOf (pgBatt + b) = some (.batt, b) := by decide
  exact hall b h

/-- The row of COMMIT of a string that the part has. -/
theorem regAt_battCommit {m : Module} {b : Nat} (hb : b < 8) (h : (regAt m (pgBatt + b) BATT_COMMIT).isSome = true) :
    ∃ r, regAt m (pgBatt + b) BATT_COMMIT = some (.batt, b, r) ∧ r.acc = .wo := by
  obtain ⟨⟨b', n, r⟩, hreg⟩ := Option.isSome_iff_exists.mp h
  obtain ⟨hblk, hrow⟩ := regAt_blk hreg
  obtain ⟨rfl, rfl⟩ : Blk.batt = b' ∧ b = n := by simpa using (blkOf_batt hb).symm.trans hblk
  have hall : ∀ r, rowOf .batt BATT_COMMIT = some r → r.acc = .wo := by
    have hwo : (rowOf .batt BATT_COMMIT).all (fun r => r.acc = .wo) = true := by decide
    intro r hr
    rw [hr] at hwo
    simpa using hwo
  exact ⟨r, hreg, hall r hrow⟩

/-- Five learned values and their COMMIT in one transaction (R357). -/
theorem busDo_learn {m : Module} {x b : Nat} {cap res cyc soh idExp : W32} (nv : NonVol) (hb : b < 8)
    (hserves : Serves m x .batt = true) (hreg : (regAt m (pgBatt + b) BATT_COMMIT).isSome = true)
    (htaken : learnTaken m b cap res cyc soh idExp = true) :
    m.busDo nv x false [⟨rkey (pgBatt + b) BATT_ID_EXPECT, idExp⟩, ⟨rkey (pgBatt + b) BATT_LRN_CAP, cap⟩,
        ⟨rkey (pgBatt + b) BATT_LRN_R, res⟩, ⟨rkey (pgBatt + b) BATT_LRN_CYC, cyc⟩,
        ⟨rkey (pgBatt + b) BATT_LRN_SOH, soh⟩, ⟨rkey (pgBatt + b) BATT_COMMIT, 8⟩]
      = Module.settle (nv, learnDone m b cap res cyc soh idExp) := by
  obtain ⟨r, hreg, hwo⟩ := regAt_battCommit hb hreg
  have hpage : pgBatt + b < 256 := by simp only [pgBatt]; omega
  have hin : ∀ w ∈ [(⟨rkey (pgBatt + b) BATT_ID_EXPECT, idExp⟩ : RegWr), ⟨rkey (pgBatt + b) BATT_LRN_CAP, cap⟩,
        ⟨rkey (pgBatt + b) BATT_LRN_R, res⟩, ⟨rkey (pgBatt + b) BATT_LRN_CYC, cyc⟩,
        ⟨rkey (pgBatt + b) BATT_LRN_SOH, soh⟩, ⟨rkey (pgBatt + b) BATT_COMMIT, 8⟩],
      w.addr % 4 = 0 ∧ w.addr < 65536 := by
    simp only [List.forall_mem_cons, List.not_mem_nil, false_implies, implies_true, and_true]
    refine ⟨?_, ?_, ?_, ?_, ?_, ?_⟩ <;> exact rkey_fits hpage (by decide) (by decide)
  rw [busDo_served nv false hserves hin]
  simp only [List.foldl_cons, List.foldl_nil]
  generalize hws : [(⟨rkey (pgBatt + b) BATT_ID_EXPECT, idExp⟩ : RegWr), ⟨rkey (pgBatt + b) BATT_LRN_CAP, cap⟩,
        ⟨rkey (pgBatt + b) BATT_LRN_R, res⟩, ⟨rkey (pgBatt + b) BATT_LRN_CYC, cyc⟩,
        ⟨rkey (pgBatt + b) BATT_LRN_SOH, soh⟩, ⟨rkey (pgBatt + b) BATT_COMMIT, 8⟩] = ws
  have hclear : (Txn.opened nv m x false ws).Clear .batt := opened_clear nv false ws hserves
  have hfits := htaken
  simp only [learnTaken, Bool.and_eq_true] at hfits
  obtain ⟨⟨⟨⟨⟨⟨⟨⟨⟨hid, hcap⟩, hres⟩, hcyc⟩, hsoh⟩, -⟩, -⟩, -⟩, -⟩, -⟩ := hfits
  obtain ⟨w1, f1, p1⟩ := write_learn (t := Txn.opened nv m x false ws) (off := BATT_ID_EXPECT) ⟨rfl, rfl, rfl⟩
    ⟨rfl, rfl, rfl, rfl, rfl, rfl, rfl⟩ (by decide) hreg hclear hid
  obtain ⟨w2, f2, p2⟩ := write_learn (off := BATT_LRN_CAP) f1 p1 (by decide) hreg hclear hcap
  obtain ⟨w3, f3, p3⟩ := write_learn (off := BATT_LRN_R) f2 p2 (by decide) hreg hclear hres
  obtain ⟨w4, f4, p4⟩ := write_learn (off := BATT_LRN_CYC) f3 p3 (by decide) hreg hclear hcyc
  obtain ⟨w5, f5, p5⟩ := write_learn (off := BATT_LRN_SOH) f4 p4 (by decide) hreg hclear hsoh
  rw [w1, w2, w3, w4, w5, write_wo 8 (by decide) (by decide) ((regAt_of_part _ _ f5.part).trans hreg) hwo hclear.1 hclear.2,
    cmdWrite_commit b 8 (by decide) rfl, finish_on _ p5]
  exact congrArg (fun m' => Module.settle (nv, m')) (blkCommit_learn rfl htaken)

/-! ### The rows -/

/-- An answer through its port, and what it sets. -/
theorem ackPort_open {m : Module} {x ch st : Nat} {h l : W32} {eff : Module → Module}
    (hopen : (ackPort x ch h l st eff).open m = true) (hst : st = chTaken ∨ st = chDone) :
    Serves m x .mbox = true ∧ answerFits m x ch h l ∧ bits l 16 4 = st := by
  obtain ⟨hserves, -, hready⟩ := (port_open_iff _ m).1 hopen
  simp only [ackPort, Bool.and_eq_true, decide_eq_true_eq] at hserves hready
  obtain ⟨⟨⟨⟨⟨⟨⟨hfitH, hfitL⟩, -⟩, hrecv⟩, hbegun⟩, htag⟩, hzero⟩, hstate⟩ := hready
  exact ⟨hserves, ⟨hfitH, hfitL, hrecv, chAckOk_of htag hzero (hstate ▸ hst) hbegun⟩, hstate⟩

theorem chAck_taken {m : Module} {ch : Nat} {h l : W32} (hst : bits l 16 4 = chTaken) :
    m.chAck ch h l = m.chSet ch (bits h 16 16) (m.chTag ch) chTaken := by
  simp only [Module.chAck, hst]
  exact if_neg (by decide)

theorem chAck_done {m : Module} {ch : Nat} {h l : W32} (hst : bits l 16 4 = chDone) :
    m.chAck ch h l = (m.chSet ch (bits h 16 16) (m.chTag ch) chDone).raise (chPage ch) (16 + ch % 8) := by
  simp only [Module.chAck, hst, if_true]

section
variable {s : State} {m : Module} {x : Nat}

theorem On.answer_turns {c : Instr} {ch : Nat} {h l : W32} (hon : On s m) (hexec : exec c s = answer x ch h l s)
    (hch : ch < 32) (hserves : Serves m x .mbox = true) (hfits : answerFits m x ch h l) :
    Turns2 c s (Module.settle (s.nv, m.chAck ch h l)) :=
  turns2_act2 (fun nv m => if ch < 32 then m.busDo nv x false [⟨rkey (chPage ch) (MBOX_ACK_H0 + 12 * (ch % 8)), h⟩,
    ⟨rkey (chPage ch) (MBOX_ACK_L0 + 12 * (ch % 8)), l⟩] else (nv, m)) hon.1 hexec
    ((if_pos hch).trans (busDo_answer s.nv hch hserves hfits))

theorem taken_turns {ch : Nat} {h l : W32} {eff : Module → Module} (hon : On s m) (hch : ch < 32)
    (hopen : (ackPort x ch h l chTaken eff).open m = true) : Turns2 (.taken x ch h l) s
      (Module.settle (s.nv, m.chSet ch (bits h 16 16) (m.chTag ch) chTaken)) := by
  obtain ⟨hserves, hfits, hst⟩ := ackPort_open hopen (Or.inl rfl)
  exact chAck_taken hst ▸ hon.answer_turns rfl hch hserves hfits

theorem done_turns {ch : Nat} {h l : W32} {eff : Module → Module} (hon : On s m) (hch : ch < 32)
    (hopen : (ackPort x ch h l chDone eff).open m = true) : Turns2 (.done x ch h l) s
      (Module.settle (s.nv, (m.chSet ch (bits h 16 16) (m.chTag ch) chDone).raise (chPage ch) (16 + ch % 8))) := by
  obtain ⟨hserves, hfits, hst⟩ := ackPort_open hopen (Or.inr rfl)
  exact chAck_done hst ▸ hon.answer_turns rfl hch hserves hfits

/-- A table word that takes its value (R80, R82). -/
theorem tblData_turns {b : Blk} {n p : Nat} {v : W32} {rr : RegRow} {r : TRow} (hon : On s m)
    (hserves : Serves m x b = true) (hreg : regAt m p TBL_DATA = some (b, n, rr)) (htbl : hasTbl b = true)
    (hb : b ≠ .mbox ∧ b ≠ .adccal) (hrow : wordAt m b n p x = some r)
    (hpresent : tblAbsent m.sys.part b (selOf m p x) (idxOf m p x) = false) (hacc : r.acc ≠ .ro)
    (hlock : unlocked m p = true) (hstop : r.eff = .stop → m.en p = false) (hpair : r.acc = .rwp → pairOk v = true)
    (henc : encTblOk b (selOf m p x) (idxOf m p x) (maskVal r.acc r.mask v) = true) :
    Turns2 (.tblDataAccess x p (some v)) s (Module.settle (s.nv,
      ({ m with idx := putK m.idx (16 * p + x) (idxOf m p x + 1) }).applyWrite
        (tkey p (selOf m p x) (idxOf m p x)) (maskVal r.acc r.mask v))) := by
  have hpage : p < 256 := (page_lt_of_blkOf (regAt_blk hreg).1).trans (by decide)
  have hfree : bit (m.reg p LOCK) 0 = false := by simpa [unlocked] using hlock
  have hwrite : (Txn.opened s.nv m x false [⟨rkey p TBL_DATA, v⟩]).write ⟨rkey p TBL_DATA, v⟩
      = (Txn.openedAt s.nv m x false [⟨rkey p TBL_DATA, v⟩]
          { m with idx := putK m.idx (16 * p + x) (idxOf m p x + 1) }).accept
            (tkey p (selOf m p x) (idxOf m p x)) (maskVal r.acc r.mask v) := by
    refine (write_tblData v hreg htbl (opened_clear s.nv false _ hserves)).trans
      ((tblWrite_accepts (t := Txn.opened s.nv m x false [⟨rkey p TBL_DATA, v⟩]) _ rfl rfl hrow hpresent hacc hfree hstop hpair henc).trans ?_)
    rw [if_neg hb.1, if_neg hb.2]
    rfl
  refine hon.busAt_turns (rfl : execTblDataAccess x p (some v) s = busAt s x p 256 0 TBL_DATA v) hpage ?_
  rw [Nat.zero_add, busDo_reg s.nv false v hserves hreg (by decide) (by decide), hwrite]
  exact congrArg Module.settle (finish_opened_accept s.nv m _ x _ _ false _)

theorem bind_turns {ch : Nat} {v : W32} {r : TRow} (hon : On s m) (hch : ch < 32) (hserves : Serves m x .mbox = true)
    (hlock : unlocked m (chPage ch) = true) (hmay : mayBind x = true) (hfree : m.chBound ch = false)
    (hrow : tblRow .mbox (ch / 8) 8 (ch % 8) = some r) (hpair : pairOk v = true)
    (henc : encTblOk .mbox 8 (ch % 8) (maskVal r.acc r.mask v) = true) (hok : bindOk (maskVal r.acc r.mask v) = true) :
    Turns2 (.mboxBind x ch v) s (Module.settle (s.nv, m.bound x ch (maskVal r.acc r.mask v))) :=
  turns2_act2 _ hon.1 (rfl : execMboxBind x ch v s = act2 s _)
    ((if_pos hch).trans (busDo_bind s.nv hch hserves hlock hmay hfree hrow hpair henc hok))

theorem learn_turns {b : Nat} {cap res cyc soh idExp : W32} (hon : On s m) (hb : b < 8)
    (hserves : Serves m x .batt = true) (hreg : (regAt m (pgBatt + b) BATT_COMMIT).isSome = true)
    (htaken : learnTaken m b cap res cyc soh idExp = true) : Turns2 (.battCommitLearn x b cap res cyc soh idExp) s
      (Module.settle (s.nv, learnDone m b cap res cyc soh idExp)) :=
  turns2_act2 _ hon.1 (rfl : execBattCommitLearn x b cap res cyc soh idExp s = act2 s _)
    ((if_pos hb).trans (busDo_learn s.nv hb hserves hreg htaken))

end

theorem xferRow_turns {s : State} {m : Module} {c : Instr} {q : Port} (hon : On s m) (hc : xferRow c s.nv = some q)
    (hopen : q.open m = true) : Turns2 c s (Module.settle (q.eff s.nv m)) := by
  unfold xferRow at hc
  split at hc
  case h_9 => cases hc
  case h_1 x p v =>
    split at hc
    · next b n hblk =>
      obtain ⟨hb, rfl⟩ := some_of_guard hc
      simp only [Bool.and_eq_true, decide_eq_true_eq] at hb
      obtain ⟨hserves, ⟨rr, hreg, -⟩, hready⟩ := (port_open_iff _ m).1 hopen
      dsimp only at hserves hreg hready ⊢
      cases hrow : wordAt m b n p x with
      | none => simp [hrow] at hready
      | some r =>
        simp only [hrow, Bool.and_eq_true, Bool.or_eq_true, Bool.not_eq_true', decide_eq_true_eq] at hready ⊢
        obtain ⟨⟨-, hlock⟩, ⟨⟨⟨hacc, hpresent⟩, hpair⟩, hstop⟩, henc⟩ := hready
        exact tblData_turns hon hserves hreg hb.1.1 ⟨hb.1.2, hb.2⟩ hrow hpresent hacc hlock
          (fun he => hstop.resolve_left fun hn => hn he) (fun ha => hpair.resolve_left fun hn => hn ha) henc
    · cases hc
  case h_2 x ch v =>
    obtain ⟨hch, rfl⟩ := some_of_guard hc
    obtain ⟨hserves, -, hready⟩ := (port_open_iff _ m).1 hopen
    dsimp only at hserves hready ⊢
    cases hrow : tblRow .mbox (ch / 8) 8 (ch % 8) with
    | none => simp [hrow] at hready
    | some r =>
      simp only [hrow, Bool.and_eq_true, Bool.or_eq_true, Bool.not_eq_true', decide_eq_true_eq] at hready ⊢
      obtain ⟨⟨⟨hlock, hmay⟩, hfree⟩, ⟨⟨⟨-, hpair⟩, -⟩, henc⟩, hok⟩ := hready
      exact bind_turns hon hch hserves hlock hmay hfree hrow
        (hpair.resolve_left fun hn => hn (tblRow_binding hrow).1) henc hok
  case h_3 x ch h l =>
    obtain ⟨hch, rfl⟩ := some_of_guard hc
    exact taken_turns hon hch hopen
  case h_4 x ch h l =>
    obtain ⟨hch, rfl⟩ := some_of_guard hc
    exact done_turns hon hch hopen
  case h_5 x h l =>
    obtain rfl := Option.some.inj hc
    exact hon.busCmd_turns (rfl : execRdSeq x h l s = busCmd s x _)
      (busDo_rdSeq s.nv h l ((port_open_iff _ m).1 hopen).1)
  case h_6 x ws =>
    obtain rfl := Option.some.inj hc
    obtain ⟨hserves, -, hready⟩ := (port_open_iff _ m).1 hopen
    simp only [Bool.and_eq_true, Bool.not_eq_true', decide_eq_true_eq] at hready
    obtain ⟨⟨⟨hlen, htype⟩, hsize⟩, hrun⟩ := hready
    exact hon.busCmd_turns (rfl : execSubmit x ws s = busCmd s x _) (busDo_submit s.nv hserves hlen htype hsize hrun)
  case h_7 ws =>
    obtain rfl := Option.some.inj hc
    obtain ⟨hserves, -, hready⟩ := (port_open_iff _ m).1 hopen
    simp only [Bool.and_eq_true, Bool.not_eq_true', decide_eq_true_eq] at hready
    exact hon.busCmd_turns (rfl : execUpdateBlock ws s = busCmd s 1 _)
      (busDo_block hserves (by simpa using hready.1) hready.2)
  case h_8 x b cap res cyc soh idExp =>
    obtain ⟨hb, rfl⟩ := some_of_guard hc
    obtain ⟨hserves, ⟨r, hreg, -⟩, hready⟩ := (port_open_iff _ m).1 hopen
    exact learn_turns hon hb hserves (by rw [show regAt m (pgBatt + b) BATT_COMMIT = _ from hreg]; rfl) hready

end Sys2Proof.Machine

open Sys2Proof Sys2Proof.Machine

/-- Settles O34, row by row. -/
theorem transfers : Obligations.Transfers := by
  intro s m c q hon hc hopen
  exact xferRow_turns hon hc hopen

/-- Settles O35: each transfer is what its command does under the conditions that its row asks for. -/
theorem transfersComplete : Obligations.TransfersComplete := by
  intro s m x hon
  refine ⟨fun ch h l hch hopen => taken_turns hon hch hopen, fun ch h l hch hopen => done_turns hon hch hopen,
    fun ch v r hch hserves _ hlock hmay hfree hrow hpair henc hok =>
      bind_turns hon hch hserves hlock hmay hfree hrow hpair henc hok,
    fun h l hserves => hon.busCmd_turns (rfl : execRdSeq x h l s = busCmd s x _) (busDo_rdSeq s.nv h l hserves),
    fun w ws hserves hlen htype hsize hrun => ?_, fun ws hserves hsome htaken => ?_,
    fun b cap res cyc soh idExp hb hserves hreg htaken => learn_turns hon hb hserves hreg htaken⟩
  · exact hon.busCmd_turns (rfl : execSubmit x (w :: ws) s = busCmd s x _)
      (busDo_submit s.nv hserves (by simpa using hlen) htype hsize hrun)
  · exact hon.busCmd_turns (rfl : execUpdateBlock ws s = busCmd s 1 _) (busDo_block hserves hsome htaken)
end

section
/-! What a record leaves alone (R523), and the judgement of one write of a register (O12). -/

namespace Sys2Proof.Machine

/-! ### Records -/

theorem applyPend_regs (m : Module) (sel : Nat → Bool) : (m.applyPend sel).regs = m.regs :=
  foldl_leaves Module.regs _ _ m fun _ _ => rfl

theorem boundary_regs (m : Module) (p : Nat) : (m.boundary p).regs = m.regs := by
  rw [Module.boundary, applySnap_regs, applyPend_regs]

theorem boundary_key (m : Module) (p k : Nat) : (m.boundary p).key k = m.key k := by
  simp only [Module.key, boundary_regs]

/-- Values that go into force leave alone what `part` reads, when no forced key reaches it. -/
theorem foldl_force_liveKey {α : Type} (key : α → Nat) (val : α → W32) (l : List α) (m : Module) (k : Nat)
    (h : ∀ a ∈ l, key a ≠ k) : (l.foldl (fun x a => x.force (key a) (val a)) m).liveKey k = m.liveKey k := by
  induction l generalizing m with
  | nil => rfl
  | cons a l ih =>
    rw [List.foldl_cons, ih _ fun b hb => h b (List.mem_cons_of_mem _ hb)]
    exact m.liveKey_force_other _ _ _ (h a List.mem_cons_self).symm

theorem applyPend_liveKey {m : Module} {sel : Nat → Bool} {k : Nat} (h : sel k = false) :
    (m.applyPend sel).liveKey k = m.liveKey k := by
  refine foldl_force_liveKey id m.key _ m k fun a ha hak => ?_
  obtain rfl : a = k := hak
  simp [h] at ha

theorem applySnap_liveKey {m : Module} {sel : Nat → Bool} {k : Nat} (h : sel k = false) :
    (m.applySnap sel).liveKey k = m.liveKey k := by
  refine foldl_force_liveKey Prod.fst Prod.snd _ m k fun a ha hak => ?_
  obtain rfl : a.1 = k := hak
  simp [h] at ha

/-- A boundary of a page brings no value of another page into force. -/
theorem boundary_liveKey_other {m : Module} {p k : Nat} (h : pageOfKey k ≠ p) :
    (m.boundary p).liveKey k = m.liveKey k := by
  have hsel : decide (pageOfKey k = p) = false := decide_eq_false h
  rw [Module.boundary]
  exact (applySnap_liveKey (sel := fun k => decide (pageOfKey k = p)) hsel).trans
    (applyPend_liveKey (sel := fun k => decide (pageOfKey k = p)) hsel)

/-- The registers that a record writes. -/
def recKeys : List Nat := [rkey pgRec REC_NEWEST_H, rkey pgRec REC_NEWEST_L, rkey pgRec REC_STAGE, rkey pgRec EVT_RAW,
  rkey pgRec REC_LOST_CNT]

theorem pageOfKey_rkey {p off : Nat} (hp : p < 256) (hoff : off < 256) : pageOfKey (rkey p off) = p := by
  have hlt : rkey p off < 65536 := by
    simp only [rkey]
    omega
  rw [pageOfKey, if_pos hlt, rkey_page p hoff]

theorem not_recKeys_of_page {k : Nat} (h : pageOfKey k ≠ pgRec) : k ∉ recKeys := by
  rintro hk
  refine h ?_
  simp only [recKeys, List.mem_cons, List.not_mem_nil, or_false] at hk
  rcases hk with rfl | rfl | rfl | rfl | rfl <;> exact pageOfKey_rkey (by decide) (by decide)

section
variable {m : Module} {k : Nat}

theorem key_setReg_other {p off : Nat} {v : W32} (h : k ≠ rkey p off) : (m.setReg p off v).key k = m.key k :=
  m.key_setKey_other _ _ _ h

theorem key_put_other {p : Nat} {f : Fld} {x : Nat} (h : k ≠ rkey p f.off) : (m.put p f x).key k = m.key k :=
  m.key_setKey_other _ _ _ h

theorem recStageReg_key (h : k ≠ rkey pgRec REC_STAGE) : m.recStageReg.key k = m.key k := by
  simp only [Module.recStageReg]
  rw [key_put_other h, key_put_other h]

theorem recPush_key (r : Rec) (h : k ∉ recKeys) : (m.recPush r).key k = m.key k := by
  simp only [recKeys, List.mem_cons, List.not_mem_nil, or_false, not_or] at h
  obtain ⟨hh, hl, hs, -, -⟩ := h
  rw [Module.recPush]
  dsimp only
  rw [recStageReg_key hs, key_setReg_other hl, key_setReg_other hh]
  rfl

theorem recLost_key (typ : Nat) (h : k ∉ recKeys) : (m.recLost typ).key k = m.key k := by
  simp only [recKeys, List.mem_cons, List.not_mem_nil, or_false, not_or] at h
  obtain ⟨-, -, -, he, hc⟩ := h
  simp only [Module.recLost]
  split
  · exact (key_setReg_other hc).trans (key_setReg_other he)
  · exact key_setReg_other hc

/-- A record writes no register but its own (R523, R537). -/
theorem recMake_key (typ src len flags : Nat) (payload : List Byte) (mark : Bool) (h : k ∉ recKeys) :
    (m.recMake typ src len flags payload mark).key k = m.key k := by
  have hs : k ≠ rkey pgRec REC_STAGE := by
    rintro rfl
    exact h (by simp [recKeys])
  rw [← boundary_key m pgRec k]
  simp only [Module.recMake]
  split
  · split
    · exact recPush_key _ h
    · exact recStageReg_key hs
  · exact recLost_key _ h

theorem recMake_live (m : Module) (typ src len flags : Nat) (payload : List Byte) (mark : Bool) :
    (m.recMake typ src len flags payload mark).live = (m.boundary pgRec).live := by
  simp only [Module.recMake]
  split
  · split <;> rfl
  · simp only [Module.recLost]
    split <;> rfl

/-- Outside the page of the recorder a record brings nothing into force (R538). -/
theorem recMake_liveKey (typ src len flags : Nat) (payload : List Byte) (mark : Bool) (h : pageOfKey k ≠ pgRec) :
    (m.recMake typ src len flags payload mark).liveKey k = m.liveKey k := by
  rw [← boundary_liveKey_other (m := m) h]
  simp only [Module.liveKey, recMake_live]

/-- A part of the module that neither boundaries nor records reach stays over a record. -/
theorem recMake_leaves {β : Type} (part : Module → β) (hregs : ∀ (m : Module) l, part { m with regs := l } = part m)
    (hlive : ∀ (m : Module) l, part { m with live := l } = part m)
    (hpend : ∀ (m : Module) l, part { m with pend := l } = part m)
    (hsnap : ∀ (m : Module) l, part { m with snap := l } = part m)
    (hrc : ∀ (m : Module) x, part { m with rc := x } = part m) (m : Module) (typ src len flags : Nat)
    (payload : List Byte) (mark : Bool) : part (m.recMake typ src len flags payload mark) = part m := by
  have hset : ∀ (m : Module) p off v, part (m.setReg p off v) = part m := fun m p off v => hregs m _
  have hput : ∀ (m : Module) p f x, part (m.put p f x) = part m := fun m p f x => hregs m _
  have hstage : ∀ m : Module, part m.recStageReg = part m := fun m => (hput _ _ _ _).trans (hput _ _ _ _)
  have hforce : ∀ {α : Type} (l : List α) (key : α → Nat) (val : α → W32) (m : Module),
      part (l.foldl (fun x a => x.force (key a) (val a)) m) = part m := fun l key val m =>
    foldl_leaves part l _ m fun m a => hlive m _
  have hbound : part (m.boundary pgRec) = part m := by
    rw [Module.boundary]
    exact (hsnap _ _).trans ((hforce _ Prod.fst Prod.snd _).trans ((hpend _ _).trans (hforce _ id m.key m)))
  rw [← hbound]
  simp only [Module.recMake]
  split
  · split
    · exact (hstage _).trans ((hset _ _ _ _).trans ((hset _ _ _ _).trans (hrc _ _)))
    · exact (hstage _).trans (hrc _ _)
  · simp only [Module.recLost, Module.countReg, Module.raise]
    split
    · exact (hrc _ _).trans ((hset _ _ _ _).trans (hset _ _ _ _))
    · exact (hrc _ _).trans (hset _ _ _ _)

variable (m) (typ src len flags : Nat) (payload : List Byte) (mark : Bool)

theorem recMake_ctrs : (m.recMake typ src len flags payload mark).ctrs = m.ctrs :=
  recMake_leaves Module.ctrs (fun _ _ => rfl) (fun _ _ => rfl) (fun _ _ => rfl) (fun _ _ => rfl) (fun _ _ => rfl) ..

theorem recMake_cfgRec : (m.recMake typ src len flags payload mark).cfgRec = m.cfgRec :=
  recMake_leaves Module.cfgRec (fun _ _ => rfl) (fun _ _ => rfl) (fun _ _ => rfl) (fun _ _ => rfl) (fun _ _ => rfl) ..

theorem recMake_sys : (m.recMake typ src len flags payload mark).sys = m.sys :=
  recMake_leaves Module.sys (fun _ _ => rfl) (fun _ _ => rfl) (fun _ _ => rfl) (fun _ _ => rfl) (fun _ _ => rfl) ..

/-- A stage with room takes the record, which takes the next number (R523). -/
theorem recMake_next (hstart : m.rc.started = true) (hroom : m.staged < 960) :
    (m.recMake typ src len flags payload mark).rc.next = m.rc.next + 1 := by
  have hrc := m.boundary_rc pgRec
  have hfits : recAccepts (m.boundary pgRec).staged typ = true := by
    have hsame : (m.boundary pgRec).staged = m.staged := by rw [Module.staged, hrc, Module.staged]
    have hless : m.staged < 1008 := by omega
    rw [hsame, recAccepts, decide_eq_true hless, Bool.true_or]
  have hon : (m.boundary pgRec).rc.started = true := by rw [hrc, hstart]
  have hnum : ((m.boundary pgRec).recPush ((m.boundary pgRec).recHeader typ src len flags payload mark)).rc.next
      = (m.boundary pgRec).rc.next + 1 := rfl
  have hmake : m.recMake typ src len flags payload mark
      = (m.boundary pgRec).recPush ((m.boundary pgRec).recHeader typ src len flags payload mark) := by
    simp only [Module.recMake, hfits, hon, if_true]
  rw [hmake, hnum, hrc]

theorem bit_setBit_of_bit {v : W32} {b : Nat} (i : Nat) (h : bit v b = true) : bit (setBit v i) b = true := by
  simp only [bit] at h ⊢
  simp only [setBit, BitVec.toNat_or, Nat.testBit_or, h, Bool.true_or]

/-- An event that is raised stays raised. -/
theorem raise_raised {q i p b : Nat} (h : bit (m.reg p EVT_RAW) b = true) :
    bit ((m.raise q i).reg p EVT_RAW) b = true := by
  by_cases hpq : p = q
  · subst hpq
    rw [Module.raise, Module.reg_setReg_same]
    exact bit_setBit_of_bit i h
  · rw [Module.reg_raise_other _ _ _ _ _ (by simp only [rkey]; omega)]
    exact h

/-- An event that is raised stays raised over a record. -/
theorem recMake_raised {p b : Nat} (h : bit (m.reg p EVT_RAW) b = true) :
    bit ((m.recMake typ src len flags payload mark).reg p EVT_RAW) b = true := by
  have hbound : bit ((m.boundary pgRec).reg p EVT_RAW) b = true := by rwa [Module.reg, boundary_key]
  have hne : ∀ off, off < 256 → off ≠ EVT_RAW → rkey p EVT_RAW ≠ rkey pgRec off := by
    intro off hlt hoff
    simp only [rkey, EVT_RAW] at hoff ⊢
    omega
  simp only [Module.recMake]
  split
  · split
    · have hpush : ((m.boundary pgRec).recPush ((m.boundary pgRec).recHeader typ src len flags payload mark)).key
          (rkey p EVT_RAW) = (m.boundary pgRec).key (rkey p EVT_RAW) := by
        rw [Module.recPush]
        dsimp only
        rw [recStageReg_key (hne REC_STAGE (by decide) (by decide)),
          key_setReg_other (hne REC_NEWEST_L (by decide) (by decide)),
          key_setReg_other (hne REC_NEWEST_H (by decide) (by decide))]
        rfl
      rwa [Module.reg, hpush]
    · rwa [Module.reg, recStageReg_key (hne REC_STAGE (by decide) (by decide))]
  · have hcount := hne REC_LOST_CNT (by decide) (by decide)
    simp only [Module.recLost]
    split
    · exact (congrArg (bit · b) (key_setReg_other hcount)).trans (raise_raised _ hbound)
    · exact (congrArg (bit · b) (key_setReg_other hcount)).trans hbound

end

/-! ### One write of a register, whatever refuses it (R69 to R92) -/

/-- The transaction of one write, before it is judged; `bad` is whether brown-out refuses it (R453). -/
def Txn.single (nv : NonVol) (m : Module) (x a : Nat) (v : W32) (bad : Bool) : Txn :=
  { Txn.opened nv m x false [⟨a, v⟩] with brown := bad }

theorem finish_refuse (nv : NonVol) (m : Module) (x a : Nat) (v : W32) (bad : Bool) (why : Nat) (h : why ≠ whyPair) :
    ((Txn.single nv m x a v bad).refuse a why).finish.result = (nv, m.cfgRefused x a why) := by
  rw [finish_plain ⟨rfl, rfl, rfl, rfl, rfl, rfl, rfl⟩]
  simp only [Txn.result, Txn.refuse, h, if_false]
  rfl

theorem finish_refusePair (nv : NonVol) (m : Module) (x a : Nat) (v : W32) (bad : Bool) :
    ((Txn.single nv m x a v bad).refuse a whyPair).finish.result = (nv, m.pairRefused x a) := by
  rw [finish_plain ⟨rfl, rfl, rfl, rfl, rfl, rfl, rfl⟩]
  rfl

theorem finish_refuseBoth (nv : NonVol) (m : Module) (x a : Nat) (v : W32) (bad : Bool) (why : Nat)
    (h : why ≠ whyPair) : (((Txn.single nv m x a v bad).refuse a why).refuse a whyPair).finish.result
      = (nv, (m.cfgRefused x a why).pairRefused x a) := by
  rw [finish_plain ⟨rfl, rfl, rfl, rfl, rfl, rfl, rfl⟩]
  simp only [Txn.result, Txn.refuse, h, if_false, if_true]
  rfl

section
variable {s : State} {m : Module} {x a n : Nat} {b : Blk} {r : RegRow} {v : W32}

/-- One write of a register that the part has, by a master that the fabric serves. -/
theorem On.writeAt_turns {z : NonVol × Module} (hon : On s m) (hopen : m.busOpen x = true)
    (hdenied : m.busDenied x = false) (hrow : rowAt m a b n r) (bad : Bool)
    (hbad : ((x = 1 || x = 2 || x = 3) && m.get pgSys SYS_STATUS_BROWN = 1) = bad)
    (hz : ((Txn.single s.nv m x a v bad).write ⟨a, v⟩).finish.result = z) :
    Turns2 (writeAt x a v) s (Module.settle z) := by
  obtain ⟨halign, hlt, -⟩ := hrow
  have hin : ¬ 65536 ≤ a := by omega
  have hdo : m.busDo s.nv x false [⟨a, v⟩] = Module.settle z := by
    rw [← hz]
    simp only [Module.busDo, Module.busWrite, busServes_of_busOpen hopen, hdenied, Bool.not_true, List.any_cons,
      List.any_nil, halign, hin, ne_eq, not_true, decide_false, Bool.or_self, Bool.false_eq_true, if_false,
      Module.transact, Bool.false_or, hbad, List.foldl_cons, List.foldl_nil]
    rfl
  exact hdo ▸ exec_writeAt x a v hon

theorem rkey_div_mod (a : Nat) : rkey (a / 256) (a % 256) = a := by
  simp only [rkey]
  omega

/-- A register whose write the general rules judge is no port, and nothing of the page header. -/
theorem plainOffset_of_plain (hrow : rowAt m a b n r) (hplain : plain b a) : plainOffset b (a % 256) := by
  obtain ⟨halign, -, -⟩ := hrow
  obtain ⟨hlow, htbl, -⟩ := hplain
  refine ⟨Nat.mod_lt _ (by decide), by omega, ?_, ?_, ?_, ?_, ?_, fun h => ?_⟩
  iterate 5
    simp only [CTRL, LOCK, EVT_RAW, EVT_EN, FLT_STAT]
    omega
  have habove : ¬ a % 256 ≤ TBL_DATA := fun hle => htbl ⟨h, hle⟩
  simp only [TBL_DATA, TBL_SEL, TBL_IDX] at habove ⊢
  omega

/-- SUBMIT is a command register. -/
theorem not_submit (hrow : rowAt m a b n r) (hacc : r.acc = .rw ∨ r.acc = .rwp) : a ≠ rkey pgRec REC_SUBMIT := by
  rintro rfl
  obtain ⟨-, -, hreg⟩ := hrow
  obtain ⟨hblk, hr⟩ := regAt_blk hreg
  obtain rfl : Blk.recd = b := (Prod.ext_iff.mp (Option.some.inj hblk)).1
  have hwo : (rowOf .recd (rkey pgRec REC_SUBMIT % 256)).all (fun r => r.acc ≠ .rw && r.acc ≠ .rwp) = true := by decide
  rw [hr] at hwo
  simp at hwo
  exact hacc.elim hwo.1 hwo.2

theorem write_brown {t : Txn} (hreg : regAt t.m (a / 256) (a % 256) = some (b, n, r)) (hbrown : t.brown = true)
    (hport : a ≠ rkey pgRec REC_SUBMIT) : t.write ⟨a, v⟩ = t.refuse a whyBrown := by
  simp only [Txn.write, hreg, hbrown, if_true, Txn.submitGone, hport, if_false]

theorem write_auto {t : Txn} (hreg : regAt t.m (a / 256) (a % 256) = some (b, n, r)) (hbrown : t.brown = false)
    (hauto : (t.m0.autonomous && (t.x = 1 || t.x = 2) && b ≠ .sys && b ≠ .wdog) = true)
    (hport : a ≠ rkey pgRec REC_SUBMIT) : t.write ⟨a, v⟩ = t.refuse a whyAuto := by
  simp only [Txn.write, hreg, hbrown, Bool.false_eq_true, if_false, hauto, if_true, Txn.submitGone, hport]

/-- The word is not half of a critical 32-bit value, or the other half is not in the transaction: what the pair rule says
of a write that is alone (R91). -/
theorem pairFits_single (nv : NonVol) (bad : Bool) : (Txn.single nv m x a v bad).pairFits b (a / 256) (a % 256) v = true
    ↔ pairOk v = true ∧ pair32Hi b (a % 256) = none := by
  unfold Txn.pairFits
  cases hhi : pair32Hi b (a % 256) with
  | none => simp
  | some hi =>
    have hone : ((Txn.single nv m x a v bad).hasPair (rkey (a / 256) hi)
        && (Txn.single nv m x a v bad).hasPair (rkey (a / 256) (hi + 4))) = false := by
      simp only [Txn.hasPair, Txn.single, Txn.opened, List.any_cons, List.any_nil, Bool.or_false]
      by_cases h1 : a = rkey (a / 256) hi
      · have h2 : ¬ a = rkey (a / 256) (hi + 4) := by
          intro h
          simp only [rkey] at h h1
          omega
        simp [h2]
      · simp [h1]
    simp [hone]

/-- A write that the rules for registers judge and refuse. -/
theorem write_refused {t : Txn} {why : Nat} (hrow : rowAt m a b n r) (hplain : plain b a)
    (hreg : regAt t.m (a / 256) (a % 256) = some (b, n, r)) (hacc : r.acc = .rw ∨ r.acc = .rwp) (hclear : t.Clear b)
    (hjudge : t.judge (a / 256) r.acc r.eff (t.pairFits b (a / 256) (a % 256) v)
      (!(decide (b = .recd) && (decide (a % 256 = REC_RD_SEQ_H) || decide (a % 256 = REC_RD_SEQ_L))))
      (encOk t.m.sys.part b (a % 256) (kept t.m.sys.part b (a % 256) v)) = why) (hwhy : why ≠ 0) :
    t.write ⟨a, v⟩ = t.turnDown a r.acc (t.pairFits b (a / 256) (a % 256) v) why := by
  have hoff := plainOffset_of_plain hrow hplain
  have hmbox : (decide (b = .mbox) && decide (a % 256 ≠ FLT_WIN)) = false := by simp [hplain.2.2]
  have hwrite := write_reg v hoff hreg hacc hclear
  rw [rkey_div_mod] at hwrite
  rw [kept_of_row v (regAt_blk hreg).2] at hjudge
  rw [hwrite]
  simp only [Txn.regWrite, hmbox, Bool.false_eq_true, if_false, hjudge, hwhy, ne_eq, not_false_iff, if_true]

theorem judge_locked {t : Txn} {p : Nat} {acc : Acc} {eff : Eff} {pairs enc : Bool} (hacc : acc = .rw ∨ acc = .rwp)
    (hlock : bit (t.m.reg p LOCK) 0 = true) : t.judge p acc eff pairs true enc = whyLock := by
  have hkind : (acc = .rw || acc = .rwp : Bool) = true := by simpa using hacc
  simp only [Txn.judge, hkind, hlock, Bool.and_self, if_true]

section
variable {t : Txn} {p : Nat} {acc : Acc} {eff : Eff} {pairs locks enc : Bool}

theorem judge_stop (hlock : bit (t.m.reg p LOCK) 0 = false) (hstop : eff = .stop) (hen : t.m0.en p = true) :
    t.judge p acc eff pairs locks enc = whyStop := by
  simp only [Txn.judge, hlock, hstop, hen, Bool.and_false, Bool.false_eq_true, if_false, decide_true, Bool.and_self,
    if_true]

theorem judge_pair (hlock : bit (t.m.reg p LOCK) 0 = false) (hidle : ¬(eff = .stop ∧ t.m0.en p = true))
    (hacc : acc = .rwp) (hpair : pairs = false) : t.judge p acc eff pairs locks enc = whyPair := by
  have hrun : (decide (eff = .stop) && t.m0.en p) = false := by
    rw [Bool.and_eq_false_iff, decide_eq_false_iff_not]
    by_cases h : eff = .stop
    · exact Or.inr (Bool.eq_false_iff.mpr fun hen => hidle ⟨h, hen⟩)
    · exact Or.inl h
  simp only [Txn.judge, hlock, hrun, hacc, hpair, Bool.and_false, Bool.false_eq_true, if_false, decide_true,
    Bool.not_false, Bool.and_self, if_true]

theorem judge_enc (hlock : bit (t.m.reg p LOCK) 0 = false) (hidle : ¬(eff = .stop ∧ t.m0.en p = true))
    (hpair : ¬(acc = .rwp ∧ pairs = false)) (henc : enc = false) : t.judge p acc eff pairs locks enc = whyEnc := by
  have hrun : (decide (eff = .stop) && t.m0.en p) = false := by
    rw [Bool.and_eq_false_iff, decide_eq_false_iff_not]
    by_cases h : eff = .stop
    · exact Or.inr (Bool.eq_false_iff.mpr fun hen => hidle ⟨h, hen⟩)
    · exact Or.inl h
  have hgood : (decide (acc = .rwp) && !pairs) = false := by
    rw [Bool.and_eq_false_iff, decide_eq_false_iff_not, Bool.not_eq_false']
    by_cases h : acc = .rwp
    · exact Or.inr (Bool.eq_true_of_not_eq_false fun hp => hpair ⟨h, hp⟩)
    · exact Or.inl h
  simp only [Txn.judge, hlock, hrun, hgood, henc, Bool.and_false, Bool.false_eq_true, if_false, Bool.not_false, if_true]

theorem turnDown_alone {addr why : Nat} (h : ¬(acc = .rwp ∧ pairs = false)) :
    t.turnDown addr acc pairs why = t.refuse addr why := by
  have hgood : (decide (acc = .rwp) && !pairs) = false := by
    rw [Bool.and_eq_false_iff, decide_eq_false_iff_not, Bool.not_eq_false']
    by_cases ha : acc = .rwp
    · exact Or.inr (Bool.eq_true_of_not_eq_false fun hp => h ⟨ha, hp⟩)
    · exact Or.inl ha
  simp only [Txn.turnDown, Bool.and_assoc, hgood, Bool.and_false, Bool.false_eq_true, if_false]

theorem turnDown_pair {addr : Nat} : t.turnDown addr acc pairs whyPair = t.refuse addr whyPair := by
  simp only [Txn.turnDown, ne_eq, not_true, decide_false, Bool.false_and, Bool.false_eq_true, if_false]

theorem turnDown_both {addr why : Nat} (hwhy : why ≠ whyPair) (hacc : acc = .rwp) (hpair : pairs = false) :
    t.turnDown addr acc pairs why = (t.refuse addr why).refuse addr whyPair := by
  simp only [Txn.turnDown, hwhy, hacc, hpair, ne_eq, not_false_iff, decide_true, Bool.not_false, Bool.and_self, if_true]

end

/-- The pair rule refuses the write. -/
def badPair (b : Blk) (r : RegRow) (a : Nat) (v : W32) : Prop :=
  r.acc = .rwp ∧ (pairOk v = false ∨ pair32Hi b (a % 256) ≠ none)

theorem badPair_iff (nv : NonVol) (bad : Bool) : badPair b r a v
    ↔ r.acc = .rwp ∧ (Txn.single nv m x a v bad).pairFits b (a / 256) (a % 256) v = false := by
  have hfits := pairFits_single (m := m) (x := x) (a := a) (b := b) (v := v) nv bad
  refine and_congr_right fun _ => ?_
  rw [← Bool.not_eq_true ((Txn.single nv m x a v bad).pairFits b (a / 256) (a % 256) v), hfits, not_and_or,
    Bool.not_eq_true]

/-! ### The refusals of one write (O12) -/

section
variable (hon : On s m) (hopen : m.busOpen x = true) (hdenied : m.busDenied x = false) (hrow : rowAt m a b n r)
  (hplain : plain b a) (hacc : r.acc = .rw ∨ r.acc = .rwp)
include hon hopen hdenied hrow hacc

theorem write_turns_brown (hbrown : ((x = 1 || x = 2 || x = 3) && m.get pgSys SYS_STATUS_BROWN = 1) = true) :
    Turns2 (writeAt x a v) s (Module.settle (s.nv, m.cfgRefused x a whyBrown)) := by
  refine hon.writeAt_turns hopen hdenied hrow true hbrown ?_
  rw [write_brown hrow.2.2 rfl (not_submit hrow hacc), finish_refuse _ _ _ _ _ _ _ (by decide)]

theorem write_turns_auto (hbrown : ((x = 1 || x = 2 || x = 3) && m.get pgSys SYS_STATUS_BROWN = 1) = false)
    (hauto : (m.autonomous && (x = 1 || x = 2) && b ≠ .sys && b ≠ .wdog) = true) :
    Turns2 (writeAt x a v) s (Module.settle (s.nv, m.cfgRefused x a whyAuto)) := by
  refine hon.writeAt_turns hopen hdenied hrow false hbrown ?_
  rw [write_auto hrow.2.2 rfl hauto (not_submit hrow hacc), finish_refuse _ _ _ _ _ _ _ (by decide)]

include hplain

/-- A write that the rules for registers refuse, in the terms of `judge`. -/
theorem write_turns_judged {why : Nat} {z : NonVol × Module}
    (hclear : (Txn.single s.nv m x a v false).Clear b)
    (hbrown : ((x = 1 || x = 2 || x = 3) && m.get pgSys SYS_STATUS_BROWN = 1) = false)
    (hjudge : (Txn.single s.nv m x a v false).judge (a / 256) r.acc r.eff
      ((Txn.single s.nv m x a v false).pairFits b (a / 256) (a % 256) v)
      (!(decide (b = .recd) && (decide (a % 256 = REC_RD_SEQ_H) || decide (a % 256 = REC_RD_SEQ_L))))
      (encOk m.sys.part b (a % 256) (kept m.sys.part b (a % 256) v)) = why) (hwhy : why ≠ 0)
    (hz : ((Txn.single s.nv m x a v false).turnDown a r.acc
      ((Txn.single s.nv m x a v false).pairFits b (a / 256) (a % 256) v) why).finish.result = z) :
    Turns2 (writeAt x a v) s (Module.settle z) := by
  refine hon.writeAt_turns hopen hdenied hrow false hbrown ?_
  rw [write_refused (t := Txn.single s.nv m x a v false) hrow hplain hrow.2.2 hacc hclear hjudge hwhy, hz]

/-- The module after a refusal that a bad pair joins (R84, R91). -/
theorem write_turns_refused {why : Nat} (hclear : (Txn.single s.nv m x a v false).Clear b)
    (hbrown : ((x = 1 || x = 2 || x = 3) && m.get pgSys SYS_STATUS_BROWN = 1) = false)
    (hjudge : (Txn.single s.nv m x a v false).judge (a / 256) r.acc r.eff
      ((Txn.single s.nv m x a v false).pairFits b (a / 256) (a % 256) v)
      (!(decide (b = .recd) && (decide (a % 256 = REC_RD_SEQ_H) || decide (a % 256 = REC_RD_SEQ_L))))
      (encOk m.sys.part b (a % 256) (kept m.sys.part b (a % 256) v)) = why) (hwhy : why ≠ 0) (hkind : why ≠ whyPair) :
    (¬badPair b r a v → Turns2 (writeAt x a v) s (Module.settle (s.nv, m.cfgRefused x a why)))
    ∧ (badPair b r a v → Turns2 (writeAt x a v) s (Module.settle (s.nv, (m.cfgRefused x a why).pairRefused x a))) := by
  have hiff := badPair_iff (m := m) (x := x) (a := a) (b := b) (r := r) (v := v) s.nv false
  refine ⟨fun hgood => ?_, fun hbad => ?_⟩
  · refine write_turns_judged hon hopen hdenied hrow hplain hacc hclear hbrown hjudge hwhy ?_
    rw [turnDown_alone (fun h => hgood (hiff.mpr h)), finish_refuse _ _ _ _ _ _ _ hkind]
  · obtain ⟨hrwp, hpair⟩ := hiff.mp hbad
    refine write_turns_judged hon hopen hdenied hrow hplain hacc hclear hbrown hjudge hwhy ?_
    rw [turnDown_both hkind hrwp hpair, finish_refuseBoth _ _ _ _ _ _ _ hkind]

end

end

theorem unlocked_iff (m : Module) (p : Nat) : unlocked m p = true ↔ bit (m.reg p LOCK) 0 = false := by
  simp [unlocked]

theorem locked_iff (m : Module) (p : Nat) : unlocked m p = false ↔ bit (m.reg p LOCK) 0 = true := by
  simp [unlocked]

end Sys2Proof.Machine

open Sys2Proof Sys2Proof.Machine

/-- Settles O12, by the branches of the judgement of one write. -/
theorem refusedWritesAreReported : Obligations.RefusedWritesAreReported := by
  intro s m x a n b r v hon hopen hdenied hrow hplain hacc
  have hbrowniff : ((x = 1 ∨ x = 2 ∨ x = 3) ∧ m.get pgSys SYS_STATUS_BROWN = 1)
      ↔ ((x = 1 || x = 2 || x = 3) && m.get pgSys SYS_STATUS_BROWN = 1) = true := by simp [or_assoc]
  have hautoiff : (m.autonomous = true ∧ (x = 1 ∨ x = 2) ∧ b ≠ .sys ∧ b ≠ .wdog)
      ↔ (m.autonomous && (x = 1 || x = 2) && b ≠ .sys && b ≠ .wdog) = true := by simp [and_assoc]
  simp only [hbrowniff, hautoiff, Bool.not_eq_true]
  refine ⟨fun hb => write_turns_brown hon hopen hdenied hrow hacc hb,
    fun hb ha => write_turns_auto hon hopen hdenied hrow hacc hb ha, fun hb ha hlock hplace => ?_,
    fun hb ha hfree hrun => ?_, fun hb ha hfree hidle hbad => ?_, fun hb ha hfree hidle hgood henc => ?_⟩
  · have hlocks : (!(decide (b = .recd) && (decide (a % 256 = REC_RD_SEQ_H) || decide (a % 256 = REC_RD_SEQ_L)))) = true := by
      rw [Bool.not_eq_true', ← Bool.not_eq_true]
      simpa using hplace
    refine write_turns_refused hon hopen hdenied hrow hplain hacc ⟨rfl, ha⟩ hb (why := 2) ?_ (by decide) (by decide)
    rw [hlocks]
    exact judge_locked hacc ((locked_iff _ _).mp hlock)
  · exact write_turns_refused hon hopen hdenied hrow hplain hacc ⟨rfl, ha⟩ hb (why := 1)
      (judge_stop ((unlocked_iff _ _).mp hfree) hrun.1 hrun.2) (by decide) (by decide)
  · obtain ⟨hrwp, hpair⟩ := (badPair_iff (m := m) (x := x) s.nv false).mp hbad
    refine write_turns_judged hon hopen hdenied hrow hplain hacc ⟨rfl, ha⟩ hb
      (judge_pair ((unlocked_iff _ _).mp hfree) hidle hrwp hpair) (by decide) ?_
    rw [turnDown_pair, finish_refusePair]
  · have hno := (not_congr (badPair_iff (m := m) (x := x) s.nv false)).mp hgood
    exact (write_turns_refused hon hopen hdenied hrow hplain hacc ⟨rfl, ha⟩ hb
      (judge_enc ((unlocked_iff _ _).mp hfree) hidle hno henc) (by decide) (by decide)).1 hgood
end

section
/-! What a refused write leaves alone (R84, R87), and writes of Stop fields (O11). -/

namespace Sys2Proof.Machine

/-! ### A refused write -/

/-- What a refused write reports before it is recorded (R84, R87). -/
def Module.cfgMarked (m : Module) (x addr why : Nat) : Module :=
  ((m.raise (addr / 256) EV_CFG_REFUSED).setReg pgInteg INTEG_CFG_LAST
    (BitVec.ofNat 32 (x * 2 ^ 28 + why * 2 ^ 24 + addr))).countReg pgInteg INTEG_CFG_CNT 1

/-- The refused write is recorded with the report as its payload. -/
def Module.cfgRecord (m : Module) (addr : Nat) : Module :=
  { m.recMake 0x0103 (addr / 256 * 256) 8 0
      (wordBytes [m.reg pgInteg INTEG_CFG_LAST, m.reg pgInteg INTEG_CFG_CNT]) false with cfgRec := some 0 }

section
variable {m : Module} (x a why : Nat)

theorem cfgRefused_quiet {k : Nat} (h : m.cfgRec = some k) (hk : k < 9) :
    m.cfgRefused x a why = m.cfgMarked x a why := by
  have hrec : (m.cfgMarked x a why).cfgRec = some k := h
  have hnot : decide (9 ≤ k) = false := decide_eq_false (by omega)
  unfold Module.cfgMarked at hrec
  simp only [Module.cfgRefused, hrec, hnot, Bool.false_eq_true, if_false, Module.cfgMarked]

theorem cfgRefused_due (h : m.cfgRec = none ∨ ∃ k, m.cfgRec = some k ∧ 9 ≤ k) :
    m.cfgRefused x a why = (m.cfgMarked x a why).cfgRecord a := by
  have hsame : (m.cfgMarked x a why).cfgRec = m.cfgRec := rfl
  unfold Module.cfgMarked at hsame
  rcases h with h | ⟨k, h, hk⟩
  · simp only [Module.cfgRefused, hsame, h, if_true, Module.cfgMarked, Module.cfgRecord]
  · simp only [Module.cfgRefused, hsame, h, decide_eq_true hk, if_true, Module.cfgMarked, Module.cfgRecord]

/-- A refused write is only reported, or reported and recorded. -/
theorem cfgRefused_cases (m : Module) : m.cfgRefused x a why = m.cfgMarked x a why
    ∨ m.cfgRefused x a why = (m.cfgMarked x a why).cfgRecord a := by
  cases h : m.cfgRec with
  | none => exact Or.inr (cfgRefused_due x a why (Or.inl h))
  | some k =>
    by_cases hk : k < 9
    · exact Or.inl (cfgRefused_quiet x a why h hk)
    · exact Or.inr (cfgRefused_due x a why (Or.inr ⟨k, h, by omega⟩))

theorem cfgMarked_key {k : Nat} (hevt : k ≠ rkey (a / 256) EVT_RAW) (hlast : k ≠ rkey pgInteg INTEG_CFG_LAST)
    (hcnt : k ≠ rkey pgInteg INTEG_CFG_CNT) : (m.cfgMarked x a why).key k = m.key k := by
  rw [Module.cfgMarked, Module.countReg, key_setReg_other hcnt, key_setReg_other hlast, Module.raise,
    key_setReg_other hevt]

theorem cfgRefused_key_marked {k : Nat} (hrec : k ∉ recKeys) :
    (m.cfgRefused x a why).key k = (m.cfgMarked x a why).key k := by
  rcases cfgRefused_cases x a why m with h | h <;> rw [h]
  exact recMake_key _ _ _ _ _ _ hrec

theorem cfgRefused_key {k : Nat} (hrec : k ∉ recKeys) (hevt : k ≠ rkey (a / 256) EVT_RAW)
    (hlast : k ≠ rkey pgInteg INTEG_CFG_LAST) (hcnt : k ≠ rkey pgInteg INTEG_CFG_CNT) :
    (m.cfgRefused x a why).key k = m.key k := by
  rw [cfgRefused_key_marked x a why hrec, cfgMarked_key x a why hevt hlast hcnt]

theorem cfgRefused_liveKey {k : Nat} (hpage : pageOfKey k ≠ pgRec) :
    (m.cfgRefused x a why).liveKey k = m.liveKey k := by
  rcases cfgRefused_cases x a why m with h | h <;> rw [h]
  · rfl
  · exact recMake_liveKey (m := m.cfgMarked x a why) _ _ _ _ _ _ hpage

theorem cfgRefused_last (m : Module) : (m.cfgRefused x a why).reg pgInteg INTEG_CFG_LAST
    = BitVec.ofNat 32 (x * 2 ^ 28 + why * 2 ^ 24 + a) := by
  rw [Module.reg, cfgRefused_key_marked x a why (by decide), ← Module.reg, Module.cfgMarked, Module.countReg,
    Module.reg_setReg_other _ _ _ _ _ _ (by decide), Module.reg_setReg_same]

theorem cfgRefused_raised (m : Module) :
    bit ((m.cfgRefused x a why).reg (a / 256) EVT_RAW) EV_CFG_REFUSED = true := by
  have hraised : bit ((m.raise (a / 256) EV_CFG_REFUSED).reg (a / 256) EVT_RAW) EV_CFG_REFUSED = true :=
    m.raise_bit (a / 256) EV_CFG_REFUSED (by decide)
  have hne : ∀ off, off < 256 → off ≠ EVT_RAW → rkey (a / 256) EVT_RAW ≠ rkey pgInteg off := by
    intro off hlt hoff
    simp only [rkey, EVT_RAW] at hoff ⊢
    omega
  have hmarked : bit ((m.cfgMarked x a why).reg (a / 256) EVT_RAW) EV_CFG_REFUSED = true := by
    rw [Module.cfgMarked, Module.countReg, Module.reg, key_setReg_other (hne _ (by decide) (by decide)),
      key_setReg_other (hne _ (by decide) (by decide))]
    exact hraised
  rcases cfgRefused_cases x a why m with h | h <;> rw [h]
  · exact hmarked
  · exact recMake_raised (m.cfgMarked x a why) _ _ _ _ _ _ hmarked

/-- A due refusal is recorded with the next number, and its window starts (R87). -/
theorem cfgRefused_next (h : m.cfgRec = none ∨ ∃ k, m.cfgRec = some k ∧ 9 ≤ k) (hstart : m.rc.started = true)
    (hroom : m.staged < 960) :
    (m.cfgRefused x a why).rc.next = m.rc.next + 1 ∧ (m.cfgRefused x a why).cfgRec = some 0 := by
  rw [cfgRefused_due x a why h]
  exact ⟨recMake_next (m.cfgMarked x a why) _ _ _ _ _ _ hstart hroom, rfl⟩

end

/-! ### Where registers that hold their value stand -/

section
variable {m : Module} {a n : Nat} {b : Blk} {r : RegRow}

/-- A register that masters write is not one that the spec makes read-only. -/
theorem ne_of_readOnly {p off n' : Nat} {b' : Blk} (hrow : rowAt m a b n r) (hacc : r.acc = .rw ∨ r.acc = .rwp)
    (hblk : blkOf p = some (b', n')) (hoff : off < 256)
    (hro : (rowOf b' off).all (fun r => r.acc ≠ .rw && r.acc ≠ .rwp) = true) : a ≠ rkey p off := by
  rintro rfl
  obtain ⟨-, -, hreg⟩ := hrow
  rw [rkey_page p hoff, rkey_off p hoff] at hreg
  obtain ⟨hblk', hr⟩ := regAt_blk hreg
  obtain rfl : b' = b := (Prod.ext_iff.mp (Option.some.inj (hblk.symm.trans hblk'))).1
  rw [hr] at hro
  simp at hro
  exact hacc.elim hro.1 hro.2

/-- The page of the recorder holds the recorder's registers. -/
theorem page_ne_of_blk {p n' : Nat} {b' : Blk} (hrow : rowAt m a b n r) (hblk : blkOf p = some (b', n')) (hb : b ≠ b') :
    pageOfKey a ≠ p := by
  obtain ⟨-, hlt, hreg⟩ := hrow
  rw [pageOfKey, if_pos hlt]
  rintro rfl
  exact hb (Prod.ext_iff.mp (Option.some.inj ((regAt_blk hreg).1.symm.trans hblk))).1

/-- The recorder has no Stop field but those of the page header. -/
theorem stop_not_recd (hrow : rowAt m a b n r) (hplain : plain b a) (hstop : r.eff = .stop) : b ≠ .recd := by
  rintro rfl
  obtain ⟨-, -, hreg⟩ := hrow
  obtain ⟨hlow, -, -⟩ := hplain
  have hfind := (regAt_blk hreg).2
  have habove : ¬ a % 256 < 0x20 := by omega
  rw [rowOf, if_neg habove] at hfind
  have hnone : (blkRows .recd).all (fun r => r.eff ≠ .stop) = true := by decide
  have hno := List.all_eq_true.mp hnone r (List.mem_of_find?_eq_some hfind)
  exact absurd hstop (of_decide_eq_true hno)

theorem ne_evtRaw_of_plain (q : Nat) (hplain : plain b a) : a ≠ rkey q EVT_RAW := by
  rintro rfl
  obtain ⟨hlow, -, -⟩ := hplain
  simp only [rkey, EVT_RAW] at hlow
  omega

end

/-! ### Writes of Stop fields (O11) -/

section
variable {s : State} {m : Module} {x a n : Nat} {b : Blk} {r : RegRow} {v : W32}

theorem effOf_row (hrow : rowAt m a b n r) : effOf a = r.eff := by
  obtain ⟨-, hlt, hreg⟩ := hrow
  obtain ⟨hblk, hr⟩ := regAt_blk hreg
  simp only [effOf, if_pos hlt, hblk, hr]

/-- A Stop field is none of the registers that start something when written. -/
theorem stop_not_command (hrow : rowAt m a b n r) (hstop : r.eff = .stop) :
    ¬(b = .life ∧ a % 256 = LIFE_CMD) ∧ ¬(b = .update ∧ a % 256 = UPDATE_CMD) ∧ ¬(b = .sys ∧ a % 256 = SYS_PROFILE) := by
  obtain ⟨-, -, hreg⟩ := hrow
  have hr := (regAt_blk hreg).2
  have hnone : ∀ b' off, (rowOf b' off).all (fun r => r.eff ≠ .stop) = true → ¬(b = b' ∧ a % 256 = off) := by
    rintro b' off hall ⟨rfl, rfl⟩
    rw [hr] at hall
    simp [hstop] at hall
  exact ⟨hnone _ _ (by decide), hnone _ _ (by decide), hnone _ _ (by decide)⟩

/-- A Stop field of a stopped block takes an accepted value. -/
theorem regWrite_stop {t : Txn} {w : W32} (hrow : rowAt m a b n r) (hplain : plain b a) (hstop : r.eff = .stop)
    (hwin : isWin b (a % 256) = false) (hw : regVal t.m.sys.part b (a % 256) r v = w)
    (hjudge : t.judge (a / 256) r.acc r.eff (t.pairFits b (a / 256) (a % 256) v) true
      (encOk t.m.sys.part b (a % 256) w) = 0) :
    t.regWrite b (a / 256) n a r v
      = (t.accept a w).on (fun y => y.wroteHook b (a / 256) n (a % 256) (t.m.reg (a / 256) (a % 256))) := by
  obtain ⟨hlife, hupd, hsys⟩ := stop_not_command hrow hstop
  have hrec := stop_not_recd hrow hplain hstop
  obtain ⟨-, -, hmbox⟩ := hplain
  simp only [Txn.regWrite, hw, hmbox, hrec, hlife, hupd, hsys, hwin, hjudge, decide_false, Bool.false_and, Bool.not_false,
    Bool.false_eq_true, ne_eq, not_true, if_false, rkey_div_mod]

theorem stop_write_turns (hon : On s m) (hserves : Serves m x b = true) (hrow : rowAt m a b n r) (hplain : plain b a)
    (hstop : r.eff = .stop) (hacc : r.acc = .rw ∨ (r.acc = .rwp ∧ pairOk v = true)) (hhalf : pair32Hi b (a % 256) = none)
    (hlock : unlocked m (a / 256) = true) (hidle : m.en (a / 256) = false)
    (henc : encOk m.sys.part b (a % 256) (kept m.sys.part b (a % 256) v) = true) (hwin : isWin b (a % 256) = false) :
    Turns2 (writeAt x a v) s (Module.settle (s.nv,
      (m.applyWrite a (kept m.sys.part b (a % 256) v)).wroteHook b (a / 256) n (a % 256) (m.key a))) := by
  obtain ⟨hopen, hdenied, hbrown, hauto⟩ := (serves_iff m x b).1 hserves
  have hkind : r.acc = .rw ∨ r.acc = .rwp := hacc.imp id And.left
  have hpair : r.acc = .rwp → pairOk v = true := fun h => (hacc.resolve_left (by rw [h]; decide)).2
  have hkept := kept_of_row (part := m.sys.part) v (regAt_blk hrow.2.2).2
  rw [hkept] at henc ⊢
  have hwrite := write_reg (t := Txn.single s.nv m x a v false) v (plainOffset_of_plain hrow hplain) hrow.2.2 hkind
    ⟨rfl, hauto⟩
  rw [rkey_div_mod] at hwrite
  have hreg := regWrite_stop (t := Txn.single s.nv m x a v false) hrow hplain hstop hwin rfl (judge_accepts
    (fun _ => (unlocked_iff _ _).mp hlock) (fun _ => hidle) (fun h => by rw [pairFits_whole v hhalf, hpair h]) henc)
  refine hon.writeAt_turns hopen hdenied hrow false hbrown ?_
  rw [hwrite, hreg, finish_on _ (plain_accept _ _ ⟨rfl, rfl, rfl, rfl, rfl, rfl, rfl⟩), Module.reg, rkey_div_mod]
  rfl

/-- An accepted Stop field is in force at once (R84). -/
theorem applyWrite_stop (w : W32) (heff : effOf a = .stop) :
    (m.applyWrite a w).key a = w ∧ (m.applyWrite a w).liveKey a = w := by
  simp only [Module.applyWrite, heff, Module.key_force, Module.liveKey_force_same, and_true]
  exact Module.key_setKey_same m a w

end

end Sys2Proof.Machine

open Sys2Proof Sys2Proof.Machine

/-- Settles O11: EN 1 makes the judgement refuse the write with reason 1, EN 0 lets it pass. -/
theorem stopFieldNeedsStop : Obligations.StopFieldNeedsStop := by
  intro s m x a n b r v hon hserves hrow hplain hstop hacc hhalf hlock
  obtain ⟨hopen, hdenied, hbrown, hauto⟩ := (serves_iff m x b).1 hserves
  have hkind : r.acc = .rw ∨ r.acc = .rwp := hacc.imp id And.left
  have heff : effOf a = .stop := (effOf_row hrow).trans hstop
  have hpage : pageOfKey a ≠ pgRec := page_ne_of_blk hrow (n' := 0) (b' := .recd) (by decide)
    (stop_not_recd hrow hplain hstop)
  have hgood : ¬badPair b r a v := by
    rintro ⟨hrwp, hbad⟩
    obtain ⟨-, hok⟩ := hacc.resolve_left (by rw [hrwp]; decide)
    exact hbad.elim (fun h => by simp [hok] at h) (fun h => h hhalf)
  refine ⟨fun hen => ⟨?_, ?_, cfgRefused_liveKey x a 1 hpage, cfgRefused_last x a 1 m, cfgRefused_raised x a 1 m,
    fun k hk hlt => ?_, fun hdue hstart hroom => cfgRefused_next x a 1 hdue hstart hroom⟩, fun hen henc hwin => ⟨?_, ?_⟩⟩
  · exact (write_turns_refused hon hopen hdenied hrow hplain hkind ⟨rfl, hauto⟩ hbrown (why := 1)
      (judge_stop ((unlocked_iff _ _).mp hlock) hstop hen) (by decide) (by decide)).1 hgood
  · exact cfgRefused_key x a 1 (not_recKeys_of_page hpage) (ne_evtRaw_of_plain _ hplain)
      (ne_of_readOnly hrow hkind (n' := 0) (b' := .integ) (by decide) (by decide) (by decide))
      (ne_of_readOnly hrow hkind (n' := 0) (b' := .integ) (by decide) (by decide) (by decide))
  · rw [cfgRefused_quiet x a 1 hk hlt]
    exact ⟨rfl, hk⟩
  · exact stop_write_turns hon hserves hrow hplain hstop hacc hhalf hlock hen henc hwin
  · exact applyWrite_stop _ heff
end

section
/-! Counter blocks and faults: what a counted fault does (O40), the buckets of a window (O41), what a fault leaves alone
(O13), and a frame that fails (O39). -/

namespace Sys2Proof.Machine

/-! ### Counter blocks -/

/-- The counter block of a source. -/
def Ctr.isOf (p b sub : Nat) (c : Ctr) : Bool := c.page = p && c.fbit = b && c.sub = sub

theorem Ctr.isOf_iff {p b sub : Nat} {c : Ctr} : c.isOf p b sub = true ↔ c.page = p ∧ c.fbit = b ∧ c.sub = sub := by
  simp [Ctr.isOf, and_assoc]

/-- A counter block that has counted nothing. -/
def Ctr.empty (p b sub win : Nat) : Ctr := ⟨p, b, sub, win, rep 8 0, none, 9⟩

theorem ctr_eq (m : Module) (p b sub win : Nat) :
    m.ctr p b sub win = (m.ctrs.find? (Ctr.isOf p b sub)).getD (Ctr.empty p b sub win) := by
  show (match m.ctrs.find? (Ctr.isOf p b sub) with
    | some c => c
    | none => Ctr.empty p b sub win) = _
  cases m.ctrs.find? (Ctr.isOf p b sub) <;> rfl

/-- Counter blocks are what `ctrs` holds. -/
theorem ctr_congr {m m' : Module} (h : m'.ctrs = m.ctrs) (p b sub win : Nat) : m'.ctr p b sub win = m.ctr p b sub win := by
  rw [ctr_eq, ctr_eq, h]

theorem ctr_isOf (m : Module) (p b sub win : Nat) : (m.ctr p b sub win).isOf p b sub = true := by
  rw [ctr_eq]
  cases h : m.ctrs.find? (Ctr.isOf p b sub) with
  | none => simp [Ctr.isOf, Ctr.empty]
  | some c => exact List.find?_some h

/-- A list in which the blocks of one source are replaced, or to which the block is added. -/
theorem find_putCtr_same {l : List Ctr} {c : Ctr} {p b sub : Nat} (hc : c.isOf p b sub = true)
    (h : l.any (Ctr.isOf p b sub) = true) :
    (l.map (fun x => if x.isOf p b sub then c else x)).find? (Ctr.isOf p b sub) = some c := by
  induction l with
  | nil => simp at h
  | cons d l ih =>
    by_cases hd : d.isOf p b sub = true
    · simp [hd, hc]
    · have hl : l.any (Ctr.isOf p b sub) = true := by simpa [hd] using h
      simp [hd, ih hl]

theorem putCtr_eq (m : Module) {c : Ctr} {p b sub : Nat} (hc : c.isOf p b sub = true) :
    (m.putCtr c).ctrs = if m.ctrs.any (Ctr.isOf p b sub) then m.ctrs.map (fun x => if x.isOf p b sub then c else x)
      else m.ctrs ++ [c] := by
  obtain ⟨rfl, rfl, rfl⟩ := Ctr.isOf_iff.mp hc
  unfold Module.putCtr
  show (if m.ctrs.any (Ctr.isOf c.page c.fbit c.sub) then
    { m with ctrs := m.ctrs.map (fun x => if x.isOf c.page c.fbit c.sub then c else x) }
    else { m with ctrs := m.ctrs ++ [c] } : Module).ctrs = _
  split <;> rfl

/-- The block that is put is the one that its source has. -/
theorem ctr_putCtr_same (m : Module) {c : Ctr} {p b sub : Nat} (win : Nat) (hc : c.isOf p b sub = true) :
    (m.putCtr c).ctr p b sub win = c := by
  rw [ctr_eq, putCtr_eq m hc]
  split
  next h => rw [find_putCtr_same hc h, Option.getD_some]
  next h =>
    have hnone : m.ctrs.find? (Ctr.isOf p b sub) = none := by
      rw [List.find?_eq_none]
      intro x hx hxc
      exact h (List.any_eq_true.mpr ⟨x, hx, hxc⟩)
    rw [List.find?_append, hnone, List.find?_cons, hc]
    rfl

section
variable (m : Module) (typ p b sub win : Nat) (mark : Bool)

theorem recFault_ctrs : (m.recFault typ p b sub mark).ctrs = m.ctrs := recMake_ctrs ..

/-- FLT_STAT is not a register of a record. -/
theorem fltStat_not_recKeys : rkey p FLT_STAT ∉ recKeys := by
  simp only [recKeys, List.mem_cons, List.not_mem_nil, or_false, rkey, FLT_STAT, REC_NEWEST_H, REC_NEWEST_L, REC_STAGE,
    EVT_RAW, REC_LOST_CNT]
  omega

theorem recFault_key {k : Nat} (h : k ∉ recKeys) : (m.recFault typ p b sub mark).key k = m.key k := recMake_key _ _ _ _ _ _ h

theorem recFault_fltStat (q : Nat) : (m.recFault typ p b sub mark).reg q FLT_STAT = m.reg q FLT_STAT :=
  recFault_key m typ p b sub mark (fltStat_not_recKeys q)

/-- The kind of a fault: the type of its block, and its bit (R103). -/
def faultKind : Nat × Nat := ((match blkOf p with | some (k, _) => blkType k | none => 0), b)

/-- The module of a latched bit, before its record. -/
def Module.latchMarked : Module :=
  let x := (m.setReg p FLT_STAT (setBit (m.reg p FLT_STAT) b)).raise p EV_FAULT_LASTING
  if m.firstLasting (faultKind p b) then { x with rc := { x.rc with marks := x.rc.marks ++ [faultKind p b] } } else x

theorem latchBit_eq : m.latchBit p b sub
    = (m.latchMarked p b).recFault 0x0101 p b sub (m.firstLasting (faultKind p b)) := rfl

theorem latchMarked_ctrs : (m.latchMarked p b).ctrs = m.ctrs := by
  simp only [Module.latchMarked]
  split <;> rfl

theorem latchBit_ctrs : (m.latchBit p b sub).ctrs = m.ctrs := by
  rw [latchBit_eq, recFault_ctrs, latchMarked_ctrs]

theorem latchMarked_regs : (m.latchMarked p b).regs
    = ((m.setReg p FLT_STAT (setBit (m.reg p FLT_STAT) b)).raise p EV_FAULT_LASTING).regs := by
  simp only [Module.latchMarked]
  split <;> rfl

theorem latchMarked_rc : (m.latchMarked p b).rc.started = m.rc.started ∧ (m.latchMarked p b).rc.next = m.rc.next
    ∧ (m.latchMarked p b).staged = m.staged := by
  simp only [Module.latchMarked]
  split <;> exact ⟨rfl, rfl, rfl⟩

theorem latchBit_fltStat : (m.latchBit p b sub).reg p FLT_STAT = setBit (m.reg p FLT_STAT) b := by
  rw [latchBit_eq, recFault_fltStat, Module.reg, Module.key, latchMarked_regs, ← Module.key, ← Module.reg,
    Module.reg_raise_other _ _ _ _ _ (by simp only [rkey, FLT_STAT, EVT_RAW]; omega), Module.reg_setReg_same]

theorem latchBit_raised : bit ((m.latchBit p b sub).reg p EVT_RAW) EV_FAULT_LASTING = true := by
  rw [latchBit_eq]
  refine recMake_raised _ _ _ _ _ _ _ ?_
  rw [Module.reg, Module.key, latchMarked_regs, ← Module.key, ← Module.reg]
  exact Module.raise_bit _ _ _ (by decide)

theorem latchBit_next (hstart : m.rc.started = true) (hroom : m.staged < 960) :
    (m.latchBit p b sub).rc.next = m.rc.next + 1 := by
  obtain ⟨hrun, hnum, hstage⟩ := latchMarked_rc m p b
  rw [latchBit_eq, Module.recFault, recMake_next _ _ _ _ _ _ _ (hrun.trans hstart) (hstage ▸ hroom), hnum]

/-! ### A counted fault (R102, R103) -/

/-- The counter block with another fault. -/
def Module.counter : Ctr := { m.ctr p b sub win with buckets := counted m p b sub win, quiet := 0 }

theorem counter_isOf : (m.counter p b sub win).isOf p b sub = true := ctr_isOf m p b sub win

theorem putCtr_regs (c : Ctr) : (m.putCtr c).regs = m.regs := by
  unfold Module.putCtr
  split <;> rfl

theorem putCtr_rc (c : Ctr) : (m.putCtr c).rc = m.rc := by
  unfold Module.putCtr
  split <;> rfl

theorem putCtr_latched (c : Ctr) : (m.putCtr c).latched p b = m.latched p b := by
  simp only [Module.latched, Module.reg, Module.key, putCtr_regs]

/-- Below the threshold, with no record to remember. -/
theorem countFault_recorded (hlt : sumN (counted m p b sub win) < m.winThr win)
    (hdue : Module.recDue (m.ctr p b sub win) = true) : m.countFault p b sub win
      = ((m.putCtr { m.counter p b sub win with since := some 0 }).recFault 0x0100 p b sub false, false) := by
  unfold counted at hlt
  have hdue' : Module.recDue { m.ctr p b sub win with
    buckets := upd (m.ctr p b sub win).buckets 0 (satAdd 8 1), quiet := 0 } = true := hdue
  simp only [Module.countFault, if_pos hlt, hdue', if_true, Module.counter, counted]

theorem countFault_silent (hlt : sumN (counted m p b sub win) < m.winThr win)
    (hdue : Module.recDue (m.ctr p b sub win) = false) :
    m.countFault p b sub win = (m.putCtr (m.counter p b sub win), false) := by
  unfold counted at hlt
  have hdue' : Module.recDue { m.ctr p b sub win with
    buckets := upd (m.ctr p b sub win).buckets 0 (satAdd 8 1), quiet := 0 } = false := hdue
  simp only [Module.countFault, if_pos hlt, hdue', Bool.false_eq_true, if_false, Module.counter, counted]

theorem countFault_lasting (hge : m.winThr win ≤ sumN (counted m p b sub win)) (hfree : m.latched p b = false) :
    m.countFault p b sub win = ((m.putCtr (m.counter p b sub win)).latchBit p b sub, true) := by
  unfold counted at hge
  have hlatch := putCtr_latched m p b (m.counter p b sub win)
  rw [hfree] at hlatch
  unfold Module.counter counted at hlatch
  simp only [Module.countFault, if_neg (not_lt.mpr hge), hlatch, Bool.false_eq_true, if_false, Module.counter, counted]

theorem countFault_again (hge : m.winThr win ≤ sumN (counted m p b sub win)) (hset : m.latched p b = true) :
    m.countFault p b sub win = (m.putCtr (m.counter p b sub win), false) := by
  unfold counted at hge
  have hlatch := putCtr_latched m p b (m.counter p b sub win)
  rw [hset] at hlatch
  unfold Module.counter counted at hlatch
  simp only [Module.countFault, if_neg (not_lt.mpr hge), hlatch, if_true, Module.counter, counted]

/-- A fault is only counted, or recorded as transient, or latched. -/
theorem countFault_cases : m.countFault p b sub win = (m.putCtr (m.counter p b sub win), false)
    ∨ m.countFault p b sub win
      = ((m.putCtr { m.counter p b sub win with since := some 0 }).recFault 0x0100 p b sub false, false)
    ∨ m.countFault p b sub win = ((m.putCtr (m.counter p b sub win)).latchBit p b sub, true) := by
  by_cases hlt : sumN (counted m p b sub win) < m.winThr win
  · cases hdue : Module.recDue (m.ctr p b sub win)
    · exact Or.inl (countFault_silent m p b sub win hlt hdue)
    · exact Or.inr (Or.inl (countFault_recorded m p b sub win hlt hdue))
  · cases hset : m.latched p b
    · exact Or.inr (Or.inr (countFault_lasting m p b sub win (not_lt.mp hlt) hset))
    · exact Or.inl (countFault_again m p b sub win (not_lt.mp hlt) hset)

/-- The block of the source holds the fault. -/
theorem countFault_buckets : ((m.countFault p b sub win).1.ctr p b sub win).buckets = counted m p b sub win := by
  have hput : ∀ c : Ctr, c.isOf p b sub = true → (m.putCtr c).ctr p b sub win = c := fun c => ctr_putCtr_same m win
  have hof := counter_isOf m p b sub win
  rcases countFault_cases m p b sub win with h | h | h <;> rw [h]
  · rw [hput _ hof]
    rfl
  · rw [ctr_congr (recFault_ctrs ..), hput { m.counter p b sub win with since := some 0 } hof]
    rfl
  · rw [ctr_congr (latchBit_ctrs ..), hput _ hof]
    rfl

end

theorem recDue_iff (c : Ctr) : Module.recDue c = true ↔ c.since = none ∨ ∃ k, c.since = some k ∧ 9 ≤ k := by
  unfold Module.recDue
  split
  next h => simp [h]
  next n h => simp [h]

/-! ### The buckets of a window (R102, R104) -/

/-- A change of counter blocks that keeps their sources keeps which one a source has. -/
theorem find_map_isOf {l : List Ctr} {f : Ctr → Ctr} (p b sub : Nat) (hf : ∀ c, (f c).isOf p b sub = c.isOf p b sub) :
    (l.map f).find? (Ctr.isOf p b sub) = (l.find? (Ctr.isOf p b sub)).map f := by
  induction l with
  | nil => rfl
  | cons c l ih =>
    rw [List.map_cons, List.find?_cons, List.find?_cons, hf]
    cases c.isOf p b sub
    · exact ih
    · rfl

/-- A counter block at a boundary of a window. -/
def Ctr.turned (win : Nat) (fresh : Bool) (c : Ctr) : Ctr := if c.win = win then ctrShift fresh c else c

theorem Ctr.turned_isOf (win : Nat) (fresh : Bool) (c : Ctr) (p b sub : Nat) :
    (c.turned win fresh).isOf p b sub = c.isOf p b sub := by
  unfold Ctr.turned
  split <;> rfl

/-- What a boundary of a window does to the counter blocks. -/
theorem bucketEnd_ctrs {m : Module} {win : Nat}
    (h : win ≠ rkey pgSched FLT_WIN ∨ bit (m.reg pgSched CTRL) 8 = false) :
    (m.bucketEnd win).ctrs = m.ctrs.map (Ctr.turned win (m.winWait.find? (fun kv => kv.1 = win)).isSome) := by
  have hauto : ∀ x : Module, x.regs = m.regs → win = rkey pgSched FLT_WIN → x.autoRelease = x := by
    intro x hregs hwin
    have hoff : bit (x.reg pgSched CTRL) 8 = false := by
      rw [Module.reg, Module.key, hregs]
      exact h.resolve_left (not_not.mpr hwin)
    simp only [Module.autoRelease, hoff, Bool.false_eq_true, if_false]
  unfold Module.bucketEnd
  extract_lets wait m1 m2 m3
  have h2 : m2.ctrs = m1.ctrs ∧ m2.regs = m1.regs := by
    simp only [m2]
    generalize wait = w
    cases w <;> exact ⟨rfl, rfl⟩
  have h3 : m3.ctrs = m2.ctrs ∧ m3.regs = m2.regs := by
    simp only [m3]
    split <;> exact ⟨rfl, rfl⟩
  obtain ⟨hctrs, hregs⟩ : m3.ctrs = m1.ctrs ∧ m3.regs = m.regs := ⟨h3.1.trans h2.1, h3.2.trans h2.2⟩
  split
  next hwin =>
    split
    · rw [hauto _ (by exact hregs) hwin]
      exact hctrs
    · rw [hauto _ hregs hwin]
      exact hctrs
  next => exact hctrs

theorem bucketShift_eq (bs : List Nat) : bucketShift bs = (0 :: bs).take 8 := rfl

/-- What a boundary of a window leaves of the block of a source. -/
theorem ctr_bucketEnd {m : Module} {win : Nat}
    (h : win ≠ rkey pgSched FLT_WIN ∨ bit (m.reg pgSched CTRL) 8 = false) (p b sub w : Nat) :
    ((m.ctr p b sub w).win = win → ((m.bucketEnd win).ctr p b sub w).buckets =
        if m.winWait.any (fun kv => kv.1 = win) then rep 8 0 else (0 :: (m.ctr p b sub w).buckets).take 8)
      ∧ ((m.ctr p b sub w).win ≠ win → (m.bucketEnd win).ctr p b sub w = m.ctr p b sub w) := by
  have hany : m.winWait.any (fun kv => kv.1 = win) = (m.winWait.find? (fun kv => kv.1 = win)).isSome := by
    rw [Bool.eq_iff_iff, List.any_eq_true, List.find?_isSome]
  rw [ctr_eq, ctr_eq, bucketEnd_ctrs h, find_map_isOf p b sub fun c => c.turned_isOf win _ p b sub, hany]
  cases m.ctrs.find? (Ctr.isOf p b sub) with
  | none => refine ⟨fun _ => ?_, fun _ => rfl⟩
            cases (m.winWait.find? fun kv => kv.1 = win).isSome <;> rfl
  | some c =>
    refine ⟨fun hwin => ?_, fun hwin => ?_⟩
    · have hc : c.win = win := hwin
      simp only [Option.map_some, Option.getD_some, Ctr.turned, if_pos hc, ctrShift, bucketShift]
    · have hc : ¬ c.win = win := hwin
      simp only [Option.map_some, Option.getD_some, Ctr.turned, if_neg hc]

/-! ### What a fault leaves alone -/

section
variable {m : Module} {k : Nat} (p b sub win : Nat)

theorem putCtr_key (c : Ctr) : (m.putCtr c).key k = m.key k := by rw [Module.key, putCtr_regs, Module.key]

theorem putCtr_liveKey (c : Ctr) : (m.putCtr c).liveKey k = m.liveKey k := by
  unfold Module.putCtr
  split <;> rfl

theorem recFault_liveKey (typ : Nat) (mark : Bool) (h : pageOfKey k ≠ pgRec) :
    (m.recFault typ p b sub mark).liveKey k = m.liveKey k := recMake_liveKey _ _ _ _ _ _ h

theorem latchBit_key (hrec : k ∉ recKeys) (hflt : k ≠ rkey p FLT_STAT) (hevt : k ≠ rkey p EVT_RAW) :
    (m.latchBit p b sub).key k = m.key k := by
  rw [latchBit_eq, recFault_key _ _ _ _ _ _ hrec, Module.key, latchMarked_regs, ← Module.key, Module.raise,
    key_setReg_other hevt, key_setReg_other hflt]

theorem latchBit_liveKey (h : pageOfKey k ≠ pgRec) : (m.latchBit p b sub).liveKey k = m.liveKey k := by
  rw [latchBit_eq, recFault_liveKey _ _ _ _ _ h]
  simp only [Module.latchMarked]
  split <;> rfl

theorem countFault_key (hrec : k ∉ recKeys) (hflt : k ≠ rkey p FLT_STAT) (hevt : k ≠ rkey p EVT_RAW) :
    (m.countFault p b sub win).1.key k = m.key k := by
  rcases countFault_cases m p b sub win with h | h | h <;> rw [h]
  · exact putCtr_key _
  · exact (recFault_key _ _ _ _ _ _ hrec).trans (putCtr_key _)
  · exact (latchBit_key p b sub hrec hflt hevt).trans (putCtr_key _)

theorem countFault_liveKey (h : pageOfKey k ≠ pgRec) : (m.countFault p b sub win).1.liveKey k = m.liveKey k := by
  rcases countFault_cases m p b sub win with hc | hc | hc <;> rw [hc]
  · exact putCtr_liveKey _
  · exact (recFault_liveKey _ _ _ _ _ h).trans (putCtr_liveKey _)
  · exact (latchBit_liveKey p b sub h).trans (putCtr_liveKey _)

/-- The registers that report a mismatch of a pair of page `p` (R95). -/
def missKeys (p : Nat) : List Nat := [rkey p EVT_RAW, rkey p FLT_STAT, rkey pgInteg INTEG_PAIR_ERR,
  rkey pgInteg INTEG_PAIR_LAST, tkey pgInteg 0 p]

/-- What a mismatch reports before it is counted (R95). -/
def Module.missMarked (m : Module) (off : Nat) : Module :=
  let m := ((m.raise p EV_PAIR_USE).count pgInteg ⟨INTEG_PAIR_ERR, 0, 16⟩ 1).setReg pgInteg INTEG_PAIR_LAST
    (BitVec.ofNat 32 (0xF1000000 + p * 256 + off))
  m.setTbl pgInteg 0 p (setBits (setBits (m.tbl pgInteg 0 p) 16 16 (satAdd 16 (bits (m.tbl pgInteg 0 p) 16 16) 1)) 0 8 off)

theorem pairMiss_eq (m : Module) (off : Nat) :
    m.pairMiss p off = (m.missMarked p off).countFault p FLT_PAIR 0 (rkey pgInteg INTEG_PAIR_WIN) := rfl

theorem pairMiss_key (off : Nat) (hrec : k ∉ recKeys) (hmiss : k ∉ missKeys p) :
    (m.pairMiss p off).1.key k = m.key k := by
  simp only [missKeys, List.mem_cons, List.not_mem_nil, or_false, not_or] at hmiss
  obtain ⟨hevt, hflt, herr, hlast, htbl⟩ := hmiss
  rw [pairMiss_eq, countFault_key _ _ _ _ hrec hflt hevt, Module.missMarked,
    Module.setTbl, Module.key_setKey_other _ _ _ _ htbl, key_setReg_other hlast, Module.count,
    key_put_other herr, Module.raise, key_setReg_other hevt]

theorem pairMiss_liveKey (off : Nat) (h : pageOfKey k ≠ pgRec) : (m.pairMiss p off).1.liveKey k = m.liveKey k := by
  rw [pairMiss_eq, countFault_liveKey _ _ _ _ h]
  rfl

theorem passed_key (j : Nat) : (m.passed j).key k = m.key k := by
  unfold Module.passed
  split <;> rfl

theorem passed_liveKey (j : Nat) : (m.passed j).liveKey k = m.liveKey k := by
  unfold Module.passed
  split <;> rfl

theorem pairUse_key (off : Nat) (hrec : k ∉ recKeys) (hinteg : k ∉ missKeys pgInteg) (hmiss : k ∉ missKeys p) :
    (m.pairUse p off).1.key k = m.key k := by
  simp only [Module.pairUse]
  rw [pairMiss_key _ _ hrec hmiss]
  split
  · exact passed_key _
  · exact pairMiss_key _ _ hrec hinteg

theorem pairUse_liveKey (off : Nat) (h : pageOfKey k ≠ pgRec) : (m.pairUse p off).1.liveKey k = m.liveKey k := by
  simp only [Module.pairUse]
  rw [pairMiss_liveKey _ _ h]
  split
  · exact passed_liveKey _
  · exact pairMiss_liveKey _ _ h

theorem usePair_key (off : Nat) (hrec : k ∉ recKeys) (hinteg : k ∉ missKeys pgInteg) (hmiss : k ∉ missKeys p) :
    (m.usePair p off).key k = m.key k := by
  simp only [Module.usePair, Module.useKey]
  split
  · exact passed_key _
  · exact pairUse_key _ _ hrec hinteg hmiss

theorem usePair_liveKey (off : Nat) (h : pageOfKey k ≠ pgRec) : (m.usePair p off).liveKey k = m.liveKey k := by
  simp only [Module.usePair, Module.useKey]
  split
  · exact passed_liveKey _
  · exact pairUse_liveKey _ _ h

theorem not_missKeys_of_page (h : pageOfKey k ≠ pgInteg) : k ∉ missKeys pgInteg := by
  rintro hk
  refine h ?_
  simp only [missKeys, List.mem_cons, List.not_mem_nil, or_false] at hk
  rcases hk with rfl | rfl | rfl | rfl | rfl <;> decide

end

/-- A refused pair changes registers of INTEG and of the recorder, and EVT_RAW of the page. -/
theorem pairRefused_key {m : Module} {x a k : Nat} (hrec : pageOfKey k ≠ pgRec) (hinteg : pageOfKey k ≠ pgInteg)
    (hevt : k ≠ rkey (a / 256) EVT_RAW) : (m.pairRefused x a).key k = m.key k := by
  have hmiss := not_missKeys_of_page hinteg
  have hwin : rkey pgInteg FLT_WIN / 256 = pgInteg := by decide
  have hkeys := not_recKeys_of_page hrec
  have hne : ∀ off, off < 256 → k ≠ rkey pgInteg off := by
    rintro off hoff rfl
    exact hinteg (pageOfKey_rkey (by decide) hoff)
  simp only [Module.pairRefused, Module.fault, hwin]
  rw [countFault_key _ _ _ _ hkeys (hne _ (by decide)) (hne _ (by decide)), usePair_key _ _ hkeys hmiss hmiss,
    key_setReg_other (hne _ (by decide)), Module.count, key_put_other (hne _ (by decide)), Module.raise,
    key_setReg_other hevt]

theorem pairRefused_liveKey {m : Module} {x a k : Nat} (hrec : pageOfKey k ≠ pgRec) :
    (m.pairRefused x a).liveKey k = m.liveKey k := by
  simp only [Module.pairRefused, Module.fault]
  rw [countFault_liveKey _ _ _ _ hrec, usePair_liveKey _ _ hrec]
  rfl

/-- Critical 32-bit values stand in CAP and GROVE alone (R91). -/
theorem pair32Hi_blk {b : Blk} {off : Nat} (h : (pair32Hi b off).isSome = true) : b = .cap ∨ b = .grove := by
  cases b <;> simp_all [pair32Hi]

end Sys2Proof.Machine

open Sys2Proof Sys2Proof.Machine

/-- Settles O40, by what a counted fault comes to. -/
theorem faultThreshold : Obligations.FaultThreshold := by
  intro m p b sub win _
  have hput : ∀ c, (m.putCtr c).reg p FLT_STAT = m.reg p FLT_STAT := fun c => by
    simp only [Module.reg, Module.key, putCtr_regs]
  have hstaged : ∀ c, (m.putCtr c).staged = m.staged := fun c => by rw [Module.staged, putCtr_rc, Module.staged]
  refine ⟨rfl, fun hok => ?_, countFault_buckets m p b sub win, fun hlt => ?_, fun hge hfree => ?_, fun hge hset => ?_⟩
  · simp only [Module.usePair, rkey_div_mod, Module.useKey, hok, if_true]
  · cases hdue : Module.recDue (m.ctr p b sub win)
    case false =>
      rw [countFault_silent m p b sub win hlt hdue]
      refine ⟨rfl, hput _, fun _ _ _ => putCtr_rc m _, fun h => ?_⟩
      rw [(recDue_iff _).mpr h] at hdue
      cases hdue
    case true =>
      rw [countFault_recorded m p b sub win hlt hdue]
      refine ⟨rfl, (recFault_fltStat ..).trans (hput _), fun k hk hlt9 => ?_, fun _ => ⟨?_, fun hstart hroom => ?_⟩⟩
      · obtain h | ⟨k', h, hge⟩ := (recDue_iff _).mp hdue <;> rw [hk] at h <;> cases h
        omega
      · rw [ctr_congr (recFault_ctrs ..), ctr_putCtr_same m win (c := { m.counter p b sub win with since := some 0 })
          (counter_isOf m p b sub win)]
      · refine (recMake_next _ _ _ _ _ _ _ ?_ ?_).trans (by rw [putCtr_rc])
        · rw [putCtr_rc, hstart]
        · rw [hstaged]
          exact hroom
  · rw [countFault_lasting m p b sub win hge hfree]
    refine ⟨rfl, (latchBit_fltStat ..).trans (by rw [hput]), latchBit_raised .., fun hstart hroom => ?_⟩
    rw [latchBit_next _ _ _ _ (by rw [putCtr_rc, hstart]) (by rw [hstaged]; exact hroom), putCtr_rc]
  · rw [countFault_again m p b sub win hge hset]
    exact ⟨rfl, hput _, putCtr_rc m _⟩

/-- Settles O41: what is counted, what a boundary shifts, and eight shifts of eight buckets. -/
theorem windowOfEightBuckets : Obligations.WindowOfEightBuckets := by
  refine ⟨fun m p b sub win hlen => ⟨?_, fun i hi => ?_⟩, fun s m win hon hauto => ?_, fun bs hlen => ?_⟩
  · have hpos : 0 < (m.ctr p b sub win).buckets.length := by omega
    simp [counted, upd, nth, List.getD_eq_getElem?_getD, hpos, satAdd]
    omega
  · simp [counted, upd, nth, List.getD_eq_getElem?_getD, Ne.symm hi]
  · exact ⟨m.bucketEnd win, hon.turns_live (fun m => m.bucketEnd win) rfl rfl, ctr_bucketEnd hauto⟩
  · obtain ⟨b0, b1, b2, b3, b4, b5, b6, b7, rfl⟩ : ∃ b0 b1 b2 b3 b4 b5 b6 b7, bs = [b0, b1, b2, b3, b4, b5, b6, b7] := by
      match bs, hlen with
      | [b0, b1, b2, b3, b4, b5, b6, b7], _ => exact ⟨b0, b1, b2, b3, b4, b5, b6, b7, rfl⟩
    refine ⟨fun k hk => ?_, rfl⟩
    interval_cases k <;> rfl

/-- Settles O13: the pair rule asks for the other half in the same transaction. -/
theorem halfOfA32BitValueIsRefused : Obligations.HalfOfA32BitValueIsRefused := by
  intro s m x a n b r v hon hserves hrow hplain hrwp hhalf hlock
  obtain ⟨hopen, hdenied, hbrown, hauto⟩ := (serves_iff m x b).1 hserves
  have hacc : r.acc = .rw ∨ r.acc = .rwp := Or.inr hrwp
  have hbad : badPair b r a v := ⟨hrwp, Or.inr fun hnone => by simp [hnone] at hhalf⟩
  have hblk := pair32Hi_blk hhalf
  have hrec : pageOfKey a ≠ pgRec := page_ne_of_blk hrow (n' := 0) (b' := .recd) (by decide)
    (by rcases hblk with rfl | rfl <;> decide)
  have hinteg : pageOfKey a ≠ pgInteg := page_ne_of_blk hrow (n' := 0) (b' := .integ) (by decide)
    (by rcases hblk with rfl | rfl <;> decide)
  have hne : ∀ off, off < 256 → a ≠ rkey pgInteg off := by
    rintro off hoff rfl
    exact hinteg (pageOfKey_rkey (by decide) hoff)
  have hevt := ne_evtRaw_of_plain (a / 256) hplain
  dsimp only
  split
  next hrun =>
    refine ⟨?_, ?_, (pairRefused_liveKey hrec).trans (cfgRefused_liveKey x a 1 hrec)⟩
    · exact (write_turns_refused hon hopen hdenied hrow hplain hacc ⟨rfl, hauto⟩ hbrown (why := 1)
        (judge_stop ((unlocked_iff _ _).mp hlock) hrun.1 hrun.2) (by decide) (by decide)).2 hbad
    · exact (pairRefused_key hrec hinteg hevt).trans (cfgRefused_key x a 1 (not_recKeys_of_page hrec) hevt
        (hne _ (by decide)) (hne _ (by decide)))
  next hidle =>
    obtain ⟨-, hpair⟩ := (badPair_iff (m := m) (x := x) s.nv false).mp hbad
    refine ⟨?_, pairRefused_key hrec hinteg hevt, pairRefused_liveKey hrec⟩
    refine write_turns_judged hon hopen hdenied hrow hplain hacc ⟨rfl, hauto⟩ hbrown
      (judge_pair ((unlocked_iff _ _).mp hlock) hidle hrwp hpair) (by decide) ?_
    rw [turnDown_pair, finish_refusePair]
end

section
/-! A fault whose window and whose mismatch window are both bad pairs (O39). -/

namespace Sys2Proof.Machine

/-- A module in which the pairs in force of SCHED.FLT_WIN and of INTEG.PAIR_WIN fail their check. -/
def badWindows : Module := { live := [(rkey pgInteg INTEG_PAIR_WIN, 0), (rkey pgSched FLT_WIN, 0)] }

/-- The counting of the mismatch of SCHED.FLT_WIN checks PAIR_WIN too, and reports it on the page of INTEG (R94). -/
theorem badWindows_reportInteg : (badWindows.fault pgSched 0 0 (rkey pgSched FLT_WIN)).1.key (rkey pgInteg EVT_RAW)
    ≠ badWindows.key (rkey pgInteg EVT_RAW) := by decide

end Sys2Proof.Machine

open Sys2Proof Sys2Proof.Machine

/-- Refutes O39: where PAIR_WIN fails its check beside the pair of the fault's window, EVT_RAW of INTEG changes too. -/
theorem not_frameOfReports : ¬ Obligations.FrameOfReports := by
  rintro ⟨-, hfault, -⟩
  obtain ⟨-, -, hkeys, -⟩ := hfault badWindows pgSched 0 0 (rkey pgSched FLT_WIN)
  exact badWindows_reportInteg (hkeys (rkey pgInteg EVT_RAW) (by decide) (by decide) (by decide) (fun _ => by decide))
end

section
/-! Footprints: the parts of the module that an operation may change, and how the footprints of operations compose. Each
frame rests on one rule per operation of the model, in the order of the definitions. -/

namespace Sys2Proof.Machine

/-- The parts of a module. Of lists with one entry for each unit the length is a part of its own, and of the tasks
whether one has yet to enter its fallback (R118). -/
inductive Part where
  | sys | lc | clk | nfree | regs | live | good | snap | pend | unc | ovr | defer | winWait | ctrs | cfgRec | sel
  | idx | latch | rc | out | sched | falls | ph | phLen | rl | rlLen | adc | cle | tr | trLen | ep | cp | gr | xg
  | fd | fdLen | sq | pin | bt | btLen | th | net | bn | pt | twtPtr | twc | mem | rings | hw | up
  deriving DecidableEq

/-- Two modules agree on a part. -/
def Part.Same (a b : Module) : Part → Prop
  | .sys => b.sys = a.sys
  | .lc => b.lc = a.lc
  | .clk => b.clk = a.clk
  | .nfree => b.nfree = a.nfree
  | .regs => b.regs = a.regs
  | .live => b.live = a.live
  | .good => b.good = a.good
  | .snap => b.snap = a.snap
  | .pend => b.pend = a.pend
  | .unc => b.unc = a.unc
  | .ovr => b.ovr = a.ovr
  | .defer => b.defer = a.defer
  | .winWait => b.winWait = a.winWait
  | .ctrs => b.ctrs = a.ctrs
  | .cfgRec => b.cfgRec = a.cfgRec
  | .sel => b.sel = a.sel
  | .idx => b.idx = a.idx
  | .latch => b.latch = a.latch
  | .rc => b.rc = a.rc
  | .out => b.out = a.out
  | .sched => b.sched = a.sched
  | .falls => b.sched.tasks.map Task.fallDue = a.sched.tasks.map Task.fallDue
  | .ph => b.ph = a.ph
  | .phLen => b.ph.length = a.ph.length
  | .rl => b.rl = a.rl
  | .rlLen => b.rl.length = a.rl.length
  | .adc => b.adc = a.adc
  | .cle => b.cle = a.cle
  | .tr => b.tr = a.tr
  | .trLen => b.tr.length = a.tr.length
  | .ep => b.ep = a.ep
  | .cp => b.cp = a.cp
  | .gr => b.gr = a.gr
  | .xg => b.xg = a.xg
  | .fd => b.fd = a.fd
  | .fdLen => b.fd.length = a.fd.length
  | .sq => b.sq = a.sq
  | .pin => b.pin = a.pin
  | .bt => b.bt = a.bt
  | .btLen => b.bt.length = a.bt.length
  | .th => b.th = a.th
  | .net => b.net = a.net
  | .bn => b.bn = a.bn
  | .pt => b.pt = a.pt
  | .twtPtr => b.twtPtr = a.twtPtr
  | .twc => b.twc = a.twc
  | .mem => b.mem = a.mem
  | .rings => b.rings = a.rings
  | .hw => b.hw = a.hw
  | .up => b.up = a.up

/-- Nothing of a module but the parts of `S` differs. -/
def Only (S : List Part) (a b : Module) : Prop := ∀ q, q ∉ S → q.Same a b

theorem Part.Same.refl (a : Module) (q : Part) : q.Same a a := by cases q <;> rfl

theorem Part.Same.trans {a b c : Module} {q : Part} (h : q.Same a b) (h' : q.Same b c) : q.Same a c := by
  cases q <;> exact Eq.trans h' h

theorem Part.Same.symm {a b : Module} {q : Part} (h : q.Same a b) : q.Same b a := by
  cases q <;> exact Eq.symm h

theorem only_self (S : List Part) (a : Module) : Only S a a ↔ True := iff_true_intro fun q _ => .refl a q

/-- What an operation may change does not count where it is among the parts that may differ. -/
theorem Only.step {R S : List Part} {a b c : Module} (hsub : R ⊆ S) (h : Only R b c) : Only S a c ↔ Only S a b :=
  ⟨fun hac q hq => (hac q hq).trans (h q fun hr => hq (hsub hr)).symm,
   fun hab q hq => (hab q hq).trans (h q fun hr => hq (hsub hr))⟩

theorem only_ite {S : List Part} {a b c : Module} {p : Prop} [Decidable p] :
    Only S a (if p then b else c) ↔ if p then Only S a b else Only S a c := by split <;> rfl

theorem only_foldl {S : List Part} {α : Type} {a b : Module} {f : Module → α → Module} {l : List α}
    (h : ∀ m x, Only S m (f m x)) : Only S a (l.foldl f b) ↔ Only S a b := by
  induction l generalizing b with
  | nil => rfl
  | cons x l ih =>
    rw [List.foldl_cons, ih]
    exact Only.step (List.Subset.refl S) (h b x)

theorem Only.refl (S : List Part) (a : Module) : Only S a a := fun q _ => .refl a q

theorem only_foldl_pair {S : List Part} {α β : Type} {a : Module} {b : β × Module} {f : β × Module → α → β × Module}
    {l : List α} (h : ∀ s x, Only S s.2 (f s x).2) : Only S a (l.foldl f b).2 ↔ Only S a b.2 := by
  induction l generalizing b with
  | nil => rfl
  | cons x l ih =>
    rw [List.foldl_cons, ih]
    exact Only.step (List.Subset.refl S) (h b x)

theorem only_foldl_txn {S : List Part} {α : Type} {a : Module} {t : Txn} {f : Txn → α → Txn} {l : List α}
    (h : ∀ t x, Only S t.m (f t x).m) : Only S a (l.foldl f t).m ↔ Only S a t.m := by
  induction l generalizing t with
  | nil => rfl
  | cons x l ih =>
    rw [List.foldl_cons, ih]
    exact Only.step (List.Subset.refl S) (h t x)

theorem Txn.on_only {S : List Part} {a : Module} {t : Txn} {f : Module → Module} :
    Only S a (t.on f).m ↔ Only S a (f t.m) := Iff.rfl

theorem Txn.ite_only {S : List Part} {a : Module} {p : Prop} [Decidable p] {t u : Txn} :
    Only S a (if p then t else u).m ↔ if p then Only S a t.m else Only S a u.m := by split <;> rfl

/-! ### The parts themselves -/

section
variable {S : List Part} {old m : Module}

theorem with_sys_only {x : SysSt} (h : [.sys] ⊆ S) : Only S old { m with sys := x } ↔ Only S old m :=
  Only.step h fun q hq => by cases q <;> simp_all [Part.Same]

theorem with_lc_only {x : LifeSt} (h : [.lc] ⊆ S) : Only S old { m with lc := x } ↔ Only S old m :=
  Only.step h fun q hq => by cases q <;> simp_all [Part.Same]

theorem with_clk_only {x : ClkSt} (h : [.clk] ⊆ S) : Only S old { m with clk := x } ↔ Only S old m :=
  Only.step h fun q hq => by cases q <;> simp_all [Part.Same]

theorem with_nfree_only {x : Nat} (h : [.nfree] ⊆ S) : Only S old { m with nfree := x } ↔ Only S old m :=
  Only.step h fun q hq => by cases q <;> simp_all [Part.Same]

theorem with_regs_only {x : List (Nat × W32)} (h : [.regs] ⊆ S) : Only S old { m with regs := x } ↔ Only S old m :=
  Only.step h fun q hq => by cases q <;> simp_all [Part.Same]

theorem with_live_only {x : List (Nat × W32)} (h : [.live] ⊆ S) : Only S old { m with live := x } ↔ Only S old m :=
  Only.step h fun q hq => by cases q <;> simp_all [Part.Same]

theorem with_good_only {x : List (Nat × W32)} (h : [.good] ⊆ S) : Only S old { m with good := x } ↔ Only S old m :=
  Only.step h fun q hq => by cases q <;> simp_all [Part.Same]

theorem with_snap_only {x : List (Nat × W32)} (h : [.snap] ⊆ S) : Only S old { m with snap := x } ↔ Only S old m :=
  Only.step h fun q hq => by cases q <;> simp_all [Part.Same]

theorem with_pend_only {x : List Nat} (h : [.pend] ⊆ S) : Only S old { m with pend := x } ↔ Only S old m :=
  Only.step h fun q hq => by cases q <;> simp_all [Part.Same]

theorem with_unc_only {x : List Nat} (h : [.unc] ⊆ S) : Only S old { m with unc := x } ↔ Only S old m :=
  Only.step h fun q hq => by cases q <;> simp_all [Part.Same]

theorem with_ovr_only {x : List Nat} (h : [.ovr] ⊆ S) : Only S old { m with ovr := x } ↔ Only S old m :=
  Only.step h fun q hq => by cases q <;> simp_all [Part.Same]

theorem with_defer_only {x : List (Nat × W32)} (h : [.defer] ⊆ S) : Only S old { m with defer := x } ↔ Only S old m :=
  Only.step h fun q hq => by cases q <;> simp_all [Part.Same]

theorem with_winWait_only {x : List (Nat × W32)} (h : [.winWait] ⊆ S) : Only S old { m with winWait := x } ↔ Only S old m :=
  Only.step h fun q hq => by cases q <;> simp_all [Part.Same]

theorem with_ctrs_only {x : List Ctr} (h : [.ctrs] ⊆ S) : Only S old { m with ctrs := x } ↔ Only S old m :=
  Only.step h fun q hq => by cases q <;> simp_all [Part.Same]

theorem with_cfgRec_only {x : Option Nat} (h : [.cfgRec] ⊆ S) : Only S old { m with cfgRec := x } ↔ Only S old m :=
  Only.step h fun q hq => by cases q <;> simp_all [Part.Same]

theorem with_sel_only {x : List (Nat × Nat)} (h : [.sel] ⊆ S) : Only S old { m with sel := x } ↔ Only S old m :=
  Only.step h fun q hq => by cases q <;> simp_all [Part.Same]

theorem with_idx_only {x : List (Nat × Nat)} (h : [.idx] ⊆ S) : Only S old { m with idx := x } ↔ Only S old m :=
  Only.step h fun q hq => by cases q <;> simp_all [Part.Same]

theorem with_latch_only {x : List (Nat × W32)} (h : [.latch] ⊆ S) : Only S old { m with latch := x } ↔ Only S old m :=
  Only.step h fun q hq => by cases q <;> simp_all [Part.Same]

theorem with_rc_only {x : RecSt} (h : [.rc] ⊆ S) : Only S old { m with rc := x } ↔ Only S old m :=
  Only.step h fun q hq => by cases q <;> simp_all [Part.Same]

theorem with_out_only {x : Reply} (h : [.out] ⊆ S) : Only S old { m with out := x } ↔ Only S old m :=
  Only.step h fun q hq => by cases q <;> simp_all [Part.Same]

theorem with_adc_only {x : AdcSt} (h : [.adc] ⊆ S) : Only S old { m with adc := x } ↔ Only S old m :=
  Only.step h fun q hq => by cases q <;> simp_all [Part.Same]

theorem with_cle_only {x : CleSt} (h : [.cle] ⊆ S) : Only S old { m with cle := x } ↔ Only S old m :=
  Only.step h fun q hq => by cases q <;> simp_all [Part.Same]

theorem with_ep_only {x : Epe} (h : [.ep] ⊆ S) : Only S old { m with ep := x } ↔ Only S old m :=
  Only.step h fun q hq => by cases q <;> simp_all [Part.Same]

theorem with_cp_only {x : Cap} (h : [.cp] ⊆ S) : Only S old { m with cp := x } ↔ Only S old m :=
  Only.step h fun q hq => by cases q <;> simp_all [Part.Same]

theorem with_gr_only {x : Grove} (h : [.gr] ⊆ S) : Only S old { m with gr := x } ↔ Only S old m :=
  Only.step h fun q hq => by cases q <;> simp_all [Part.Same]

theorem with_xg_only {x : Xing} (h : [.xg] ⊆ S) : Only S old { m with xg := x } ↔ Only S old m :=
  Only.step h fun q hq => by cases q <;> simp_all [Part.Same]

theorem with_sq_only {x : Seq} (h : [.sq] ⊆ S) : Only S old { m with sq := x } ↔ Only S old m :=
  Only.step h fun q hq => by cases q <;> simp_all [Part.Same]

theorem with_pin_only {x : Pins} (h : [.pin] ⊆ S) : Only S old { m with pin := x } ↔ Only S old m :=
  Only.step h fun q hq => by cases q <;> simp_all [Part.Same]

theorem with_th_only {x : Therm} (h : [.th] ⊆ S) : Only S old { m with th := x } ↔ Only S old m :=
  Only.step h fun q hq => by cases q <;> simp_all [Part.Same]

theorem with_net_only {x : Net} (h : [.net] ⊆ S) : Only S old { m with net := x } ↔ Only S old m :=
  Only.step h fun q hq => by cases q <;> simp_all [Part.Same]

theorem with_bn_only {x : Benuf} (h : [.bn] ⊆ S) : Only S old { m with bn := x } ↔ Only S old m :=
  Only.step h fun q hq => by cases q <;> simp_all [Part.Same]

theorem with_pt_only {x : Ptp} (h : [.pt] ⊆ S) : Only S old { m with pt := x } ↔ Only S old m :=
  Only.step h fun q hq => by cases q <;> simp_all [Part.Same]

theorem with_twtPtr_only {x : Nat} (h : [.twtPtr] ⊆ S) : Only S old { m with twtPtr := x } ↔ Only S old m :=
  Only.step h fun q hq => by cases q <;> simp_all [Part.Same]

theorem with_twc_only {x : List Twc} (h : [.twc] ⊆ S) : Only S old { m with twc := x } ↔ Only S old m :=
  Only.step h fun q hq => by cases q <;> simp_all [Part.Same]

theorem with_mem_only {x : Mem} (h : [.mem] ⊆ S) : Only S old { m with mem := x } ↔ Only S old m :=
  Only.step h fun q hq => by cases q <;> simp_all [Part.Same]

theorem with_rings_only {x : List (Nat × W32)} (h : [.rings] ⊆ S) : Only S old { m with rings := x } ↔ Only S old m :=
  Only.step h fun q hq => by cases q <;> simp_all [Part.Same]

theorem with_hw_only {x : Heart} (h : [.hw] ⊆ S) : Only S old { m with hw := x } ↔ Only S old m :=
  Only.step h fun q hq => by cases q <;> simp_all [Part.Same]

theorem with_up_only {x : Upd} (h : [.up] ⊆ S) : Only S old { m with up := x } ↔ Only S old m :=
  Only.step h fun q hq => by cases q <;> simp_all [Part.Same]

theorem with_sched_only {x : SchedSt} (h : [.sched] ⊆ S)
    (htasks : x.tasks.map Task.fallDue = m.sched.tasks.map Task.fallDue) :
    Only S old { m with sched := x } ↔ Only S old m :=
  Only.step h fun q hq => by cases q <;> simp_all [Part.Same]

/-- What the timebase and the clusters hold changes, but no task. -/
theorem with_schedKeep_only {x1 : Bool} {x2 : Bool} {x3 : Bool} {x4 : Nat} {x5 : Nat} {x6 : Bool} {x7 : Option
    Nat} {x8 : Bool} {x9 : Int} {x10 : Nat} {x11 : List Nat} {x12 : Option Nat} {x13 : Bool} {x14 : Bool} {x15 :
    List Nat} {x16 : Nat} {x17 : List Nat} {x18 : Bool} {x19 : List Nat} {x20 : List Nat} {x21 : Bool} (h : [.sched] ⊆ S) :
    Only S old { m with sched := ⟨m.sched.tasks, x1, x2, x3, x4, x5, x6, x7, x8, x9, x10, x11, x12, x13, x14, x15, x16, x17, x18, x19, x20, x21⟩ }
      ↔ Only S old m :=
  with_sched_only h rfl

theorem map_modify_of_same {α β : Type} {f : α → α} {g : α → β} (l : List α) (n : Nat) (h : ∀ x, g (f x) = g x) :
    (l.modify n f).map g = l.map g := by
  refine List.ext_getElem? fun i => ?_
  rw [List.getElem?_map, List.getElem?_map, List.getElem?_modify]
  cases l[i]? with
  | none => rfl
  | some x => by_cases hn : n = i <;> simp [hn, h]

theorem Module.updTask_only {t : Nat} {f : Task → Task} (h : [.sched] ⊆ S)
    (hf : ∀ x, (f x).fallDue = x.fallDue) : Only S old (m.updTask t f) ↔ Only S old m :=
  with_sched_only h (map_modify_of_same _ _ hf)

/-- Whether a task has to enter its fallback may change. -/
theorem Module.updTask_falls_only {t : Nat} {f : Task → Task} (h : [.sched, .falls] ⊆ S) :
    Only S old (m.updTask t f) ↔ Only S old m :=
  Only.step h fun q hq => by cases q <;> simp_all [Part.Same, Module.updTask]

theorem with_ph_only {x : List Phase} (h : [.ph] ⊆ S) (hlen : x.length = m.ph.length) :
    Only S old { m with ph := x } ↔ Only S old m :=
  Only.step h fun q hq => by cases q <;> simp_all [Part.Same]

theorem upd_ph_only {n : Nat} {f : Phase → Phase} (h : [.ph] ⊆ S) :
    Only S old { m with ph := upd m.ph n f } ↔ Only S old m :=
  with_ph_only h (List.length_modify ..)

theorem with_rl_only {x : List Rail} (h : [.rl] ⊆ S) (hlen : x.length = m.rl.length) :
    Only S old { m with rl := x } ↔ Only S old m :=
  Only.step h fun q hq => by cases q <;> simp_all [Part.Same]

theorem upd_rl_only {n : Nat} {f : Rail → Rail} (h : [.rl] ⊆ S) :
    Only S old { m with rl := upd m.rl n f } ↔ Only S old m :=
  with_rl_only h (List.length_modify ..)

theorem with_tr_only {x : List Trace} (h : [.tr] ⊆ S) (hlen : x.length = m.tr.length) :
    Only S old { m with tr := x } ↔ Only S old m :=
  Only.step h fun q hq => by cases q <;> simp_all [Part.Same]

theorem upd_tr_only {n : Nat} {f : Trace → Trace} (h : [.tr] ⊆ S) :
    Only S old { m with tr := upd m.tr n f } ↔ Only S old m :=
  with_tr_only h (List.length_modify ..)

theorem with_fd_only {x : List Feed} (h : [.fd] ⊆ S) (hlen : x.length = m.fd.length) :
    Only S old { m with fd := x } ↔ Only S old m :=
  Only.step h fun q hq => by cases q <;> simp_all [Part.Same]

theorem upd_fd_only {n : Nat} {f : Feed → Feed} (h : [.fd] ⊆ S) :
    Only S old { m with fd := upd m.fd n f } ↔ Only S old m :=
  with_fd_only h (List.length_modify ..)

theorem with_bt_only {x : List Batt} (h : [.bt] ⊆ S) (hlen : x.length = m.bt.length) :
    Only S old { m with bt := x } ↔ Only S old m :=
  Only.step h fun q hq => by cases q <;> simp_all [Part.Same]

theorem upd_bt_only {n : Nat} {f : Batt → Batt} (h : [.bt] ⊆ S) :
    Only S old { m with bt := upd m.bt n f } ↔ Only S old m :=
  with_bt_only h (List.length_modify ..)

end

end Sys2Proof.Machine
end

section
/-! The footprint of each operation of the model, in the order of the definitions. -/

namespace Sys2Proof.Machine

section
variable {S : List Part} {m0 m : Module}

theorem Module.setKey_only {k : Nat} {v : W32} (hS : [.regs] ⊆ S) :
    Only S m0 (m.setKey k v) ↔ Only S m0 m := Only.step hS (by
  unfold Module.setKey
  simp (disch := decide) only [↓with_regs_only, ↓only_self])

theorem Module.setReg_only {p off : Nat} {v : W32} (hS : [.regs] ⊆ S) :
    Only S m0 (m.setReg p off v) ↔ Only S m0 m := Module.setKey_only hS

theorem Module.put_only {p : Nat} {f : Fld} {x : Nat} (hS : [.regs] ⊆ S) :
    Only S m0 (m.put p f x) ↔ Only S m0 m := Module.setReg_only hS

theorem Module.putI_only {p : Nat} {f : Fld} {x : Int} (hS : [.regs] ⊆ S) :
    Only S m0 (m.putI p f x) ↔ Only S m0 m := Module.put_only hS

theorem Module.setTbl_only {p t i : Nat} {v : W32} (hS : [.regs] ⊆ S) :
    Only S m0 (m.setTbl p t i v) ↔ Only S m0 m := Module.setKey_only hS

theorem Module.count_only {p : Nat} {f : Fld} {n : Nat} (hS : [.regs] ⊆ S) :
    Only S m0 (m.count p f n) ↔ Only S m0 m := Module.put_only hS

theorem Module.countReg_only {p off n : Nat} (hS : [.regs] ⊆ S) :
    Only S m0 (m.countReg p off n) ↔ Only S m0 m := Module.setReg_only hS

theorem Module.force_only {k : Nat} {v : W32} (hS : [.live] ⊆ S) :
    Only S m0 (m.force k v) ↔ Only S m0 m := Only.step hS (by
  unfold Module.force
  simp (disch := decide) only [↓with_live_only, ↓only_self])

theorem Module.setBoth_only {k : Nat} {v : W32} (hS : [.regs, .live] ⊆ S) :
    Only S m0 (m.setBoth k v) ↔ Only S m0 m := Only.step hS (by
  unfold Module.setBoth
  simp (disch := decide) only [↓Module.force_only, ↓Module.setKey_only, ↓only_self])

theorem Module.draw_only {k : Nat} (hS : [.nfree] ⊆ S) :
    Only S m0 (m.draw k).2 ↔ Only S m0 m := Only.step hS (by
  unfold Module.draw
  simp (disch := decide) only [↓with_nfree_only, ↓only_self])

theorem Module.raise_only {p b : Nat} (hS : [.regs] ⊆ S) :
    Only S m0 (m.raise p b) ↔ Only S m0 m := Module.setReg_only hS

theorem Module.applyPend_only {sel : Nat → Bool} (hS : [.live, .pend] ⊆ S) :
    Only S m0 (m.applyPend sel) ↔ Only S m0 m := Only.step hS (by
  unfold Module.applyPend
  simp (disch := decide) only [↓with_pend_only]
  exact (only_foldl fun _ _ => by simp (disch := decide) only [↓Module.force_only, ↓only_self]).2 (Only.refl _ _))

theorem Module.applySnap_only {sel : Nat → Bool} (hS : [.live, .snap] ⊆ S) :
    Only S m0 (m.applySnap sel) ↔ Only S m0 m := Only.step hS (by
  unfold Module.applySnap
  simp (disch := decide) only [↓with_snap_only]
  exact (only_foldl fun _ _ => by simp (disch := decide) only [↓Module.force_only, ↓only_self]).2 (Only.refl _ _))

theorem Module.boundary_only {p : Nat} (hS : [.live, .snap, .pend] ⊆ S) :
    Only S m0 (m.boundary p) ↔ Only S m0 m := Only.step hS (by
  unfold Module.boundary
  simp (disch := decide) only [↓Module.applyPend_only, ↓Module.applySnap_only, ↓only_self])

theorem Module.recStageReg_only (hS : [.regs] ⊆ S) :
    Only S m0 (m.recStageReg) ↔ Only S m0 m := Only.step hS (by
  unfold Module.recStageReg
  simp (disch := decide) only [↓Module.put_only, ↓only_self])

theorem Module.recPush_only {r : Rec} (hS : [.regs, .rc] ⊆ S) :
    Only S m0 (m.recPush r) ↔ Only S m0 m := Only.step hS (by
  unfold Module.recPush
  simp (disch := decide) only [↓Module.recStageReg_only, ↓Module.setReg_only, ↓with_rc_only, ↓only_self])

theorem Module.recLost_only {typ : Nat} (hS : [.regs, .rc] ⊆ S) :
    Only S m0 (m.recLost typ) ↔ Only S m0 m := Only.step hS (by
  unfold Module.recLost
  simp (disch := decide) only [↓Module.raise_only, ↓Module.countReg_only, ↓with_rc_only, ↓only_ite, ↓only_self,
    ite_self])

theorem Module.recMake_only {typ src len flags : Nat} {payload : List Byte} {mark : Bool} (hS : [.regs, .live,
    .snap, .pend, .rc] ⊆ S) :
    Only S m0 (m.recMake typ src len flags payload mark) ↔ Only S m0 m := Only.step hS (by
  unfold Module.recMake
  simp (disch := decide) only [↓Module.recLost_only, ↓Module.boundary_only, ↓Module.recStageReg_only,
    ↓Module.recPush_only, ↓with_rc_only, ↓only_ite, ↓only_self, ite_self])

theorem Module.recFault_only {typ p b sub : Nat} {mark : Bool} (hS : [.regs, .live, .snap, .pend, .rc] ⊆ S) :
    Only S m0 (m.recFault typ p b sub mark) ↔ Only S m0 m := Module.recMake_only hS

theorem Module.raiseRec_only {p b : Nat} (hS : [.regs, .live, .snap, .pend, .rc] ⊆ S) :
    Only S m0 (m.raiseRec p b) ↔ Only S m0 m := Only.step hS (by
  unfold Module.raiseRec
  simp (disch := decide) only [↓Module.raise_only, ↓Module.recFault_only, ↓only_self])

theorem Module.latchBit_only {p b sub : Nat} (hS : [.regs, .live, .snap, .pend, .rc] ⊆ S) :
    Only S m0 (m.latchBit p b sub) ↔ Only S m0 m := Only.step hS (by
  unfold Module.latchBit
  simp (disch := decide) only [↓Module.raise_only, ↓Module.setReg_only, ↓Module.recFault_only, ↓with_rc_only,
    ↓only_ite, ↓only_self, ite_self])

theorem Module.latchNow_only {p b : Nat} (hS : [.regs, .live, .snap, .pend, .rc] ⊆ S) :
    Only S m0 (m.latchNow p b) ↔ Only S m0 m := Only.step hS (by
  unfold Module.latchNow
  simp (disch := decide) only [↓Module.latchBit_only, ↓only_ite, ↓only_self, ite_self])

theorem Module.putCtr_only {c : Ctr} (hS : [.ctrs] ⊆ S) :
    Only S m0 (m.putCtr c) ↔ Only S m0 m := Only.step hS (by
  unfold Module.putCtr
  simp (disch := decide) only [↓with_ctrs_only, ↓only_ite, ↓only_self, ite_self])

theorem Module.countFault_only {p b sub win : Nat} (hS : [.regs, .live, .snap, .pend, .ctrs, .rc] ⊆ S) :
    Only S m0 (m.countFault p b sub win).1 ↔ Only S m0 m := Only.step hS (by
  unfold Module.countFault
  dsimp only
  (repeat' split) <;> simp (disch := decide) only [↓Module.putCtr_only, ↓Module.recFault_only,
    ↓Module.latchBit_only, ↓only_self])

theorem Module.pairMiss_only {p off : Nat} (hS : [.regs, .live, .snap, .pend, .ctrs, .rc] ⊆ S) :
    Only S m0 (m.pairMiss p off).1 ↔ Only S m0 m := Only.step hS (by
  unfold Module.pairMiss
  simp (disch := decide) only [↓Module.raise_only, ↓Module.countFault_only, ↓Module.count_only,
    ↓Module.setReg_only, ↓Module.setTbl_only, ↓only_self])

theorem Module.passed_only {k : Nat} (hS : [.good] ⊆ S) :
    Only S m0 (m.passed k) ↔ Only S m0 m := Only.step hS (by
  unfold Module.passed
  simp (disch := decide) only [↓with_good_only, ↓only_ite, ↓only_self, ite_self])

theorem Module.pairUse_only {p off : Nat} (hS : [.regs, .live, .good, .snap, .pend, .ctrs, .rc] ⊆ S) :
    Only S m0 (m.pairUse p off).1 ↔ Only S m0 m := Only.step hS (by
  unfold Module.pairUse
  simp (disch := decide) only [↓Module.pairMiss_only, ↓Module.passed_only, ↓only_ite, ↓only_self, ite_self])

theorem Module.useKey_only {k p off : Nat} (hS : [.regs, .live, .good, .snap, .pend, .ctrs, .rc] ⊆ S) :
    Only S m0 (m.useKey k p off) ↔ Only S m0 m := Only.step hS (by
  unfold Module.useKey
  simp (disch := decide) only [↓Module.pairUse_only, ↓Module.passed_only, ↓only_ite, ↓only_self, ite_self])

theorem Module.usePair_only {p off : Nat} (hS : [.regs, .live, .good, .snap, .pend, .ctrs, .rc] ⊆ S) :
    Only S m0 (m.usePair p off) ↔ Only S m0 m := Module.useKey_only hS

theorem Module.usePairs_only {p : Nat} {offs : List Nat} (hS : [.regs, .live, .good, .snap, .pend, .ctrs, .rc] ⊆
    S) :
    Only S m0 (m.usePairs p offs) ↔ Only S m0 m := Only.step hS (by
  unfold Module.usePairs
  exact (only_foldl fun _ _ => by simp (disch := decide) only [↓Module.usePair_only, ↓only_self]).2 (Only.refl _ _))

theorem Module.useWords_only {p t : Nat} {is : List Nat} (hS : [.regs, .live, .good, .snap, .pend, .ctrs, .rc] ⊆
    S) :
    Only S m0 (m.useWords p t is) ↔ Only S m0 m := Only.step hS (by
  unfold Module.useWords
  exact (only_foldl fun _ _ => by simp (disch := decide) only [↓Module.useKey_only, ↓only_self]).2 (Only.refl _ _))

theorem Module.fault_only {p b sub win : Nat} (hS : [.regs, .live, .good, .snap, .pend, .ctrs, .rc] ⊆ S) :
    Only S m0 (m.fault p b sub win).1 ↔ Only S m0 m := Only.step hS (by
  unfold Module.fault
  simp (disch := decide) only [↓Module.countFault_only, ↓Module.usePair_only, ↓only_self])

theorem Module.clearCtr_only {p b : Nat} (hS : [.ctrs] ⊆ S) :
    Only S m0 (m.clearCtr p b) ↔ Only S m0 m := Only.step hS (by
  unfold Module.clearCtr
  simp (disch := decide) only [↓with_ctrs_only, ↓only_self])

theorem Module.clearCtrs_only {p : Nat} (hS : [.ctrs] ⊆ S) :
    Only S m0 (m.clearCtrs p) ↔ Only S m0 m := Only.step hS (by
  unfold Module.clearCtrs
  simp (disch := decide) only [↓with_ctrs_only, ↓only_self])

theorem Module.commit_only {p : Nat} {ks : Nat → Bool} (hS : [.live, .snap, .unc] ⊆ S) :
    Only S m0 (m.commit p ks) ↔ Only S m0 m := Only.step hS (by
  unfold Module.commit
  simp (disch := decide) only [↓Module.applySnap_only]
  exact (only_foldl fun _ _ => by simp (disch := decide) only [↓with_snap_only, ↓only_self]).2 (by simp
    (disch := decide) only [↓with_unc_only, ↓only_self]))

theorem Module.applyWrite_only {k : Nat} {v : W32} (hS : [.regs, .live, .pend, .unc, .ovr, .defer] ⊆ S) :
    Only S m0 (m.applyWrite k v) ↔ Only S m0 m := Only.step hS (by
  unfold Module.applyWrite
  have hbase : Only [.regs, .ovr, .defer] m
      { m.setKey k v with ovr := insKey m.ovr k, defer := m.defer.filter (fun kv => kv.1 ≠ k) } :=
    fun q hq => by cases q <;> simp_all [Part.Same] <;> rfl
  have hrest := fun R : List Part => fun (h : [.regs, .ovr, .defer] ⊆ R) =>
    (Only.step (a := m) h hbase).2 (Only.refl _ _)
  dsimp only
  split
  · exact (Module.force_only (by decide)).2 (hrest _ (by decide))
  · exact (Module.force_only (by decide)).2 (hrest _ (by decide))
  · split
    · exact (with_pend_only (by decide)).2 (hrest _ (by decide))
    · exact (Module.force_only (by decide)).2 (hrest _ (by decide))
  · exact (with_unc_only (by decide)).2 (hrest _ (by decide)))

theorem Module.applyOnStop_only {p : Nat} (hS : [.live, .snap, .pend] ⊆ S) :
    Only S m0 (m.applyOnStop p) ↔ Only S m0 m := Module.boundary_only hS

theorem Module.nvWrite_only {nv : NonVol} {w : NvWr} (hS : [.mem] ⊆ S) :
    Only S m0 (m.nvWrite nv w).2 ↔ Only S m0 m := Only.step hS (by
  unfold Module.nvWrite
  (repeat' split) <;> simp (disch := decide) only [↓with_mem_only, ↓only_self])

theorem Module.updPh_only {n : Nat} {f : Phase → Phase} (hS : [.ph] ⊆ S) :
    Only S m0 (m.updPh n f) ↔ Only S m0 m := Only.step hS (by
  unfold Module.updPh
  simp (disch := decide) only [↓upd_ph_only, ↓only_self])

theorem Module.updRl_only {r : Nat} {f : Rail → Rail} (hS : [.rl] ⊆ S) :
    Only S m0 (m.updRl r f) ↔ Only S m0 m := Only.step hS (by
  unfold Module.updRl
  simp (disch := decide) only [↓upd_rl_only, ↓only_self])

theorem Module.phPins_only {n : Nat} (hS : [.ph] ⊆ S) :
    Only S m0 (m.phPins n) ↔ Only S m0 m := Module.updPh_only hS

theorem Module.setPh_only {n s : Nat} (hS : [.regs, .ph] ⊆ S) :
    Only S m0 (m.setPh n s) ↔ Only S m0 m := Only.step hS (by
  unfold Module.setPh
  simp (disch := decide) only [↓Module.updPh_only, ↓Module.put_only, ↓Module.phPins_only, ↓only_ite, ↓only_self,
    ite_self])

theorem Module.refresh_only {r : Nat} (hS : [.regs] ⊆ S) :
    Only S m0 (m.refresh r) ↔ Only S m0 m := Only.step hS (by
  unfold Module.refresh
  simp (disch := (intros; simp (decide := true) (disch := decide) only [↓Module.put_only, ↓only_ite, ↓only_self,
    ite_self])) only [↓only_foldl, ↓Module.put_only, ↓only_self])

theorem Module.spaceOut_only {r : Nat} (hS : [.ph] ⊆ S) :
    Only S m0 (m.spaceOut r) ↔ Only S m0 m := Only.step hS (by
  unfold Module.spaceOut
  exact (only_foldl fun _ _ => by simp (disch := decide) only [↓Module.updPh_only, ↓only_self]).2 (Only.refl _ _))

theorem Module.perTaps_only {r : Nat} (hS : [.regs] ⊆ S) :
    Only S m0 (m.perTaps r) ↔ Only S m0 m := Module.put_only hS

theorem Module.setThr_only {c : Nat} {a b : Int} (hS : [.adc] ⊆ S) :
    Only S m0 (m.setThr c a b) ↔ Only S m0 m := Only.step hS (by
  unfold Module.setThr
  simp (disch := decide) only [↓with_adc_only, ↓only_self])

theorem Module.phaseThr_only {n : Nat} (hS : [.adc] ⊆ S) :
    Only S m0 (m.phaseThr n) ↔ Only S m0 m := Module.setThr_only hS

theorem Module.railThr_only {r : Nat} (hS : [.adc] ⊆ S) :
    Only S m0 (m.railThr r) ↔ Only S m0 m := Module.setThr_only hS

theorem Module.ginApply_only {i : Nat} (hS : [.live, .pend] ⊆ S) :
    Only S m0 (m.ginApply i) ↔ Only S m0 m := Module.applyPend_only hS

theorem Module.ginThr_only {i : Nat} (hS : [.regs, .live, .good, .snap, .pend, .ctrs, .rc, .adc] ⊆ S) :
    Only S m0 (m.ginThr i) ↔ Only S m0 m := Only.step hS (by
  unfold Module.ginThr
  simp (disch := decide) only [↓Module.usePairs_only, ↓Module.setThr_only, ↓only_self])

theorem Module.ginTake_only {gin : List Int} (hS : [.regs, .live, .good, .snap, .pend, .ctrs, .rc, .adc] ⊆ S) :
    Only S m0 (m.ginTake gin) ↔ Only S m0 m := Only.step hS (by
  unfold Module.ginTake
  exact (only_foldl fun _ _ => by simp (disch := decide) only [↓Module.ginApply_only, ↓Module.ginThr_only,
    ↓with_adc_only, ↓only_self]).2 (Only.refl _ _))

theorem Module.capUpd_only {r : Nat} (hS : [.regs] ⊆ S) :
    Only S m0 (m.capUpd r) ↔ Only S m0 m := Only.step hS (by
  unfold Module.capUpd
  simp (disch := decide) only [↓Module.raise_only, ↓Module.put_only, ↓only_ite, ↓only_self, ite_self])

theorem Module.railUpd_only {r : Nat} (hS : [.regs] ⊆ S) :
    Only S m0 (m.railUpd r) ↔ Only S m0 m := Only.step hS (by
  unfold Module.railUpd
  simp (disch := decide) only [↓Module.refresh_only, ↓Module.capUpd_only, ↓only_self])

theorem Module.probeAbort_only {r : Nat} (hS : [.regs, .ph] ⊆ S) :
    Only S m0 (m.probeAbort r) ↔ Only S m0 m := Only.step hS (by
  unfold Module.probeAbort
  exact (only_foldl fun _ _ => by simp (disch := decide) only [↓Module.updPh_only, ↓Module.setPh_only,
    ↓only_self]).2 (Only.refl _ _))

theorem Module.joins_only {r n : Nat} (hS : [.ph] ⊆ S) :
    Only S m0 (m.joins r n) ↔ Only S m0 m := Module.updPh_only hS

theorem Module.pulseResumes_only {n : Nat} (hS : [.ph, .rl] ⊆ S) :
    Only S m0 (m.pulseResumes n) ↔ Only S m0 m := Only.step hS (by
  unfold Module.pulseResumes
  simp (disch := decide) only [↓Module.updRl_only, ↓Module.updPh_only, ↓only_ite, ↓only_self, ite_self])

theorem Module.pulseStart_only {n : Nat} (hS : [.regs, .ph, .rl] ⊆ S) :
    Only S m0 (m.pulseStart n) ↔ Only S m0 m := Only.step hS (by
  unfold Module.pulseStart
  simp (disch := decide) only [↓Module.put_only, ↓Module.phPins_only, ↓Module.updPh_only,
    ↓Module.pulseResumes_only, ↓only_ite, ↓only_self, ite_self])

theorem Module.arrive_only {t : Instant} (hS : [.regs, .out, .ph, .rl] ⊆ S) :
    Only S m0 (m.arrive t) ↔ Only S m0 m := Only.step hS (by
  unfold Module.arrive
  exact (only_foldl fun _ _ => by simp (disch := decide) only [↓Module.pulseStart_only, ↓only_self]).2 (by simp
    (disch := decide) only [↓with_out_only, ↓only_self]))

theorem Module.arriveAt_only {cyc : Nat} (hS : [.out] ⊆ S) :
    Only S m0 (m.arriveAt cyc) ↔ Only S m0 m := Only.step hS (by
  unfold Module.arriveAt
  simp (disch := decide) only [↓with_out_only, ↓only_self])

theorem Module.activate_only {r n : Nat} (hS : [.regs, .ph] ⊆ S) :
    Only S m0 (m.activate r n) ↔ Only S m0 m := Only.step hS (by
  unfold Module.activate
  simp (disch := decide) only [↓Module.setPh_only, ↓Module.joins_only, ↓Module.railUpd_only,
    ↓Module.probeAbort_only, ↓only_self])

theorem Module.allActive_only {r : Nat} (hS : [.regs, .ph] ⊆ S) :
    Only S m0 (m.allActive r) ↔ Only S m0 m := Only.step hS (by
  unfold Module.allActive
  simp (disch := (intros; simp (decide := true) (disch := decide) only [↓Module.activate_only, ↓only_ite,
    ↓only_self, ite_self])) only [↓only_foldl, ↓only_ite, ↓only_self, ite_self])

theorem Module.addPhase_only {r : Nat} (hS : [.regs, .ph, .rl] ⊆ S) :
    Only S m0 (m.addPhase r) ↔ Only S m0 m := Only.step hS (by
  unfold Module.addPhase
  (repeat' split) <;> simp (disch := decide) only [↓Module.raise_only, ↓Module.put_only, ↓Module.joins_only,
    ↓Module.railUpd_only, ↓Module.probeAbort_only, ↓Module.updRl_only, ↓Module.count_only, ↓Module.setPh_only,
    ↓only_self])

theorem Module.dropPhase_only {r n : Nat} (hS : [.regs, .ph] ⊆ S) :
    Only S m0 (m.dropPhase r n) ↔ Only S m0 m := Only.step hS (by
  unfold Module.dropPhase
  simp (disch := decide) only [↓Module.raise_only, ↓Module.put_only, ↓Module.railUpd_only,
    ↓Module.probeAbort_only, ↓Module.count_only, ↓Module.setPh_only, ↓only_ite, ↓only_self, ite_self])

theorem Module.spareIn_only {r : Nat} (hS : [.regs, .ph] ⊆ S) :
    Only S m0 (m.spareIn r) ↔ Only S m0 m := Only.step hS (by
  unfold Module.spareIn
  (repeat' split) <;> simp (disch := decide) only [↓Module.activate_only, ↓Module.put_only, ↓only_self])

theorem Module.openPhase_only {r n : Nat} (hS : [.regs, .ph] ⊆ S) :
    Only S m0 (m.openPhase r n) ↔ Only S m0 m := Only.step hS (by
  unfold Module.openPhase
  simp (disch := decide) only [↓Module.spareIn_only, ↓Module.setPh_only, ↓Module.railUpd_only,
    ↓Module.probeAbort_only, ↓only_ite, ↓only_self, ite_self])

theorem Module.onObserver_only {n : Nat} (hS : [.regs, .ph] ⊆ S) :
    Only S m0 (m.onObserver n) ↔ Only S m0 m := Only.step hS (by
  unfold Module.onObserver
  simp (disch := decide) only [↓Module.put_only, ↓Module.setPh_only, ↓only_self])

theorem Module.senseFail_only {n ground : Nat} (hS : [.regs, .live, .snap, .pend, .rc, .ph] ⊆ S) :
    Only S m0 (m.senseFail n ground) ↔ Only S m0 m := Only.step hS (by
  unfold Module.senseFail
  simp (disch := decide) only [↓Module.raise_only, ↓Module.put_only, ↓Module.railUpd_only,
    ↓Module.latchNow_only, ↓Module.updPh_only, ↓Module.onObserver_only, ↓only_ite, ↓only_self, ite_self])

theorem Module.phaseEnter_only {n : Nat} (hS : [.regs, .live, .snap, .pend, .rc, .ph] ⊆ S) :
    Only S m0 (m.phaseEnter n) ↔ Only S m0 m := Only.step hS (by
  unfold Module.phaseEnter
  simp (disch := decide) only [↓Module.raise_only, ↓Module.joins_only, ↓Module.probeAbort_only,
    ↓Module.activate_only, ↓Module.onObserver_only, ↓Module.latchNow_only, ↓Module.setPh_only, ↓only_ite,
    ↓only_self, ite_self])

theorem Module.updTr_only {k : Nat} {f : Trace → Trace} (hS : [.tr] ⊆ S) :
    Only S m0 (m.updTr k f) ↔ Only S m0 m := Only.step hS (by
  unfold Module.updTr
  simp (disch := decide) only [↓upd_tr_only, ↓only_self])

theorem Module.trTrigger_only {k : Nat} {y0 : Nat} (hS : [.nfree, .regs, .tr] ⊆ S) :
    Only S m0 (m.trTrigger k y0) ↔ Only S m0 m := by
  refine Only.step hS ?_
  induction y0 generalizing m k with
  | zero => exact Only.refl _ _
  | succ fuel ih =>
    unfold Module.trTrigger
    split
    · exact Only.refl _ _
    · refine (only_foldl fun m j => ?_).2 ?_
      · split
        · exact ih
        · exact Only.refl _ _
      · simp (disch := decide) only [↓Module.updTr_only, ↓Module.raise_only, ↓Module.put_only, ↓Module.setReg_only]
        split
        · exact Only.refl _ _
        · exact (Module.draw_only (by decide)).2 (Only.refl _ _)

theorem Module.trEnd_only {k : Nat} (hS : [.regs] ⊆ S) :
    Only S m0 (m.trEnd k) ↔ Only S m0 m := Only.step hS (by
  unfold Module.trEnd
  simp (disch := decide) only [↓Module.raise_only, ↓Module.put_only, ↓only_ite, ↓only_self, ite_self])

theorem Module.trFill_only {k : Nat} (hS : [.regs] ⊆ S) :
    Only S m0 (m.trFill k) ↔ Only S m0 m := Only.step hS (by
  unfold Module.trFill
  simp (disch := decide) only [↓Module.put_only, ↓only_ite, ↓only_self, ite_self])

theorem Module.trFault_only {r b : Nat} (hS : [.nfree, .regs, .tr] ⊆ S) :
    Only S m0 (m.trFault r b) ↔ Only S m0 m := Only.step hS (by
  unfold Module.trFault
  exact (only_foldl fun _ _ => by simp (disch := decide) only [↓Module.trTrigger_only, ↓only_ite, ↓only_self,
    ite_self]).2 (Only.refl _ _))

theorem Module.trCrossing_only (hS : [.nfree, .regs, .tr] ⊆ S) :
    Only S m0 (m.trCrossing) ↔ Only S m0 m := Only.step hS (by
  unfold Module.trCrossing
  exact (only_foldl fun _ _ => by simp (disch := decide) only [↓Module.trFault_only, ↓only_self]).2 (Only.refl _ _))

theorem Module.trGin_only {b : Nat} (hS : [.nfree, .regs, .tr] ⊆ S) :
    Only S m0 (m.trGin b) ↔ Only S m0 m := Only.step hS (by
  unfold Module.trGin
  exact (only_foldl fun _ _ => by simp (disch := decide) only [↓Module.trTrigger_only, ↓only_ite, ↓only_self,
    ite_self]).2 (Only.refl _ _))

theorem Module.trStore_only {k s : Nat} {vs : List Int} (hS : [.mem] ⊆ S) :
    Only S m0 (m.trStore k s vs) ↔ Only S m0 m := Only.step hS (by
  unfold Module.trStore
  (repeat' split) <;> simp (disch := decide) only [↓with_mem_only, ↓only_self])

theorem Module.trRecord_only {k : Nat} (hS : [.nfree, .regs, .tr, .mem] ⊆ S) :
    Only S m0 (m.trRecord k) ↔ Only S m0 m := Only.step hS (by
  unfold Module.trRecord
  simp (disch := decide) only [↓Module.trEnd_only, ↓Module.updTr_only, ↓Module.trFill_only,
    ↓Module.trStore_only, ↓Module.trTrigger_only, ↓only_ite, ↓only_self, ite_self])

theorem Module.trSample_only {r : Nat} {full : List Nat} (hS : [.nfree, .regs, .tr, .mem] ⊆ S) :
    Only S m0 (m.trSample r full) ↔ Only S m0 m := Only.step hS (by
  unfold Module.trSample
  exact (only_foldl fun _ _ => by simp (disch := decide) only [↓Module.updTr_only, ↓Module.raise_only,
    ↓Module.put_only, ↓Module.trRecord_only, ↓only_ite, ↓only_self, ite_self]).2 (Only.refl _ _))

theorem Module.trStart_only {k : Nat} (hS : [.regs, .tr] ⊆ S) :
    Only S m0 (m.trStart k) ↔ Only S m0 m := Only.step hS (by
  unfold Module.trStart
  simp (disch := decide) only [↓Module.updTr_only, ↓Module.put_only, ↓Module.trFill_only, ↓only_self])

theorem Module.bankCopy_only {b t : Nat} (hS : [.mem] ⊆ S) :
    Only S m0 (m.bankCopy b t) ↔ Only S m0 m := Only.step hS (by
  unfold Module.bankCopy
  simp (disch := decide) only [↓with_mem_only, ↓only_self])

theorem Module.bankMoved_only {b : Nat} (hS : [.regs, .tr, .mem] ⊆ S) :
    Only S m0 (m.bankMoved b) ↔ Only S m0 m := Only.step hS (by
  unfold Module.bankMoved
  simp (disch := (intros; (repeat' split) <;> simp (decide := true) (disch := decide) only
    [↓Module.bankCopy_only, ↓Module.updTr_only, ↓Module.setKey_only, ↓only_ite, ↓only_self, ite_self])) only
    [↓only_foldl, ↓only_self])

theorem Module.trArm_only {k : Nat} (hS : [.regs, .tr] ⊆ S) :
    Only S m0 (m.trArm k) ↔ Only S m0 m := Only.step hS (by
  unfold Module.trArm
  simp (disch := decide) only [↓Module.trStart_only, ↓only_ite, ↓only_self, ite_self])

theorem Module.trStop_only {k : Nat} (hS : [.regs] ⊆ S) :
    Only S m0 (m.trStop k) ↔ Only S m0 m := Module.put_only hS

theorem Module.trRead_only {k i : Nat} (hS : [.regs, .tr] ⊆ S) :
    Only S m0 (m.trRead k i) ↔ Only S m0 m := Only.step hS (by
  unfold Module.trRead
  simp (disch := decide) only [↓Module.trStart_only, ↓only_ite, ↓only_self, ite_self])

theorem Module.laneRegs_only (hS : [.regs] ⊆ S) :
    Only S m0 (m.laneRegs) ↔ Only S m0 m := Only.step hS (by
  unfold Module.laneRegs
  simp (disch := (intros; (repeat' split) <;> simp (decide := true) (disch := decide) only [↓Module.put_only,
    ↓Module.setTbl_only, ↓only_ite, ↓only_self, ite_self])) only [↓only_foldl, ↓only_self])

theorem Module.takeSlots_only {r k phi : Nat} (hS : [.regs, .rl, .cle] ⊆ S) :
    Only S m0 (m.takeSlots r k phi) ↔ Only S m0 m := Only.step hS (by
  unfold Module.takeSlots
  simp (disch := decide) only [↓Module.updRl_only, ↓Module.laneRegs_only, ↓with_cle_only, ↓only_self])

theorem Module.freeRail_only {r : Nat} (hS : [.regs, .rl, .cle] ⊆ S) :
    Only S m0 (m.freeRail r) ↔ Only S m0 m := Only.step hS (by
  unfold Module.freeRail
  simp (disch := decide) only [↓Module.updRl_only, ↓Module.laneRegs_only, ↓with_cle_only, ↓only_self])

theorem Module.truncFlags_only {r : Nat} (hS : [.regs, .ph] ⊆ S) :
    Only S m0 (m.truncFlags r) ↔ Only S m0 m := Only.step hS (by
  unfold Module.truncFlags
  exact (only_foldl fun _ _ => by simp (disch := decide) only [↓Module.put_only, ↓Module.phPins_only, ↓only_ite,
    ↓only_self, ite_self]).2 (by simp (disch := decide) only [↓Module.put_only, ↓only_self]))

theorem Module.truncBegin_only {r : Nat} (hS : [.nfree, .regs, .ph, .tr] ⊆ S) :
    Only S m0 (m.truncBegin r) ↔ Only S m0 m := Only.step hS (by
  unfold Module.truncBegin
  simp (disch := decide) only [↓Module.trFault_only, ↓Module.truncFlags_only]
  exact (only_foldl fun _ _ => by simp (disch := decide) only [↓Module.updPh_only, ↓only_self]).2 (by simp
    (disch := decide) only [↓Module.raise_only, ↓Module.probeAbort_only, ↓Module.countReg_only, ↓only_self]))

theorem Module.truncEnd_only {r : Nat} (hS : [.regs, .ph, .rl] ⊆ S) :
    Only S m0 (m.truncEnd r) ↔ Only S m0 m := Only.step hS (by
  unfold Module.truncEnd
  simp (disch := decide) only [↓Module.truncFlags_only, ↓Module.updRl_only, ↓only_self])

theorem Module.truncSync_only {r : Nat} (hS : [.nfree, .regs, .ph, .rl, .tr] ⊆ S) :
    Only S m0 (m.truncSync r) ↔ Only S m0 m := Only.step hS (by
  unfold Module.truncSync
  simp (disch := decide) only [↓Module.truncBegin_only, ↓Module.truncEnd_only, ↓only_ite, ↓only_self, ite_self])

theorem Module.truncSyncAll_only (hS : [.nfree, .regs, .ph, .rl, .tr] ⊆ S) :
    Only S m0 (m.truncSyncAll) ↔ Only S m0 m := Only.step hS (by
  unfold Module.truncSyncAll
  exact (only_foldl fun _ _ => by simp (disch := decide) only [↓Module.truncSync_only, ↓only_self]).2 (Only.refl
    _ _))

theorem Module.ginNow_only {gin : List Int} (hS : [.nfree, .regs, .live, .good, .snap, .pend, .ctrs, .rc, .ph,
    .rl, .adc, .tr] ⊆ S) :
    Only S m0 (m.ginNow gin) ↔ Only S m0 m := Only.step hS (by
  unfold Module.ginNow
  simp (disch := decide) only [↓Module.ginTake_only, ↓Module.truncSyncAll_only, ↓only_self])

theorem Module.phasesOff_only {r : Nat} (hS : [.regs, .ph] ⊆ S) :
    Only S m0 (m.phasesOff r) ↔ Only S m0 m := Only.step hS (by
  unfold Module.phasesOff
  exact (only_foldl fun _ _ => by simp (disch := decide) only [↓Module.put_only, ↓Module.setPh_only, ↓only_ite,
    ↓only_self, ite_self]).2 (Only.refl _ _))

theorem Module.clearLoops_only {r : Nat} (hS : [.rl] ⊆ S) :
    Only S m0 (m.clearLoops r) ↔ Only S m0 m := Module.updRl_only hS

theorem Module.railFlags_only {r : Nat} (hS : [.regs] ⊆ S) :
    Only S m0 (m.railFlags r) ↔ Only S m0 m := Only.step hS (by
  unfold Module.railFlags
  simp (disch := decide) only [↓Module.put_only]
  exact (only_foldl fun _ _ => by simp (disch := decide) only [↓Module.put_only, ↓only_self]).2 (by simp
    (disch := decide) only [↓Module.put_only, ↓only_self]))

theorem Module.dtApply_only {r : Nat} (hS : [.regs] ⊆ S) :
    Only S m0 (m.dtApply r) ↔ Only S m0 m := Only.step hS (by
  unfold Module.dtApply
  simp (disch := decide) only [↓Module.put_only, ↓Module.setReg_only, ↓only_ite, ↓only_self, ite_self])

theorem Module.railBoundary_only {r : Nat} (hS : [.regs, .live, .snap, .pend] ⊆ S) :
    Only S m0 (m.railBoundary r) ↔ Only S m0 m := Only.step hS (by
  unfold Module.railBoundary
  simp (disch := decide) only [↓Module.dtApply_only]
  exact (only_foldl fun _ _ => by simp (disch := decide) only [↓Module.boundary_only, ↓only_self]).2 (by simp
    (disch := decide) only [↓Module.boundary_only, ↓only_self]))

theorem Module.softStart_only {r : Nat} (hS : [.nfree, .regs, .live, .snap, .pend, .rc, .ph, .rl, .adc, .tr] ⊆
    S) :
    Only S m0 (m.softStart r) ↔ Only S m0 m := Only.step hS (by
  unfold Module.softStart
  simp (disch := decide) only [↓Module.railThr_only, ↓Module.railUpd_only, ↓Module.spaceOut_only,
    ↓Module.truncSync_only]
  exact (only_foldl fun _ _ => by simp (disch := decide) only [↓Module.phPins_only, ↓Module.phaseThr_only,
    ↓Module.phaseEnter_only, ↓only_self]).2 (by simp (disch :=
    decide) only [↓Module.put_only, ↓Module.clearLoops_only, ↓Module.railFlags_only, ↓Module.updRl_only,
      ↓Module.railBoundary_only, ↓only_self]))

theorem Module.shedStart_only {r : Nat} (hS : [.regs, .rl] ⊆ S) :
    Only S m0 (m.shedStart r) ↔ Only S m0 m := Only.step hS (by
  unfold Module.shedStart
  (repeat' split) <;> simp (disch := decide) only [↓Module.raise_only, ↓Module.put_only, ↓Module.updRl_only,
    ↓only_self])

theorem Module.applyDefer_only {p : Nat} (hS : [.regs, .live, .defer] ⊆ S) :
    Only S m0 (m.applyDefer p) ↔ Only S m0 m := Only.step hS (by
  unfold Module.applyDefer
  simp (disch := decide) only [↓with_defer_only]
  exact (only_foldl fun _ _ => by simp (disch := decide) only [↓Module.setBoth_only, ↓only_self]).2 (Only.refl _ _))

theorem Module.tryStart_only {r : Nat} (hS : [.nfree, .regs, .live, .snap, .pend, .rc, .ph, .rl, .adc, .cle,
    .tr] ⊆ S) :
    Only S m0 (m.tryStart r) ↔ Only S m0 m := Only.step hS (by
  unfold Module.tryStart
  simp (disch := decide) only [↓Module.raise_only, ↓Module.put_only, ↓Module.railBoundary_only, ↓only_ite,
    ↓only_self]
  (repeat' split) <;> simp (disch := decide) only [↓Module.takeSlots_only, ↓Module.updRl_only,
    ↓Module.raise_only, ↓Module.put_only, ↓Module.shedStart_only, ↓Module.railBoundary_only,
    ↓Module.softStart_only, ↓Module.setReg_only, ↓only_self])

theorem Module.railOff_only {r : Nat} (hS : [.regs, .live, .snap, .pend, .ph, .rl, .cle] ⊆ S) :
    Only S m0 (m.railOff r) ↔ Only S m0 m := Only.step hS (by
  unfold Module.railOff
  simp (disch := decide) only [↓Module.phasesOff_only, ↓Module.put_only, ↓Module.railUpd_only,
    ↓Module.clearLoops_only, ↓Module.railFlags_only, ↓Module.railBoundary_only, ↓Module.freeRail_only,
    ↓Module.applySnap_only, ↓only_self])

theorem Module.railHalt_only {r : Nat} (hS : [.regs, .live, .snap, .pend, .ph, .rl, .adc] ⊆ S) :
    Only S m0 (m.railHalt r) ↔ Only S m0 m := Only.step hS (by
  unfold Module.railHalt
  simp (disch := decide) only [↓Module.railUpd_only]
  exact (only_foldl fun _ _ => by simp (disch := decide) only [↓Module.phaseThr_only, ↓only_self]).2 (by simp
    (disch := decide) only [↓Module.phasesOff_only, ↓Module.clearLoops_only, ↓Module.railFlags_only,
    ↓Module.railBoundary_only, ↓Module.applySnap_only, ↓only_self]))

theorem Module.railLatch_only {r : Nat} (hS : [.regs, .live, .snap, .pend, .ph, .rl, .adc] ⊆ S) :
    Only S m0 (m.railLatch r) ↔ Only S m0 m := Only.step hS (by
  unfold Module.railLatch
  simp (disch := decide) only [↓Module.railHalt_only, ↓Module.put_only, ↓only_self])

theorem Module.railEnable_only {r : Nat} (hS : [.nfree, .regs, .live, .snap, .pend, .defer, .rc, .ph, .rl, .adc,
    .cle, .tr] ⊆ S) :
    Only S m0 (m.railEnable r) ↔ Only S m0 m := Only.step hS (by
  unfold Module.railEnable
  simp (disch := decide) only [↓Module.updRl_only, ↓Module.tryStart_only, ↓Module.perTaps_only,
    ↓Module.applyDefer_only, ↓Module.setReg_only, ↓only_ite, ↓only_self, ite_self])

theorem Module.railDisable_only {r : Nat} (hS : [.regs, .live, .snap, .pend, .ph, .rl, .cle] ⊆ S) :
    Only S m0 (m.railDisable r) ↔ Only S m0 m := Only.step hS (by
  unfold Module.railDisable
  simp (disch := decide) only [↓Module.railOff_only, ↓Module.updRl_only, ↓Module.setReg_only, ↓only_ite,
    ↓only_self, ite_self])

theorem Module.railEn_only {r : Nat} {on : Bool} (hS : [.nfree, .regs, .live, .snap, .pend, .defer, .rc, .ph,
    .rl, .adc, .cle, .tr] ⊆ S) :
    Only S m0 (m.railEn r on) ↔ Only S m0 m := Only.step hS (by
  unfold Module.railEn
  simp (disch := decide) only [↓Module.railEnable_only, ↓Module.railDisable_only, ↓only_ite, ↓only_self, ite_self])

theorem Module.railRelease_only {r : Nat} (hS : [.nfree, .regs, .live, .snap, .pend, .rc, .ph, .rl, .adc, .cle,
    .tr] ⊆ S) :
    Only S m0 (m.railRelease r) ↔ Only S m0 m := Only.step hS (by
  unfold Module.railRelease
  simp (disch := decide) only [↓Module.softStart_only, ↓Module.tryStart_only, ↓only_ite, ↓only_self, ite_self])

theorem Module.railShort_only {r : Nat} (hS : [.regs, .live, .good, .snap, .pend, .ctrs, .rc, .ph, .rl, .adc] ⊆
    S) :
    Only S m0 (m.railShort r) ↔ Only S m0 m := Only.step hS (by
  unfold Module.railShort
  simp (disch := decide) only [↓Module.raise_only, ↓Module.put_only, ↓Module.railHalt_only, ↓Module.fault_only,
    ↓Module.railLatch_only, ↓only_ite, ↓only_self, ite_self])

theorem Module.phaseEnable_only {n : Nat} (hS : [.regs, .live, .snap, .pend, .rc, .ph] ⊆ S) :
    Only S m0 (m.phaseEnable n) ↔ Only S m0 m := Only.step hS (by
  unfold Module.phaseEnable
  simp (disch := decide) only [↓Module.railUpd_only, ↓Module.phPins_only, ↓Module.updPh_only,
    ↓Module.setReg_only, ↓Module.phaseEnter_only, ↓only_ite, ↓only_self, ite_self])

theorem Module.phaseLeave_only {n : Nat} (hS : [.regs, .ph] ⊆ S) :
    Only S m0 (m.phaseLeave n) ↔ Only S m0 m := Only.step hS (by
  unfold Module.phaseLeave
  simp (disch := decide) only [↓Module.put_only, ↓Module.setPh_only, ↓only_ite, ↓only_self, ite_self])

theorem Module.phaseDisable_only {n : Nat} (hS : [.regs, .live, .snap, .pend, .ph] ⊆ S) :
    Only S m0 (m.phaseDisable n) ↔ Only S m0 m := Only.step hS (by
  unfold Module.phaseDisable
  simp (disch := decide) only [↓Module.railUpd_only, ↓Module.phPins_only, ↓Module.updPh_only,
    ↓Module.phaseLeave_only, ↓Module.applyOnStop_only, ↓Module.setReg_only, ↓only_ite, ↓only_self, ite_self])

theorem Module.phaseMoved_only {n old : Nat} (hS : [.regs, .ph] ⊆ S) :
    Only S m0 (m.phaseMoved n old) ↔ Only S m0 m := Only.step hS (by
  unfold Module.phaseMoved
  simp (disch := decide) only [↓Module.put_only, ↓Module.railUpd_only, ↓Module.dropPhase_only, ↓only_ite,
    ↓only_self, ite_self])

theorem Module.phasesJudge_only {r : Nat} (hS : [.regs, .live, .snap, .pend, .rc, .ph] ⊆ S) :
    Only S m0 (m.phasesJudge r) ↔ Only S m0 m := Only.step hS (by
  unfold Module.phasesJudge
  exact (only_foldl fun _ _ => by simp (disch := decide) only [↓Module.updPh_only, ↓Module.setPh_only,
    ↓Module.phaseEnter_only, ↓only_ite, ↓only_self, ite_self]).2 (Only.refl _ _))

theorem Module.phaseRelease_only {n b : Nat} (hS : [.regs, .live, .snap, .pend, .rc, .ph] ⊆ S) :
    Only S m0 (m.phaseRelease n b) ↔ Only S m0 m := Only.step hS (by
  unfold Module.phaseRelease
  simp (disch := decide) only [↓Module.put_only, ↓Module.railUpd_only, ↓Module.updPh_only, ↓Module.setPh_only,
    ↓Module.phaseEnter_only, ↓only_ite, ↓only_self, ite_self])

theorem Module.loopBoundary_only {r : Nat} (hS : [.live, .snap, .pend] ⊆ S) :
    Only S m0 (m.loopBoundary r) ↔ Only S m0 m := Only.step hS (by
  unfold Module.loopBoundary
  simp (disch := decide) only [↓Module.applyPend_only, ↓Module.applySnap_only, ↓only_self])

theorem Module.loopPairs_only {r : Nat} (hS : [.regs, .live, .good, .snap, .pend, .ctrs, .rc] ⊆ S) :
    Only S m0 (m.loopPairs r) ↔ Only S m0 m := Only.step hS (by
  unfold Module.loopPairs
  simp (disch := (intros; simp (decide := true) (disch := decide) only [↓Module.pairUse_only,
    ↓Module.usePairs_only, ↓Module.setReg_only, ↓Module.passed_only, ↓only_ite, ↓only_self, ite_self])) only
    [↓only_foldl, ↓Module.usePairs_only, ↓only_self])

theorem Module.loopRef_only {r : Nat} {yf vOld : Int} (hS : [.regs, .ph, .rl] ⊆ S) :
    Only S m0 (m.loopRef r yf vOld) ↔ Only S m0 m := Only.step hS (by
  unfold Module.loopRef
  simp (disch := decide) only [↓Module.probeAbort_only, ↓Module.updRl_only, ↓only_ite, ↓only_self, ite_self])

theorem Module.loopRampEnd_only {r : Nat} (hS : [.regs, .rl] ⊆ S) :
    Only S m0 (m.loopRampEnd r) ↔ Only S m0 m := Only.step hS (by
  unfold Module.loopRampEnd
  simp (disch := decide) only [↓Module.raise_only, ↓Module.put_only, ↓Module.updRl_only, ↓only_ite, ↓only_self,
    ite_self])

theorem Module.loopLevels_only {r : Nat} (hS : [.rl] ⊆ S) :
    Only S m0 (m.loopLevels r) ↔ Only S m0 m := Module.updRl_only hS

theorem Module.loopSense_only {r : Nat} {x : Sample} (hS : [.ph] ⊆ S) :
    Only S m0 (m.loopSense r x) ↔ Only S m0 m := Only.step hS (by
  unfold Module.loopSense
  exact (only_foldl fun _ _ => by simp (disch := decide) only [↓Module.updPh_only, ↓only_self]).2 (Only.refl _ _))

theorem Module.loopObserve_only {r : Nat} {yf : Int} (hS : [.nfree, .regs, .ph] ⊆ S) :
    Only S m0 (m.loopObserve r yf) ↔ Only S m0 m := Only.step hS (by
  unfold Module.loopObserve
  dsimp only
  exact (only_foldl fun _ _ => by (repeat' split) <;> simp (disch := decide) only [↓Module.draw_only,
    ↓Module.putI_only, ↓Module.updPh_only, ↓only_self]).2 (Only.refl _ _))

theorem Module.loopDiffer_only {r : Nat} (hS : [.ph] ⊆ S) :
    Only S m0 (m.loopDiffer r) ↔ Only S m0 m := Only.step hS (by
  unfold Module.loopDiffer
  exact (only_foldl fun _ _ => by simp (disch := decide) only [↓Module.updPh_only, ↓only_self]).2 (Only.refl _ _))

theorem Module.loopProbe_only {r : Nat} (hS : [.ph] ⊆ S) :
    Only S m0 (m.loopProbe r) ↔ Only S m0 m := Only.step hS (by
  unfold Module.loopProbe
  exact (only_foldl fun _ _ => by simp (disch := decide) only [↓Module.updPh_only, ↓only_ite, ↓only_self,
    ite_self]).2 (Only.refl _ _))

theorem Module.loopCurrent_only {r : Nat} (hS : [.regs, .rl] ⊆ S) :
    Only S m0 (m.loopCurrent r) ↔ Only S m0 m := Only.step hS (by
  unfold Module.loopCurrent
  exact (only_foldl fun _ _ => by simp (disch := decide) only [↓Module.putI_only, ↓only_self]).2 (by simp
    (disch := decide) only [↓Module.updRl_only, ↓Module.putI_only, ↓only_self]))

theorem Module.loopPreset_only {r : Nat} {yf : Int} (hS : [.rl] ⊆ S) :
    Only S m0 (m.loopPreset r yf) ↔ Only S m0 m := Only.step hS (by
  unfold Module.loopPreset
  simp (disch := decide) only [↓Module.updRl_only, ↓only_ite, ↓only_self, ite_self])

theorem Module.stateFix_only {s : LaneSlot} {w : Nat} (hS : [.ph, .rl] ⊆ S) :
    Only S m0 (m.stateFix s w) ↔ Only S m0 m := Only.step hS (by
  unfold Module.stateFix
  simp (disch := decide) only [↓Module.updRl_only, ↓Module.updPh_only, ↓only_ite, ↓only_self, ite_self])

theorem Module.loopPoison_only {r : Nat} {ws : List Nat} (hS : [.regs, .live, .good, .snap, .pend, .ctrs, .rc,
    .ph, .rl] ⊆ S) :
    Only S m0 (m.loopPoison r ws) ↔ Only S m0 m := Only.step hS (by
  unfold Module.loopPoison
  exact (only_foldl fun _ _ => by simp (disch := decide) only [↓Module.pairUse_only, ↓Module.raise_only,
    ↓Module.latchNow_only, ↓Module.stateFix_only, ↓Module.setReg_only, ↓only_self]).2 (by
    simp (disch := decide) only [↓only_self]))

theorem Module.loopVolt_only {r : Nat} {y : Int} (hS : [.regs, .rl] ⊆ S) :
    Only S m0 (m.loopVolt r y) ↔ Only S m0 m := Only.step hS (by
  unfold Module.loopVolt
  simp (disch := decide) only [↓Module.put_only, ↓Module.updRl_only, ↓only_self])

theorem Module.loopSlew_only {r : Nat} (hS : [.rl] ⊆ S) :
    Only S m0 (m.loopSlew r) ↔ Only S m0 m := Only.step hS (by
  unfold Module.loopSlew
  dsimp only
  (repeat' split) <;> simp (disch := decide) only [↓Module.updRl_only, ↓only_self])

theorem Module.loopCurr_only {r : Nat} (hS : [.regs, .rl] ⊆ S) :
    Only S m0 (m.loopCurr r) ↔ Only S m0 m := Only.step hS (by
  unfold Module.loopCurr
  simp (disch := decide) only [↓Module.put_only, ↓Module.loopSlew_only, ↓Module.updRl_only, ↓only_ite,
    ↓only_self, ite_self])

theorem Module.loopSat_only {r : Nat} (hS : [.regs] ⊆ S) :
    Only S m0 (m.loopSat r) ↔ Only S m0 m := Only.step hS (by
  unfold Module.loopSat
  simp (disch := decide) only [↓Module.countReg_only, ↓only_ite, ↓only_self, ite_self])

theorem Module.loopCeil_only {r : Nat} (hS : [.nfree, .regs] ⊆ S) :
    Only S m0 (m.loopCeil r) ↔ Only S m0 m := Only.step hS (by
  unfold Module.loopCeil
  dsimp only
  exact (only_foldl fun _ _ => by (repeat' split) <;> simp (disch := decide) only [↓Module.put_only,
    ↓Module.draw_only, ↓only_self]).2 (Only.refl _ _))

theorem Module.loopBal_only {r n : Nat} (hS : [.ph] ⊆ S) :
    Only S m0 (m.loopBal r n) ↔ Only S m0 m := Module.updPh_only hS

theorem Module.loopAdd_only {r : Nat} (hS : [.regs, .ph, .rl] ⊆ S) :
    Only S m0 (m.loopAdd r) ↔ Only S m0 m := Only.step hS (by
  unfold Module.loopAdd
  simp (disch := decide) only [↓Module.addPhase_only, ↓only_ite, ↓only_self, ite_self])

theorem Module.loopDwell_only {r : Nat} (hS : [.regs, .rl] ⊆ S) :
    Only S m0 (m.loopDwell r) ↔ Only S m0 m := Only.step hS (by
  unfold Module.loopDwell
  simp (disch := decide) only [↓Module.put_only, ↓Module.updRl_only, ↓only_ite, ↓only_self, ite_self])

theorem Module.loopStall_only {r : Nat} {yf : Int} (hS : [.rl] ⊆ S) :
    Only S m0 (m.loopStall r yf) ↔ Only S m0 m := Module.updRl_only hS

theorem Module.loopMeas_only {r : Nat} {yf : Int} (hS : [.regs] ⊆ S) :
    Only S m0 (m.loopMeas r yf) ↔ Only S m0 m := Only.step hS (by
  unfold Module.loopMeas
  simp (disch := decide) only [↓Module.put_only, ↓only_self])

theorem Module.loopCharge_only {r : Nat} (hS : [.regs, .bt] ⊆ S) :
    Only S m0 (m.loopCharge r) ↔ Only S m0 m := Only.step hS (by
  unfold Module.loopCharge
  (repeat' split) <;> simp (disch := decide) only [↓Module.setReg_only, ↓upd_bt_only, ↓only_self])

theorem Module.loopTake_only {r : Nat} {x : Sample} (hS : [.nfree, .regs, .live, .good, .snap, .pend, .ctrs,
    .rc, .ph, .rl] ⊆ S) :
    Only S m0 (m.loopTake r x).1 ↔ Only S m0 m := Only.step hS (by
  unfold Module.loopTake
  simp (disch := decide) only [↓Module.loopObserve_only, ↓Module.capUpd_only, ↓Module.updRl_only,
    ↓Module.loopPairs_only, ↓Module.allActive_only, ↓Module.loopSense_only, ↓Module.loopDiffer_only,
    ↓Module.loopBoundary_only, ↓only_self])

theorem Module.loopThr_only {r : Nat} (hS : [.adc] ⊆ S) :
    Only S m0 (m.loopThr r) ↔ Only S m0 m := Only.step hS (by
  unfold Module.loopThr
  simp (disch := decide) only [↓Module.railThr_only]
  exact (only_foldl fun _ _ => by simp (disch := decide) only [↓Module.phaseThr_only, ↓only_self]).2 (Only.refl
    _ _))

theorem Module.loopSample_only {r : Nat} {x : Sample} (hS : [.nfree, .regs, .live, .good, .snap, .pend, .ctrs,
    .rc, .out, .ph, .rl, .adc, .tr, .bt, .mem] ⊆ S) :
    Only S m0 (m.loopSample r x) ↔ Only S m0 m := Only.step hS (by
  unfold Module.loopSample
  simp (disch := (intros; simp (decide := true) (disch := decide) only [↓Module.loopTake_only,
    ↓Module.loopCurr_only, ↓Module.loopBal_only, ↓Module.loopRampEnd_only, ↓Module.ginNow_only,
    ↓Module.loopStall_only, ↓Module.loopCeil_only, ↓Module.loopSat_only, ↓Module.updRl_only,
    ↓Module.loopMeas_only, ↓Module.loopCharge_only, ↓Module.loopDwell_only, ↓Module.loopVolt_only,
    ↓Module.loopAdd_only, ↓Module.loopCurrent_only, ↓Module.loopRef_only, ↓Module.loopPoison_only,
    ↓Module.loopProbe_only, ↓Module.loopLevels_only, ↓Module.loopThr_only, ↓Module.loopPreset_only,
    ↓Module.trSample_only, ↓Module.arrive_only, ↓only_ite, ↓only_self, ite_self])) only [↓only_foldl,
    ↓Module.loopTake_only, ↓Module.loopCurr_only, ↓Module.loopRampEnd_only, ↓Module.ginNow_only,
    ↓Module.loopStall_only, ↓Module.loopCeil_only, ↓Module.loopSat_only, ↓Module.updRl_only,
    ↓Module.loopMeas_only, ↓Module.loopCharge_only, ↓Module.loopDwell_only, ↓Module.loopVolt_only,
    ↓Module.loopAdd_only, ↓Module.loopCurrent_only, ↓Module.loopRef_only, ↓Module.loopPoison_only,
    ↓Module.loopProbe_only, ↓Module.loopLevels_only, ↓Module.loopThr_only, ↓Module.loopPreset_only,
    ↓Module.trSample_only, ↓Module.arrive_only, ↓only_ite, ↓only_self, ite_self])

theorem Module.dutyRelease_only {r : Nat} (hS : [.ph, .rl] ⊆ S) :
    Only S m0 (m.dutyRelease r) ↔ Only S m0 m := Only.step hS (by
  unfold Module.dutyRelease
  simp (disch := (intros; simp (decide := true) (disch := decide) only [↓Module.updRl_only, ↓Module.updPh_only,
    ↓only_ite, ↓only_self, ite_self])) only [↓only_foldl, ↓Module.updRl_only, ↓only_ite, ↓only_self, ite_self])

theorem Module.truncOn_only {r : Nat} {x : Int} (hS : [.nfree, .regs, .ph, .rl, .adc, .tr] ⊆ S) :
    Only S m0 (m.truncOn r x) ↔ Only S m0 m := Only.step hS (by
  unfold Module.truncOn
  simp (disch := decide) only [↓Module.railThr_only, ↓Module.updRl_only, ↓Module.truncSync_only, ↓only_ite,
    ↓only_self, ite_self])

theorem Module.truncOff_only {r : Nat} {x : Int} (hS : [.nfree, .regs, .ph, .rl, .adc, .tr] ⊆ S) :
    Only S m0 (m.truncOff r x) ↔ Only S m0 m := Only.step hS (by
  unfold Module.truncOff
  simp (disch := decide) only [↓Module.railThr_only, ↓Module.updRl_only, ↓Module.truncSync_only, ↓only_ite,
    ↓only_self, ite_self])

theorem Module.overVolt_only {r : Nat} (hS : [.nfree, .regs, .live, .good, .snap, .pend, .ctrs, .rc, .ph, .rl,
    .adc, .tr] ⊆ S) :
    Only S m0 (m.overVolt r) ↔ Only S m0 m := Only.step hS (by
  unfold Module.overVolt
  simp (disch := decide) only [↓Module.raise_only, ↓Module.trFault_only, ↓Module.fault_only,
    ↓Module.railLatch_only, ↓only_ite, ↓only_self, ite_self])

theorem Module.cbcCount_only {n : Nat} (hS : [.nfree, .regs, .live, .good, .snap, .pend, .ctrs, .rc, .ph, .tr] ⊆
    S) :
    Only S m0 (m.cbcCount n) ↔ Only S m0 m := Only.step hS (by
  unfold Module.cbcCount
  simp (disch := decide) only [↓Module.raise_only, ↓Module.railUpd_only, ↓Module.probeAbort_only,
    ↓Module.trFault_only, ↓Module.spareIn_only, ↓Module.fault_only, ↓Module.countReg_only, ↓Module.updPh_only,
    ↓Module.setPh_only, ↓only_ite, ↓only_self, ite_self])

theorem Module.cbcTrip_only {n : Nat} {x : Crossing} (hS : [.nfree, .regs, .live, .good, .snap, .pend, .ctrs,
    .rc, .ph, .tr] ⊆ S) :
    Only S m0 (m.cbcTrip n x) ↔ Only S m0 m := Only.step hS (by
  unfold Module.cbcTrip
  simp (disch := decide) only [↓Module.cbcCount_only, ↓only_ite, ↓only_self, ite_self])

theorem Module.negTrip_only {n : Nat} {x : Crossing} (hS : [.nfree, .regs, .live, .good, .snap, .pend, .ctrs,
    .rc, .ph, .tr] ⊆ S) :
    Only S m0 (m.negTrip n x) ↔ Only S m0 m := Only.step hS (by
  unfold Module.negTrip
  simp (disch := decide) only [↓Module.phPins_only, ↓Module.updPh_only, ↓Module.cbcCount_only, ↓only_ite,
    ↓only_self, ite_self])

theorem Module.uvFalls_only {r : Nat} {x : Int} (hS : [.rl] ⊆ S) :
    Only S m0 (m.uvFalls r x) ↔ Only S m0 m := Only.step hS (by
  unfold Module.uvFalls
  simp (disch := decide) only [↓Module.updRl_only, ↓only_ite, ↓only_self, ite_self])

theorem Module.uvRises_only {r : Nat} {x : Int} (hS : [.regs, .rl] ⊆ S) :
    Only S m0 (m.uvRises r x) ↔ Only S m0 m := Only.step hS (by
  unfold Module.uvRises
  simp (disch := decide) only [↓Module.put_only, ↓Module.updRl_only, ↓only_ite, ↓only_self, ite_self])

theorem Module.underVolt_only {r : Nat} (hS : [.nfree, .regs, .live, .good, .snap, .pend, .ctrs, .rc, .ph, .rl,
    .adc, .tr] ⊆ S) :
    Only S m0 (m.underVolt r) ↔ Only S m0 m := Only.step hS (by
  unfold Module.underVolt
  simp (disch := decide) only [↓Module.raise_only, ↓Module.put_only, ↓Module.trFault_only, ↓Module.fault_only,
    ↓Module.railLatch_only, ↓only_ite, ↓only_self, ite_self])

theorem Module.dropReady_only {r : Nat} (hS : [.regs] ⊆ S) :
    Only S m0 (m.dropReady r) ↔ Only S m0 m := Only.step hS (by
  unfold Module.dropReady
  simp (disch := decide) only [↓Module.put_only, ↓only_ite, ↓only_self, ite_self])

theorem Module.shortDeclared_only {r : Nat} (hS : [.nfree, .regs, .live, .good, .snap, .pend, .ctrs, .rc, .ph,
    .rl, .adc, .tr] ⊆ S) :
    Only S m0 (m.shortDeclared r) ↔ Only S m0 m := Only.step hS (by
  unfold Module.shortDeclared
  simp (disch := decide) only [↓Module.railShort_only, ↓Module.trFault_only, ↓only_self])

theorem Module.ssStall_only {r : Nat} (hS : [.nfree, .regs, .live, .good, .snap, .pend, .ctrs, .rc, .ph, .rl,
    .adc, .tr] ⊆ S) :
    Only S m0 (m.ssStall r) ↔ Only S m0 m := Only.step hS (by
  unfold Module.ssStall
  simp (disch := decide) only [↓Module.shortDeclared_only, ↓only_ite, ↓only_self, ite_self])

theorem Module.ssCbc_only {r : Nat} (hS : [.nfree, .regs, .live, .good, .snap, .pend, .ctrs, .rc, .ph, .rl,
    .adc, .tr] ⊆ S) :
    Only S m0 (m.ssCbc r) ↔ Only S m0 m := Only.step hS (by
  unfold Module.ssCbc
  simp (disch := decide) only [↓Module.shortDeclared_only, ↓only_ite, ↓only_self, ite_self])

theorem Module.shortRetry_only {r : Nat} (hS : [.nfree, .regs, .live, .snap, .pend, .rc, .ph, .rl, .adc, .tr] ⊆
    S) :
    Only S m0 (m.shortRetry r) ↔ Only S m0 m := Only.step hS (by
  unfold Module.shortRetry
  simp (disch := decide) only [↓Module.softStart_only, ↓only_ite, ↓only_self, ite_self])

theorem Module.probeStart_only {n : Nat} (hS : [.regs, .ph, .rl] ⊆ S) :
    Only S m0 (m.probeStart n) ↔ Only S m0 m := Only.step hS (by
  unfold Module.probeStart
  simp (disch := decide) only [↓Module.updPh_only, ↓Module.setPh_only, ↓Module.pulseStart_only, ↓only_ite,
    ↓only_self, ite_self])

theorem Module.phaseOpen_only {n : Nat} (hS : [.regs, .live, .snap, .pend, .rc, .ph] ⊆ S) :
    Only S m0 (m.phaseOpen n) ↔ Only S m0 m := Only.step hS (by
  unfold Module.phaseOpen
  simp (disch := decide) only [↓Module.updPh_only, ↓Module.raise_only, ↓Module.latchNow_only, ↓only_self])

theorem Module.probeResp_only {n : Nat} (hS : [.nfree] ⊆ S) :
    Only S m0 (m.probeResp n).2 ↔ Only S m0 m := Only.step hS (by
  unfold Module.probeResp
  dsimp only
  (repeat' split) <;> simp (disch := decide) only [↓Module.draw_only, ↓only_self])

theorem Module.probeDone_only {n : Nat} (hS : [.nfree, .regs, .live, .snap, .pend, .rc, .ph] ⊆ S) :
    Only S m0 (m.probeDone n) ↔ Only S m0 m := Only.step hS (by
  unfold Module.probeDone
  simp (disch := decide) only [↓Module.raise_only, ↓Module.put_only, ↓Module.phaseOpen_only,
    ↓Module.probeResp_only, ↓Module.putI_only, ↓Module.updPh_only, ↓Module.senseFail_only, ↓Module.setPh_only,
    ↓only_ite, ↓only_self, ite_self])

theorem Module.dtAdapt_only {r mean : Nat} (hS : [.regs, .rl] ⊆ S) :
    Only S m0 (m.dtAdapt r mean) ↔ Only S m0 m := Only.step hS (by
  unfold Module.dtAdapt
  simp (disch := decide) only [↓Module.updRl_only, ↓Module.put_only, ↓only_ite, ↓only_self, ite_self])

theorem Module.periodTake_only {r : Nat} (hS : [.regs, .live, .snap, .pend, .rc, .ph] ⊆ S) :
    Only S m0 (m.periodTake r) ↔ Only S m0 m := Only.step hS (by
  unfold Module.periodTake
  simp (disch := decide) only [↓Module.railUpd_only, ↓Module.phasesJudge_only, ↓Module.applyPend_only,
    ↓Module.dtApply_only]
  exact (only_foldl fun _ _ => by simp (disch := decide) only [↓Module.boundary_only, ↓only_self]).2 (by
    simp (disch := decide) only [↓only_self]))

theorem Module.periodFlags_only {r : Nat} (hS : [.regs, .ph] ⊆ S) :
    Only S m0 (m.periodFlags r) ↔ Only S m0 m := Only.step hS (by
  unfold Module.periodFlags
  exact (only_foldl fun _ _ => by simp (disch := decide) only [↓Module.put_only, ↓Module.updPh_only,
    ↓only_self]).2 (Only.refl _ _))

theorem Module.periodMoves_only {r : Nat} (hS : [.regs, .ph] ⊆ S) :
    Only S m0 (m.periodMoves r) ↔ Only S m0 m := Only.step hS (by
  unfold Module.periodMoves
  simp (disch := (intros; simp (decide := true) (disch := decide) only [↓Module.railUpd_only,
    ↓Module.probeAbort_only, ↓Module.openPhase_only, ↓Module.dropPhase_only, ↓Module.updPh_only,
    ↓Module.setPh_only, ↓only_ite, ↓only_self, ite_self])) only [↓only_foldl, ↓only_self])

theorem Module.railPeriod_only {r : Nat} (hS : [.regs, .live, .snap, .pend, .rc, .ph] ⊆ S) :
    Only S m0 (m.railPeriod r) ↔ Only S m0 m := Only.step hS (by
  unfold Module.railPeriod
  simp (disch := decide) only [↓Module.periodFlags_only, ↓Module.refresh_only, ↓Module.spaceOut_only,
    ↓Module.periodMoves_only, ↓Module.periodTake_only, ↓only_ite, ↓only_self, ite_self])

theorem Module.ginSet_only {i : Nat} {on : Bool} (hS : [.nfree, .regs, .ph, .rl, .adc, .tr] ⊆ S) :
    Only S m0 (m.ginSet i on) ↔ Only S m0 m := Only.step hS (by
  unfold Module.ginSet
  simp (disch := decide) only [↓Module.truncSyncAll_only, ↓with_adc_only, ↓only_self])

theorem Module.ginHi_only {i : Nat} {x : Int} (hS : [.nfree, .regs, .ph, .rl, .adc, .tr] ⊆ S) :
    Only S m0 (m.ginHi i x) ↔ Only S m0 m := Only.step hS (by
  unfold Module.ginHi
  simp (disch := decide) only [↓Module.raise_only, ↓Module.ginSet_only, ↓Module.trGin_only, ↓only_ite,
    ↓only_self, ite_self])

theorem Module.ginHiEnd_only {i : Nat} {x : Int} (hS : [.nfree, .regs, .ph, .rl, .adc, .tr] ⊆ S) :
    Only S m0 (m.ginHiEnd i x) ↔ Only S m0 m := Only.step hS (by
  unfold Module.ginHiEnd
  simp (disch := decide) only [↓Module.ginSet_only, ↓only_ite, ↓only_self, ite_self])

theorem Module.ginLo_only {i : Nat} {x : Int} (hS : [.nfree, .regs, .tr] ⊆ S) :
    Only S m0 (m.ginLo i x) ↔ Only S m0 m := Only.step hS (by
  unfold Module.ginLo
  simp (disch := decide) only [↓Module.raise_only, ↓Module.trGin_only, ↓only_ite, ↓only_self, ite_self])

theorem Module.calSet_only {c : Nat} {off gain : Int} (hS : [.regs] ⊆ S) :
    Only S m0 (m.calSet c off gain) ↔ Only S m0 m := Module.setTbl_only hS

theorem Module.calSlot_only {c : Nat} (hS : [.regs, .adc] ⊆ S) :
    Only S m0 (m.calSlot c) ↔ Only S m0 m := Only.step hS (by
  unfold Module.calSlot
  simp (disch := decide) only [↓Module.put_only, ↓with_adc_only, ↓only_ite, ↓only_self, ite_self])

theorem Module.calStep_only {c : Nat} (hS : [.regs, .adc] ⊆ S) :
    Only S m0 (m.calStep c) ↔ Only S m0 m := Only.step hS (by
  unfold Module.calStep
  simp (disch := decide) only [↓Module.calSlot_only, ↓Module.put_only, ↓only_ite, ↓only_self, ite_self])

theorem Module.spareFail_only (hS : [.regs, .live, .snap, .pend, .rc, .adc] ⊆ S) :
    Only S m0 (m.spareFail) ↔ Only S m0 m := Only.step hS (by
  unfold Module.spareFail
  simp (disch := decide) only [↓Module.raise_only, ↓Module.put_only, ↓Module.latchNow_only, ↓with_adc_only,
    ↓only_self])

theorem Module.rollSlotEnd_only {off gain : Int} {span : Nat} (hS : [.regs, .live, .snap, .pend, .rc, .adc] ⊆ S)
    :
    Only S m0 (m.rollSlotEnd off gain span) ↔ Only S m0 m := Only.step hS (by
  unfold Module.rollSlotEnd
  simp (disch := decide) only [↓Module.raise_only, ↓Module.applyPend_only, ↓Module.calSet_only,
    ↓Module.calStep_only, ↓Module.spareFail_only, ↓with_adc_only, ↓only_ite, ↓only_self, ite_self])

theorem Module.calAsk_only {v : W32} (hS : [.adc] ⊆ S) :
    Only S m0 (m.calAsk v) ↔ Only S m0 m := Only.step hS (by
  unfold Module.calAsk
  simp (disch := decide) only [↓with_adc_only, ↓only_ite, ↓only_self, ite_self])

theorem Module.convUncarried_only {c : Nat} (hS : [.regs, .live, .snap, .pend, .ph, .rl, .adc] ⊆ S) :
    Only S m0 (m.convUncarried c) ↔ Only S m0 m := Only.step hS (by
  unfold Module.convUncarried
  simp (disch := decide) only [↓Module.railLatch_only, ↓only_ite, ↓only_self, ite_self])

theorem Module.convFail_only {c : Nat} (hS : [.regs, .live, .snap, .pend, .rc, .ph, .rl, .adc] ⊆ S) :
    Only S m0 (m.convFail c) ↔ Only S m0 m := Only.step hS (by
  unfold Module.convFail
  simp (disch := decide) only [↓Module.raise_only, ↓Module.put_only, ↓Module.setReg_only, ↓Module.latchNow_only,
    ↓Module.convUncarried_only, ↓with_adc_only, ↓only_ite, ↓only_self, ite_self])

theorem Module.refCalDone_only {off gain : Int} {spareOk : Bool} (hS : [.regs, .live, .snap, .pend, .rc, .ph,
    .rl, .adc] ⊆ S) :
    Only S m0 (m.refCalDone off gain spareOk) ↔ Only S m0 m := Only.step hS (by
  unfold Module.refCalDone
  (repeat' split) <;> simp (disch := decide) only [↓Module.put_only, ↓Module.calStep_only, ↓Module.calSet_only,
    ↓Module.spareFail_only, ↓Module.convFail_only, ↓with_adc_only, ↓only_ite, ↓only_self, ite_self])

theorem Module.convRelease_only (hS : [.regs, .adc] ⊆ S) :
    Only S m0 (m.convRelease) ↔ Only S m0 m := Only.step hS (by
  unfold Module.convRelease
  simp (disch := decide) only [↓Module.put_only, ↓Module.setReg_only, ↓with_adc_only, ↓only_ite, ↓only_self,
    ite_self])

theorem Module.spareRelease_only (hS : [.regs, .adc] ⊆ S) :
    Only S m0 (m.spareRelease) ↔ Only S m0 m := Only.step hS (by
  unfold Module.spareRelease
  simp (disch := decide) only [↓Module.put_only, ↓with_adc_only, ↓only_self])

theorem Module.monClear_only {i : Nat} (hS : [.regs, .adc] ⊆ S) :
    Only S m0 (m.monClear i) ↔ Only S m0 m := Only.step hS (by
  unfold Module.monClear
  simp (disch := decide) only [↓Module.setReg_only, ↓Module.setTbl_only, ↓with_adc_only, ↓only_self])

theorem Module.monJudge_only {i map ev a b : Nat} {beyond : Bool} (hS : [.regs, .live, .snap, .pend, .rc] ⊆ S) :
    Only S m0 (m.monJudge i map ev a b beyond).1 ↔ Only S m0 m := Only.step hS (by
  unfold Module.monJudge
  dsimp only
  (repeat' split) <;> simp (disch := decide) only [↓Module.raiseRec_only, ↓Module.setReg_only, ↓only_self])

theorem Module.monBits_only {off : Nat} {sel : W32} (hS : [.live, .pend] ⊆ S) :
    Only S m0 (m.monBits off sel) ↔ Only S m0 m := Only.step hS (by
  unfold Module.monBits
  simp (disch := decide) only [↓Module.force_only, ↓with_pend_only, ↓only_ite, ↓only_self, ite_self])

theorem Module.monTake_only {i : Nat} (hS : [.live, .pend] ⊆ S) :
    Only S m0 (m.monTake i) ↔ Only S m0 m := Only.step hS (by
  unfold Module.monTake
  simp (disch := decide) only [↓Module.monBits_only, ↓Module.applyPend_only, ↓only_self])

theorem Module.monReading_only {i v : Nat} (hS : [.regs, .live, .good, .snap, .pend, .ctrs, .rc, .adc] ⊆ S) :
    Only S m0 (m.monReading i v) ↔ Only S m0 m := Only.step hS (by
  unfold Module.monReading
  simp (disch := decide) only [↓Module.monTake_only, ↓Module.setTbl_only, ↓Module.monJudge_only,
    ↓Module.useWords_only, ↓with_adc_only, ↓only_ite, ↓only_self, ite_self])

theorem Module.monWritten_only {old : W32} (hS : [.regs, .adc] ⊆ S) :
    Only S m0 (m.monWritten old) ↔ Only S m0 m := Only.step hS (by
  unfold Module.monWritten
  exact (only_foldl fun _ _ => by simp (disch := decide) only [↓Module.monClear_only, ↓only_ite, ↓only_self,
    ite_self]).2 (Only.refl _ _))

theorem Module.chSet_only {c code tag st : Nat} (hS : [.regs, .live] ⊆ S) :
    Only S m0 (m.chSet c code tag st) ↔ Only S m0 m := Only.step hS (by
  unfold Module.chSet
  simp (disch := decide) only [↓Module.put_only, ↓Module.setBoth_only, ↓only_self])

theorem Module.chDenied_only {p : Nat} (hS : [.regs] ⊆ S) :
    Only S m0 (m.chDenied p) ↔ Only S m0 m := Only.step hS (by
  unfold Module.chDenied
  simp (disch := decide) only [↓Module.count_only, ↓Module.raise_only, ↓only_self])

theorem Module.chBusy_only {p : Nat} (hS : [.regs] ⊆ S) :
    Only S m0 (m.chBusy p) ↔ Only S m0 m := Only.step hS (by
  unfold Module.chBusy
  simp (disch := decide) only [↓Module.count_only, ↓Module.raise_only, ↓only_self])

theorem Module.cluWake_only {c : Nat} (hS : [.sched] ⊆ S) :
    Only S m0 (m.cluWake c) ↔ Only S m0 m := Only.step hS (by
  unfold Module.cluWake
  simp (disch := decide) only [↓with_schedKeep_only, ↓only_ite, ↓only_self, ite_self])

theorem Module.cluMailFail_only {c : Nat} (hS : [.regs, .live, .rings] ⊆ S) :
    Only S m0 (m.cluMailFail c) ↔ Only S m0 m := Only.step hS (by
  unfold Module.cluMailFail
  exact (only_foldl fun _ _ => by simp (disch := decide) only [↓Module.chSet_only, ↓with_rings_only, ↓only_ite,
    ↓only_self, ite_self]).2 (Only.refl _ _))

theorem Module.chDeliver_only {c : Nat} {v : W32} (hS : [.regs, .live, .sched] ⊆ S) :
    Only S m0 (m.chDeliver c v) ↔ Only S m0 m := Only.step hS (by
  unfold Module.chDeliver
  simp (disch := decide) only [↓Module.cluWake_only, ↓Module.raise_only, ↓Module.chSet_only, ↓only_ite,
    ↓only_self, ite_self])

theorem Module.chRing_only {c : Nat} {v : W32} (hS : [.regs, .live, .sched, .rings] ⊆ S) :
    Only S m0 (m.chRing c v) ↔ Only S m0 m := Only.step hS (by
  unfold Module.chRing
  simp (disch := decide) only [↓Module.chDeliver_only, ↓Module.setBoth_only, ↓with_rings_only, ↓only_ite,
    ↓only_self, ite_self])

theorem Module.chResume_only (hS : [.regs, .live, .sched, .rings] ⊆ S) :
    Only S m0 (m.chResume) ↔ Only S m0 m := Only.step hS (by
  unfold Module.chResume
  exact (only_foldl fun _ _ => by simp (disch := decide) only [↓Module.chDeliver_only, ↓only_self]).2 (by simp
    (disch := decide) only [↓with_rings_only, ↓only_self]))

theorem Module.chAck_only {c : Nat} {h l : W32} (hS : [.regs, .live] ⊆ S) :
    Only S m0 (m.chAck c h l) ↔ Only S m0 m := Only.step hS (by
  unfold Module.chAck
  simp (disch := decide) only [↓Module.raise_only, ↓Module.chSet_only, ↓only_ite, ↓only_self, ite_self])

theorem Module.placeStat_only {b : Nat} {on : Bool} (hS : [.regs] ⊆ S) :
    Only S m0 (m.placeStat b on) ↔ Only S m0 m := Module.put_only hS

theorem Module.evalN1_only (hS : [.regs] ⊆ S) :
    Only S m0 (m.evalN1) ↔ Only S m0 m := Only.step hS (by
  unfold Module.evalN1
  simp (disch := decide) only [↓Module.raise_only, ↓Module.put_only, ↓Module.placeStat_only, ↓only_ite,
    ↓only_self, ite_self])

theorem Module.taskMove_only {t c : Nat} (hS : [.regs, .sched] ⊆ S) :
    Only S m0 (m.taskMove t c) ↔ Only S m0 m := Only.step hS (by
  unfold Module.taskMove
  simp (disch := simp) only [↓Module.raise_only, ↓Module.updTask_only, ↓Module.countReg_only, ↓only_ite,
    ↓only_self, ite_self])

theorem Module.unpin_only (hS : [.sched] ⊆ S) :
    Only S m0 (m.unpin) ↔ Only S m0 m := Only.step hS (by
  unfold Module.unpin
  exact (only_foldl fun _ _ => by simp (disch := simp) only [↓Module.updTask_only, ↓only_self]).2 (by simp
    (disch := simp) only [↓only_self]))

theorem Module.packNow_only (hS : [.regs, .live, .snap, .pend, .rc, .sched] ⊆ S) :
    Only S m0 (m.packNow) ↔ Only S m0 m := Only.step hS (by
  unfold Module.packNow
  simp (disch := simp) only [↓Module.evalN1_only]
  exact (only_foldl fun _ _ => by simp (disch := simp) only [↓Module.cluWake_only, ↓Module.updTask_only,
    ↓only_ite, ↓only_self, ite_self]).2 (by simp (disch := simp) only [↓Module.raiseRec_only, ↓Module.unpin_only,
    ↓Module.placeStat_only, ↓only_ite, ↓only_self, ite_self]))

theorem Module.repack_only (hS : [.regs, .live, .snap, .pend, .rc, .sched] ⊆ S) :
    Only S m0 (m.repack) ↔ Only S m0 m := Only.step hS (by
  unfold Module.repack
  simp (disch := decide) only [↓Module.packNow_only, ↓with_schedKeep_only, ↓only_ite, ↓only_self, ite_self])

theorem Module.packLate_only (hS : [.regs, .live, .snap, .pend, .rc, .sched] ⊆ S) :
    Only S m0 (m.packLate) ↔ Only S m0 m := Only.step hS (by
  unfold Module.packLate
  simp (disch := decide) only [↓Module.packNow_only, ↓with_schedKeep_only, ↓only_ite, ↓only_self, ite_self])

theorem Module.checkLoads_only (hS : [.regs, .live, .snap, .pend, .rc, .sched] ⊆ S) :
    Only S m0 (m.checkLoads) ↔ Only S m0 m := Only.step hS (by
  unfold Module.checkLoads
  simp (disch := decide) only [↓Module.evalN1_only, ↓Module.repack_only, ↓only_ite, ↓only_self, ite_self])

theorem Module.taskAbort_only {t reason : Nat} (hS : [.regs, .sched] ⊆ S) :
    Only S m0 (m.taskAbort t reason) ↔ Only S m0 m := Only.step hS (by
  unfold Module.taskAbort
  simp (disch := simp) only [↓Module.put_only, ↓Module.updTask_only, ↓only_self])

theorem Module.taskDrop_only {t reason : Nat} (hS : [.regs, .live, .good, .snap, .pend, .ctrs, .rc, .sched,
    .falls, .ep] ⊆ S) :
    Only S m0 (m.taskDrop t reason) ↔ Only S m0 m := Only.step hS (by
  unfold Module.taskDrop
  simp (disch := decide) only [↓Module.raise_only, ↓Module.fault_only, ↓Module.updTask_falls_only,
    ↓Module.countReg_only, ↓Module.taskAbort_only, ↓with_ep_only, ↓only_ite, ↓only_self, ite_self])

theorem Module.policyMove_only {t c : Nat} (hS : [.regs, .ctrs, .sched] ⊆ S) :
    Only S m0 (m.policyMove t c) ↔ Only S m0 m := Only.step hS (by
  unfold Module.policyMove
  simp (disch := simp) only [↓Module.cluWake_only, ↓Module.clearCtr_only, ↓Module.taskMove_only,
    ↓Module.updTask_only, ↓only_ite, ↓only_self, ite_self])

theorem Module.cluReady_only {c : Nat} (hS : [.regs, .live, .snap, .pend, .rc, .sched] ⊆ S) :
    Only S m0 (m.cluReady c) ↔ Only S m0 m := Only.step hS (by
  unfold Module.cluReady
  simp (disch := decide) only [↓Module.repack_only, ↓with_schedKeep_only, ↓only_ite, ↓only_self, ite_self])

theorem Module.cluGate_only (hS : [.regs, .sched] ⊆ S) :
    Only S m0 (m.cluGate) ↔ Only S m0 m := Only.step hS (by
  unfold Module.cluGate
  simp (disch := (intros; simp (decide := true) (disch := decide) only [↓Module.placeStat_only,
    ↓with_schedKeep_only, ↓only_ite, ↓only_self, ite_self])) only [↓only_foldl, ↓Module.placeStat_only, ↓only_ite,
    ↓only_self, ite_self])

theorem Module.cluWakeAll_only (hS : [.sched] ⊆ S) :
    Only S m0 (m.cluWakeAll) ↔ Only S m0 m := Only.step hS (by
  unfold Module.cluWakeAll
  exact (only_foldl fun _ _ => by simp (disch := decide) only [↓Module.cluWake_only, ↓only_self]).2 (Only.refl _ _))

theorem Module.bistAsk_only {c : Nat} (hS : [.regs, .live, .snap, .pend, .rc, .sched] ⊆ S) :
    Only S m0 (m.bistAsk c).1 ↔ Only S m0 m := Only.step hS (by
  unfold Module.bistAsk
  dsimp only
  (repeat' split) <;> simp (disch := decide) only [↓Module.cluWake_only, ↓Module.raise_only, ↓Module.put_only,
    ↓Module.repack_only, ↓with_schedKeep_only, ↓only_self])

theorem Module.bistIsolate_only {c : Nat} (hS : [.sched] ⊆ S) :
    Only S m0 (m.bistIsolate c) ↔ Only S m0 m := Only.step hS (by
  unfold Module.bistIsolate
  simp (disch := decide) only [↓with_schedKeep_only, ↓only_ite, ↓only_self, ite_self])

theorem Module.bistEnd_only {c : Nat} {pass : Bool} (hS : [.regs, .live, .snap, .pend, .rc, .sched, .rings] ⊆ S)
    :
    Only S m0 (m.bistEnd c pass) ↔ Only S m0 m := Only.step hS (by
  unfold Module.bistEnd
  simp (disch := decide) only [↓Module.cluWake_only, ↓Module.raise_only, ↓Module.put_only,
    ↓Module.latchNow_only, ↓Module.repack_only, ↓Module.raiseRec_only, ↓Module.evalN1_only,
    ↓Module.cluMailFail_only, ↓Module.setReg_only, ↓with_schedKeep_only, ↓only_ite, ↓only_self, ite_self])

theorem Module.bistAbort_only (hS : [.sched] ⊆ S) :
    Only S m0 (m.bistAbort) ↔ Only S m0 m := Only.step hS (by
  unfold Module.bistAbort
  dsimp only
  (repeat' split) <;> simp (disch := decide) only [↓with_schedKeep_only, ↓only_self])

theorem Module.rotAsk_only {c : Nat} (hS : [.regs, .live, .snap, .pend, .rc, .sched] ⊆ S) :
    Only S m0 (m.rotAsk c) ↔ Only S m0 m := Only.step hS (by
  unfold Module.rotAsk
  simp (disch := decide) only [↓Module.bistAsk_only, ↓with_schedKeep_only, ↓only_self])

theorem Module.rotExpire_only (hS : [.regs, .live, .snap, .pend, .rc, .sched] ⊆ S) :
    Only S m0 (m.rotExpire) ↔ Only S m0 m := Only.step hS (by
  unfold Module.rotExpire
  simp (disch := decide) only [↓Module.rotAsk_only, ↓with_schedKeep_only, ↓only_ite, ↓only_self, ite_self])

theorem Module.rotRetry_only (hS : [.regs, .live, .snap, .pend, .rc, .sched] ⊆ S) :
    Only S m0 (m.rotRetry) ↔ Only S m0 m := Only.step hS (by
  unfold Module.rotRetry
  (repeat' split) <;> simp (disch := decide) only [↓Module.rotAsk_only, ↓only_self])

theorem Module.rotChange_only {old : Nat} (hS : [.sched] ⊆ S) :
    Only S m0 (m.rotChange old) ↔ Only S m0 m := Only.step hS (by
  unfold Module.rotChange
  simp (disch := decide) only [↓with_schedKeep_only, ↓only_ite, ↓only_self, ite_self])

theorem Module.tbSrc_only {src : Nat} (hS : [.regs] ⊆ S) :
    Only S m0 (m.tbSrc src) ↔ Only S m0 m := Module.put_only hS

theorem Module.tbUpdate_only {hold : Bool} (hS : [.regs, .sched] ⊆ S) :
    Only S m0 (m.tbUpdate hold) ↔ Only S m0 m := Only.step hS (by
  unfold Module.tbUpdate
  simp (disch := decide) only [↓Module.tbSrc_only, ↓with_schedKeep_only, ↓only_self])

theorem Module.tbLeave_only (hS : [.regs, .sched] ⊆ S) :
    Only S m0 (m.tbLeave) ↔ Only S m0 m := Only.step hS (by
  unfold Module.tbLeave
  simp (disch := decide) only [↓Module.put_only, ↓with_schedKeep_only, ↓only_self])

theorem Module.tbWritten_only {was : Bool} (hS : [.regs, .sched] ⊆ S) :
    Only S m0 (m.tbWritten was) ↔ Only S m0 m := Only.step hS (by
  unfold Module.tbWritten
  simp (disch := decide) only [↓Module.tbUpdate_only, ↓Module.tbLeave_only, ↓with_schedKeep_only, ↓only_ite,
    ↓only_self, ite_self])

theorem Module.updTh_only {f : Therm → Therm} (hS : [.th] ⊆ S) :
    Only S m0 (m.updTh f) ↔ Only S m0 m := Only.step hS (by
  unfold Module.updTh
  simp (disch := decide) only [↓with_th_only, ↓only_self])

theorem Module.tsFlag_only {i b : Nat} {on : Bool} (hS : [.regs] ⊆ S) :
    Only S m0 (m.tsFlag i b on) ↔ Only S m0 m := Module.setTbl_only hS

theorem Module.tsReport_only {i : Nat} {ahead : Bool} (hS : [.regs] ⊆ S) :
    Only S m0 (m.tsReport i ahead) ↔ Only S m0 m := Module.setTbl_only hS

theorem Module.thermLimits_only {i : Nat} {warn hot t : Int} (hS : [.regs, .live, .snap, .pend, .rc, .th] ⊆ S) :
    Only S m0 (m.thermLimits i warn hot t) ↔ Only S m0 m := Only.step hS (by
  unfold Module.thermLimits
  simp (disch := decide) only [↓Module.raise_only, ↓Module.put_only, ↓Module.latchNow_only, ↓Module.updTh_only,
    ↓only_ite, ↓only_self, ite_self])

theorem Module.tsReading_only {i x : Nat} (hS : [.regs, .live, .good, .snap, .pend, .ctrs, .rc, .th] ⊆ S) :
    Only S m0 (m.tsReading i x) ↔ Only S m0 m := Only.step hS (by
  unfold Module.tsReading
  (repeat' split) <;> simp (disch := decide) only [↓Module.raise_only, ↓Module.thermLimits_only,
    ↓Module.latchNow_only, ↓Module.setTbl_only, ↓Module.useWords_only, ↓Module.updTh_only, ↓Module.tsReport_only,
    ↓Module.tsFlag_only, ↓only_ite, ↓only_self, ite_self])

theorem Module.ringRound_only {counts : List Nat} (hS : [.regs, .th] ⊆ S) :
    Only S m0 (m.ringRound counts) ↔ Only S m0 m := Only.step hS (by
  unfold Module.ringRound
  simp (disch := decide) only [↓Module.updTh_only]
  exact (only_foldl fun _ _ => by simp (disch := decide) only [↓Module.setTbl_only, ↓only_self]).2 (by simp
    (disch := decide) only [↓Module.updTh_only, ↓only_self]))

theorem Module.dieRound_only {otp : List Int} (hS : [.regs] ⊆ S) :
    Only S m0 (m.dieRound otp) ↔ Only S m0 m := Only.step hS (by
  unfold Module.dieRound
  simp (disch := decide) only [↓Module.put_only, ↓only_self])

theorem Module.ranges_only (hS : [.regs, .rc] ⊆ S) :
    Only S m0 (m.ranges) ↔ Only S m0 m := Only.step hS (by
  unfold Module.ranges
  simp (disch := decide) only [↓Module.raise_only, ↓Module.put_only, ↓with_rc_only, ↓only_ite, ↓only_self,
    ite_self])

theorem Module.thermRound_only {otp : List Int} {x : TherRound} (hS : [.regs, .live, .good, .snap, .pend, .ctrs,
    .rc, .th] ⊆ S) :
    Only S m0 (m.thermRound otp x) ↔ Only S m0 m := Only.step hS (by
  unfold Module.thermRound
  simp (disch := decide) only [↓Module.thermLimits_only, ↓Module.ringRound_only, ↓Module.ranges_only,
    ↓Module.dieRound_only, ↓Module.usePair_only]
  (repeat' split) <;> simp (disch := (intros; (repeat' split) <;> simp (decide := true) (disch := decide) only
    [↓Module.thermLimits_only, ↓Module.ringRound_only, ↓Module.applyPend_only, ↓Module.ranges_only,
    ↓Module.tsReading_only, ↓Module.dieRound_only, ↓Module.updTh_only, ↓Module.setReg_only, ↓Module.usePair_only,
    ↓only_ite, ↓only_self, ite_self])) only [↓only_foldl, ↓Module.applyPend_only, ↓Module.updTh_only,
    ↓Module.setReg_only, ↓only_self])

theorem Module.ringExclude_only {s : Nat} (hS : [.regs, .live, .good, .snap, .pend, .ctrs, .rc, .th] ⊆ S) :
    Only S m0 (m.ringExclude s) ↔ Only S m0 m := Only.step hS (by
  unfold Module.ringExclude
  simp (disch := decide) only [↓Module.raise_only, ↓Module.fault_only, ↓Module.setTbl_only, ↓Module.updTh_only,
    ↓Module.setReg_only, ↓only_ite, ↓only_self, ite_self])

theorem Module.calStart_only (hS : [.th] ⊆ S) :
    Only S m0 (m.calStart) ↔ Only S m0 m := Module.updTh_only hS

theorem Module.ringReadmit_only (hS : [.th] ⊆ S) :
    Only S m0 (m.ringReadmit) ↔ Only S m0 m := Only.step hS (by
  unfold Module.ringReadmit
  simp (disch := decide) only [↓Module.calStart_only, ↓Module.updTh_only, ↓only_self])

theorem Module.setRingOffset_only {s : Nat} {o : Int} (hS : [.regs] ⊆ S) :
    Only S m0 (m.setRingOffset s o) ↔ Only S m0 m := Module.setTbl_only hS

theorem Module.ringCal_only {otp : List Int} (hS : [.regs, .th] ⊆ S) :
    Only S m0 (m.ringCal otp) ↔ Only S m0 m := Only.step hS (by
  unfold Module.ringCal
  simp (disch := (intros; simp (decide := true) (disch := decide) only [↓Module.raise_only, ↓Module.put_only,
    ↓Module.setRingOffset_only, ↓Module.setTbl_only, ↓Module.count_only, ↓Module.updTh_only, ↓Module.setReg_only,
    ↓only_ite, ↓only_self, ite_self])) only [↓only_foldl, ↓Module.raise_only, ↓Module.put_only,
    ↓Module.count_only, ↓Module.updTh_only, ↓only_ite, ↓only_self, ite_self])

theorem Module.thermRise_only {i : Nat} {now was : Int} (hS : [.regs, .th] ⊆ S) :
    Only S m0 (m.thermRise i now was) ↔ Only S m0 m := Only.step hS (by
  unfold Module.thermRise
  simp (disch := decide) only [↓Module.raise_only, ↓Module.put_only, ↓Module.setTbl_only, ↓Module.updTh_only,
    ↓Module.tsReport_only, ↓only_ite, ↓only_self, ite_self])

theorem Module.thermRestart_only (hS : [.regs, .th] ⊆ S) :
    Only S m0 (m.thermRestart) ↔ Only S m0 m := Only.step hS (by
  unfold Module.thermRestart
  exact (only_foldl fun _ _ => by simp (disch := decide) only [↓Module.updTh_only, ↓Module.tsFlag_only,
    ↓only_self]).2 (Only.refl _ _))

theorem Module.thermSoft_only (hS : [.regs, .th] ⊆ S) :
    Only S m0 (m.thermSoft) ↔ Only S m0 m := Only.step hS (by
  unfold Module.thermSoft
  simp (disch := decide) only [↓Module.put_only, ↓Module.updTh_only, ↓Module.setReg_only]
  exact (only_foldl fun _ _ => by simp (disch := decide) only [↓Module.setTbl_only, ↓only_self]).2 (by simp
    (disch := decide)
    only [↓only_self]))

theorem Module.updPort_only {p : Nat} {f : Twc → Twc} (hS : [.twc] ⊆ S) :
    Only S m0 (m.updPort p f) ↔ Only S m0 m := Only.step hS (by
  unfold Module.updPort
  simp (disch := decide) only [↓with_twc_only, ↓only_self])

theorem Module.rdPut_only {p e w lo n x : Nat} (hS : [.regs] ⊆ S) :
    Only S m0 (m.rdPut p e w lo n x) ↔ Only S m0 m := Module.setTbl_only hS

theorem Module.twcSend_only {p : Nat} {w : TwcWork} (hS : [.twc] ⊆ S) :
    Only S m0 (m.twcSend p w) ↔ Only S m0 m := Module.updPort_only hS

theorem Module.twcTable_only {p : Nat} {old : List W32} (hS : [.regs, .twc] ⊆ S) :
    Only S m0 (m.twcTable p old) ↔ Only S m0 m := Only.step hS (by
  unfold Module.twcTable
  simp (disch := decide) only [↓Module.put_only]
  exact (only_foldl fun _ _ => by simp (disch := decide) only [↓Module.rdPut_only, ↓Module.updPort_only,
    ↓only_ite, ↓only_self, ite_self]).2 (Only.refl _ _))

theorem Module.twcApply_only {p : Nat} (hS : [.regs, .live, .snap, .pend, .twc] ⊆ S) :
    Only S m0 (m.twcApply p) ↔ Only S m0 m := Only.step hS (by
  unfold Module.twcApply
  simp (disch := decide) only [↓Module.twcTable_only, ↓Module.boundary_only, ↓only_self])

theorem Module.roundStart_only {p : Nat} (hS : [.regs, .live, .snap, .pend, .twc] ⊆ S) :
    Only S m0 (m.roundStart p) ↔ Only S m0 m := Only.step hS (by
  unfold Module.roundStart
  simp (disch := decide) only [↓Module.twcSend_only]
  exact (only_foldl fun _ _ => by simp (disch := decide) only [↓Module.twcSend_only, ↓only_self]).2 (by simp
    (disch := decide)
    only [↓Module.put_only, ↓Module.updPort_only, ↓Module.twcApply_only, ↓only_self]))

theorem Module.pollRound_only {p : Nat} (hS : [.regs, .live, .snap, .pend, .twc] ⊆ S) :
    Only S m0 (m.pollRound p) ↔ Only S m0 m := Only.step hS (by
  unfold Module.pollRound
  simp (disch := decide) only [↓Module.raise_only, ↓Module.put_only, ↓Module.updPort_only,
    ↓Module.roundStart_only, ↓only_ite, ↓only_self, ite_self])

theorem Module.twcStart_only {p : Nat} (hS : [.regs, .twc] ⊆ S) :
    Only S m0 (m.twcStart p) ↔ Only S m0 m := Only.step hS (by
  unfold Module.twcStart
  simp (disch := decide) only [↓only_ite, ↓only_self]
  (repeat' split) <;> simp (disch := decide) only [↓Module.put_only, ↓Module.updPort_only, ↓only_self])

theorem Module.twcStore_only {p e b v : Nat} (hS : [.regs] ⊆ S) :
    Only S m0 (m.twcStore p e b v) ↔ Only S m0 m := Only.step hS (by
  unfold Module.twcStore
  simp (disch := decide) only [↓Module.rdPut_only, ↓only_ite, ↓only_self, ite_self])

theorem Module.entryDone_only {p e : Nat} (hS : [.regs, .twc] ⊆ S) :
    Only S m0 (m.entryDone p e) ↔ Only S m0 m := Only.step hS (by
  unfold Module.entryDone
  simp (disch := decide) only [↓Module.raise_only, ↓Module.rdPut_only, ↓Module.twcSend_only,
    ↓Module.updPort_only, ↓only_ite, ↓only_self, ite_self])

theorem Module.roundNext_only {p e : Nat} {ok : Bool} (hS : [.regs, .live, .snap, .pend, .twc] ⊆ S) :
    Only S m0 (m.roundNext p e ok) ↔ Only S m0 m := Only.step hS (by
  unfold Module.roundNext
  simp (disch := decide) only [↓Module.entryDone_only, ↓Module.updPort_only, ↓Module.roundStart_only, ↓only_ite,
    ↓only_self, ite_self])

theorem Module.twcFinish_only {p : Nat} {res : Option Nat} (hS : [.regs, .live, .snap, .pend, .twc] ⊆ S) :
    Only S m0 (m.twcFinish p res) ↔ Only S m0 m := Only.step hS (by
  unfold Module.twcFinish
  dsimp only
  (repeat' split) <;> simp (disch := decide) only [↓Module.put_only, ↓Module.twcStore_only,
    ↓Module.updPort_only, ↓Module.roundNext_only, ↓only_self])

theorem Module.twcErr_only {p lo : Nat} (hS : [.regs] ⊆ S) :
    Only S m0 (m.twcErr p lo) ↔ Only S m0 m := Module.count_only hS

theorem Module.twcEnd_only {p : Nat} {res : TwcRes} (hS : [.nfree, .regs, .live, .snap, .pend, .twc] ⊆ S) :
    Only S m0 (m.twcEnd p res) ↔ Only S m0 m := Only.step hS (by
  unfold Module.twcEnd
  (repeat' split) <;> simp (disch := decide) only [↓Module.raise_only, ↓Module.put_only, ↓Module.twcFinish_only,
    ↓Module.count_only, ↓Module.twcErr_only, ↓Module.updPort_only, ↓with_nfree_only, ↓only_ite, ↓only_self,
    ite_self])

theorem Module.twcRetry_only {p : Nat} (hS : [.twc] ⊆ S) :
    Only S m0 (m.twcRetry p) ↔ Only S m0 m := Module.updPort_only hS

theorem Module.twcStretch_only {p : Nat} (hS : [.regs, .live, .snap, .pend, .twc] ⊆ S) :
    Only S m0 (m.twcStretch p) ↔ Only S m0 m := Only.step hS (by
  unfold Module.twcStretch
  simp (disch := decide) only [↓Module.twcErr_only, ↓Module.twcFinish_only, ↓only_ite, ↓only_self, ite_self])

theorem Module.twcStuck_only {p : Nat} (hS : [.regs, .live, .snap, .pend, .rc, .twc] ⊆ S) :
    Only S m0 (m.twcStuck p) ↔ Only S m0 m := Only.step hS (by
  unfold Module.twcStuck
  simp (disch := decide) only [↓Module.raise_only, ↓Module.updPort_only, ↓Module.latchNow_only,
    ↓Module.twcFinish_only, ↓only_ite, ↓only_self, ite_self])

theorem Module.twcRecover_only {p : Nat} {free : Bool} (hS : [.twc] ⊆ S) :
    Only S m0 (m.twcRecover p free) ↔ Only S m0 m := Only.step hS (by
  unfold Module.twcRecover
  simp (disch := decide) only [↓Module.updPort_only, ↓only_ite, ↓only_self, ite_self])

theorem Module.twcAlert_only {p addr : Nat} (hS : [.regs, .twc] ⊆ S) :
    Only S m0 (m.twcAlert p addr) ↔ Only S m0 m := Only.step hS (by
  unfold Module.twcAlert
  simp (disch := decide) only [↓only_ite, ↓only_self]
  (repeat' split) <;> simp (disch := decide) only [↓Module.raise_only, ↓Module.twcErr_only,
    ↓Module.updPort_only, ↓only_self])

theorem Module.twcStop_only {p : Nat} (hS : [.regs, .twc] ⊆ S) :
    Only S m0 (m.twcStop p) ↔ Only S m0 m := Only.step hS (by
  unfold Module.twcStop
  simp (disch := decide) only [↓Module.put_only, ↓Module.updPort_only, ↓only_self])

theorem Module.updEp_only {f : Epe → Epe} (hS : [.ep] ⊆ S) :
    Only S m0 (m.updEp f) ↔ Only S m0 m := Only.step hS (by
  unfold Module.updEp
  simp (disch := decide) only [↓with_ep_only, ↓only_self])

theorem Module.vbusSeen_only {v : Option Nat} (hS : [.regs] ⊆ S) :
    Only S m0 (m.vbusSeen v) ↔ Only S m0 m := Only.step hS (by
  unfold Module.vbusSeen
  dsimp only
  (repeat' split) <;> simp (disch := decide) only [↓Module.raise_only, ↓Module.put_only, ↓only_self])

theorem Module.vbusTake_only {gin : List Int} (hS : [.nfree, .regs, .live, .good, .snap, .pend, .ctrs, .rc, .ph,
    .rl, .adc, .tr] ⊆ S) :
    Only S m0 (m.vbusTake gin) ↔ Only S m0 m := Only.step hS (by
  unfold Module.vbusTake
  simp (disch := decide) only [↓Module.ginNow_only, ↓Module.vbusSeen_only, ↓only_self])

theorem Module.srcPut_only {s lo w x : Nat} (hS : [.regs] ⊆ S) :
    Only S m0 (m.srcPut s lo w x) ↔ Only S m0 m := Module.setTbl_only hS

theorem Module.srcTemps_only (hS : [.ep] ⊆ S) :
    Only S m0 (m.srcTemps) ↔ Only S m0 m := Only.step hS (by
  unfold Module.srcTemps
  exact (only_foldl fun _ _ => by (repeat' split) <;> simp (disch := decide) only [↓Module.updEp_only,
    ↓only_self]).2 (Only.refl _ _))

theorem Module.epePairs_only (hS : [.regs, .live, .good, .snap, .pend, .ctrs, .rc] ⊆ S) :
    Only S m0 (m.epePairs) ↔ Only S m0 m := Only.step hS (by
  unfold Module.epePairs
  simp (disch := decide) only [↓Module.usePair_only]
  exact (only_foldl fun _ _ => by simp (disch := decide) only [↓Module.useWords_only, ↓only_self]).2 (Only.refl
    _ _))

theorem Module.epeRequest_only {gin : List Int} {acok : Nat} (hS : [.nfree, .regs, .live, .good, .snap, .pend,
    .ctrs, .rc, .ph, .rl, .adc, .tr, .ep, .xg] ⊆ S) :
    Only S m0 (m.epeRequest gin acok) ↔ Only S m0 m := Only.step hS (by
  unfold Module.epeRequest
  simp (disch := decide) only [↓only_ite, ↓only_self]
  (repeat' split) <;> simp (disch := decide) only [↓Module.boundary_only, ↓Module.vbusTake_only,
    ↓Module.updEp_only, ↓Module.srcTemps_only, ↓Module.epePairs_only, ↓with_xg_only, ↓only_self])

theorem Module.epeSolved_only (hS : [.ep] ⊆ S) :
    Only S m0 (m.epeSolved) ↔ Only S m0 m := Only.step hS (by
  unfold Module.epeSolved
  (repeat' split) <;> simp (disch := decide) only [↓Module.updEp_only, ↓only_self])

theorem Module.setPoint_only {r : Nat} {x : Int} (hS : [.rl] ⊆ S) :
    Only S m0 (m.setPoint r x) ↔ Only S m0 m := Module.updRl_only hS

theorem Module.stringPoints_only (hS : [.rl] ⊆ S) :
    Only S m0 (m.stringPoints) ↔ Only S m0 m := Only.step hS (by
  unfold Module.stringPoints
  exact (only_foldl fun _ _ => by simp (disch := decide) only [↓Module.updRl_only, ↓only_self]).2 (Only.refl _ _))

theorem Module.phaseOrder_only (hS : [.regs, .ep] ⊆ S) :
    Only S m0 (m.phaseOrder) ↔ Only S m0 m := Only.step hS (by
  unfold Module.phaseOrder
  refine (only_foldl fun m r => ?_).2 ((only_foldl fun m n => ?_).2 (Only.refl _ _))
  · simp (disch := decide) only [↓Module.refresh_only]
    exact (only_foldl fun m i => (Module.setTbl_only (by decide)).2 (Only.refl _ _)).2 (Only.refl _ _)
  · dsimp only
    (repeat' split) <;> simp (disch := decide) only [↓Module.updEp_only, ↓only_self])

theorem Module.wearWords_only (hS : [.regs] ⊆ S) :
    Only S m0 (m.wearWords) ↔ Only S m0 m := Only.step hS (by
  unfold Module.wearWords
  exact (only_foldl fun _ _ => by simp (disch := decide) only [↓Module.setTbl_only, ↓only_self]).2 (Only.refl _ _))

theorem Module.wearTick_only (hS : [.regs, .ep] ⊆ S) :
    Only S m0 (m.wearTick) ↔ Only S m0 m := Only.step hS (by
  unfold Module.wearTick
  simp (disch := decide) only [↓Module.wearWords_only]
  exact (only_foldl fun _ _ => by simp (disch := decide) only [↓Module.updEp_only, ↓only_ite, ↓only_self,
    ite_self]).2 (Only.refl _ _))

theorem Module.crossTable_only {q : EpeReq} (hS : [.regs, .ep] ⊆ S) :
    Only S m0 (m.crossTable q) ↔ Only S m0 m := Only.step hS (by
  unfold Module.crossTable
  exact (only_foldl fun _ _ => by (repeat' split) <;> simp (disch := decide) only [↓Module.setTbl_only,
    ↓Module.updEp_only, ↓only_self]).2 (by simp (disch := decide) only [↓Module.put_only, ↓Module.updEp_only,
    ↓only_self]))

theorem Module.rectOperate_only {s op : Nat} (hS : [.twc] ⊆ S) :
    Only S m0 (m.rectOperate s op) ↔ Only S m0 m := Module.twcSend_only hS

theorem Module.rectWake_only {s : Nat} (hS : [.regs, .ep, .twc] ⊆ S) :
    Only S m0 (m.rectWake s) ↔ Only S m0 m := Only.step hS (by
  unfold Module.rectWake
  simp (disch := decide) only [↓Module.rectOperate_only, ↓Module.srcPut_only, ↓Module.updEp_only, ↓only_self])

theorem Module.rectStandby_only {s : Nat} (hS : [.regs, .ep, .twc] ⊆ S) :
    Only S m0 (m.rectStandby s) ↔ Only S m0 m := Only.step hS (by
  unfold Module.rectStandby
  simp (disch := decide) only [↓Module.raise_only, ↓Module.rectOperate_only, ↓Module.srcPut_only,
    ↓Module.updEp_only, ↓only_self])

theorem Module.standbyJudge_only {q : EpeReq} {res : EpeRes} {need : Nat} (hS : [.regs, .ep, .twc] ⊆ S) :
    Only S m0 (m.standbyJudge q res need) ↔ Only S m0 m := Only.step hS (by
  unfold Module.standbyJudge
  simp (disch := decide) only [↓only_ite, ↓only_self]
  (repeat' split) <;> simp (disch := (intros; (repeat' split) <;> simp (decide := true) (disch := decide) only
    [↓Module.rectWake_only, ↓Module.rectStandby_only, ↓only_ite, ↓only_self, ite_self])) only [↓only_foldl,
    ↓Module.rectStandby_only, ↓only_self])

theorem Module.reserveJudge_only {q : EpeReq} {need : Nat} (hS : [.regs, .ep] ⊆ S) :
    Only S m0 (m.reserveJudge q need) ↔ Only S m0 m := Only.step hS (by
  unfold Module.reserveJudge
  simp (disch := decide) only [↓Module.raise_only, ↓Module.put_only, ↓Module.updEp_only, ↓only_ite, ↓only_self,
    ite_self])

theorem Module.srcReport_only {q : EpeReq} {res : EpeRes} (hS : [.regs, .ep] ⊆ S) :
    Only S m0 (m.srcReport q res) ↔ Only S m0 m := Only.step hS (by
  unfold Module.srcReport
  exact (only_foldl fun _ _ => by (repeat' split) <;> simp (disch := decide) only [↓Module.put_only,
    ↓Module.setTbl_only, ↓Module.updEp_only, ↓only_self]).2 (Only.refl _ _))

theorem Module.solveRegs_only {q : EpeReq} {res : EpeRes} {need : Nat} (hS : [.nfree, .regs, .live, .good,
    .snap, .pend, .ctrs, .rc] ⊆ S) :
    Only S m0 (m.solveRegs q res need) ↔ Only S m0 m := Only.step hS (by
  unfold Module.solveRegs
  (repeat' split) <;> simp (disch := decide) only [↓Module.raise_only, ↓Module.put_only, ↓Module.fault_only,
    ↓Module.draw_only, ↓Module.countReg_only, ↓only_self])

theorem Module.sharePoints_only {q : EpeReq} (hS : [.rl] ⊆ S) :
    Only S m0 (m.sharePoints q) ↔ Only S m0 m := Only.step hS (by
  unfold Module.sharePoints
  simp (disch := (intros; simp (decide := true) (disch := decide) only [↓Module.setPoint_only,
    ↓Module.stringPoints_only, ↓only_ite, ↓only_self, ite_self])) only [↓only_foldl, ↓Module.stringPoints_only,
    ↓only_self])

theorem Module.epeCommit_only (hS : [.nfree, .regs, .live, .good, .snap, .pend, .ctrs, .rc, .rl, .ep, .cp, .twc]
    ⊆ S) :
    Only S m0 (m.epeCommit) ↔ Only S m0 m := Only.step hS (by
  unfold Module.epeCommit
  (repeat' split) <;> simp (disch := decide) only [↓Module.raise_only, ↓Module.put_only, ↓Module.solveRegs_only,
    ↓Module.standbyJudge_only, ↓Module.reserveJudge_only, ↓Module.crossTable_only, ↓Module.updEp_only,
    ↓Module.phaseOrder_only, ↓Module.sharePoints_only, ↓Module.setReg_only, ↓Module.srcReport_only, ↓with_cp_only,
    ↓only_self])

theorem Module.epeDrop_only (hS : [.ep] ⊆ S) :
    Only S m0 (m.epeDrop) ↔ Only S m0 m := Module.updEp_only hS

theorem Module.rectSilent_only {s : Nat} (hS : [.regs, .ep] ⊆ S) :
    Only S m0 (m.rectSilent s) ↔ Only S m0 m := Only.step hS (by
  unfold Module.rectSilent
  simp (disch := decide) only [↓Module.raise_only, ↓Module.srcPut_only, ↓Module.updEp_only, ↓only_ite,
    ↓only_self, ite_self])

theorem Module.rectSeen_only {p e : Nat} (hS : [.regs, .ep] ⊆ S) :
    Only S m0 (m.rectSeen p e) ↔ Only S m0 m := Only.step hS (by
  unfold Module.rectSeen
  simp (disch := (intros; simp (decide := true) (disch := decide) only [↓Module.srcPut_only, ↓Module.updEp_only,
    ↓only_ite, ↓only_self, ite_self])) only [↓only_foldl, ↓only_ite, ↓only_self, ite_self])

theorem Module.droopWake_only (hS : [.regs, .live, .snap, .pend, .ep, .twc] ⊆ S) :
    Only S m0 (m.droopWake) ↔ Only S m0 m := Only.step hS (by
  unfold Module.droopWake
  dsimp only
  split
  · exact Only.refl _ _
  · refine (only_foldl fun m s => ?_).2 ((only_foldl fun m p => ?_).2 (Only.refl _ _))
    · simp (disch := decide) only [↓Module.srcPut_only, ↓Module.updEp_only, ↓only_self]
    · split
      · exact Only.refl _ _
      · refine (only_foldl fun m s => ?_).2 ?_
        · simp (disch := decide) only [↓Module.twcSend_only, ↓only_self]
        · (repeat' split) <;> simp (disch := decide) only [↓Module.twcSend_only, ↓Module.twcFinish_only,
          ↓only_self])

theorem Module.rectMs_only (hS : [.ep] ⊆ S) :
    Only S m0 (m.rectMs) ↔ Only S m0 m := Module.updEp_only hS

theorem Module.shareTrim_only (hS : [.ep, .twc] ⊆ S) :
    Only S m0 (m.shareTrim) ↔ Only S m0 m := Only.step hS (by
  unfold Module.shareTrim
  exact (only_foldl fun _ _ => by simp (disch := decide) only [↓Module.updEp_only, ↓Module.twcSend_only,
    ↓only_ite, ↓only_self, ite_self]).2 (Only.refl _ _))

theorem Module.commitSrc_only (hS : [.regs, .live, .snap, .unc] ⊆ S) :
    Only S m0 (m.commitSrc) ↔ Only S m0 m := Only.step hS (by
  unfold Module.commitSrc
  (repeat' split) <;> simp (disch := decide) only [↓Module.raise_only, ↓Module.put_only, ↓Module.commit_only,
    ↓only_self])

theorem Module.updCp_only {f : Cap → Cap} (hS : [.cp] ⊆ S) :
    Only S m0 (m.updCp f) ↔ Only S m0 m := Only.step hS (by
  unfold Module.updCp
  simp (disch := decide) only [↓with_cp_only, ↓only_self])

theorem Module.capForce_only (hS : [.regs] ⊆ S) :
    Only S m0 (m.capForce) ↔ Only S m0 m := Only.step hS (by
  unfold Module.capForce
  simp (disch := decide) only [↓Module.raise_only, ↓Module.put_only, ↓only_ite, ↓only_self, ite_self])

theorem Module.capDrive_only (hS : [.regs] ⊆ S) :
    Only S m0 (m.capDrive) ↔ Only S m0 m := Module.put_only hS

theorem Module.capOutput_only {c p i : Nat} (hS : [.cp] ⊆ S) :
    Only S m0 (m.capOutput c p i) ↔ Only S m0 m := Only.step hS (by
  unfold Module.capOutput
  simp (disch := decide) only [↓Module.updCp_only, ↓only_ite, ↓only_self, ite_self])

theorem Module.estimate_only (hS : [.nfree] ⊆ S) :
    Only S m0 (m.estimate).2 ↔ Only S m0 m := Only.step hS (by
  unfold Module.estimate
  dsimp only
  (repeat' split) <;> simp (disch := decide) only [↓Module.draw_only, ↓only_self])

theorem Module.assistSet_only {a : Nat} {on : Bool} (hS : [.regs, .rl, .cp] ⊆ S) :
    Only S m0 (m.assistSet a on) ↔ Only S m0 m := Only.step hS (by
  unfold Module.assistSet
  simp (disch := decide) only [↓Module.put_only, ↓Module.setReg_only, ↓Module.stringPoints_only,
    ↓Module.updCp_only, ↓only_self])

theorem Module.assistEnd_only (hS : [.regs, .rl, .cp] ⊆ S) :
    Only S m0 (m.assistEnd) ↔ Only S m0 m := Only.step hS (by
  unfold Module.assistEnd
  simp (disch := decide) only [↓Module.assistSet_only, ↓only_ite, ↓only_self, ite_self])

theorem Module.capQualify_only (hS : [.regs, .cp] ⊆ S) :
    Only S m0 (m.capQualify) ↔ Only S m0 m := Only.step hS (by
  unfold Module.capQualify
  simp (disch := decide) only [↓Module.raise_only, ↓Module.updCp_only, ↓Module.countReg_only, ↓only_self])

theorem Module.capExcess_only {c p : Nat} (hS : [.regs, .cp] ⊆ S) :
    Only S m0 (m.capExcess c p) ↔ Only S m0 m := Only.step hS (by
  unfold Module.capExcess
  simp (disch := decide) only [↓Module.capQualify_only, ↓Module.updCp_only, ↓only_ite, ↓only_self, ite_self])

theorem Module.assistStart_only {c p : Nat} (hS : [.regs, .rl, .cp] ⊆ S) :
    Only S m0 (m.assistStart c p) ↔ Only S m0 m := Only.step hS (by
  unfold Module.assistStart
  (repeat' split) <;> simp (disch := decide) only [↓Module.raise_only, ↓Module.assistEnd_only,
    ↓Module.assistSet_only, ↓only_self])

theorem Module.capEstimate_only {gin : List Int} (hS : [.nfree, .regs, .live, .good, .snap, .pend, .ctrs, .rc,
    .ph, .rl, .adc, .tr, .cp] ⊆ S) :
    Only S m0 (m.capEstimate gin) ↔ Only S m0 m := Only.step hS (by
  unfold Module.capEstimate
  simp (disch := (intros; simp (decide := true) (disch := decide) only [↓Module.assistStart_only,
    ↓Module.put_only, ↓Module.capForce_only, ↓Module.boundary_only, ↓Module.usePairs_only, ↓Module.vbusSeen_only,
    ↓Module.ginNow_only, ↓Module.capDrive_only, ↓Module.capExcess_only, ↓Module.estimate_only,
    ↓Module.capOutput_only, ↓only_ite, ↓only_self, ite_self])) only [↓only_foldl, ↓Module.assistStart_only,
    ↓Module.put_only, ↓Module.capForce_only, ↓Module.boundary_only, ↓Module.usePairs_only, ↓Module.vbusSeen_only,
    ↓Module.ginNow_only, ↓Module.capDrive_only, ↓Module.capExcess_only, ↓Module.estimate_only, ↓only_ite,
    ↓only_self, ite_self])

theorem Module.assistStep_only {mean : Nat} {gin : List Int} (hS : [.nfree, .regs, .live, .good, .snap, .pend,
    .ctrs, .rc, .ph, .rl, .adc, .tr, .cp] ⊆ S) :
    Only S m0 (m.assistStep mean gin) ↔ Only S m0 m := Only.step hS (by
  unfold Module.assistStep
  simp (disch := decide) only [↓Module.ginNow_only, ↓only_ite, ↓only_self]
  (repeat' split) <;> simp (disch := decide) only [↓Module.assistSet_only, ↓Module.vbusSeen_only,
    ↓Module.ginNow_only, ↓only_self])

theorem Module.limitSend_only {s : Nat} {w : Int} (hS : [.twc] ⊆ S) :
    Only S m0 (m.limitSend s w) ↔ Only S m0 m := Module.twcSend_only hS

theorem Module.hardLimit_only (hS : [.regs, .twc] ⊆ S) :
    Only S m0 (m.hardLimit) ↔ Only S m0 m := Only.step hS (by
  unfold Module.hardLimit
  simp (disch := (intros; simp (decide := true) (disch := decide) only [↓Module.raise_only, ↓Module.put_only,
    ↓Module.limitSend_only, ↓only_ite, ↓only_self, ite_self])) only [↓only_foldl, ↓Module.raise_only,
    ↓Module.put_only, ↓only_ite, ↓only_self, ite_self])

theorem Module.limitsOff_only (hS : [.regs, .twc] ⊆ S) :
    Only S m0 (m.limitsOff) ↔ Only S m0 m := Only.step hS (by
  unfold Module.limitsOff
  simp (disch := (intros; simp (decide := true) (disch := decide) only [↓Module.raise_only, ↓Module.put_only,
    ↓Module.limitSend_only, ↓only_ite, ↓only_self, ite_self])) only [↓only_foldl, ↓Module.raise_only,
    ↓Module.put_only, ↓only_ite, ↓only_self, ite_self])

theorem Module.limitRelease_only (hS : [.regs, .twc] ⊆ S) :
    Only S m0 (m.limitRelease) ↔ Only S m0 m := Only.step hS (by
  unfold Module.limitRelease
  simp (disch := decide) only [↓Module.limitsOff_only, ↓only_ite, ↓only_self, ite_self])

theorem Module.sustained_only (hS : [.regs, .live, .good, .snap, .pend, .ctrs, .rc] ⊆ S) :
    Only S m0 (m.sustained) ↔ Only S m0 m := Only.step hS (by
  unfold Module.sustained
  simp (disch := decide) only [↓Module.fault_only, ↓Module.capDrive_only, ↓only_ite, ↓only_self, ite_self])

theorem Module.capStop_only (hS : [.regs, .rl, .cp, .twc] ⊆ S) :
    Only S m0 (m.capStop) ↔ Only S m0 m := Only.step hS (by
  unfold Module.capStop
  simp (disch := decide) only [↓Module.limitsOff_only, ↓Module.capDrive_only, ↓Module.assistEnd_only,
    ↓Module.updCp_only, ↓only_self])

theorem Module.updSq_only {f : Seq → Seq} (hS : [.sq] ⊆ S) :
    Only S m0 (m.updSq f) ↔ Only S m0 m := Only.step hS (by
  unfold Module.updSq
  simp (disch := decide) only [↓with_sq_only, ↓only_self])

theorem Module.toStep_only {s : Nat} (hS : [.regs, .sq] ⊆ S) :
    Only S m0 (m.toStep s) ↔ Only S m0 m := Only.step hS (by
  unfold Module.toStep
  simp (disch := decide) only [↓Module.put_only, ↓Module.updSq_only, ↓only_self])

theorem Module.seqMapPut_only {off id : Nat} {on : Bool} (hS : [.regs] ⊆ S) :
    Only S m0 (m.seqMapPut off id on) ↔ Only S m0 m := Module.put_only hS

theorem Module.seqLens_only (hS : [.regs] ⊆ S) :
    Only S m0 (m.seqLens) ↔ Only S m0 m := Only.step hS (by
  unfold Module.seqLens
  simp (disch := decide) only [↓Module.put_only, ↓only_self])

theorem Module.seqApply_only {t : Nat} (hS : [.regs, .live, .snap] ⊆ S) :
    Only S m0 (m.seqApply t) ↔ Only S m0 m := Only.step hS (by
  unfold Module.seqApply
  simp (disch := decide) only [↓Module.seqLens_only, ↓Module.applySnap_only, ↓only_self])

theorem Module.seqCommit_only {t : Nat} (hS : [.regs, .live, .snap, .unc] ⊆ S) :
    Only S m0 (m.seqCommit t) ↔ Only S m0 m := Only.step hS (by
  unfold Module.seqCommit
  dsimp only
  (repeat' split) <;> simp (disch := decide) only [↓Module.raise_only, ↓Module.put_only, ↓Module.commit_only,
    ↓Module.seqLens_only, ↓only_self])

theorem Module.railPin_only {i : Nat} {on : Bool} (hS : [.pin] ⊆ S) :
    Only S m0 (m.railPin i on) ↔ Only S m0 m := Only.step hS (by
  unfold Module.railPin
  simp (disch := decide) only [↓with_pin_only, ↓only_ite, ↓only_self, ite_self])

theorem Module.idEnable_only {id : Nat} {on : Bool} (hS : [.nfree, .regs, .live, .snap, .pend, .defer, .rc, .ph,
    .rl, .adc, .cle, .tr, .sq, .pin] ⊆ S) :
    Only S m0 (m.idEnable id on) ↔ Only S m0 m := Only.step hS (by
  unfold Module.idEnable
  simp (disch := decide) only [↓Module.railPin_only, ↓Module.seqMapPut_only, ↓Module.updSq_only,
    ↓Module.railEn_only, ↓only_ite, ↓only_self, ite_self])

theorem Module.seqRequest_only {on : Bool} {cause : Nat} (hS : [.regs, .sq] ⊆ S) :
    Only S m0 (m.seqRequest on cause) ↔ Only S m0 m := Only.step hS (by
  unfold Module.seqRequest
  simp (disch := decide) only [↓Module.raise_only, ↓Module.put_only, ↓Module.updSq_only, ↓only_ite, ↓only_self,
    ite_self])

theorem Module.stepFail_only {why : Nat} (hS : [.nfree, .regs, .live, .snap, .pend, .defer, .rc, .ph, .rl, .adc,
    .cle, .tr, .sq, .pin] ⊆ S) :
    Only S m0 (m.stepFail why) ↔ Only S m0 m := Only.step hS (by
  unfold Module.stepFail
  simp (disch := decide) only [↓Module.seqRequest_only, ↓Module.raise_only, ↓Module.put_only,
    ↓Module.latchNow_only, ↓Module.toStep_only, ↓Module.raiseRec_only, ↓Module.seqMapPut_only, ↓Module.updSq_only,
    ↓Module.idEnable_only, ↓only_ite, ↓only_self, ite_self])

theorem Module.seqEdge_only {id : Nat} (hS : [.nfree, .regs, .live, .good, .snap, .pend, .defer, .ctrs, .rc,
    .ph, .rl, .adc, .cle, .tr, .sq, .pin] ⊆ S) :
    Only S m0 (m.seqEdge id) ↔ Only S m0 m := Only.step hS (by
  unfold Module.seqEdge
  simp (disch := decide) only [↓Module.raise_only, ↓Module.seqMapPut_only, ↓Module.fault_only,
    ↓Module.stepFail_only, ↓Module.countReg_only, ↓only_ite, ↓only_self, ite_self])

theorem Module.seqSample_only (hS : [.nfree, .regs, .live, .good, .snap, .pend, .defer, .ctrs, .rc, .ph, .rl,
    .adc, .cle, .tr, .sq, .pin] ⊆ S) :
    Only S m0 (m.seqSample) ↔ Only S m0 m := Only.step hS (by
  unfold Module.seqSample
  exact (only_foldl fun _ _ => by simp (disch := decide) only [↓Module.seqEdge_only, ↓Module.seqMapPut_only,
    ↓only_ite, ↓only_self, ite_self]).2 (Only.refl _ _))

theorem Module.seqTimers_only (hS : [.regs, .sq] ⊆ S) :
    Only S m0 (m.seqTimers) ↔ Only S m0 m := Only.step hS (by
  unfold Module.seqTimers
  exact (only_foldl fun _ _ => by simp (disch := decide) only [↓Module.seqMapPut_only, ↓Module.updSq_only,
    ↓only_ite, ↓only_self, ite_self]).2 (Only.refl _ _))

theorem Module.seqEnter_only {st : Nat} (hS : [.regs, .sq] ⊆ S) :
    Only S m0 (m.seqEnter st) ↔ Only S m0 m := Only.step hS (by
  unfold Module.seqEnter
  simp (disch := decide) only [↓Module.put_only, ↓Module.updSq_only, ↓Module.toStep_only, ↓only_self])

theorem Module.seqEnterUp_only (hS : [.regs, .live, .snap, .ctrs, .sq] ⊆ S) :
    Only S m0 (m.seqEnterUp) ↔ Only S m0 m := Only.step hS (by
  unfold Module.seqEnterUp
  simp (disch := decide) only [↓Module.put_only, ↓Module.clearCtr_only, ↓Module.updSq_only, ↓Module.seqEnter_only]
  exact (only_foldl fun _ _ => by simp (disch := decide) only [↓Module.setReg_only, ↓only_self]).2 (by simp
    (disch := decide) only [↓Module.seqApply_only, ↓only_self]))

theorem Module.seqEnterDown_only (hS : [.regs, .live, .snap, .sq] ⊆ S) :
    Only S m0 (m.seqEnterDown) ↔ Only S m0 m := Only.step hS (by
  unfold Module.seqEnterDown
  simp (disch := decide) only [↓Module.updSq_only, ↓Module.seqApply_only, ↓Module.setReg_only,
    ↓Module.seqEnter_only, ↓only_self])

theorem Module.seqEndTable_only (hS : [.regs, .live, .snap, .sq] ⊆ S) :
    Only S m0 (m.seqEndTable) ↔ Only S m0 m := Only.step hS (by
  unfold Module.seqEndTable
  simp (disch := decide) only [↓Module.raise_only, ↓Module.put_only, ↓Module.updSq_only, ↓Module.seqApply_only,
    ↓only_ite, ↓only_self, ite_self])

theorem Module.stepDone_only {s : Nat} (hS : [.regs, .sq] ⊆ S) :
    Only S m0 (m.stepDone s) ↔ Only S m0 m := Only.step hS (by
  unfold Module.stepDone
  simp (disch := decide) only [↓Module.updSq_only, ↓Module.toStep_only, ↓only_self])

theorem Module.stepRun_only {acok t : Nat} {y0 : Nat} (hS : [.nfree, .regs, .live, .good, .snap, .pend, .defer,
    .ctrs, .rc, .ph, .rl, .adc, .cle, .tr, .sq, .pin] ⊆ S) :
    Only S m0 (m.stepRun acok t y0) ↔ Only S m0 m := by
  refine Only.step hS ?_
  induction y0 generalizing m with
  | zero => exact Only.refl _ _
  | succ fuel ih =>
    unfold Module.stepRun
    extract_lets s u k tgt zero wait
    have hu : ∀ R : List Part, [.regs, .live, .good, .snap, .pend, .ctrs, .rc] ⊆ R → Only R m u := fun R hR =>
      by
      simp (disch := exact hR) only [u, ↓Module.useWords_only, ↓only_ite, ↓only_self, ite_self]
    have hwait : ∀ {R : List Part} {a b : Module} {seen : Bool}, [.sq] ⊆ R → (Only R a (wait b seen) ↔ Only R a
      b) :=
      fun hR => Module.updSq_only hR
    clear_value u k wait
    refine iteInduction (motive := Only _ m) (fun _ => ?_) (fun _ => ?_)
    · exact (Only.step (List.Subset.refl _) ih).2 ((Module.toStep_only (by decide)).2 (Only.refl _ _))
    · simp (disch := decide) only [↓Module.stepDone_only, ↓Module.seqEndTable_only, ↓hwait,
      ↓Module.idEnable_only, hu, ↓only_ite, ite_self]

theorem Module.seqTaken_only {n : Nat} (hS : [.sq] ⊆ S) :
    Only S m0 (m.seqTaken n).2.2 ↔ Only S m0 m := Module.updSq_only hS

theorem Module.seqMachine_only {acok n : Nat} (hS : [.nfree, .regs, .live, .good, .snap, .pend, .defer, .ctrs,
    .rc, .ph, .rl, .adc, .cle, .tr, .sq, .pin] ⊆ S) :
    Only S m0 (m.seqMachine acok n) ↔ Only S m0 m := Only.step hS (by
  unfold Module.seqMachine
  simp (disch := decide) only [↓Module.raise_only, ↓Module.put_only, ↓Module.stepRun_only,
    ↓Module.seqEnterUp_only, ↓Module.seqApply_only, ↓Module.seqEnterDown_only, ↓Module.seqTaken_only, ↓only_ite,
    ↓only_self, ite_self])

theorem Module.seqGroups_only (hS : [.regs] ⊆ S) :
    Only S m0 (m.seqGroups) ↔ Only S m0 m := Only.step hS (by
  unfold Module.seqGroups
  exact (only_foldl fun _ _ => by simp (disch := decide) only [↓Module.put_only, ↓only_self]).2 (Only.refl _ _))

theorem Module.seqDrive_only (hS : [.pin] ⊆ S) :
    Only S m0 (m.seqDrive) ↔ Only S m0 m := Only.step hS (by
  unfold Module.seqDrive
  exact (only_foldl fun _ _ => by simp (disch := decide) only [↓Module.railPin_only, ↓only_self]).2 (by simp
    (disch := decide) only [↓with_pin_only, ↓only_ite, ↓only_self, ite_self]))

theorem Module.seqTick_only {acok : Nat} (hS : [.nfree, .regs, .live, .good, .snap, .pend, .defer, .ctrs, .rc,
    .ph, .rl, .adc, .cle, .tr, .sq, .pin] ⊆ S) :
    Only S m0 (m.seqTick acok) ↔ Only S m0 m := Only.step hS (by
  unfold Module.seqTick
  simp (disch := decide) only [↓Module.seqSample_only, ↓Module.applyPend_only, ↓Module.updSq_only,
    ↓Module.seqMachine_only, ↓Module.seqTimers_only, ↓Module.seqGroups_only, ↓Module.seqDrive_only, ↓only_ite,
    ↓only_self, ite_self])

theorem Module.seqSettle_only (hS : [.regs, .pin] ⊆ S) :
    Only S m0 (m.seqSettle) ↔ Only S m0 m := Only.step hS (by
  unfold Module.seqSettle
  simp (disch := decide) only [↓Module.seqGroups_only, ↓Module.seqDrive_only, ↓only_self])

theorem Module.seqWaitDone_only (hS : [.regs, .sq] ⊆ S) :
    Only S m0 (m.seqWaitDone) ↔ Only S m0 m := Only.step hS (by
  unfold Module.seqWaitDone
  simp (disch := decide) only [↓Module.stepDone_only, ↓only_ite, ↓only_self, ite_self])

theorem Module.seqTimeout_only (hS : [.nfree, .regs, .live, .snap, .pend, .defer, .rc, .ph, .rl, .adc, .cle,
    .tr, .sq, .pin] ⊆ S) :
    Only S m0 (m.seqTimeout) ↔ Only S m0 m := Only.step hS (by
  unfold Module.seqTimeout
  simp (disch := decide) only [↓Module.seqSettle_only, ↓Module.stepFail_only, ↓only_ite, ↓only_self, ite_self])

theorem Module.seqRetry_only (hS : [.nfree, .regs, .live, .snap, .pend, .defer, .rc, .ph, .rl, .adc, .cle, .tr,
    .sq, .pin] ⊆ S) :
    Only S m0 (m.seqRetry) ↔ Only S m0 m := Only.step hS (by
  unfold Module.seqRetry
  simp (disch := decide) only [↓Module.updSq_only, ↓Module.idEnable_only, ↓only_ite, ↓only_self, ite_self])

theorem Module.seqLead_only (hS : [.nfree, .regs, .live, .good, .snap, .pend, .defer, .ctrs, .rc, .ph, .rl,
    .adc, .cle, .tr, .sq, .pin] ⊆ S) :
    Only S m0 (m.seqLead) ↔ Only S m0 m := Only.step hS (by
  unfold Module.seqLead
  simp (disch := decide) only [↓Module.seqSettle_only, ↓Module.stepRun_only, ↓Module.updSq_only, ↓only_ite,
    ↓only_self, ite_self])

theorem Module.seqRested_only (hS : [.nfree, .regs, .live, .good, .snap, .pend, .defer, .ctrs, .rc, .ph, .rl,
    .adc, .cle, .tr, .sq, .pin] ⊆ S) :
    Only S m0 (m.seqRested) ↔ Only S m0 m := Only.step hS (by
  unfold Module.seqRested
  simp (disch := decide) only [↓Module.seqSettle_only, ↓Module.stepRun_only, ↓Module.updSq_only,
    ↓Module.seqEnterUp_only, ↓only_ite, ↓only_self, ite_self])

theorem Module.seqRailFail_only {id : Nat} (hS : [.nfree, .regs, .live, .snap, .pend, .defer, .rc, .ph, .rl,
    .adc, .cle, .tr, .sq, .pin] ⊆ S) :
    Only S m0 (m.seqRailFail id) ↔ Only S m0 m := Only.step hS (by
  unfold Module.seqRailFail
  simp (disch := decide) only [↓Module.seqRequest_only, ↓Module.raise_only, ↓Module.seqSettle_only,
    ↓Module.seqMapPut_only, ↓Module.latchNow_only, ↓Module.idEnable_only, ↓only_ite, ↓only_self, ite_self])

theorem Module.seqDeglitch_only {id : Nat} {level : Bool} (hS : [.nfree, .regs, .live, .good, .snap, .pend,
    .defer, .ctrs, .rc, .ph, .rl, .adc, .cle, .tr, .sq, .pin] ⊆ S) :
    Only S m0 (m.seqDeglitch id level) ↔ Only S m0 m := Only.step hS (by
  unfold Module.seqDeglitch
  simp (disch := decide) only [↓Module.seqEdge_only, ↓Module.updSq_only, ↓only_ite, ↓only_self, ite_self])

theorem Module.seqStart_only (hS : [.regs, .live, .snap] ⊆ S) :
    Only S m0 (m.seqStart) ↔ Only S m0 m := Only.step hS (by
  unfold Module.seqStart
  simp (disch := decide) only [↓Module.seqApply_only]
  exact (only_foldl fun _ _ => by simp (disch := decide) only [↓Module.seqMapPut_only, ↓only_self]).2 (Only.refl
    _ _))

theorem Module.wdTo_only {s : Nat} (hS : [.regs] ⊆ S) :
    Only S m0 (m.wdTo s) ↔ Only S m0 m := Module.put_only hS

theorem Module.wdResume_only (hS : [.regs, .live, .snap, .pend, .rc] ⊆ S) :
    Only S m0 (m.wdResume) ↔ Only S m0 m := Only.step hS (by
  unfold Module.wdResume
  simp (disch := decide) only [↓Module.raiseRec_only, ↓Module.put_only, ↓only_ite, ↓only_self, ite_self])

theorem Module.wdWindow_only (hS : [.regs] ⊆ S) :
    Only S m0 (m.wdWindow) ↔ Only S m0 m := Module.wdTo_only hS

theorem Module.wdExpire_only {cause : Nat} (hS : [.regs, .live, .good, .snap, .pend, .ctrs, .rc, .pin] ⊆ S) :
    Only S m0 (m.wdExpire cause) ↔ Only S m0 m := Only.step hS (by
  unfold Module.wdExpire
  simp (disch := decide) only [↓Module.raise_only, ↓Module.put_only, ↓Module.fault_only, ↓Module.raiseRec_only,
    ↓Module.count_only, ↓Module.wdTo_only, ↓with_pin_only, ↓only_ite, ↓only_self, ite_self])

theorem Module.wdKick_only (hS : [.regs, .live, .good, .snap, .pend, .ctrs, .rc, .pin] ⊆ S) :
    Only S m0 (m.wdKick) ↔ Only S m0 m := Only.step hS (by
  unfold Module.wdKick
  simp (disch := decide) only [↓Module.raise_only, ↓Module.put_only, ↓Module.wdWindow_only,
    ↓Module.wdExpire_only, ↓Module.count_only, ↓Module.wdResume_only, ↓only_ite, ↓only_self, ite_self])

theorem Module.wdiEdge_only (hS : [.regs, .live, .good, .snap, .pend, .ctrs, .rc, .pin] ⊆ S) :
    Only S m0 (m.wdiEdge) ↔ Only S m0 m := Only.step hS (by
  unfold Module.wdiEdge
  simp (disch := decide) only [↓Module.wdKick_only, ↓only_ite, ↓only_self, ite_self])

theorem Module.wdKickWrite_only {v : W32} (hS : [.regs, .live, .good, .snap, .pend, .ctrs, .rc, .pin] ⊆ S) :
    Only S m0 (m.wdKickWrite v) ↔ Only S m0 m := Only.step hS (by
  unfold Module.wdKickWrite
  simp (disch := decide) only [↓Module.count_only, ↓Module.wdKick_only, ↓only_ite, ↓only_self, ite_self])

theorem Module.wdOpens_only (hS : [.regs] ⊆ S) :
    Only S m0 (m.wdOpens) ↔ Only S m0 m := Only.step hS (by
  unfold Module.wdOpens
  simp (disch := decide) only [↓Module.wdTo_only, ↓only_ite, ↓only_self, ite_self])

theorem Module.wdElapsed_only (hS : [.regs, .live, .good, .snap, .pend, .ctrs, .rc, .pin] ⊆ S) :
    Only S m0 (m.wdElapsed) ↔ Only S m0 m := Only.step hS (by
  unfold Module.wdElapsed
  simp (disch := decide) only [↓Module.wdExpire_only, ↓only_ite, ↓only_self, ite_self])

theorem Module.wdPulseEnd_only (hS : [.pin] ⊆ S) :
    Only S m0 (m.wdPulseEnd) ↔ Only S m0 m := Only.step hS (by
  unfold Module.wdPulseEnd
  simp (disch := decide) only [↓with_pin_only, ↓only_self])

theorem Module.wdStart_only (hS : [.regs] ⊆ S) :
    Only S m0 (m.wdStart) ↔ Only S m0 m := Module.wdTo_only hS

theorem Module.wdStop_only (hS : [.regs, .live, .snap, .pend, .rc] ⊆ S) :
    Only S m0 (m.wdStop) ↔ Only S m0 m := Only.step hS (by
  unfold Module.wdStop
  simp (disch := decide) only [↓Module.wdTo_only, ↓Module.wdResume_only, ↓only_self])

theorem Module.updXg_only {f : Xing → Xing} (hS : [.xg] ⊆ S) :
    Only S m0 (m.updXg f) ↔ Only S m0 m := Only.step hS (by
  unfold Module.updXg
  simp (disch := decide) only [↓with_xg_only, ↓only_self])

theorem Module.xingTo_only {s : Nat} (hS : [.regs] ⊆ S) :
    Only S m0 (m.xingTo s) ↔ Only S m0 m := Module.put_only hS

theorem Module.xingVbus_only {gin : List Int} (hS : [.nfree, .regs, .live, .good, .snap, .pend, .ctrs, .rc, .ph,
    .rl, .adc, .tr, .xg] ⊆ S) :
    Only S m0 (m.xingVbus gin) ↔ Only S m0 m := Only.step hS (by
  unfold Module.xingVbus
  dsimp only
  (repeat' split) <;> simp (disch := decide) only [↓Module.updXg_only, ↓Module.boundary_only,
    ↓Module.vbusTake_only, ↓only_self])

theorem Module.xingMembers_only {r : Nat} (hS : [.regs, .ph, .rl] ⊆ S) :
    Only S m0 (m.xingMembers r) ↔ Only S m0 m := Only.step hS (by
  unfold Module.xingMembers
  simp (disch := (intros; simp (decide := true) (disch := decide) only [↓Module.railUpd_only,
    ↓Module.probeAbort_only, ↓Module.updRl_only, ↓Module.updPh_only, ↓Module.count_only, ↓Module.raise_only,
    ↓Module.put_only, ↓Module.joins_only, ↓Module.setPh_only, ↓only_ite, ↓only_self, ite_self])) only
    [↓only_foldl, ↓Module.railUpd_only, ↓Module.probeAbort_only, ↓Module.updRl_only, ↓Module.count_only,
    ↓Module.raise_only, ↓Module.put_only, ↓only_ite, ↓only_self, ite_self])

theorem Module.xingCurrent_only {b : Nat} (hS : [.rl] ⊆ S) :
    Only S m0 (m.xingCurrent b) ↔ Only S m0 m := Only.step hS (by
  unfold Module.xingCurrent
  simp (disch := decide) only [↓Module.updRl_only, ↓only_ite, ↓only_self, ite_self])

theorem Module.impAbort_only {b : Nat} (hS : [.regs, .bt] ⊆ S) :
    Only S m0 (m.impAbort b) ↔ Only S m0 m := Only.step hS (by
  unfold Module.impAbort
  simp (disch := decide) only [↓Module.put_only, ↓upd_bt_only, ↓only_self])

theorem Module.xingCross_only (hS : [.nfree, .regs, .live, .good, .snap, .pend, .ctrs, .rc, .ph, .rl, .tr, .ep,
    .cp, .xg, .bt] ⊆ S) :
    Only S m0 (m.xingCross) ↔ Only S m0 m := Only.step hS (by
  unfold Module.xingCross
  simp (disch := (intros; simp (decide := true) (disch := decide) only [↓Module.put_only,
    ↓Module.xingMembers_only, ↓Module.fault_only, ↓Module.trCrossing_only, ↓Module.updEp_only,
    ↓Module.assistEnd_only, ↓Module.updXg_only, ↓Module.xingTo_only, ↓Module.impAbort_only, ↓Module.setReg_only,
    ↓Module.srcPut_only, ↓Module.xingCurrent_only, ↓only_ite, ↓only_self, ite_self])) only [↓only_foldl,
    ↓Module.put_only, ↓Module.fault_only, ↓Module.trCrossing_only, ↓Module.updEp_only, ↓Module.assistEnd_only,
    ↓Module.updXg_only, ↓Module.xingTo_only, ↓Module.setReg_only, ↓only_ite, ↓only_self, ite_self])

theorem Module.xingDetect_only {det cyc : Nat} (hS : [.nfree, .regs, .live, .good, .snap, .pend, .ctrs, .rc,
    .out, .ph, .rl, .tr, .ep, .cp, .xg, .bt] ⊆ S) :
    Only S m0 (m.xingDetect det cyc) ↔ Only S m0 m := Only.step hS (by
  unfold Module.xingDetect
  simp (disch := decide) only [↓Module.raise_only, ↓Module.put_only, ↓Module.fault_only, ↓Module.countReg_only,
    ↓Module.raiseRec_only, ↓Module.xingCross_only, ↓Module.updXg_only, ↓Module.arriveAt_only, ↓Module.xingTo_only,
    ↓Module.setReg_only, ↓only_ite, ↓only_self, ite_self])

theorem Module.xingShed_only (hS : [.rl] ⊆ S) :
    Only S m0 (m.xingShed) ↔ Only S m0 m := Only.step hS (by
  unfold Module.xingShed
  exact (only_foldl fun _ _ => by simp (disch := decide) only [↓Module.updRl_only, ↓only_self]).2 (Only.refl _ _))

theorem Module.xingFull_only {tx : Nat} (hS : [.regs, .xg] ⊆ S) :
    Only S m0 (m.xingFull tx) ↔ Only S m0 m := Only.step hS (by
  unfold Module.xingFull
  simp (disch := decide) only [↓Module.raise_only, ↓Module.put_only, ↓Module.updXg_only, ↓only_ite, ↓only_self,
    ite_self])

theorem Module.busLoop_only {v : Nat} (hS : [.regs, .live, .good, .snap, .pend, .ctrs, .rc, .rl, .xg] ⊆ S) :
    Only S m0 (m.busLoop v) ↔ Only S m0 m := Only.step hS (by
  unfold Module.busLoop
  exact (only_foldl fun _ _ => by simp (disch := decide) only [↓Module.setPoint_only, ↓only_self]).2 (by simp
    (disch := decide)
    only [↓Module.put_only, ↓Module.updXg_only, ↓Module.usePairs_only, ↓only_self]))

theorem Module.busSample_only {gin : List Int} (hS : [.nfree, .regs, .live, .good, .snap, .pend, .ctrs, .rc,
    .ph, .rl, .adc, .tr, .xg] ⊆ S) :
    Only S m0 (m.busSample gin) ↔ Only S m0 m := Only.step hS (by
  unfold Module.busSample
  dsimp only
  (repeat' split) <;> simp (disch := decide) only [↓Module.busLoop_only, ↓Module.put_only,
    ↓Module.xingVbus_only, ↓only_self])

theorem Module.xingSolved_only (hS : [.xg] ⊆ S) :
    Only S m0 (m.xingSolved) ↔ Only S m0 m := Only.step hS (by
  unfold Module.xingSolved
  simp (disch := decide) only [↓Module.updXg_only, ↓only_ite, ↓only_self, ite_self])

theorem Module.xingJudge_only (hS : [.regs, .xg] ⊆ S) :
    Only S m0 (m.xingJudge) ↔ Only S m0 m := Only.step hS (by
  unfold Module.xingJudge
  simp (disch := decide) only [↓Module.raise_only, ↓Module.put_only, ↓Module.updXg_only, ↓Module.xingTo_only,
    ↓only_ite, ↓only_self, ite_self])

theorem Module.xingGood_only {good : Bool} (hS : [.regs, .xg] ⊆ S) :
    Only S m0 (m.xingGood good) ↔ Only S m0 m := Only.step hS (by
  unfold Module.xingGood
  simp (disch := decide) only [↓Module.put_only, ↓Module.xingJudge_only, ↓Module.updXg_only,
    ↓Module.xingTo_only, ↓Module.setReg_only, ↓only_ite, ↓only_self, ite_self])

theorem Module.inGoodSee_only {acok : Nat} (hS : [.regs, .live, .snap, .pend, .xg] ⊆ S) :
    Only S m0 (m.inGoodSee acok) ↔ Only S m0 m := Only.step hS (by
  unfold Module.inGoodSee
  simp (disch := decide) only [↓Module.xingGood_only, ↓Module.boundary_only, ↓only_ite, ↓only_self, ite_self])

theorem Module.vlowEnd_only (hS : [.regs] ⊆ S) :
    Only S m0 (m.vlowEnd) ↔ Only S m0 m := Only.step hS (by
  unfold Module.vlowEnd
  simp (disch := decide) only [↓Module.put_only, ↓Module.capDrive_only, ↓only_self])

theorem Module.xingReturn_only (hS : [.regs, .live, .snap, .pend, .ep, .xg, .twc] ⊆ S) :
    Only S m0 (m.xingReturn) ↔ Only S m0 m := Only.step hS (by
  unfold Module.xingReturn
  simp (disch := decide) only [↓Module.vlowEnd_only]
  exact (only_foldl fun _ _ => by simp (disch := decide) only [↓Module.rectWake_only, ↓only_self]).2 (by simp
    (disch := decide) only [↓Module.raise_only, ↓Module.put_only, ↓Module.boundary_only, ↓Module.updXg_only,
    ↓Module.xingTo_only, ↓Module.setReg_only, ↓only_self]))

theorem Module.xingQualified_only (hS : [.regs, .live, .snap, .pend, .ep, .xg, .twc] ⊆ S) :
    Only S m0 (m.xingQualified) ↔ Only S m0 m := Only.step hS (by
  unfold Module.xingQualified
  simp (disch := decide) only [↓Module.xingReturn_only, ↓Module.updXg_only, ↓only_ite, ↓only_self, ite_self])

theorem Module.xingUnhold_only (hS : [.regs, .live, .snap, .pend, .ep, .xg, .twc] ⊆ S) :
    Only S m0 (m.xingUnhold) ↔ Only S m0 m := Only.step hS (by
  unfold Module.xingUnhold
  simp (disch := decide) only [↓Module.xingReturn_only, ↓only_ite, ↓only_self, ite_self])

theorem Module.xingWalk_only (hS : [.regs, .live, .snap, .pend, .rl, .xg] ⊆ S) :
    Only S m0 (m.xingWalk) ↔ Only S m0 m := Only.step hS (by
  unfold Module.xingWalk
  simp (disch := (intros; simp (decide := true) (disch := decide) only [↓Module.raise_only, ↓Module.put_only,
    ↓Module.boundary_only, ↓Module.updRl_only, ↓Module.updXg_only, ↓Module.xingTo_only, ↓Module.stringPoints_only,
    ↓only_ite, ↓only_self, ite_self])) only [↓only_foldl, ↓Module.raise_only, ↓Module.put_only,
    ↓Module.boundary_only, ↓Module.updXg_only, ↓Module.xingTo_only, ↓Module.stringPoints_only, ↓only_ite,
    ↓only_self, ite_self])

theorem Module.xingFrame_only (hS : [.regs, .live, .snap, .pend, .rl, .xg] ⊆ S) :
    Only S m0 (m.xingFrame) ↔ Only S m0 m := Only.step hS (by
  unfold Module.xingFrame
  simp (disch := decide) only [↓Module.put_only, ↓Module.xingJudge_only, ↓Module.updXg_only,
    ↓Module.xingWalk_only, ↓only_ite, ↓only_self, ite_self])

theorem Module.xingBatt_only (hS : [.regs, .xg, .sq] ⊆ S) :
    Only S m0 (m.xingBatt) ↔ Only S m0 m := Only.step hS (by
  unfold Module.xingBatt
  simp (disch := decide) only [↓Module.seqRequest_only, ↓Module.raise_only, ↓Module.put_only,
    ↓Module.xingJudge_only, ↓Module.capDrive_only, ↓Module.updXg_only, ↓Module.xingTo_only, ↓only_ite, ↓only_self,
    ite_self])

theorem Module.xingCutoffExit_only (hS : [.regs, .live, .snap, .pend, .rl, .sq] ⊆ S) :
    Only S m0 (m.xingCutoffExit) ↔ Only S m0 m := Only.step hS (by
  unfold Module.xingCutoffExit
  simp (disch := decide) only [↓Module.seqRequest_only, ↓Module.boundary_only, ↓Module.xingTo_only,
    ↓Module.setReg_only, ↓Module.stringPoints_only, ↓Module.vlowEnd_only, ↓only_ite, ↓only_self, ite_self])

theorem Module.xingStart_only (hS : [.regs, .xg] ⊆ S) :
    Only S m0 (m.xingStart) ↔ Only S m0 m := Only.step hS (by
  unfold Module.xingStart
  simp (disch := decide) only [↓Module.raise_only, ↓Module.updXg_only, ↓only_ite, ↓only_self, ite_self])

theorem Module.xingStop_only (hS : [.live, .snap, .pend, .xg] ⊆ S) :
    Only S m0 (m.xingStop) ↔ Only S m0 m := Only.step hS (by
  unfold Module.xingStop
  simp (disch := decide) only [↓Module.updXg_only, ↓Module.applyOnStop_only, ↓only_self])

theorem Module.updFd_only {c : Nat} {f : Feed → Feed} (hS : [.fd] ⊆ S) :
    Only S m0 (m.updFd c f) ↔ Only S m0 m := Only.step hS (by
  unfold Module.updFd
  simp (disch := decide) only [↓upd_fd_only, ↓only_self])

theorem Module.fdPairSee_only {c : Nat} (hS : [.regs] ⊆ S) :
    Only S m0 (m.fdPairSee c) ↔ Only S m0 m := Only.step hS (by
  unfold Module.fdPairSee
  exact (only_foldl fun _ _ => by simp (disch := decide) only [↓Module.put_only, ↓only_self]).2 (Only.refl _ _))

theorem Module.fdTo_only {c s : Nat} (hS : [.regs, .fd] ⊆ S) :
    Only S m0 (m.fdTo c s) ↔ Only S m0 m := Only.step hS (by
  unfold Module.fdTo
  simp (disch := decide) only [↓Module.put_only, ↓Module.updFd_only, ↓only_ite, ↓only_self, ite_self])

theorem Module.fdLast_only {c cause : Nat} (hS : [.regs] ⊆ S) :
    Only S m0 (m.fdLast c cause) ↔ Only S m0 m := Module.setReg_only hS

theorem Module.fdMateOff_only {c : Nat} (hS : [.regs, .fd] ⊆ S) :
    Only S m0 (m.fdMateOff c) ↔ Only S m0 m := Only.step hS (by
  unfold Module.fdMateOff
  simp (disch := decide) only [↓Module.fdTo_only, ↓only_ite, ↓only_self, ite_self])

theorem Module.fdInserted_only {c : Nat} (hS : [.regs, .fd] ⊆ S) :
    Only S m0 (m.fdInserted c) ↔ Only S m0 m := Only.step hS (by
  unfold Module.fdInserted
  simp (disch := decide) only [↓Module.fdTo_only, ↓only_ite, ↓only_self, ite_self])

theorem Module.fdExcursion_only {c : Nat} {hi : Bool} (hS : [.regs, .fd] ⊆ S) :
    Only S m0 (m.fdExcursion c hi) ↔ Only S m0 m := Only.step hS (by
  unfold Module.fdExcursion
  simp (disch := decide) only [↓Module.raise_only, ↓Module.put_only, ↓Module.fdLast_only, ↓Module.fdTo_only,
    ↓Module.fdMateOff_only, ↓only_ite, ↓only_self, ite_self])

theorem Module.fdOn_only {c : Nat} (hS : [.regs, .fd] ⊆ S) :
    Only S m0 (m.fdOn c) ↔ Only S m0 m := Only.step hS (by
  unfold Module.fdOn
  simp (disch := decide) only [↓Module.raise_only, ↓Module.fdTo_only, ↓only_ite, ↓only_self, ite_self])

theorem Module.fdConduct_only {c : Nat} (hS : [.regs, .fd] ⊆ S) :
    Only S m0 (m.fdConduct c) ↔ Only S m0 m := Only.step hS (by
  unfold Module.fdConduct
  simp (disch := decide) only [↓Module.fdTo_only, ↓only_ite, ↓only_self, ite_self])

theorem Module.fdReverse_only {c : Nat} (hS : [.regs, .fd] ⊆ S) :
    Only S m0 (m.fdReverse c) ↔ Only S m0 m := Only.step hS (by
  unfold Module.fdReverse
  simp (disch := decide) only [↓Module.raise_only, ↓Module.put_only, ↓Module.fdTo_only, ↓Module.countReg_only,
    ↓only_ite, ↓only_self, ite_self])

theorem Module.fdTrip_only {c cause : Nat} (hS : [.regs, .live, .good, .snap, .pend, .ctrs, .rc, .fd] ⊆ S) :
    Only S m0 (m.fdTrip c cause) ↔ Only S m0 m := Only.step hS (by
  unfold Module.fdTrip
  simp (disch := decide) only [↓Module.raise_only, ↓Module.count_only, ↓Module.fdLast_only, ↓Module.fault_only,
    ↓Module.fdTo_only, ↓Module.fdMateOff_only, ↓only_self])

theorem Module.fdFast_only {c : Nat} (hS : [.regs, .live, .good, .snap, .pend, .ctrs, .rc, .fd] ⊆ S) :
    Only S m0 (m.fdFast c) ↔ Only S m0 m := Only.step hS (by
  unfold Module.fdFast
  simp (disch := decide) only [↓Module.fdTrip_only, ↓only_ite, ↓only_self, ite_self])

theorem Module.fdRetry_only {c : Nat} (hS : [.regs, .fd] ⊆ S) :
    Only S m0 (m.fdRetry c) ↔ Only S m0 m := Only.step hS (by
  unfold Module.fdRetry
  simp (disch := decide) only [↓Module.fdTo_only, ↓only_ite, ↓only_self, ite_self])

theorem Module.fdWindow_only {c v : Nat} (hS : [.regs] ⊆ S) :
    Only S m0 (m.fdWindow c v) ↔ Only S m0 m := Module.put_only hS

theorem Module.fdHeat_only {c : Nat} (hS : [.regs, .live, .good, .snap, .pend, .ctrs, .rc, .fd] ⊆ S) :
    Only S m0 (m.fdHeat c) ↔ Only S m0 m := Only.step hS (by
  unfold Module.fdHeat
  simp (disch := decide) only [↓Module.updFd_only, ↓Module.fdTrip_only, ↓only_ite, ↓only_self, ite_self])

theorem Module.fdMeas_only {c : Nat} (hS : [.nfree, .regs] ⊆ S) :
    Only S m0 (m.fdMeas c) ↔ Only S m0 m := Only.step hS (by
  unfold Module.fdMeas
  simp (disch := decide) only [↓Module.put_only]
  (repeat' split) <;> simp (disch := decide) only [↓Module.draw_only, ↓Module.setReg_only, ↓only_self])

theorem Module.fdSample_only {c vin vout : Nat} {vs vgs : Int} (hS : [.nfree, .regs, .live, .good, .snap, .pend,
    .ctrs, .rc, .fd] ⊆ S) :
    Only S m0 (m.fdSample c vin vout vs vgs) ↔ Only S m0 m := Only.step hS (by
  unfold Module.fdSample
  simp (disch := decide) only [↓Module.updFd_only, ↓Module.fdMeas_only, ↓Module.boundary_only,
    ↓Module.usePairs_only, ↓Module.fdWindow_only, ↓Module.fdHeat_only, ↓only_ite, ↓only_self, ite_self])

theorem Module.fdDamaged_only {c : Nat} (hS : [.regs, .live, .snap, .pend, .rc, .fd] ⊆ S) :
    Only S m0 (m.fdDamaged c) ↔ Only S m0 m := Only.step hS (by
  unfold Module.fdDamaged
  simp (disch := decide) only [↓Module.raise_only, ↓Module.fdLast_only, ↓Module.latchNow_only,
    ↓Module.fdTo_only, ↓Module.fdMateOff_only, ↓only_ite, ↓only_self, ite_self])

theorem Module.fdNoConduct_only {c : Nat} (hS : [.regs, .live, .snap, .pend, .rc, .fd] ⊆ S) :
    Only S m0 (m.fdNoConduct c) ↔ Only S m0 m := Only.step hS (by
  unfold Module.fdNoConduct
  simp (disch := decide) only [↓Module.raise_only, ↓Module.fdLast_only, ↓Module.latchNow_only,
    ↓Module.fdTo_only, ↓Module.fdMateOff_only, ↓only_ite, ↓only_self, ite_self])

theorem Module.fdDegraded_only {c : Nat} (hS : [.regs, .live, .snap, .pend, .rc, .fd] ⊆ S) :
    Only S m0 (m.fdDegraded c) ↔ Only S m0 m := Only.step hS (by
  unfold Module.fdDegraded
  simp (disch := decide) only [↓Module.raise_only, ↓Module.fdLast_only, ↓Module.latchNow_only,
    ↓Module.fdTo_only, ↓Module.fdMateOff_only, ↓only_ite, ↓only_self, ite_self])

theorem Module.fdStart_only {c : Nat} (hS : [.regs, .fd] ⊆ S) :
    Only S m0 (m.fdStart c) ↔ Only S m0 m := Only.step hS (by
  unfold Module.fdStart
  simp (disch := decide) only [↓Module.raise_only, ↓Module.fdPairSee_only, ↓Module.fdTo_only, ↓only_ite,
    ↓only_self, ite_self])

theorem Module.fdStop_only {c : Nat} (hS : [.regs, .live, .snap, .pend, .fd] ⊆ S) :
    Only S m0 (m.fdStop c) ↔ Only S m0 m := Only.step hS (by
  unfold Module.fdStop
  simp (disch := decide) only [↓Module.fdTo_only, ↓Module.applyOnStop_only, ↓only_ite, ↓only_self, ite_self])

theorem Module.fdRelease_only {c i : Nat} (hS : [.regs, .fd] ⊆ S) :
    Only S m0 (m.fdRelease c i) ↔ Only S m0 m := Only.step hS (by
  unfold Module.fdRelease
  simp (disch := decide) only [↓Module.fdTo_only, ↓only_ite, ↓only_self, ite_self])

theorem Module.fdAdopt_only {c : Nat} (hS : [.regs, .fd] ⊆ S) :
    Only S m0 (m.fdAdopt c) ↔ Only S m0 m := Only.step hS (by
  unfold Module.fdAdopt
  simp (disch := decide) only [↓Module.updFd_only, ↓Module.fdTo_only, ↓only_ite, ↓only_self, ite_self])

theorem Module.fdAdoptAll_only (hS : [.regs, .fd] ⊆ S) :
    Only S m0 (m.fdAdoptAll) ↔ Only S m0 m := Only.step hS (by
  unfold Module.fdAdoptAll
  simp (disch := (intros; simp (decide := true) (disch := decide) only [↓Module.updFd_only,
    ↓Module.fdAdopt_only, ↓Module.fdTo_only, ↓only_ite, ↓only_self, ite_self])) only [↓only_foldl, ↓only_self])

theorem Module.updBt_only {b : Nat} {f : Batt → Batt} (hS : [.bt] ⊆ S) :
    Only S m0 (m.updBt b f) ↔ Only S m0 m := Only.step hS (by
  unfold Module.updBt
  simp (disch := decide) only [↓upd_bt_only, ↓only_self])

theorem Module.setSocC_only {b x : Nat} (hS : [.regs] ⊆ S) :
    Only S m0 (m.setSocC b x) ↔ Only S m0 m := Module.put_only hS

theorem Module.setSocV_only {b x : Nat} (hS : [.regs] ⊆ S) :
    Only S m0 (m.setSocV b x) ↔ Only S m0 m := Module.put_only hS

theorem Module.setLearned_only {b off x : Nat} (hS : [.regs, .live] ⊆ S) :
    Only S m0 (m.setLearned b off x) ↔ Only S m0 m := Module.setBoth_only hS

theorem Module.battLevels_only {b : Nat} (hS : [.regs, .xg, .sq, .bt] ⊆ S) :
    Only S m0 (m.battLevels b) ↔ Only S m0 m := Only.step hS (by
  unfold Module.battLevels
  simp (disch := (intros; simp (decide := true) (disch := decide) only [↓Module.raise_only, ↓Module.put_only,
    ↓Module.updBt_only, ↓Module.xingBatt_only, ↓only_ite, ↓only_self, ite_self])) only [↓only_foldl,
    ↓Module.raise_only, ↓Module.put_only, ↓Module.updBt_only, ↓Module.xingBatt_only, ↓only_ite, ↓only_self,
    ite_self])

theorem Module.battSocJudge_only {b : Nat} (hS : [.regs, .xg, .sq, .bt] ⊆ S) :
    Only S m0 (m.battSocJudge b) ↔ Only S m0 m := Only.step hS (by
  unfold Module.battSocJudge
  simp (disch := decide) only [↓Module.battLevels_only, ↓Module.updBt_only, ↓only_self])

theorem Module.impJudge_only {b : Nat} (hS : [.regs, .bt] ⊆ S) :
    Only S m0 (m.impJudge b) ↔ Only S m0 m := Only.step hS (by
  unfold Module.impJudge
  simp (disch := decide) only [↓Module.put_only, ↓Module.updBt_only, ↓Module.impAbort_only, ↓only_ite,
    ↓only_self, ite_self])

theorem Module.impAsk_only {b : Nat} (hS : [.bt] ⊆ S) :
    Only S m0 (m.impAsk b) ↔ Only S m0 m := Only.step hS (by
  unfold Module.impAsk
  simp (disch := decide) only [↓Module.updBt_only, ↓only_ite, ↓only_self, ite_self])

theorem Module.impAbortAll_only (hS : [.regs, .bt] ⊆ S) :
    Only S m0 (m.impAbortAll) ↔ Only S m0 m := Only.step hS (by
  unfold Module.impAbortAll
  exact (only_foldl fun _ _ => by simp (disch := decide) only [↓Module.impAbort_only, ↓only_self]).2 (Only.refl
    _ _))

theorem Module.learnSoh_only {b : Nat} (hS : [.regs, .live] ⊆ S) :
    Only S m0 (m.learnSoh b) ↔ Only S m0 m := Module.setLearned_only hS

theorem Module.learn_only {b off x : Nat} (hS : [.regs, .live] ⊆ S) :
    Only S m0 (m.learn b off x) ↔ Only S m0 m := Only.step hS (by
  unfold Module.learn
  simp (disch := decide) only [↓Module.put_only, ↓Module.setLearned_only, ↓Module.learnSoh_only, ↓only_ite,
    ↓only_self, ite_self])

theorem Module.learnTo_only {b off : Nat} {new : Int} (hS : [.regs, .live] ⊆ S) :
    Only S m0 (m.learnTo b off new) ↔ Only S m0 m := Module.learn_only hS

theorem Module.nameplate_only {b : Nat} (hS : [.regs, .live, .bt] ⊆ S) :
    Only S m0 (m.nameplate b) ↔ Only S m0 m := Only.step hS (by
  unfold Module.nameplate
  simp (disch := decide) only [↓Module.put_only, ↓Module.updBt_only, ↓Module.setLearned_only, ↓only_self])

theorem Module.battRestore_only {b : Nat} (hS : [.regs, .bt] ⊆ S) :
    Only S m0 (m.battRestore b) ↔ Only S m0 m := Only.step hS (by
  unfold Module.battRestore
  simp (disch := decide) only [↓Module.raise_only, ↓Module.put_only, ↓Module.updBt_only, ↓only_ite, ↓only_self,
    ite_self])

theorem Module.battTemp_only {b : Nat} (hS : [.regs] ⊆ S) :
    Only S m0 (m.battTemp b) ↔ Only S m0 m := Only.step hS (by
  unfold Module.battTemp
  simp (disch := decide) only [↓Module.raise_only, ↓Module.put_only, ↓only_ite, ite_self]
  (repeat' split) <;> simp (disch := decide) only [↓Module.put_only, ↓only_self])

theorem Module.battCount_only {b : Nat} (hS : [.nfree, .regs, .live, .bt] ⊆ S) :
    Only S m0 (m.battCount b) ↔ Only S m0 m := Only.step hS (by
  unfold Module.battCount
  simp (disch := decide) only [↓Module.setSocC_only, ↓Module.raise_only, ↓Module.put_only, ↓Module.learn_only,
    ↓Module.updBt_only, ↓Module.draw_only, ↓only_ite, ↓only_self, ite_self])

theorem Module.battRest_only {b : Nat} (hS : [.regs, .live, .bt] ⊆ S) :
    Only S m0 (m.battRest b) ↔ Only S m0 m := Only.step hS (by
  unfold Module.battRest
  simp (disch := decide) only [↓only_ite, ↓only_self]
  (repeat' split) <;> simp (disch := decide) only [↓Module.raise_only, ↓Module.put_only, ↓Module.learnTo_only,
    ↓Module.updBt_only, ↓Module.setSocC_only, ↓Module.setReg_only, ↓only_self])

theorem Module.battCharge_only {b : Nat} {voc : Int} (hS : [.regs] ⊆ S) :
    Only S m0 (m.battCharge b voc) ↔ Only S m0 m := Only.step hS (by
  unfold Module.battCharge
  simp (disch := decide) only [↓Module.put_only, ↓only_ite, ↓only_self, ite_self])

theorem Module.battPairs_only {b : Nat} (hS : [.regs, .live, .good, .snap, .pend, .ctrs, .rc] ⊆ S) :
    Only S m0 (m.battPairs b) ↔ Only S m0 m := Only.step hS (by
  unfold Module.battPairs
  simp (disch := decide) only [↓Module.useWords_only, ↓Module.usePairs_only, ↓only_self])

theorem Module.battUpdate_only {b : Nat} (hS : [.nfree, .regs, .live, .good, .snap, .pend, .ctrs, .rc, .xg, .sq,
    .bt] ⊆ S) :
    Only S m0 (m.battUpdate b) ↔ Only S m0 m := Only.step hS (by
  unfold Module.battUpdate
  simp (disch := decide) only [↓Module.setSocV_only, ↓Module.battPairs_only, ↓Module.battSocJudge_only,
    ↓Module.applyPend_only, ↓Module.updBt_only, ↓Module.battRestore_only, ↓Module.applySnap_only,
    ↓Module.battRest_only, ↓Module.setSocC_only, ↓Module.battTemp_only, ↓Module.battCount_only,
    ↓Module.battCharge_only, ↓only_ite, ↓only_self, ite_self])

theorem Module.battMs_only (hS : [.bt] ⊆ S) :
    Only S m0 (m.battMs) ↔ Only S m0 m := Only.step hS (by
  unfold Module.battMs
  exact (only_foldl fun _ _ => by simp (disch := decide) only [↓Module.updBt_only, ↓only_self]).2 (Only.refl _ _))

theorem Module.battTick_only {done : Bool} (hS : [.nfree, .regs, .live, .good, .snap, .pend, .ctrs, .rc, .xg,
    .sq, .bt] ⊆ S) :
    Only S m0 (m.battTick done) ↔ Only S m0 m := Only.step hS (by
  unfold Module.battTick
  exact (only_foldl fun _ _ => by simp (disch := decide) only [↓Module.battUpdate_only, ↓only_ite, ↓only_self,
    ite_self]).2 (Only.refl _ _))

theorem Module.battHold_only (hS : [.regs] ⊆ S) :
    Only S m0 (m.battHold) ↔ Only S m0 m := Only.step hS (by
  unfold Module.battHold
  exact (only_foldl fun _ _ => by simp (disch := decide) only [↓Module.setSocV_only, ↓only_self]).2 (Only.refl _ _))

theorem Module.battVCond_only {b mv : Nat} (hS : [.bt] ⊆ S) :
    Only S m0 (m.battVCond b mv) ↔ Only S m0 m := Module.updBt_only hS

theorem Module.battVoltage_only {b mv : Nat} (hS : [.regs, .live, .good, .snap, .pend, .ctrs, .rc, .xg, .sq,
    .bt] ⊆ S) :
    Only S m0 (m.battVoltage b mv) ↔ Only S m0 m := Only.step hS (by
  unfold Module.battVoltage
  simp (disch := decide) only [↓Module.put_only, ↓Module.applyPend_only, ↓Module.battLevels_only,
    ↓Module.battVCond_only, ↓Module.updBt_only, ↓Module.applySnap_only, ↓Module.usePairs_only,
    ↓Module.impJudge_only, ↓only_ite, ↓only_self, ite_self])

theorem Module.battLevelTimer_only {b k : Nat} {enter : Bool} (hS : [.regs, .xg, .sq, .bt] ⊆ S) :
    Only S m0 (m.battLevelTimer b k enter) ↔ Only S m0 m := Only.step hS (by
  unfold Module.battLevelTimer
  simp (disch := decide) only [↓Module.battLevels_only, ↓Module.updBt_only, ↓only_ite, ↓only_self, ite_self])

theorem Module.battSwap_only {b : Nat} (hS : [.regs, .xg, .sq] ⊆ S) :
    Only S m0 (m.battSwap b) ↔ Only S m0 m := Only.step hS (by
  unfold Module.battSwap
  simp (disch := decide) only [↓Module.raise_only, ↓Module.put_only, ↓Module.xingBatt_only, ↓only_ite,
    ↓only_self, ite_self])

theorem Module.battPresent_only {b st : Nat} (hS : [.regs, .live, .snap, .pend, .rc, .xg, .sq, .bt] ⊆ S) :
    Only S m0 (m.battPresent b st) ↔ Only S m0 m := Only.step hS (by
  unfold Module.battPresent
  simp (disch := decide) only [↓Module.raise_only, ↓Module.put_only, ↓Module.latchNow_only, ↓Module.updBt_only,
    ↓Module.battSwap_only, ↓only_ite, ↓only_self, ite_self])

theorem Module.battIdRead_only {b rid : Nat} (hS : [.regs, .live, .snap, .pend, .rc, .xg, .sq, .bt] ⊆ S) :
    Only S m0 (m.battIdRead b rid) ↔ Only S m0 m := Only.step hS (by
  unfold Module.battIdRead
  simp (disch := decide) only [↓Module.put_only, ↓Module.latchNow_only, ↓Module.updBt_only,
    ↓Module.battSwap_only, ↓Module.battPresent_only, ↓only_ite, ↓only_self, ite_self])

theorem Module.battAccept_only {b : Nat} (hS : [.regs, .live, .bt] ⊆ S) :
    Only S m0 (m.battAccept b) ↔ Only S m0 m := Only.step hS (by
  unfold Module.battAccept
  simp (disch := decide) only [↓Module.raise_only, ↓Module.put_only, ↓Module.updBt_only, ↓Module.setSocC_only,
    ↓Module.nameplate_only, ↓only_ite, ↓only_self, ite_self])

theorem Module.battStart_only {b : Nat} (hS : [.regs, .live, .bt] ⊆ S) :
    Only S m0 (m.battStart b) ↔ Only S m0 m := Only.step hS (by
  unfold Module.battStart
  simp (disch := decide) only [↓Module.raise_only, ↓Module.updBt_only, ↓Module.nameplate_only, ↓only_ite,
    ↓only_self, ite_self])

theorem Module.battStop_only {b : Nat} (hS : [.regs, .live, .snap, .pend, .bt] ⊆ S) :
    Only S m0 (m.battStop b) ↔ Only S m0 m := Only.step hS (by
  unfold Module.battStop
  simp (disch := decide) only [↓Module.put_only, ↓Module.applyOnStop_only, ↓Module.impAbort_only,
    ↓Module.updBt_only, ↓Module.battRestore_only, ↓only_self])

theorem Module.commitOcv_only {b : Nat} (hS : [.regs, .live, .snap, .unc] ⊆ S) :
    Only S m0 (m.commitOcv b) ↔ Only S m0 m := Only.step hS (by
  unfold Module.commitOcv
  simp (disch := decide) only [↓Module.raise_only, ↓Module.commit_only, ↓only_ite, ↓only_self, ite_self])

theorem Module.commitLearn_only {b : Nat} {wrote : List Nat} (hS : [.regs, .live, .snap, .unc, .bt] ⊆ S) :
    Only S m0 (m.commitLearn b wrote) ↔ Only S m0 m := Only.step hS (by
  unfold Module.commitLearn
  simp (disch := decide) only [↓Module.raise_only, ↓Module.updBt_only, ↓Module.battRestore_only,
    ↓Module.commit_only, ↓only_ite, ↓only_self, ite_self])

theorem Module.updNet_only {f : Net → Net} (hS : [.net] ⊆ S) :
    Only S m0 (m.updNet f) ↔ Only S m0 m := Only.step hS (by
  unfold Module.updNet
  simp (disch := decide) only [↓with_net_only, ↓only_self])

theorem Module.setEng_only {e st : Nat} (hS : [.regs] ⊆ S) :
    Only S m0 (m.setEng e st) ↔ Only S m0 m := Module.put_only hS

theorem Module.pathSimplex_only (hS : [.regs] ⊆ S) :
    Only S m0 (m.pathSimplex) ↔ Only S m0 m := Module.put_only hS

theorem Module.takeTrailer_only (hS : [.regs] ⊆ S) :
    Only S m0 (m.takeTrailer).2 ↔ Only S m0 m := Module.put_only hS

theorem Module.release_only {cls typ da dst flags : Nat} {payload : List Byte} {auth : Bool} (hS : [.regs, .net]
    ⊆ S) :
    Only S m0 (m.release cls typ da dst flags payload auth) ↔ Only S m0 m := Only.step hS (by
  unfold Module.release
  simp (disch := decide) only [↓Module.raise_only, ↓Module.updNet_only, ↓Module.takeTrailer_only,
    ↓Module.setTbl_only, ↓Module.countReg_only, ↓only_ite, ↓only_self, ite_self])

theorem Module.engRepair_only {e : Nat} (hS : [.regs, .net] ⊆ S) :
    Only S m0 (m.engRepair e) ↔ Only S m0 m := Only.step hS (by
  unfold Module.engRepair
  simp (disch := decide) only [↓Module.setEng_only, ↓Module.updNet_only, ↓Module.pathSimplex_only, ↓only_self])

theorem Module.engLeave_only {e : Nat} {lasting : Bool} (hS : [.regs, .net] ⊆ S) :
    Only S m0 (m.engLeave e lasting) ↔ Only S m0 m := Only.step hS (by
  unfold Module.engLeave
  simp (disch := decide) only [↓Module.raise_only, ↓Module.setEng_only, ↓Module.pathSimplex_only,
    ↓Module.engRepair_only, ↓only_ite, ↓only_self, ite_self])

theorem Module.txAbort_only (hS : [.regs, .net] ⊆ S) :
    Only S m0 (m.txAbort) ↔ Only S m0 m := Only.step hS (by
  unfold Module.txAbort
  dsimp only
  (repeat' split) <;> simp (disch := (intros; (repeat' split) <;> simp (decide := true) (disch := decide) only
    [↓Module.updNet_only, ↓Module.countReg_only, ↓only_ite, ↓only_self, ite_self])) only [↓only_foldl,
    ↓Module.updNet_only, ↓only_self])

theorem Module.sentOfs_only {x : Nat} (hS : [.regs, .live, .good, .snap, .pend, .ctrs, .rc] ⊆ S) :
    Only S m0 (m.sentOfs x) ↔ Only S m0 m := Only.step hS (by
  unfold Module.sentOfs
  simp (disch := decide) only [↓Module.setReg_only, ↓Module.fault_only, ↓Module.raise_only, ↓only_ite,
    ↓only_self, ite_self])

theorem Module.resend_only (hS : [.nfree, .regs, .live, .good, .snap, .pend, .ctrs, .rc, .net] ⊆ S) :
    Only S m0 (m.resend) ↔ Only S m0 m := Only.step hS (by
  unfold Module.resend
  simp (disch := decide) only [↓only_ite, ↓only_self]
  (repeat' split) <;> simp (disch := decide) only [↓Module.updNet_only, ↓Module.sentOfs_only, ↓Module.draw_only,
    ↓only_self])

theorem Module.switchOver_only {reason : Nat} {forced : Bool} (hS : [.nfree, .regs, .live, .good, .snap, .pend,
    .ctrs, .rc, .net] ⊆ S) :
    Only S m0 (m.switchOver reason forced) ↔ Only S m0 m := Only.step hS (by
  unfold Module.switchOver
  simp (disch := decide) only [↓Module.raise_only, ↓Module.put_only, ↓Module.updNet_only, ↓Module.setEng_only,
    ↓Module.count_only, ↓Module.txAbort_only, ↓Module.setReg_only, ↓Module.resend_only, ↓only_ite, ↓only_self,
    ite_self])

theorem Module.doubleFault_only (hS : [.regs, .live, .snap, .pend, .rc, .net] ⊆ S) :
    Only S m0 (m.doubleFault) ↔ Only S m0 m := Only.step hS (by
  unfold Module.doubleFault
  simp (disch := decide) only [↓Module.raiseRec_only, ↓Module.put_only, ↓Module.updNet_only, ↓Module.latchNow_only]
  exact (only_foldl fun _ _ => by simp (disch := decide) only [↓Module.setEng_only, ↓only_self]).2 (by
    simp (disch := decide) only [↓only_self]))

theorem Module.engCount_only {e : Nat} (hS : [.regs, .live, .good, .snap, .pend, .ctrs, .rc] ⊆ S) :
    Only S m0 (m.engCount e).1 ↔ Only S m0 m := Module.fault_only hS

theorem Module.engFlag1_only {e reason : Nat} (hS : [.nfree, .regs, .live, .good, .snap, .pend, .ctrs, .rc,
    .net] ⊆ S) :
    Only S m0 (m.engFlag1 e reason) ↔ Only S m0 m := Only.step hS (by
  unfold Module.engFlag1
  simp (disch := decide) only [↓Module.switchOver_only, ↓Module.doubleFault_only, ↓Module.engLeave_only,
    ↓Module.engCount_only, ↓only_ite, ↓only_self, ite_self])

theorem Module.engFlag_only {mask reason : Nat} (hS : [.nfree, .regs, .live, .good, .snap, .pend, .ctrs, .rc,
    .net] ⊆ S) :
    Only S m0 (m.engFlag mask reason) ↔ Only S m0 m := Only.step hS (by
  unfold Module.engFlag
  simp (disch := (intros; simp (decide := true) (disch := decide) only [↓Module.doubleFault_only,
    ↓Module.engFlag1_only, ↓Module.engCount_only, ↓only_ite, ↓only_self, ite_self])) only [↓only_foldl,
    ↓Module.doubleFault_only, ↓Module.engCount_only, ↓only_ite, ↓only_self, ite_self])

theorem Module.mismatch_only (hS : [.regs, .net] ⊆ S) :
    Only S m0 (m.mismatch) ↔ Only S m0 m := Only.step hS (by
  unfold Module.mismatch
  simp (disch := decide) only [↓Module.raise_only, ↓Module.count_only, ↓Module.engLeave_only, ↓only_ite,
    ↓only_self, ite_self])

theorem Module.repairStage_only {e : Nat} {ok : Bool} (hS : [.regs, .net] ⊆ S) :
    Only S m0 (m.repairStage e ok) ↔ Only S m0 m := Only.step hS (by
  unfold Module.repairStage
  simp (disch := decide) only [↓Module.raise_only, ↓Module.updNet_only, ↓Module.count_only,
    ↓Module.pathSimplex_only, ↓Module.setEng_only, ↓only_ite, ↓only_self, ite_self])

theorem Module.replayFrame_only (hS : [.regs, .net] ⊆ S) :
    Only S m0 (m.replayFrame) ↔ Only S m0 m := Only.step hS (by
  unfold Module.replayFrame
  simp (disch := decide) only [↓Module.raise_only, ↓Module.updNet_only, ↓Module.count_only, ↓Module.setEng_only,
    ↓only_ite, ↓only_self, ite_self])

theorem Module.rebuilt_only {e : Nat} (hS : [.regs, .net] ⊆ S) :
    Only S m0 (m.rebuilt e) ↔ Only S m0 m := Only.step hS (by
  unfold Module.rebuilt
  simp (disch := decide) only [↓Module.put_only, ↓Module.updNet_only, ↓Module.pathSimplex_only,
    ↓Module.setEng_only, ↓only_ite, ↓only_self, ite_self])

theorem Module.netSwitch_only (hS : [.nfree, .regs, .live, .good, .snap, .pend, .ctrs, .rc, .net] ⊆ S) :
    Only S m0 (m.netSwitch) ↔ Only S m0 m := Only.step hS (by
  unfold Module.netSwitch
  simp (disch := decide) only [↓Module.raise_only, ↓Module.switchOver_only, ↓Module.engRepair_only, ↓only_ite,
    ↓only_self, ite_self])

theorem Module.netRepair_only {e : Nat} (hS : [.regs, .net] ⊆ S) :
    Only S m0 (m.netRepair e) ↔ Only S m0 m := Only.step hS (by
  unfold Module.netRepair
  simp (disch := decide) only [↓Module.engRepair_only, ↓only_ite, ↓only_self, ite_self])

theorem Module.pathStart_only {bad : List Nat} {sapling : Bool} (hS : [.regs] ⊆ S) :
    Only S m0 (m.pathStart bad sapling) ↔ Only S m0 m := Only.step hS (by
  unfold Module.pathStart
  simp (disch := decide) only [↓Module.setEng_only, ↓Module.put_only, ↓Module.pathSimplex_only, ↓only_self])

theorem Module.updBn_only {f : Benuf → Benuf} (hS : [.bn] ⊆ S) :
    Only S m0 (m.updBn f) ↔ Only S m0 m := Only.step hS (by
  unfold Module.updBn
  simp (disch := decide) only [↓with_bn_only, ↓only_self])

theorem Module.updGr_only {f : Grove → Grove} (hS : [.gr] ⊆ S) :
    Only S m0 (m.updGr f) ↔ Only S m0 m := Only.step hS (by
  unfold Module.updGr
  simp (disch := decide) only [↓with_gr_only, ↓only_self])

theorem Module.setMemMac_only {i mac : Nat} (hS : [.regs] ⊆ S) :
    Only S m0 (m.setMemMac i mac) ↔ Only S m0 m := Only.step hS (by
  unfold Module.setMemMac
  simp (disch := decide) only [↓Module.setTbl_only, ↓only_self])

theorem Module.memWord_only {i : Nat} (hS : [.regs] ⊆ S) :
    Only S m0 (m.memWord i) ↔ Only S m0 m := Only.step hS (by
  unfold Module.memWord
  simp (disch := (intros; simp (decide := true) (disch := decide) only [↓Module.setTbl_only, ↓only_ite,
    ↓only_self, ite_self])) only [↓only_foldl, ↓Module.setTbl_only, ↓only_ite, ↓only_self, ite_self])

theorem Module.setMemSt_only {i st : Nat} (hS : [.regs] ⊆ S) :
    Only S m0 (m.setMemSt i st) ↔ Only S m0 m := Only.step hS (by
  unfold Module.setMemSt
  simp (disch := decide) only [↓Module.setTbl_only, ↓Module.memWord_only, ↓only_self])

theorem Module.setMemMax_only {i w : Nat} (hS : [.regs] ⊆ S) :
    Only S m0 (m.setMemMax i w) ↔ Only S m0 m := Module.setTbl_only hS

theorem Module.memCount_only (hS : [.regs] ⊆ S) :
    Only S m0 (m.memCount) ↔ Only S m0 m := Module.put_only hS

theorem Module.memFree_only {i : Nat} (hS : [.regs, .bn] ⊆ S) :
    Only S m0 (m.memFree i) ↔ Only S m0 m := Only.step hS (by
  unfold Module.memFree
  simp (disch := decide) only [↓Module.updBn_only, ↓Module.memCount_only]
  exact (only_foldl fun _ _ => by simp (disch := decide) only [↓Module.setTbl_only, ↓only_self]).2 (Only.refl _ _))

theorem Module.memAdmit_only {i w : Nat} (hS : [.regs] ⊆ S) :
    Only S m0 (m.memAdmit i w) ↔ Only S m0 m := Only.step hS (by
  unfold Module.memAdmit
  simp (disch := decide) only [↓Module.raise_only, ↓Module.setMemMax_only, ↓Module.memCount_only,
    ↓Module.setMemSt_only, ↓only_self])

theorem Module.sendHello_only {extra : Nat} (hS : [.regs, .live, .good, .snap, .pend, .ctrs, .rc, .net] ⊆ S) :
    Only S m0 (m.sendHello extra) ↔ Only S m0 m := Only.step hS (by
  unfold Module.sendHello
  simp (disch := decide) only [↓Module.release_only, ↓Module.usePairs_only, ↓only_self])

theorem Module.mgmtSend_only {k : KeptReq} (hS : [.regs, .net] ⊆ S) :
    Only S m0 (m.mgmtSend k) ↔ Only S m0 m := Module.release_only hS

theorem Module.mgmtCount_only {busy : Bool} (hS : [.regs] ⊆ S) :
    Only S m0 (m.mgmtCount busy) ↔ Only S m0 m := Only.step hS (by
  unfold Module.mgmtCount
  simp (disch := decide) only [↓Module.count_only, ↓only_ite, ↓only_self, ite_self])

theorem Module.mgmtAnswer_only {k : KeptReq} (hS : [.regs, .net, .bn] ⊆ S) :
    Only S m0 (m.mgmtAnswer k) ↔ Only S m0 m := Only.step hS (by
  unfold Module.mgmtAnswer
  simp (disch := decide) only [↓Module.updBn_only, ↓Module.mgmtCount_only, ↓Module.mgmtSend_only, ↓only_self])

theorem Module.heardOwn_only {src : Nat} (hS : [.bn] ⊆ S) :
    Only S m0 (m.heardOwn src) ↔ Only S m0 m := Only.step hS (by
  unfold Module.heardOwn
  simp (disch := decide) only [↓Module.updBn_only, ↓only_ite, ↓only_self, ite_self])

theorem Module.groveLocal_only (hS : [.regs, .gr] ⊆ S) :
    Only S m0 (m.groveLocal) ↔ Only S m0 m := Only.step hS (by
  unfold Module.groveLocal
  simp (disch := decide) only [↓Module.raise_only, ↓Module.put_only, ↓Module.capForce_only, ↓Module.updGr_only,
    ↓only_ite, ↓only_self, ite_self])

theorem Module.joinStart_only (hS : [.regs, .live, .good, .snap, .pend, .ctrs, .rc, .net, .bn] ⊆ S) :
    Only S m0 (m.joinStart) ↔ Only S m0 m := Only.step hS (by
  unfold Module.joinStart
  simp (disch := decide) only [↓Module.put_only, ↓Module.sendHello_only, ↓Module.setMemSt_only,
    ↓Module.setMemMac_only, ↓Module.updBn_only, ↓Module.memCount_only, ↓Module.setMemMax_only, ↓only_self])

theorem Module.leaveStart_only (hS : [.regs, .gr, .bn] ⊆ S) :
    Only S m0 (m.leaveStart) ↔ Only S m0 m := Only.step hS (by
  unfold Module.leaveStart
  simp (disch := decide) only [↓Module.updBn_only, ↓Module.memFree_only, ↓Module.updGr_only, ↓only_self])

theorem Module.groveUpdate_only (hS : [.regs, .live, .good, .snap, .pend, .ctrs, .rc, .gr, .net, .bn] ⊆ S) :
    Only S m0 (m.groveUpdate) ↔ Only S m0 m := Only.step hS (by
  unfold Module.groveUpdate
  simp (disch := decide) only [↓Module.put_only, ↓Module.joinStart_only, ↓Module.groveLocal_only,
    ↓Module.leaveStart_only, ↓only_ite, ↓only_self, ite_self])

theorem Module.joinEnd_only (hS : [.regs, .gr] ⊆ S) :
    Only S m0 (m.joinEnd) ↔ Only S m0 m := Only.step hS (by
  unfold Module.joinEnd
  simp (disch := decide) only [↓Module.raise_only, ↓Module.put_only, ↓Module.groveLocal_only, ↓only_ite,
    ↓only_self, ite_self])

theorem Module.groveEpoch_only (hS : [.regs, .live, .good, .snap, .pend, .ctrs, .rc, .gr, .net, .bn] ⊆ S) :
    Only S m0 (m.groveEpoch) ↔ Only S m0 m := Only.step hS (by
  unfold Module.groveEpoch
  simp (disch := decide) only [↓Module.groveUpdate_only, ↓only_ite, ↓only_self, ite_self])

theorem Module.noteConflict_only {own : Bool} {n : Nat} (hS : [.regs] ⊆ S) :
    Only S m0 (m.noteConflict own n) ↔ Only S m0 m := Module.setReg_only hS

theorem Module.helloOwn_only {f : Hello} (hS : [.regs, .live, .good, .snap, .pend, .ctrs, .rc, .gr, .net, .bn] ⊆
    S) :
    Only S m0 (m.helloOwn f) ↔ Only S m0 m := Only.step hS (by
  unfold Module.helloOwn
  simp (disch := decide) only [↓Module.groveUpdate_only, ↓Module.put_only, ↓Module.noteConflict_only,
    ↓Module.latchNow_only, ↓Module.heardOwn_only, ↓only_ite, ↓only_self, ite_self])

theorem Module.helloMember_only {f : Hello} {i : Nat} (hS : [.regs, .bn] ⊆ S) :
    Only S m0 (m.helloMember f i) ↔ Only S m0 m := Only.step hS (by
  unfold Module.helloMember
  simp (disch := decide) only [↓Module.raise_only, ↓Module.noteConflict_only, ↓Module.updBn_only,
    ↓Module.memFree_only, ↓Module.setTbl_only, ↓Module.memCount_only, ↓Module.setMemSt_only,
    ↓Module.setMemMac_only, ↓Module.setMemMax_only, ↓only_ite, ↓only_self, ite_self])

theorem Module.hello_only {f : Hello} (hS : [.regs, .live, .good, .snap, .pend, .ctrs, .rc, .gr, .net, .bn] ⊆ S)
    :
    Only S m0 (m.hello f) ↔ Only S m0 m := Only.step hS (by
  unfold Module.hello
  simp (disch := decide) only [↓Module.helloMember_only, ↓Module.helloOwn_only, ↓only_ite, ↓only_self, ite_self])

theorem Module.memPeriod_only (hS : [.regs, .bn] ⊆ S) :
    Only S m0 (m.memPeriod) ↔ Only S m0 m := Only.step hS (by
  unfold Module.memPeriod
  simp (disch := (intros; simp (decide := true) (disch := decide) only [↓Module.raise_only,
    ↓Module.setMemMac_only, ↓Module.updBn_only, ↓Module.memFree_only, ↓Module.memAdmit_only, ↓only_ite,
    ↓only_self, ite_self])) only [↓only_foldl, ↓Module.updBn_only, ↓only_self])

theorem Module.netMs_only (hS : [.regs, .net, .bn] ⊆ S) :
    Only S m0 (m.netMs) ↔ Only S m0 m := Only.step hS (by
  unfold Module.netMs
  simp (disch := (intros; simp (decide := true) (disch := decide) only [↓Module.updNet_only, ↓Module.updBn_only,
    ↓Module.setTbl_only, ↓only_ite, ↓only_self, ite_self])) only [↓only_foldl, ↓Module.updNet_only,
    ↓Module.updBn_only, ↓only_ite, ↓only_self, ite_self])

theorem Module.demandW_only (hS : [.nfree] ⊆ S) :
    Only S m0 (m.demandW).2 ↔ Only S m0 m := Only.step hS (by
  unfold Module.demandW
  dsimp only
  (repeat' split) <;> simp (disch := decide) only [↓Module.draw_only, ↓only_self])

theorem Module.shareIn_only {f : ShareRpt} (hS : [.regs, .gr, .bn] ⊆ S) :
    Only S m0 (m.shareIn f) ↔ Only S m0 m := Only.step hS (by
  unfold Module.shareIn
  simp (disch := decide) only [↓Module.updGr_only, ↓Module.count_only, ↓Module.setMemMax_only,
    ↓Module.heardOwn_only, ↓only_ite, ↓only_self, ite_self])

theorem Module.groveCut_only (hS : [.nfree, .regs, .live, .good, .snap, .pend, .ctrs, .rc, .gr] ⊆ S) :
    Only S m0 (m.groveCut) ↔ Only S m0 m := Only.step hS (by
  unfold Module.groveCut
  simp (disch := (intros; (repeat' split) <;> simp (decide := true) (disch := decide) only
    [↓Module.countReg_only, ↓Module.usePairs_only, ↓Module.setMemMax_only, ↓Module.raise_only, ↓Module.put_only,
    ↓Module.setTbl_only, ↓Module.updGr_only, ↓Module.demandW_only, ↓only_ite, ↓only_self, ite_self])) only
    [↓only_foldl, ↓Module.countReg_only, ↓Module.usePairs_only, ↓Module.setMemMax_only, ↓Module.raise_only,
    ↓Module.put_only, ↓Module.updGr_only, ↓Module.demandW_only, ↓only_ite, ↓only_self, ite_self])

theorem Module.setShare_only {x : Nat} (hS : [.regs, .gr] ⊆ S) :
    Only S m0 (m.setShare x) ↔ Only S m0 m := Only.step hS (by
  unfold Module.setShare
  simp (disch := decide) only [↓Module.setReg_only, ↓Module.capForce_only, ↓Module.updGr_only, ↓only_self])

theorem Module.groveSend_only {late : Nat} (hS : [.nfree, .regs, .live, .good, .snap, .pend, .ctrs, .rc, .net] ⊆
    S) :
    Only S m0 (m.groveSend late) ↔ Only S m0 m := Only.step hS (by
  unfold Module.groveSend
  simp (disch := decide) only [↓Module.release_only, ↓Module.sentOfs_only, ↓Module.demandW_only, ↓only_ite,
    ↓only_self, ite_self])

theorem Module.groveCommit_only (hS : [.gr] ⊆ S) :
    Only S m0 (m.groveCommit) ↔ Only S m0 m := Only.step hS (by
  unfold Module.groveCommit
  (repeat' split) <;> simp (disch := decide) only [↓Module.updGr_only, ↓only_self])

theorem Module.gcapNow_only (hS : [.regs] ⊆ S) :
    Only S m0 (m.gcapNow) ↔ Only S m0 m := Module.setReg_only hS

theorem Module.groveStart_only (hS : [.regs, .live, .snap, .pend, .gr, .bn] ⊆ S) :
    Only S m0 (m.groveStart) ↔ Only S m0 m := Only.step hS (by
  unfold Module.groveStart
  dsimp only
  (repeat' split) <;> simp (disch := decide) only [↓Module.setShare_only, ↓Module.gcapNow_only,
    ↓Module.memPeriod_only, ↓Module.boundary_only, ↓Module.updGr_only, ↓only_self])

theorem Module.shareUp_only (hS : [.regs, .gr] ⊆ S) :
    Only S m0 (m.shareUp) ↔ Only S m0 m := Only.step hS (by
  unfold Module.shareUp
  (repeat' split) <;> simp (disch := decide) only [↓Module.setShare_only, ↓Module.updGr_only, ↓only_self])

theorem Module.sumIn_only {f : SumRpt} (hS : [.gr] ⊆ S) :
    Only S m0 (m.sumIn f) ↔ Only S m0 m := Only.step hS (by
  unfold Module.sumIn
  simp (disch := decide) only [↓Module.updGr_only, ↓only_ite, ↓only_self, ite_self])

theorem Module.canopyCut_only (hS : [.regs, .live, .good, .snap, .pend, .ctrs, .rc, .gr] ⊆ S) :
    Only S m0 (m.canopyCut) ↔ Only S m0 m := Only.step hS (by
  unfold Module.canopyCut
  simp (disch := (intros; (repeat' split) <;> simp (decide := true) (disch := decide) only
    [↓Module.usePairs_only, ↓Module.setTbl_only, ↓Module.updGr_only, ↓only_ite, ↓only_self, ite_self])) only
    [↓only_foldl, ↓Module.usePairs_only, ↓Module.updGr_only, ↓only_ite, ↓only_self, ite_self])

theorem Module.setGroveCap_only {x : Nat} (hS : [.regs, .gr] ⊆ S) :
    Only S m0 (m.setGroveCap x) ↔ Only S m0 m := Only.step hS (by
  unfold Module.setGroveCap
  simp (disch := decide) only [↓Module.gcapNow_only, ↓Module.updGr_only, ↓only_self])

theorem Module.canopyStart_only (hS : [.regs, .gr] ⊆ S) :
    Only S m0 (m.canopyStart) ↔ Only S m0 m := Only.step hS (by
  unfold Module.canopyStart
  (repeat' split) <;> simp (disch := decide) only [↓Module.setGroveCap_only, ↓Module.updGr_only, ↓only_self])

theorem Module.canopyUp_only (hS : [.regs, .gr] ⊆ S) :
    Only S m0 (m.canopyUp) ↔ Only S m0 m := Only.step hS (by
  unfold Module.canopyUp
  (repeat' split) <;> simp (disch := decide) only [↓Module.setGroveCap_only, ↓Module.updGr_only, ↓only_self])

theorem Module.canopySend_only {late : Nat} (hS : [.regs, .net] ⊆ S) :
    Only S m0 (m.canopySend late) ↔ Only S m0 m := Only.step hS (by
  unfold Module.canopySend
  simp (disch := decide) only [↓Module.release_only, ↓only_ite, ↓only_self, ite_self])

theorem Module.groveOn_only (hS : [.regs, .live, .good, .snap, .pend, .ctrs, .rc, .gr, .net, .bn] ⊆ S) :
    Only S m0 (m.groveOn) ↔ Only S m0 m := Only.step hS (by
  unfold Module.groveOn
  simp (disch := decide) only [↓Module.raise_only, ↓Module.groveUpdate_only, ↓Module.put_only,
    ↓Module.gcapNow_only, ↓Module.updGr_only, ↓only_ite, ↓only_self, ite_self])

theorem Module.groveOff_only (hS : [.regs, .live, .good, .snap, .pend, .ctrs, .rc, .gr, .net, .bn] ⊆ S) :
    Only S m0 (m.groveOff) ↔ Only S m0 m := Only.step hS (by
  unfold Module.groveOff
  simp (disch := decide) only [↓Module.setReg_only, ↓Module.groveUpdate_only, ↓Module.gcapNow_only,
    ↓Module.applyOnStop_only, ↓Module.updGr_only, ↓only_self])

theorem Module.updPt_only {f : Ptp → Ptp} (hS : [.pt] ⊆ S) :
    Only S m0 (m.updPt f) ↔ Only S m0 m := Only.step hS (by
  unfold Module.updPt
  simp (disch := decide) only [↓with_pt_only, ↓only_self])

theorem Module.anchor_only {s ns us reason : Nat} (hS : [.regs, .live, .snap, .pend, .rc] ⊆ S) :
    Only S m0 (m.anchor s ns us reason) ↔ Only S m0 m := Only.step hS (by
  unfold Module.anchor
  simp (disch := decide) only [↓Module.recMake_only, ↓with_rc_only, ↓only_ite, ↓only_self, ite_self])

theorem Module.anchorNow_only {reason : Nat} (hS : [.regs, .live, .snap, .pend, .rc] ⊆ S) :
    Only S m0 (m.anchorNow reason) ↔ Only S m0 m := Module.anchor_only hS

theorem Module.tbLock_only {tai : Nat} {cyc : Nat} (hS : [.regs, .sched] ⊆ S) :
    Only S m0 (m.tbLock tai cyc) ↔ Only S m0 m := Only.step hS (by
  unfold Module.tbLock
  simp (disch := decide) only [↓Module.put_only, ↓with_schedKeep_only, ↓only_ite, ↓only_self, ite_self])

theorem Module.tbSlew_only (hS : [.regs, .sched] ⊆ S) :
    Only S m0 (m.tbSlew) ↔ Only S m0 m := Only.step hS (by
  unfold Module.tbSlew
  simp (disch := decide) only [↓Module.put_only, ↓with_schedKeep_only, ↓only_ite, ↓only_self, ite_self])

theorem Module.ppsIdle_only (hS : [.pin] ⊆ S) :
    Only S m0 (m.ppsIdle) ↔ Only S m0 m := Only.step hS (by
  unfold Module.ppsIdle
  simp (disch := decide) only [↓with_pin_only, ↓only_ite, ↓only_self, ite_self])

theorem Module.ptpLose_only (hS : [.regs, .live, .good, .snap, .pend, .ctrs, .rc, .sched, .gr, .pin, .net, .bn,
    .pt] ⊆ S) :
    Only S m0 (m.ptpLose) ↔ Only S m0 m := Only.step hS (by
  unfold Module.ptpLose
  simp (disch := decide) only [↓Module.raise_only, ↓Module.put_only, ↓Module.ppsIdle_only,
    ↓Module.groveEpoch_only, ↓Module.count_only, ↓Module.updPt_only, ↓Module.fault_only, ↓Module.tbUpdate_only,
    ↓Module.tbLeave_only, ↓only_ite, ↓only_self, ite_self])

theorem Module.ptpLock_only {x : PtpMsg} (hS : [.regs, .live, .good, .snap, .pend, .ctrs, .rc, .sched, .gr,
    .pin, .net, .bn] ⊆ S) :
    Only S m0 (m.ptpLock x) ↔ Only S m0 m := Only.step hS (by
  unfold Module.ptpLock
  simp (disch := decide) only [↓Module.raise_only, ↓Module.put_only, ↓Module.ppsIdle_only,
    ↓Module.groveEpoch_only, ↓Module.tbLock_only, ↓Module.count_only, ↓Module.anchor_only, ↓only_self])

theorem Module.ptpSwitch_only {p : Nat} {tai : Option PtpMsg} (hS : [.regs, .live, .snap, .pend, .rc, .sched] ⊆
    S) :
    Only S m0 (m.ptpSwitch p tai) ↔ Only S m0 m := Only.step hS (by
  unfold Module.ptpSwitch
  simp (disch := decide) only [↓only_ite, ↓only_self]
  (repeat' split) <;> simp (disch := decide) only [↓Module.raise_only, ↓Module.put_only, ↓Module.anchorNow_only,
    ↓Module.tbLock_only, ↓Module.anchor_only, ↓with_schedKeep_only, ↓only_self])

theorem Module.ptpChoose_only {best : Nat} {tai : Option PtpMsg} (hS : [.regs, .live, .good, .snap, .pend,
    .ctrs, .rc, .sched, .gr, .pin, .net, .bn, .pt] ⊆ S) :
    Only S m0 (m.ptpChoose best tai) ↔ Only S m0 m := Only.step hS (by
  unfold Module.ptpChoose
  simp (disch := decide) only [↓Module.ptpLose_only, ↓Module.ptpSwitch_only, ↓only_ite, ↓only_self, ite_self])

theorem Module.ptpPortLost_only {p : Nat} (hS : [.regs, .live, .good, .snap, .pend, .ctrs, .rc, .sched, .gr,
    .pin, .net, .bn, .pt] ⊆ S) :
    Only S m0 (m.ptpPortLost p) ↔ Only S m0 m := Only.step hS (by
  unfold Module.ptpPortLost
  simp (disch := decide) only [↓Module.updPt_only, ↓Module.ptpChoose_only, ↓only_ite, ↓only_self, ite_self])

theorem Module.ptpJudge_only {x : PtpMsg} (hS : [.regs, .live, .good, .snap, .pend, .ctrs, .rc, .sched, .gr,
    .pin, .net, .bn, .pt] ⊆ S) :
    Only S m0 (m.ptpJudge x) ↔ Only S m0 m := Only.step hS (by
  unfold Module.ptpJudge
  simp (disch := decide) only [↓Module.ptpLose_only, ↓Module.tbLock_only, ↓Module.boundary_only,
    ↓Module.updPt_only, ↓Module.setReg_only, ↓Module.ptpLock_only, ↓only_ite, ↓only_self, ite_self])

theorem Module.ptpMessage_only {x : PtpMsg} (hS : [.regs, .live, .good, .snap, .pend, .ctrs, .rc, .sched, .gr,
    .pin, .net, .bn, .pt] ⊆ S) :
    Only S m0 (m.ptpMessage x) ↔ Only S m0 m := Only.step hS (by
  unfold Module.ptpMessage
  simp (disch := decide) only [↓Module.raise_only, ↓Module.put_only, ↓Module.updPt_only, ↓Module.ptpChoose_only,
    ↓Module.setReg_only, ↓Module.ptpJudge_only, ↓only_ite, ↓only_self, ite_self])

theorem Module.ptpStop_only (hS : [.regs, .live, .good, .snap, .pend, .ctrs, .rc, .sched, .gr, .pin, .net, .bn,
    .pt] ⊆ S) :
    Only S m0 (m.ptpStop) ↔ Only S m0 m := Only.step hS (by
  unfold Module.ptpStop
  simp (disch := decide) only [↓Module.ptpLose_only, ↓Module.put_only, ↓Module.updPt_only,
    ↓Module.applyOnStop_only, ↓only_self])

theorem Module.linkDown_only {p : Nat} (hS : [.regs, .live, .good, .snap, .pend, .ctrs, .rc, .sched, .gr, .pin,
    .net, .bn, .pt] ⊆ S) :
    Only S m0 (m.linkDown p) ↔ Only S m0 m := Only.step hS (by
  unfold Module.linkDown
  simp (disch := decide) only [↓Module.raise_only, ↓Module.put_only, ↓Module.ptpPortLost_only,
    ↓Module.fault_only, ↓Module.countReg_only, ↓only_ite, ↓only_self, ite_self])

theorem Module.linkUp_only {p : Nat} {an fd : Bool} (hS : [.regs] ⊆ S) :
    Only S m0 (m.linkUp p an fd) ↔ Only S m0 m := Only.step hS (by
  unfold Module.linkUp
  simp (disch := decide) only [↓Module.raise_only, ↓Module.put_only, ↓only_ite, ↓only_self, ite_self])

theorem Module.netStop_only {p : Nat} (hS : [.regs, .live, .good, .snap, .pend, .ctrs, .rc, .sched, .gr, .pin,
    .net, .bn, .pt] ⊆ S) :
    Only S m0 (m.netStop p) ↔ Only S m0 m := Only.step hS (by
  unfold Module.netStop
  simp (disch := decide) only [↓Module.linkDown_only, ↓Module.applyOnStop_only, ↓only_self])

theorem Module.frameIn_only {p : Nat} {bs : List Byte} {fcsOk : Bool} (hS : [.regs, .net] ⊆ S) :
    Only S m0 (m.frameIn p bs fcsOk) ↔ Only S m0 m := Only.step hS (by
  unfold Module.frameIn
  simp (disch := decide) only [↓Module.raise_only, ↓Module.updNet_only, ↓Module.countReg_only,
    ↓Module.count_only, ↓Module.setReg_only, ↓only_ite, ↓only_self, ite_self])

theorem Module.setDup_only {d : List DupEnt} (hS : [.regs, .net] ⊆ S) :
    Only S m0 (m.setDup d) ↔ Only S m0 m := Only.step hS (by
  unfold Module.setDup
  simp (disch := decide) only [↓Module.put_only, ↓Module.updNet_only, ↓only_self])

theorem Module.dupJudge_only {p mac s : Nat} (hS : [.regs, .net] ⊆ S) :
    Only S m0 (m.dupJudge p mac s).1 ↔ Only S m0 m := Only.step hS (by
  unfold Module.dupJudge
  dsimp only
  (repeat' split) <;> simp (disch := decide) only [↓Module.raise_only, ↓Module.updNet_only,
    ↓Module.countReg_only, ↓Module.count_only, ↓Module.setDup_only, ↓only_self])

theorem Module.dupPass_only {p : Nat} {bs : List Byte} (hS : [.regs, .net] ⊆ S) :
    Only S m0 (m.dupPass p bs).1 ↔ Only S m0 m := Only.step hS (by
  unfold Module.dupPass
  (repeat' split) <;> simp (disch := decide) only [↓Module.raise_only, ↓Module.count_only,
    ↓Module.dupJudge_only, ↓only_self])

theorem Module.delivered_only {bs : List Byte} (hS : [.regs, .net, .bn] ⊆ S) :
    Only S m0 (m.delivered bs) ↔ Only S m0 m := Only.step hS (by
  unfold Module.delivered
  simp (disch := decide) only [↓Module.setReg_only, ↓Module.heardOwn_only, ↓only_ite, ↓only_self]
  (repeat' split) <;> simp (disch := decide) only [↓Module.mgmtAnswer_only, ↓Module.setReg_only,
    ↓Module.mgmtSend_only, ↓Module.heardOwn_only, ↓only_self])

theorem Module.deliver_only {bs : List Byte} (hS : [.regs, .net, .bn] ⊆ S) :
    Only S m0 (m.deliver bs) ↔ Only S m0 m := Only.step hS (by
  unfold Module.deliver
  (repeat' split) <;> simp (disch := decide) only [↓Module.raise_only, ↓Module.count_only,
    ↓Module.delivered_only, ↓only_self])

theorem Module.mergeFrame_only {p : Nat} (hS : [.regs, .net, .bn] ⊆ S) :
    Only S m0 (m.mergeFrame p) ↔ Only S m0 m := Only.step hS (by
  unfold Module.mergeFrame
  (repeat' split) <;> simp (disch := decide) only [↓Module.deliver_only, ↓Module.dupPass_only,
    ↓Module.replayFrame_only, ↓Module.updNet_only, ↓Module.countReg_only, ↓only_ite, ↓only_self, ite_self])

theorem Module.mergeEntry_only {e : Entry} {equal : Bool} (hS : [.regs, .live, .snap, .pend, .rc, .net, .bn] ⊆
    S) :
    Only S m0 (m.mergeEntry e equal) ↔ Only S m0 m := Only.step hS (by
  unfold Module.mergeEntry
  (repeat' split) <;> simp (disch := decide) only [↓Module.updNet_only, ↓Module.boundary_only,
    ↓Module.mismatch_only, ↓Module.countReg_only, ↓Module.recMake_only, ↓Module.mergeFrame_only, ↓only_self])

theorem Module.fwRecord_only {cause : Nat} (hS : [.regs, .live, .snap, .pend, .rc] ⊆ S) :
    Only S m0 (m.fwRecord cause) ↔ Only S m0 m := Module.recMake_only hS

theorem Module.fwAsk_only {cause : Nat} (hS : [.sys, .regs, .live, .snap, .pend, .rc] ⊆ S) :
    Only S m0 (m.fwAsk cause) ↔ Only S m0 m := Only.step hS (by
  unfold Module.fwAsk
  simp (disch := decide) only [↓only_ite, ↓only_self]
  (repeat' split) <;> simp (disch := decide) only [↓Module.put_only, ↓Module.fwRecord_only, ↓with_sys_only,
    ↓only_self])

theorem Module.fwStopWork_only (hS : [.regs, .sched, .ep, .bt] ⊆ S) :
    Only S m0 (m.fwStopWork) ↔ Only S m0 m := Only.step hS (by
  unfold Module.fwStopWork
  simp (disch := decide) only [↓Module.updEp_only]
  exact (only_foldl fun _ _ => by simp (disch := decide) only [↓Module.tsReport_only, ↓only_self]).2 (by simp
    (disch := decide)
    only [↓Module.impAbortAll_only, ↓Module.bistAbort_only, ↓only_self]))

theorem Module.fwHalt_only (hS : [.sys, .regs, .live, .snap, .pend, .rc, .sched, .ep, .bt] ⊆ S) :
    Only S m0 (m.fwHalt) ↔ Only S m0 m := Only.step hS (by
  unfold Module.fwHalt
  simp (disch := simp) only []
  (repeat' split) <;> simp (disch := (intros; (repeat' split) <;> simp (decide := true) (disch := simp) only
    [↓Module.raise_only, ↓Module.put_only, ↓Module.fwRecord_only, ↓Module.updTask_only, ↓Module.count_only,
    ↓Module.taskAbort_only, ↓Module.fwStopWork_only, ↓with_sys_only, ↓only_ite, ↓only_self, ite_self])) only
    [↓only_foldl, ↓Module.raise_only, ↓Module.put_only, ↓Module.fwRecord_only, ↓Module.count_only,
    ↓Module.fwStopWork_only, ↓with_sys_only, ↓only_self])

theorem Module.shadowLoad_only {mram : List (Nat × W64)} (hS : [.mem] ⊆ S) :
    Only S m0 (m.shadowLoad mram) ↔ Only S m0 m := Only.step hS (by
  unfold Module.shadowLoad
  simp (disch := decide) only [↓with_mem_only, ↓only_self])

theorem Module.fwImage_only {mram : List (Nat × W64)} (hS : [.regs, .up] ⊆ S) :
    Only S m0 (m.fwImage mram) ↔ Only S m0 m := Only.step hS (by
  unfold Module.fwImage
  simp (disch := decide) only [↓Module.setReg_only, ↓with_up_only, ↓only_self])

theorem Module.fwMismatch_only {fmtOk : List Bool} (hS : [.regs, .live, .snap, .pend, .rc] ⊆ S) :
    Only S m0 (m.fwMismatch fmtOk) ↔ Only S m0 m := Only.step hS (by
  unfold Module.fwMismatch
  exact (only_foldl fun _ _ => by simp (disch := decide) only [↓Module.recMake_only, ↓only_ite, ↓only_self,
    ite_self]).2 (Only.refl _ _))

theorem Module.fwCosts_only (hS : [.sched] ⊆ S) :
    Only S m0 (m.fwCosts) ↔ Only S m0 m := Only.step hS (by
  unfold Module.fwCosts
  exact (only_foldl fun _ _ => by simp (disch := simp) only [↓Module.updTask_only, ↓only_self]).2 (by simp
    (disch := simp) only [↓only_self]))

theorem Module.fwStart_only {fmtOk : List Bool} (hS : [.sys, .regs, .live, .snap, .pend, .rc, .sched, .rings] ⊆
    S) :
    Only S m0 (m.fwStart fmtOk) ↔ Only S m0 m := Only.step hS (by
  unfold Module.fwStart
  (repeat' split) <;> simp (disch := decide) only [↓Module.fwMismatch_only, ↓Module.checkLoads_only,
    ↓Module.fwCosts_only, ↓Module.chResume_only, ↓with_sys_only, ↓only_self])

theorem Module.fwThaw_only (hS : [.sys, .regs, .live, .good, .snap, .pend, .ctrs, .rc, .sched, .ep, .gr, .xg,
    .net, .bn, .twc] ⊆ S) :
    Only S m0 (m.fwThaw) ↔ Only S m0 m := Only.step hS (by
  unfold Module.fwThaw
  simp (disch := decide) only [↓Module.put_only, ↓Module.groveEpoch_only, ↓Module.xingUnhold_only,
    ↓Module.packLate_only, ↓with_sys_only, ↓only_self])

theorem Module.fwLose_only (hS : [.sys, .regs, .live, .snap, .pend, .rc, .sched, .ep, .gr, .xg, .twc] ⊆ S) :
    Only S m0 (m.fwLose) ↔ Only S m0 m := Only.step hS (by
  unfold Module.fwLose
  simp (disch := simp) only [↓Module.put_only, ↓Module.packLate_only, ↓Module.latchNow_only,
    ↓Module.groveLocal_only, ↓Module.raiseRec_only, ↓Module.xingUnhold_only]
  exact (only_foldl fun _ _ => by simp (disch := simp) only [↓Module.updTask_only, ↓only_self]).2 (by simp
    (disch := simp) only [↓with_sys_only, ↓only_self]))

theorem Module.fwMs_only (hS : [.sys] ⊆ S) :
    Only S m0 (m.fwMs) ↔ Only S m0 m := Only.step hS (by
  unfold Module.fwMs
  (repeat' split) <;> simp (disch := decide) only [↓with_sys_only, ↓only_self])

theorem Module.updMem_only {f : Mem → Mem} (hS : [.mem] ⊆ S) :
    Only S m0 (m.updMem f) ↔ Only S m0 m := Only.step hS (by
  unfold Module.updMem
  simp (disch := decide) only [↓with_mem_only, ↓only_self])

theorem Module.rowFails_only {u row : Nat} (hS : [.regs, .live, .snap, .pend, .rc, .sched, .mem] ⊆ S) :
    Only S m0 (m.rowFails u row) ↔ Only S m0 m := Only.step hS (by
  unfold Module.rowFails
  simp (disch := decide) only [↓Module.raise_only, ↓Module.put_only, ↓Module.latchNow_only, ↓Module.setTbl_only,
    ↓Module.updMem_only, ↓Module.setReg_only, ↓with_schedKeep_only, ↓only_ite, ↓only_self, ite_self])

theorem Module.recCorrected_only {i : Nat} (hS : [.regs, .live, .snap, .pend, .rc] ⊆ S) :
    Only S m0 (m.recCorrected i) ↔ Only S m0 m := Module.recMake_only hS

theorem Module.corrected_only {p : Place} {sym : Nat} (hS : [.regs, .live, .good, .snap, .pend, .ctrs, .rc,
    .sched, .mem] ⊆ S) :
    Only S m0 (m.corrected p sym) ↔ Only S m0 m := Only.step hS (by
  unfold Module.corrected
  simp (disch := decide) only [↓Module.raise_only, ↓Module.putCtr_only, ↓Module.rowFails_only,
    ↓Module.recCorrected_only, ↓Module.setTbl_only, ↓Module.updMem_only, ↓Module.count_only, ↓Module.setReg_only,
    ↓Module.usePair_only, ↓with_ctrs_only, ↓only_ite, ↓only_self, ite_self])

theorem Module.rowRetired_only {nv : NonVol} {u row : Nat} (hS : [.regs, .live, .snap, .pend, .rc, .mem] ⊆ S) :
    Only S m0 (m.rowRetired nv u row).2 ↔ Only S m0 m := Only.step hS (by
  unfold Module.rowRetired
  (repeat' split) <;> simp (disch := decide) only [↓Module.nvWrite_only, ↓Module.setTbl_only,
    ↓Module.updMem_only, ↓Module.raiseRec_only, ↓only_self])

theorem Module.shadowPoison_only (hS : [.sys, .regs, .live, .snap, .pend, .rc, .sched, .ep, .gr, .xg, .twc] ⊆ S)
    :
    Only S m0 (m.shadowPoison) ↔ Only S m0 m := Only.step hS (by
  unfold Module.shadowPoison
  simp (disch := decide) only [↓Module.fwLose_only, ↓Module.latchNow_only, ↓only_ite, ↓only_self, ite_self])

theorem Module.shadowOpen_only (hS : [.sys, .regs, .live, .snap, .pend, .rc, .sched, .ep, .gr, .xg, .twc, .mem]
    ⊆ S) :
    Only S m0 (m.shadowOpen) ↔ Only S m0 m := Only.step hS (by
  unfold Module.shadowOpen
  simp (disch := decide) only [↓Module.shadowPoison_only, ↓Module.updMem_only, ↓only_ite, ↓only_self, ite_self])

theorem Module.setPoison_only {nv : NonVol} {p : Place} (hS : [.sys, .regs, .live, .snap, .pend, .rc, .sched,
    .ep, .gr, .xg, .twc, .mem] ⊆ S) :
    Only S m0 (m.setPoison nv p).2 ↔ Only S m0 m := Only.step hS (by
  unfold Module.setPoison
  dsimp only
  (repeat' split) <;> simp (disch := decide) only [↓Module.raise_only, ↓Module.shadowPoison_only,
    ↓Module.updMem_only, ↓Module.countReg_only, ↓Module.setReg_only, ↓only_self])

theorem Module.unPoison_only {nv : NonVol} {p : Place} (hS : [.mem] ⊆ S) :
    Only S m0 (m.unPoison nv p).2 ↔ Only S m0 m := Only.step hS (by
  unfold Module.unPoison
  (repeat' split) <;> simp (disch := decide) only [↓Module.updMem_only, ↓only_self])

theorem Module.setWord_only {nv : NonVol} {p : Place} {v : W64} (hS : [.mem] ⊆ S) :
    Only S m0 (m.setWord nv p v).2 ↔ Only S m0 m := Only.step hS (by
  unfold Module.setWord
  (repeat' split) <;> simp (disch := decide) only [↓Module.updMem_only, ↓only_self])

theorem Module.mramFlush_only {nv : NonVol} (hS : [.mem] ⊆ S) :
    Only S m0 (m.mramFlush nv).2 ↔ Only S m0 m := Only.step hS (by
  unfold Module.mramFlush
  (repeat' split) <;> simp (disch := decide) only [↓Module.updMem_only, ↓only_self])

theorem Module.writeBack_only {nv : NonVol} {p : Place} (hS : [.mem] ⊆ S) :
    Only S m0 (m.writeBack nv p).2 ↔ Only S m0 m := Only.step hS (by
  unfold Module.writeBack
  (repeat' split) <;> simp (disch := decide) only [↓Module.setWord_only, ↓only_self])

theorem Module.readWord_only {nv : NonVol} {p : Place} {bad sym : Nat} (hS : [.sys, .regs, .live, .good, .snap,
    .pend, .ctrs, .rc, .sched, .ep, .gr, .xg, .twc, .mem] ⊆ S) :
    Only S m0 (m.readWord nv p bad sym).2.1 ↔ Only S m0 m := Only.step hS (by
  unfold Module.readWord
  dsimp only
  (repeat' split) <;> simp (disch := decide) only [↓Module.corrected_only, ↓Module.setPoison_only,
    ↓Module.writeBack_only, ↓only_self])

theorem Module.heartDeny_only {x addr : Nat} (hS : [.regs] ⊆ S) :
    Only S m0 (m.heartDeny x addr) ↔ Only S m0 m := Only.step hS (by
  unfold Module.heartDeny
  simp (disch := decide) only [↓Module.raise_only, ↓Module.setReg_only, ↓Module.countReg_only, ↓only_self])

theorem Module.granted_only {p : Place} {q : MemReq} (hS : [.regs, .mem] ⊆ S) :
    Only S m0 (m.granted p q).1 ↔ Only S m0 m := Only.step hS (by
  unfold Module.granted
  dsimp only
  (repeat' split) <;> simp (disch := decide) only [↓Module.updMem_only, ↓Module.countReg_only, ↓only_self])

theorem Module.busError_only {p : Option Place} {x : Nat} (hS : [.nfree, .regs, .live, .good, .snap, .pend,
    .ctrs, .rc, .out, .sched, .falls, .ep, .net] ⊆ S) :
    Only S m0 (m.busError p x) ↔ Only S m0 m := Only.step hS (by
  unfold Module.busError
  simp (disch := decide) only [↓only_ite, ↓only_self]
  (repeat' split) <;> simp (disch := decide) only [↓Module.taskDrop_only, ↓Module.engFlag_only, ↓with_out_only,
    ↓only_self])

theorem Module.partAccess_only {nv : NonVol} {p : Place} {i n : Nat} {wr : Option Nat} {bad sym : Nat} (hS :
    [.sys, .regs, .live, .good, .snap, .pend, .ctrs, .rc, .sched, .ep, .gr, .xg, .twc, .mem] ⊆ S) :
    Only S m0 (m.partAccess nv p i n wr bad sym).2.1 ↔ Only S m0 m := Only.step hS (by
  unfold Module.partAccess
  dsimp only
  (repeat' split) <;> simp (disch := decide) only [↓Module.unPoison_only, ↓Module.setWord_only,
    ↓Module.readWord_only, ↓only_self])

theorem Module.memAccess_only {nv : NonVol} {q : MemReq} (hS : [.sys, .nfree, .regs, .live, .good, .snap, .pend,
    .ctrs, .rc, .out, .sched, .falls, .ep, .gr, .xg, .net, .twc, .mem] ⊆ S) :
    Only S m0 (m.memAccess nv q).2 ↔ Only S m0 m := Only.step hS (by
  unfold Module.memAccess
  extract_lets n i n1 n2 wr deny p1 p2
  have hdeny : ∀ (S : List Part) (a b : Module) (p : Option Place), [.regs, .live, .snap, .pend, .rc] ⊆ S →
      (Only S a (deny b p) ↔ Only S a b) := by
    intro S a b p hS
    refine Only.step hS ?_
    simp only [deny]
    (repeat' split) <;> simp (disch := decide) only [↓Module.countReg_only, ↓Module.heartDeny_only, ↓only_self]
  clear_value deny p1 p2 wr n2 n1 i
  split
  · split
    · simp (disch := decide) only [↓Module.busError_only, hdeny, ↓only_self]
    · split
      · simp (disch := decide) only [↓Module.busError_only, hdeny, ↓only_self]
      · simp only
        (repeat' split) <;> simp (disch := decide) only [↓Module.busError_only, ↓Module.granted_only,
          ↓Module.partAccess_only, ↓with_out_only, ↓only_self]
  · simp (disch := decide) only [↓Module.busError_only, ↓only_self])

theorem Module.scrubStep_only {nv : NonVol} {sram : Bool} {bad sym : Nat} (hS : [.sys, .regs, .live, .good,
    .snap, .pend, .ctrs, .rc, .sched, .ep, .gr, .xg, .twc, .mem] ⊆ S) :
    Only S m0 (m.scrubStep nv sram bad sym).2 ↔ Only S m0 m := Only.step hS (by
  unfold Module.scrubStep
  dsimp only
  (repeat' split) <;> simp (disch := decide) only [↓Module.raise_only, ↓Module.put_only, ↓Module.boundary_only,
    ↓Module.readWord_only, ↓Module.updMem_only, ↓only_self])

theorem Module.shadowReload_only {nv : NonVol} {addr : Nat} (hS : [.mem] ⊆ S) :
    Only S m0 (m.shadowReload nv addr) ↔ Only S m0 m := Only.step hS (by
  unfold Module.shadowReload
  simp (disch := decide) only [↓Module.updMem_only, ↓only_ite, ↓only_self, ite_self])

theorem Module.localClear_only {c : Nat} (hS : [.mem] ⊆ S) :
    Only S m0 (m.localClear c) ↔ Only S m0 m := Only.step hS (by
  unfold Module.localClear
  simp (disch := decide) only [↓Module.updMem_only, ↓only_ite, ↓only_self, ite_self])

theorem Module.memTables_only {nv : NonVol} (hS : [.regs] ⊆ S) :
    Only S m0 (m.memTables nv) ↔ Only S m0 m := Only.step hS (by
  unfold Module.memTables
  exact (only_foldl fun _ _ => by simp (disch := decide) only [↓Module.setTbl_only, ↓only_self]).2 (Only.refl _ _))

theorem Module.updHw_only {f : Heart → Heart} (hS : [.hw] ⊆ S) :
    Only S m0 (m.updHw f) ↔ Only S m0 m := Only.step hS (by
  unfold Module.updHw
  simp (disch := decide) only [↓with_hw_only, ↓only_self])

theorem Module.wipeStart_only {nv : NonVol} {cause : Nat} (hS : [.regs, .hw] ⊆ S) :
    Only S m0 (m.wipeStart nv cause).2 ↔ Only S m0 m := Only.step hS (by
  unfold Module.wipeStart
  (repeat' split) <;> simp (disch := decide) only [↓Module.put_only, ↓Module.updHw_only, ↓only_self])

theorem Module.wipeSram_only (hS : [.mem, .hw] ⊆ S) :
    Only S m0 (m.wipeSram) ↔ Only S m0 m := Only.step hS (by
  unfold Module.wipeSram
  simp (disch := decide) only [↓Module.updHw_only, ↓Module.updMem_only, ↓only_self])

theorem Module.wiped_only {nv : NonVol} {cause : Nat} (hS : [.regs, .live, .snap, .pend, .rc, .mem, .hw] ⊆ S) :
    Only S m0 (m.wiped nv cause).2 ↔ Only S m0 m := Only.step hS (by
  unfold Module.wiped
  simp (disch := decide) only [↓Module.raise_only, ↓Module.put_only, ↓Module.recMake_only, ↓Module.setReg_only,
    ↓Module.wipeSram_only, ↓only_self])

theorem Module.tampered_only {nv : NonVol} {j : Nat} (hS : [.regs, .live, .snap, .pend, .rc, .hw] ⊆ S) :
    Only S m0 (m.tampered nv j).2 ↔ Only S m0 m := Only.step hS (by
  unfold Module.tampered
  (repeat' split) <;> simp (disch := decide) only [↓Module.raise_only, ↓Module.latchNow_only,
    ↓Module.wipeStart_only, ↓only_self])

theorem Module.tamperPin_only {j : Nat} {hi : Bool} (hS : [.regs] ⊆ S) :
    Only S m0 (m.tamperPin j hi) ↔ Only S m0 m := Module.put_only hS

theorem Module.glitched_only {nv : NonVol} {kind : Nat} (hS : [.regs, .live, .snap, .pend, .rc, .hw] ⊆ S) :
    Only S m0 (m.glitched nv kind).2 ↔ Only S m0 m := Only.step hS (by
  unfold Module.glitched
  (repeat' split) <;> simp (disch := decide) only [↓Module.raise_only, ↓Module.latchNow_only,
    ↓Module.wipeStart_only, ↓only_self])

theorem Module.updRc_only {f : RecSt → RecSt} (hS : [.rc] ⊆ S) :
    Only S m0 (m.updRc f) ↔ Only S m0 m := Only.step hS (by
  unfold Module.updRc
  simp (disch := decide) only [↓with_rc_only, ↓only_self])

theorem Module.recLogRegs_only {nv : NonVol} (hS : [.regs, .rc] ⊆ S) :
    Only S m0 (m.recLogRegs nv) ↔ Only S m0 m := Only.step hS (by
  unfold Module.recLogRegs
  simp (disch := decide) only [↓Module.setReg_only, ↓Module.updRc_only, ↓only_self])

theorem Module.recReserve_only {nv : NonVol} (hS : [.rc] ⊆ S) :
    Only S m0 (m.recReserve nv).2 ↔ Only S m0 m := Only.step hS (by
  unfold Module.recReserve
  (repeat' split) <;> simp (disch := decide) only [↓Module.updRc_only, ↓only_self])

theorem Module.recLostSay_only (hS : [.regs, .live, .snap, .pend, .rc] ⊆ S) :
    Only S m0 (m.recLostSay) ↔ Only S m0 m := Only.step hS (by
  unfold Module.recLostSay
  simp (disch := decide) only [↓Module.updRc_only, ↓Module.recMake_only, ↓only_ite, ↓only_self, ite_self])

theorem Module.recDrain_only {nv : NonVol} (hS : [.regs, .live, .snap, .pend, .rc] ⊆ S) :
    Only S m0 (m.recDrain nv).2 ↔ Only S m0 m := Only.step hS (by
  unfold Module.recDrain
  (repeat' split) <;> simp (disch := decide) only [↓Module.raise_only, ↓Module.put_only, ↓Module.updRc_only,
    ↓Module.recStageReg_only, ↓Module.recLostSay_only, ↓Module.recLogRegs_only, ↓Module.recReserve_only,
    ↓only_ite, ↓only_self, ite_self])

theorem Module.recStart_only (hS : [.regs, .live, .snap, .pend, .rc] ⊆ S) :
    Only S m0 (m.recStart) ↔ Only S m0 m := Module.recMake_only hS

theorem Module.recBegin_only {nv : NonVol} {missed : Bool} (hS : [.regs, .live, .snap, .pend, .rc] ⊆ S) :
    Only S m0 (m.recBegin nv missed) ↔ Only S m0 m := Only.step hS (by
  unfold Module.recBegin
  simp (disch := (intros; simp (decide := true) (disch := decide) only [↓Module.raise_only, ↓Module.updRc_only,
    ↓Module.recPush_only, ↓Module.recStart_only, ↓Module.recMake_only, ↓only_ite, ↓only_self, ite_self])) only
    [↓only_foldl, ↓Module.raise_only, ↓Module.updRc_only, ↓Module.recStart_only, ↓Module.recMake_only, ↓only_ite,
    ↓only_self, ite_self])

theorem Module.recScan_only {nv : NonVol} (hS : [.sys, .regs, .live, .snap, .pend, .rc] ⊆ S) :
    Only S m0 (m.recScan nv).2 ↔ Only S m0 m := Only.step hS (by
  unfold Module.recScan
  (repeat' split) <;> simp (disch := decide) only [↓Module.recBegin_only, ↓Module.recLogRegs_only,
    ↓Module.recReserve_only, ↓Module.put_only, ↓Module.updRc_only, ↓Module.latchNow_only, ↓Module.setReg_only,
    ↓with_sys_only, ↓only_ite, ↓only_self, ite_self])

theorem Module.breathWrite_only {nv : NonVol} {us : Nat} {torn : Bool} (hS : [.regs, .rc] ⊆ S) :
    Only S m0 (m.breathWrite nv us torn).2 ↔ Only S m0 m := Only.step hS (by
  unfold Module.breathWrite
  dsimp only
  (repeat' split) <;> simp (disch := decide) only [↓Module.updRc_only, ↓Module.setReg_only, ↓only_self])

theorem Module.breathEnter_only {nv : NonVol} {us : Nat} {torn : Bool} (hS : [.regs, .rc] ⊆ S) :
    Only S m0 (m.breathEnter nv us torn).2 ↔ Only S m0 m := Only.step hS (by
  unfold Module.breathEnter
  (repeat' split) <;> simp (disch := decide) only [↓Module.breathWrite_only, ↓Module.updRc_only, ↓only_self])

theorem Module.recRead_only {nv : NonVol} {x : Nat} {accepted : Bool} (hS : [.rc] ⊆ S) :
    Only S m0 (m.recRead nv x accepted).2 ↔ Only S m0 m := Only.step hS (by
  unfold Module.recRead
  (repeat' split) <;> simp (disch := decide) only [↓Module.updRc_only, ↓only_self])

theorem Module.recPlace_only {x : Nat} (hS : [.rc] ⊆ S) :
    Only S m0 (m.recPlace x) ↔ Only S m0 m := Module.updRc_only hS

theorem Module.submitOne_only {x : Nat} {ws : List W32} (hS : [.regs, .live, .snap, .pend, .rc] ⊆ S) :
    Only S m0 (m.submitOne x ws) ↔ Only S m0 m := Only.step hS (by
  unfold Module.submitOne
  simp (disch := decide) only [↓Module.raise_only, ↓Module.recMake_only, ↓only_ite, ↓only_self, ite_self])

theorem Module.submitAll_only {x : Nat} {y0 : Nat} {y1 : List W32} (hS : [.regs, .live, .snap, .pend, .rc] ⊆ S)
    :
    Only S m0 (Module.submitAll x y0 y1 m) ↔ Only S m0 m := by
  refine Only.step hS ?_
  induction y0 generalizing m y1 with
  | zero => exact Only.refl _ _
  | succ n ih =>
    unfold Module.submitAll
    (repeat' split)
    · exact Only.refl _ _
    · exact (Module.raise_only (by decide)).2 (Only.refl _ _)
    · exact (Only.step (List.Subset.refl _) ih).2 ((Module.submitOne_only (by decide)).2 (Only.refl _ _))

theorem Module.streamSend_only {nv : NonVol} (hS : [.regs, .live, .snap, .pend, .net] ⊆ S) :
    Only S m0 (m.streamSend nv) ↔ Only S m0 m := Only.step hS (by
  unfold Module.streamSend
  simp (disch := decide) only [↓Module.raise_only, ↓Module.boundary_only, ↓Module.setBoth_only,
    ↓Module.release_only, ↓only_ite, ↓only_self, ite_self])

theorem Module.chFrame_only {c : Nat} (hS : [.regs, .net] ⊆ S) :
    Only S m0 (m.chFrame c) ↔ Only S m0 m := Only.step hS (by
  unfold Module.chFrame
  (repeat' split) <;> simp (disch := decide) only [↓Module.release_only, ↓only_self])

theorem Module.chRings_only {c : Nat} {v : W32} (hS : [.regs, .live, .sched, .net, .rings] ⊆ S) :
    Only S m0 (m.chRings c v) ↔ Only S m0 m := Only.step hS (by
  unfold Module.chRings
  simp (disch := decide) only [↓Module.chRing_only, ↓Module.chFrame_only, ↓only_self])

theorem Module.keyService_only {nv : NonVol} {c : Nat} (hS : [.regs, .live, .hw] ⊆ S) :
    Only S m0 (m.keyService nv c).2 ↔ Only S m0 m := Only.step hS (by
  unfold Module.keyService
  dsimp only
  (repeat' split) <;> simp (disch := decide) only [↓Module.raise_only, ↓Module.put_only, ↓Module.chSet_only,
    ↓Module.updHw_only, ↓only_self])

theorem Module.updSys_only {f : SysSt → SysSt} (hS : [.sys] ⊆ S) :
    Only S m0 (m.updSys f) ↔ Only S m0 m := Only.step hS (by
  unfold Module.updSys
  simp (disch := decide) only [↓with_sys_only, ↓only_self])

theorem Module.toPhase_only {x : Nat} (hS : [.regs] ⊆ S) :
    Only S m0 (m.toPhase x) ↔ Only S m0 m := Module.put_only hS

theorem Module.outputsZ_only (hS : [.regs, .ph, .fd, .pin] ⊆ S) :
    Only S m0 (m.outputsZ) ↔ Only S m0 m := Only.step hS (by
  unfold Module.outputsZ
  refine (Module.put_only (by decide)).2 ?_
  exact fun q hq => by cases q <;> simp_all [Part.Same])

theorem Module.updLost_only (hS : [.regs, .live, .snap, .pend, .rc] ⊆ S) :
    Only S m0 (m.updLost) ↔ Only S m0 m := Only.step hS (by
  unfold Module.updLost
  simp (disch := decide) only [↓Module.raiseRec_only, ↓only_ite, ↓only_self, ite_self])

theorem Module.lifeRecord_only {old new : Nat} (hS : [.regs, .live, .snap, .pend, .rc] ⊆ S) :
    Only S m0 (m.lifeRecord old new) ↔ Only S m0 m := Module.recMake_only hS

theorem Module.romRepair_only {nv : NonVol} (hS : [.regs, .live, .snap, .pend, .rc, .mem, .hw] ⊆ S) :
    Only S m0 (m.romRepair nv).2 ↔ Only S m0 m := Only.step hS (by
  unfold Module.romRepair
  dsimp only
  (repeat' split) <;> simp (disch := decide) only [↓Module.lifeRecord_only, ↓Module.wiped_only, ↓only_self])

theorem Module.romIdent_only {nv : NonVol} (hS : [.sys, .regs, .live, .snap, .pend, .rc] ⊆ S) :
    Only S m0 (m.romIdent nv) ↔ Only S m0 m := Only.step hS (by
  unfold Module.romIdent
  simp (disch := decide) only [↓Module.raise_only, ↓Module.put_only, ↓Module.latchNow_only, ↓Module.updSys_only,
    ↓only_ite, ite_self]
  exact (only_foldl fun _ _ => by simp (disch := decide) only [↓Module.setTbl_only, ↓only_self]).2 (by
    simp (disch := decide) only [↓only_self]))

theorem Module.romMac_only (hS : [.regs] ⊆ S) :
    Only S m0 (m.romMac) ↔ Only S m0 m := Only.step hS (by
  unfold Module.romMac
  simp (disch := decide) only [↓Module.put_only, ↓Module.setReg_only, ↓only_self])

theorem Module.romRegs_only {nv : NonVol} (hS : [.sys, .regs, .live] ⊆ S) :
    Only S m0 (m.romRegs nv) ↔ Only S m0 m := Only.step hS (by
  unfold Module.romRegs
  simp (disch := decide) only [↓Module.memTables_only, ↓Module.setBoth_only, ↓Module.updSys_only, ↓only_ite,
    ite_self]
  exact (only_foldl fun _ _ => by simp (disch := decide) only [↓Module.put_only, ↓only_self]).2 (by simp
    (disch := decide) only [↓Module.setBoth_only, ↓Module.put_only, ↓Module.setReg_only, ↓only_self]))

theorem Module.romStart_only {nv : NonVol} {cause : W32} (hS : [.sys, .regs, .live, .snap, .pend, .rc, .ep,
    .mem, .hw] ⊆ S) :
    Only S m0 (m.romStart nv cause).2 ↔ Only S m0 m := Only.step hS (by
  unfold Module.romStart
  simp (disch := decide) only [↓Module.updRc_only, ↓Module.updEp_only, ↓Module.romIdent_only,
    ↓Module.romMac_only, ↓Module.toPhase_only, ↓Module.romRepair_only, ↓Module.romRegs_only, ↓Module.setReg_only,
    ↓Module.wearWords_only, ↓only_self])

theorem Module.brown_only {on : Bool} (hS : [.regs] ⊆ S) :
    Only S m0 (m.brown on) ↔ Only S m0 m := Only.step hS (by
  unfold Module.brown
  simp (disch := decide) only [↓Module.put_only, ↓only_self])

theorem Module.setHold_only {on : Bool} (hS : [.sys, .regs] ⊆ S) :
    Only S m0 (m.setHold on) ↔ Only S m0 m := Only.step hS (by
  unfold Module.setHold
  simp (disch := decide) only [↓Module.put_only, ↓Module.updSys_only, ↓only_self])

theorem Module.lastBreath_only {nv : NonVol} {us : Nat} {torn : Bool} (hS : [.sys, .regs, .rc, .ph, .fd, .pin] ⊆
    S) :
    Only S m0 (m.lastBreath nv us torn).2 ↔ Only S m0 m := Only.step hS (by
  unfold Module.lastBreath
  simp (disch := decide) only [↓Module.breathEnter_only, ↓Module.outputsZ_only, ↓Module.updSys_only, ↓only_self])

theorem Module.collapse_only {nv : NonVol} {va vb : Nat} {torn : Bool} (hS : [.sys, .regs, .rc, .ph, .fd, .pin]
    ⊆ S) :
    Only S m0 (m.collapse nv va vb torn).2 ↔ Only S m0 m := Only.step hS (by
  unfold Module.collapse
  dsimp only
  (repeat' split) <;> simp (disch := decide) only [↓Module.updRc_only, ↓Module.lastBreath_only,
    ↓Module.setHold_only, ↓Module.updSys_only, ↓Module.brown_only, ↓only_self])

theorem Module.vauxDip_only {lowest us : Nat} (hS : [.sys, .regs, .live, .snap, .pend, .rc] ⊆ S) :
    Only S m0 (m.vauxDip lowest us) ↔ Only S m0 m := Only.step hS (by
  unfold Module.vauxDip
  simp (disch := decide) only [↓Module.recMake_only, ↓Module.updSys_only, ↓Module.brown_only, ↓only_self])

theorem Module.inputLost_only {i : Nat} (hS : [.regs, .live, .snap, .pend, .rc] ⊆ S) :
    Only S m0 (m.inputLost i) ↔ Only S m0 m := Only.step hS (by
  unfold Module.inputLost
  simp (disch := decide) only [↓Module.raiseRec_only, ↓Module.put_only, ↓only_self])

theorem Module.clkStat_only {c : Nat} {on : Bool} (hS : [.regs] ⊆ S) :
    Only S m0 (m.clkStat c on) ↔ Only S m0 m := Module.put_only hS

theorem Module.clkAct_only {c : Nat} (hS : [.regs, .live, .good, .snap, .pend, .ctrs, .rc, .sched, .gr, .pin,
    .net, .bn, .pt, .twc] ⊆ S) :
    Only S m0 (m.clkAct c) ↔ Only S m0 m := Only.step hS (by
  unfold Module.clkAct
  simp (disch := (intros; simp (decide := true) (disch := decide) only [↓Module.linkDown_only,
    ↓Module.twcStop_only, ↓only_ite, ↓only_self, ite_self])) only [↓only_foldl, ↓Module.linkDown_only, ↓only_ite,
    ↓only_self, ite_self])

theorem Module.clkLost_only {c : Nat} (hS : [.clk, .regs, .live, .good, .snap, .pend, .ctrs, .rc, .sched, .gr,
    .pin, .net, .bn, .pt, .twc] ⊆ S) :
    Only S m0 (m.clkLost c) ↔ Only S m0 m := Only.step hS (by
  unfold Module.clkLost
  simp (disch := decide) only [↓Module.raiseRec_only, ↓Module.raise_only, ↓Module.put_only, ↓Module.clkAct_only,
    ↓Module.latchNow_only, ↓Module.clkStat_only, ↓Module.countReg_only, ↓with_clk_only, ↓only_ite, ↓only_self,
    ite_self])

theorem Module.clkTry_only {c : Nat} {present : Bool} (hS : [.clk] ⊆ S) :
    Only S m0 (m.clkTry c present) ↔ Only S m0 m := Only.step hS (by
  unfold Module.clkTry
  simp (disch := decide) only [↓with_clk_only, ↓only_ite, ↓only_self, ite_self])

theorem Module.clkBack_only {nv : NonVol} {c : Nat} (hS : [.clk, .regs, .rc, .mem] ⊆ S) :
    Only S m0 (m.clkBack nv c).2 ↔ Only S m0 m := Only.step hS (by
  unfold Module.clkBack
  (repeat' split) <;> simp (disch := decide) only [↓Module.mramFlush_only, ↓Module.updRc_only,
    ↓Module.clkStat_only, ↓with_clk_only, ↓only_ite, ↓only_self, ite_self])

theorem Module.syncLock_only {ferr : Int} (hS : [.regs, .sched] ⊆ S) :
    Only S m0 (m.syncLock ferr) ↔ Only S m0 m := Only.step hS (by
  unfold Module.syncLock
  simp (disch := decide) only [↓Module.putI_only, ↓Module.raise_only, ↓Module.put_only, ↓Module.tbUpdate_only,
    ↓only_ite, ↓only_self, ite_self])

theorem Module.syncLost_only (hS : [.regs, .live, .good, .snap, .pend, .ctrs, .rc, .sched] ⊆ S) :
    Only S m0 (m.syncLost) ↔ Only S m0 m := Only.step hS (by
  unfold Module.syncLost
  simp (disch := decide) only [↓Module.fault_only, ↓Module.raise_only, ↓Module.put_only, ↓Module.tbUpdate_only,
    ↓only_ite, ↓only_self, ite_self])

theorem Module.syncPresent_only {ferr : Int} (hS : [.regs, .live, .good, .snap, .pend, .ctrs, .rc, .sched] ⊆ S)
    :
    Only S m0 (m.syncPresent ferr) ↔ Only S m0 m := Only.step hS (by
  unfold Module.syncPresent
  simp (disch := decide) only [↓Module.putI_only, ↓Module.put_only, ↓Module.syncLost_only, ↓only_ite,
    ↓only_self, ite_self])

theorem Module.pullStep_only (hS : [.regs] ⊆ S) :
    Only S m0 (m.pullStep) ↔ Only S m0 m := Module.setReg_only hS

theorem Module.syncFrame_only (hS : [.regs, .live, .snap, .pend, .sched] ⊆ S) :
    Only S m0 (m.syncFrame) ↔ Only S m0 m := Only.step hS (by
  unfold Module.syncFrame
  simp (disch := decide) only [↓Module.put_only, ↓Module.tbUpdate_only, ↓Module.boundary_only, ↓only_ite,
    ↓only_self, ite_self])

theorem Module.profKey_only {k : Nat} {v : W32} (hS : [.regs, .live, .snap, .pend, .defer] ⊆ S) :
    Only S m0 (m.profKey k v) ↔ Only S m0 m := Only.step hS (by
  unfold Module.profKey
  (repeat' split) <;> simp (disch := decide) only [↓Module.setBoth_only, ↓Module.setKey_only, ↓with_defer_only,
    ↓with_pend_only, ↓with_snap_only, ↓only_self])

theorem Module.profShed_only {r : Nat} {w dwell : W32} (hS : [.regs, .live, .snap, .pend, .defer] ⊆ S) :
    Only S m0 (m.profShed r w dwell) ↔ Only S m0 m := Only.step hS (by
  unfold Module.profShed
  simp (disch := decide) only [↓only_ite, ↓only_self]
  (repeat' split) <;> simp (disch := decide) only [↓Module.raise_only, ↓Module.put_only, ↓Module.setBoth_only,
    ↓Module.setKey_only, ↓Module.profKey_only, ↓with_snap_only, ↓only_self])

theorem Module.profOnRail_only {sel : Nat} {r : Nat} (hS : [.regs, .live, .snap, .pend, .defer] ⊆ S) :
    Only S m0 (Module.profOnRail sel m r) ↔ Only S m0 m := Only.step hS (by
  unfold Module.profOnRail
  simp (disch := decide) only [↓Module.perTaps_only, ↓Module.profShed_only, ↓only_ite, ite_self]
  exact (only_foldl fun _ _ => by simp (disch := decide) only [↓Module.profKey_only, ↓only_ite, ↓only_self,
    ite_self]).2 (Only.refl _ _))

theorem Module.profile_only {sel : Nat} (hS : [.regs, .live, .snap, .pend, .defer] ⊆ S) :
    Only S m0 (m.profile sel) ↔ Only S m0 m := Only.step hS (by
  unfold Module.profile
  simp (disch := (intros; simp (decide := true) (disch := decide) only [↓Module.profOnRail_only,
    ↓Module.profKey_only, ↓only_ite, ↓only_self, ite_self])) only [↓only_foldl, ↓only_self])

theorem Module.writeBytes_only {nv : NonVol} {a : Nat} {bs : List Byte} (hS : [.mem] ⊆ S) :
    Only S m0 (m.writeBytes nv a bs).2 ↔ Only S m0 m := Only.step hS (by
  unfold Module.writeBytes
  refine (only_foldl_pair fun s x => ?_).2 (Only.refl _ _)
  simp (disch := decide) only [↓Module.unPoison_only, ↓Module.setWord_only, ↓only_self])

theorem Module.updUp_only {f : Upd → Upd} (hS : [.up] ⊆ S) :
    Only S m0 (m.updUp f) ↔ Only S m0 m := Only.step hS (by
  unfold Module.updUp
  simp (disch := decide) only [↓with_up_only, ↓only_self])

theorem Module.updNote_only (hS : [.regs, .live, .snap, .pend, .rc] ⊆ S) :
    Only S m0 (m.updNote) ↔ Only S m0 m := Module.recMake_only hS

theorem Module.updTo_only {st : Nat} {ev : Option Nat} (hS : [.regs, .live, .snap, .pend, .rc] ⊆ S) :
    Only S m0 (m.updTo st ev) ↔ Only S m0 m := Only.step hS (by
  unfold Module.updTo
  (repeat' split) <;> simp (disch := decide) only [↓Module.raiseRec_only, ↓Module.put_only,
    ↓Module.updNote_only, ↓Module.boundary_only, ↓only_self])

theorem Module.updRefuse_only {reason ofs : Nat} (hS : [.regs] ⊆ S) :
    Only S m0 (m.updRefuse reason ofs) ↔ Only S m0 m := Only.step hS (by
  unfold Module.updRefuse
  simp (disch := decide) only [↓Module.raise_only, ↓Module.put_only, ↓only_self])

theorem Module.setMark_only {nv : NonVol} {on : Bool} (hS : [.regs] ⊆ S) :
    Only S m0 (m.setMark nv on).2 ↔ Only S m0 m := Module.put_only hS

theorem Module.clearMap_only (hS : [.regs] ⊆ S) :
    Only S m0 (m.clearMap) ↔ Only S m0 m := Only.step hS (by
  unfold Module.clearMap
  exact (only_foldl fun _ _ => by simp (disch := decide) only [↓Module.setTbl_only, ↓only_self]).2 (Only.refl _ _))

theorem Module.markGranules_only {ofs n : Nat} (hS : [.regs] ⊆ S) :
    Only S m0 (m.markGranules ofs n) ↔ Only S m0 m := Only.step hS (by
  unfold Module.markGranules
  simp (disch := decide) only [↓Module.put_only]
  exact (only_foldl fun _ _ => by simp (disch := decide) only [↓Module.count_only, ↓Module.setTbl_only,
    ↓only_ite, ↓only_self, ite_self]).2 (Only.refl _ _))

theorem Module.blockWrite_only {nv : NonVol} {ofs : Nat} {data : List Byte} (hS : [.regs, .live, .snap, .pend,
    .rc, .mem] ⊆ S) :
    Only S m0 (m.blockWrite nv ofs data).2 ↔ Only S m0 m := Only.step hS (by
  unfold Module.blockWrite
  dsimp only
  (repeat' split) <;> simp (disch := decide) only [↓Module.writeBytes_only, ↓Module.markGranules_only,
    ↓Module.updTo_only, ↓only_self])

theorem Module.takeHeader_only {h : List Byte} (hS : [.regs, .up] ⊆ S) :
    Only S m0 (m.takeHeader h) ↔ Only S m0 m := Only.step hS (by
  unfold Module.takeHeader
  simp (disch := decide) only [↓Module.setReg_only]
  exact (only_foldl fun _ _ => by simp (disch := decide) only [↓Module.setTbl_only, ↓only_self]).2 (by simp
    (disch := decide)
    only [↓Module.updUp_only, ↓Module.setReg_only, ↓Module.clearMap_only, ↓only_self]))

theorem Module.blockFirst_only {nv : NonVol} {data : List Byte} (hS : [.sys, .regs, .live, .snap, .pend, .rc,
    .sched, .ep, .gr, .xg, .twc, .mem, .up] ⊆ S) :
    Only S m0 (m.blockFirst nv data).2.1 ↔ Only S m0 m := Only.step hS (by
  unfold Module.blockFirst
  dsimp only
  (repeat' split) <;> simp (disch := decide) only [↓Module.shadowOpen_only, ↓Module.writeBytes_only,
    ↓Module.takeHeader_only, ↓Module.setMark_only, ↓Module.updTo_only, ↓Module.blockWrite_only, ↓only_self])

theorem Module.blockTake_only {nv : NonVol} {x ofs : Nat} {data : List Byte} (hS : [.sys, .regs, .live, .snap,
    .pend, .rc, .sched, .ep, .gr, .xg, .twc, .mem, .up] ⊆ S) :
    Only S m0 (m.blockTake nv x ofs data).2.1 ↔ Only S m0 m := Only.step hS (by
  unfold Module.blockTake
  dsimp only
  (repeat' split) <;> simp (disch := decide) only [↓Module.blockFirst_only, ↓Module.updTo_only,
    ↓Module.blockWrite_only, ↓only_self])

theorem Module.block_only {nv : NonVol} {x ofs : Nat} {data : List Byte} (hS : [.sys, .regs, .live, .snap,
    .pend, .rc, .sched, .ep, .gr, .xg, .twc, .mem, .up] ⊆ S) :
    Only S m0 (m.block nv x ofs data).2.1 ↔ Only S m0 m := Only.step hS (by
  unfold Module.block
  simp (disch := decide) only [↓Module.updRefuse_only, ↓Module.blockTake_only, ↓only_ite, ↓only_self, ite_self])

theorem Module.makeRun_only {nv : NonVol} {ver : Nat} (hS : [.regs] ⊆ S) :
    Only S m0 (m.makeRun nv ver).2 ↔ Only S m0 m := Only.step hS (by
  unfold Module.makeRun
  simp (disch := decide) only [↓Module.setReg_only, ↓only_self])

theorem Module.fmtDiff_only {nv : NonVol} {fmt : Nat} (hS : [.regs] ⊆ S) :
    Only S m0 (m.fmtDiff nv fmt) ↔ Only S m0 m := Module.put_only hS

theorem Module.updActivate_only {nv : NonVol} (hS : [.sys, .regs, .live, .snap, .pend, .rc] ⊆ S) :
    Only S m0 (m.updActivate nv).2.1 ↔ Only S m0 m := Only.step hS (by
  unfold Module.updActivate
  dsimp only
  (repeat' split) <;> simp (disch := decide) only [↓Module.makeRun_only, ↓Module.updSys_only,
    ↓Module.fmtDiff_only, ↓Module.fwAsk_only, ↓Module.updTo_only, ↓only_self])

theorem Module.updVerify_only {nv : NonVol} (hS : [.sys, .regs, .live, .snap, .pend, .rc] ⊆ S) :
    Only S m0 (m.updVerify nv).2 ↔ Only S m0 m := Only.step hS (by
  unfold Module.updVerify
  dsimp only
  (repeat' split) <;> simp (disch := decide) only [↓Module.put_only, ↓Module.updActivate_only,
    ↓Module.setMark_only, ↓Module.updRefuse_only, ↓Module.updTo_only, ↓only_self])

theorem Module.updAbort_only (hS : [.regs, .live, .snap, .pend, .rc] ⊆ S) :
    Only S m0 (m.updAbort) ↔ Only S m0 m := Only.step hS (by
  unfold Module.updAbort
  simp (disch := decide) only [↓Module.latchNow_only, ↓Module.updTo_only, ↓only_ite, ↓only_self, ite_self])

theorem Module.planStored_only {nv : NonVol} (hS : [.regs, .live, .snap, .pend, .rc, .mem] ⊆ S) :
    Only S m0 (m.planStored nv).2 ↔ Only S m0 m := Only.step hS (by
  unfold Module.planStored
  (repeat' split) <;> simp (disch := decide) only [↓Module.writeBytes_only, ↓Module.fmtDiff_only,
    ↓Module.updTo_only, ↓only_self])

theorem Module.updRan_only (hS : [.regs, .live, .snap, .pend, .rc] ⊆ S) :
    Only S m0 (m.updRan) ↔ Only S m0 m := Only.step hS (by
  unfold Module.updRan
  simp (disch := decide) only [↓Module.updTo_only, ↓only_ite, ↓only_self, ite_self])

theorem Module.updStart_only {x : Nat} {plan : Bool} (hS : [.regs, .live, .snap, .pend, .rc, .up] ⊆ S) :
    Only S m0 (m.updStart x plan).1 ↔ Only S m0 m := Only.step hS (by
  unfold Module.updStart
  dsimp only
  (repeat' split) <;> simp (disch := (intros; (repeat' split) <;> simp (decide := true) (disch := decide) only
    [↓Module.put_only, ↓Module.updUp_only, ↓Module.setReg_only, ↓Module.setTbl_only, ↓Module.clearMap_only,
    ↓Module.updTo_only, ↓only_ite, ↓only_self, ite_self])) only [↓only_foldl, ↓Module.put_only,
    ↓Module.updUp_only, ↓Module.setReg_only, ↓Module.clearMap_only, ↓Module.updTo_only, ↓only_self])

theorem Module.updOp_only {nv : NonVol} {x op : Nat} (hS : [.sys, .regs, .live, .snap, .pend, .rc, .up] ⊆ S) :
    Only S m0 (m.updOp nv x op).2.1 ↔ Only S m0 m := Only.step hS (by
  unfold Module.updOp
  (repeat' split) <;> simp (disch := decide) only [↓Module.updStart_only, ↓Module.updAbort_only,
    ↓Module.updActivate_only, ↓Module.updSys_only, ↓only_self])

theorem Module.updCommand_only {nv : NonVol} {x op : Nat} (hS : [.sys, .regs, .live, .snap, .pend, .rc, .up] ⊆
    S) :
    Only S m0 (m.updCommand nv x op).2.1 ↔ Only S m0 m := Only.step hS (by
  unfold Module.updCommand
  simp (disch := decide) only [↓Module.updRefuse_only, ↓Module.updOp_only, ↓only_ite, ↓only_self, ite_self])

theorem Module.updLc_only {f : LifeSt → LifeSt} (hS : [.lc] ⊆ S) :
    Only S m0 (m.updLc f) ↔ Only S m0 m := Only.step hS (by
  unfold Module.updLc
  simp (disch := decide) only [↓with_lc_only, ↓only_self])

theorem Module.lifeRefuse_only {why : Nat} (hS : [.regs] ⊆ S) :
    Only S m0 (m.lifeRefuse why) ↔ Only S m0 m := Only.step hS (by
  unfold Module.lifeRefuse
  simp (disch := decide) only [↓Module.raise_only, ↓Module.put_only, ↓only_self])

theorem Module.lifeArm_only {x : Nat} {auth : Bool} {target : Nat} (hS : [.lc, .regs] ⊆ S) :
    Only S m0 (m.lifeArm x auth target) ↔ Only S m0 m := Only.step hS (by
  unfold Module.lifeArm
  simp (disch := decide) only [↓Module.setReg_only, ↓Module.lifeRefuse_only, ↓Module.updLc_only, ↓only_ite,
    ↓only_self, ite_self])

theorem Module.lifeDisarm_only (hS : [.lc, .regs] ⊆ S) :
    Only S m0 (m.lifeDisarm) ↔ Only S m0 m := Only.step hS (by
  unfold Module.lifeDisarm
  simp (disch := decide) only [↓Module.setReg_only, ↓Module.updLc_only, ↓only_self])

theorem Module.lifeCommit_only {nv : NonVol} {x : Nat} {auth : Bool} {target : Nat} (hS : [.lc, .regs, .hw] ⊆ S)
    :
    Only S m0 (m.lifeCommit nv x auth target).2 ↔ Only S m0 m := Only.step hS (by
  unfold Module.lifeCommit
  dsimp only
  (repeat' split) <;> simp (disch := decide) only [↓Module.put_only, ↓Module.wipeStart_only,
    ↓Module.lifeRefuse_only, ↓Module.lifeDisarm_only, ↓Module.updLc_only, ↓only_self])

theorem Module.lifeCmd_only {nv : NonVol} {x : Nat} {auth : Bool} {v : W32} (hS : [.lc, .regs, .hw] ⊆ S) :
    Only S m0 (m.lifeCmd nv x auth v).2 ↔ Only S m0 m := Only.step hS (by
  unfold Module.lifeCmd
  (repeat' split) <;> simp (disch := decide) only [↓Module.lifeCommit_only, ↓Module.lifeArm_only, ↓only_self])

theorem Module.blkStart_only {b : Blk} {p n : Nat} (hS : [.nfree, .regs, .live, .good, .snap, .pend, .defer,
    .ctrs, .rc, .sched, .ph, .rl, .adc, .cle, .tr, .gr, .xg, .fd, .bt, .th, .net, .bn] ⊆ S) :
    Only S m0 (m.blkStart b p n) ↔ Only S m0 m := Only.step hS (by
  unfold Module.blkStart
  dsimp only
  (repeat' split) <;> simp (disch := decide) only [↓Module.updTr_only, ↓Module.groveUpdate_only,
    ↓Module.fdStart_only, ↓Module.xingStart_only, ↓Module.seqStart_only, ↓Module.groveOn_only,
    ↓Module.thermRestart_only, ↓Module.applyDefer_only, ↓Module.setReg_only, ↓Module.railEnable_only,
    ↓Module.wdStart_only, ↓Module.battStart_only, ↓Module.phaseEnable_only, ↓with_schedKeep_only, ↓only_self])

theorem Module.blkStop_only {b : Blk} {p n : Nat} (hS : [.regs, .live, .good, .snap, .pend, .ctrs, .rc, .sched,
    .ph, .rl, .cle, .tr, .ep, .cp, .gr, .xg, .fd, .pin, .bt, .net, .bn, .pt, .twc] ⊆ S) :
    Only S m0 (m.blkStop b p n) ↔ Only S m0 m := Only.step hS (by
  unfold Module.blkStop
  have hstop : Only [.regs, .live, .snap, .pend] m ((m.setReg p CTRL (clrBit (m.reg p CTRL) 0)).applyOnStop p)
    :=
    (Module.applyOnStop_only (by decide)).2 ((Module.setReg_only (by decide)).2 (Only.refl _ _))
  split
  case h_1 | h_2 => simp (disch := decide) only [↓Module.railDisable_only, ↓Module.phaseDisable_only, ↓only_self]
  case h_3 =>
    split
    case h_1 =>
      refine (with_sched_only (by decide) ?_).2 ((Only.step (by decide) hstop).2 (Only.refl _ _))
      exact (hstop .falls (by decide)).symm
    all_goals simp (disch := decide) only [↓Module.updTr_only, ↓Module.groveUpdate_only, ↓Module.ptpStop_only,
      ↓Module.groveOff_only, ↓Module.wdStop_only, ↓Module.xingStop_only, ↓Module.netStop_only,
      ↓Module.fdStop_only, ↓Module.trStop_only, ↓Module.applyOnStop_only, ↓Module.setReg_only,
      ↓Module.cluWakeAll_only, ↓Module.twcApply_only, ↓Module.epeDrop_only, ↓Module.battStop_only,
      ↓Module.capStop_only, ↓Module.twcStop_only, ↓only_ite, ↓only_self, ite_self])

theorem Module.softUnit_only {b : Blk} {n : Nat} (hS : [.regs, .sched, .ph, .rl, .adc, .tr, .ep, .cp, .gr, .xg,
    .fd, .sq, .bt, .th, .net, .bn, .pt, .twc] ⊆ S) :
    Only S m0 (m.softUnit b n) ↔ Only S m0 m := Only.step hS (by
  unfold Module.softUnit
  (repeat' split) <;> simp (disch := (intros; (repeat' split) <;> simp (decide := true) (disch := simp) only
    [↓Module.updTr_only, ↓Module.railUpd_only, ↓Module.updFd_only, ↓Module.updNet_only, ↓Module.updPt_only,
    ↓Module.updBn_only, ↓Module.updRl_only, ↓Module.updPh_only, ↓Module.updPort_only, ↓Module.thermSoft_only,
    ↓Module.updTask_only, ↓Module.updBt_only, ↓Module.updEp_only, ↓Module.updGr_only, ↓Module.updXg_only,
    ↓Module.updSq_only, ↓Module.updCp_only, ↓with_adc_only, ↓only_ite, ↓only_self, ite_self])) only [↓only_foldl,
    ↓Module.updTr_only, ↓Module.railUpd_only, ↓Module.updFd_only, ↓Module.updNet_only, ↓Module.updPt_only,
    ↓Module.updBn_only, ↓Module.updRl_only, ↓Module.updPh_only, ↓Module.updPort_only, ↓Module.thermSoft_only,
    ↓Module.updBt_only, ↓Module.updEp_only, ↓Module.updGr_only, ↓Module.updXg_only, ↓Module.updSq_only,
    ↓Module.updCp_only, ↓with_adc_only, ↓only_self])

theorem Module.softReset_only {b : Blk} {p n : Nat} (hS : [.regs, .ctrs, .sched, .ph, .rl, .adc, .tr, .ep, .cp,
    .gr, .xg, .fd, .sq, .bt, .th, .net, .bn, .pt, .twc] ⊆ S) :
    Only S m0 (m.softReset b p n) ↔ Only S m0 m := Only.step hS (by
  unfold Module.softReset
  simp (disch := decide) only [↓Module.clearCtrs_only, ↓Module.softUnit_only, ↓with_regs_only, ↓only_self])

theorem Module.commitShed_only {r : Nat} (hS : [.regs, .live, .snap, .unc] ⊆ S) :
    Only S m0 (m.commitShed r) ↔ Only S m0 m := Only.step hS (by
  unfold Module.commitShed
  dsimp only
  (repeat' split) <;> simp (disch := decide) only [↓Module.raise_only, ↓Module.put_only, ↓Module.commit_only,
    ↓only_self])

theorem Module.commitPoll_only {p : Nat} (hS : [.regs, .live, .snap, .unc, .twc] ⊆ S) :
    Only S m0 (m.commitPoll p) ↔ Only S m0 m := Only.step hS (by
  unfold Module.commitPoll
  simp (disch := decide) only [↓Module.twcTable_only, ↓Module.commit_only, ↓only_ite, ↓only_self, ite_self])

theorem Module.blkCommit_only {b : Blk} {p n : Nat} {v : W32} {wrote : List Nat} (hS : [.regs, .live, .snap,
    .unc, .bt, .twc] ⊆ S) :
    Only S m0 (m.blkCommit b p n v wrote) ↔ Only S m0 m := Only.step hS (by
  unfold Module.blkCommit
  dsimp only
  (repeat' split) <;> simp (disch := (intros; (repeat' split) <;> simp (decide := true) (disch := decide) only
    [↓Module.railUpd_only, ↓Module.commitLearn_only, ↓Module.commitShed_only, ↓Module.commitPoll_only,
    ↓Module.seqCommit_only, ↓Module.commitOcv_only, ↓Module.commit_only, ↓Module.commitSrc_only, ↓only_ite,
    ↓only_self, ite_self])) only [↓only_foldl, ↓Module.railUpd_only, ↓Module.commitLearn_only,
    ↓Module.commitShed_only, ↓Module.commitPoll_only, ↓Module.seqCommit_only, ↓Module.commitOcv_only,
    ↓Module.commit_only, ↓Module.commitSrc_only, ↓only_self])

theorem Module.benufCmd_only {v : W32} (hS : [.regs, .live, .good, .snap, .pend, .ctrs, .rc, .net, .bn] ⊆ S) :
    Only S m0 (m.benufCmd v) ↔ Only S m0 m := Only.step hS (by
  unfold Module.benufCmd
  simp (disch := decide) only [↓Module.memFree_only, ↓Module.sendHello_only, ↓only_ite, ↓only_self, ite_self])

theorem Module.blkCmd_only {b : Blk} {n : Nat} {v : W32} (hS : [.nfree, .regs, .live, .good, .snap, .pend,
    .ctrs, .rc, .sched, .adc, .tr, .sq, .pin, .bt, .th, .net, .bn] ⊆ S) :
    Only S m0 (m.blkCmd b n v) ↔ Only S m0 m := Only.step hS (by
  unfold Module.blkCmd
  (repeat' split) <;> simp (disch := decide) only [↓Module.seqRequest_only, ↓Module.benufCmd_only,
    ↓Module.trStop_only, ↓Module.trArm_only, ↓Module.wdKickWrite_only, ↓Module.battAccept_only,
    ↓Module.netRepair_only, ↓Module.calStart_only, ↓Module.bistAsk_only, ↓Module.calAsk_only,
    ↓Module.trTrigger_only, ↓Module.netSwitch_only, ↓Module.impAsk_only, ↓only_ite, ↓only_self, ite_self])

theorem Module.wroteHook_only {b : Blk} {p n off : Nat} {old : W32} (hS : [.regs, .sched, .ph, .adc, .pin] ⊆ S)
    :
    Only S m0 (m.wroteHook b p n off old) ↔ Only S m0 m := Only.step hS (by
  unfold Module.wroteHook
  (repeat' split) <;> simp (disch := decide) only [↓Module.fdPairSee_only, ↓Module.railUpd_only,
    ↓Module.capUpd_only, ↓Module.perTaps_only, ↓Module.ppsIdle_only, ↓Module.tbWritten_only,
    ↓Module.capForce_only, ↓Module.cluWakeAll_only, ↓Module.monWritten_only, ↓Module.phaseMoved_only,
    ↓Module.dtApply_only, ↓only_self])

theorem Module.latchGone_only {b : Blk} {n i : Nat} (hS : [.nfree, .regs, .live, .good, .snap, .pend, .ctrs,
    .rc, .sched, .falls, .ph, .rl, .adc, .cle, .tr, .gr, .xg, .fd, .th, .net, .bn] ⊆ S) :
    Only S m0 (m.latchGone b n i) ↔ Only S m0 m := Only.step hS (by
  unfold Module.latchGone
  (repeat' split) <;> simp (disch := (intros; (repeat' split) <;> simp (decide := true) (disch := decide) only
    [↓Module.groveUpdate_only, ↓Module.put_only, ↓Module.ringReadmit_only, ↓Module.groveEpoch_only,
    ↓Module.convRelease_only, ↓Module.xingJudge_only, ↓Module.spareRelease_only, ↓Module.phaseRelease_only,
    ↓Module.netRepair_only, ↓Module.updTask_falls_only, ↓Module.capDrive_only, ↓Module.fdRelease_only,
    ↓Module.railRelease_only, ↓only_ite, ↓only_self, ite_self])) only [↓Module.groveUpdate_only, ↓Module.put_only,
    ↓Module.ringReadmit_only, ↓Module.groveEpoch_only, ↓Module.convRelease_only, ↓Module.xingJudge_only,
    ↓Module.spareRelease_only, ↓Module.phaseRelease_only, ↓Module.netRepair_only, ↓Module.updTask_falls_only,
    ↓Module.capDrive_only, ↓Module.fdRelease_only, ↓Module.railRelease_only, ↓only_self])

theorem Module.clearLatch_only {b : Blk} {p n i : Nat} (hS : [.nfree, .regs, .live, .good, .snap, .pend, .ctrs,
    .rc, .sched, .falls, .ph, .rl, .adc, .cle, .tr, .gr, .xg, .fd, .th, .net, .bn] ⊆ S) :
    Only S m0 (m.clearLatch b p n i) ↔ Only S m0 m := Only.step hS (by
  unfold Module.clearLatch
  simp (disch := decide) only [↓Module.latchGone_only, ↓Module.setReg_only, ↓Module.clearCtr_only,
    ↓Module.recFault_only, ↓only_ite, ↓only_self, ite_self])

theorem Module.clearLatches_only {b : Blk} {p n : Nat} {v : W32} (hS : [.nfree, .regs, .live, .good, .snap,
    .pend, .ctrs, .rc, .sched, .falls, .ph, .rl, .adc, .cle, .tr, .gr, .xg, .fd, .th, .net, .bn] ⊆ S) :
    Only S m0 (m.clearLatches b p n v) ↔ Only S m0 m := Only.step hS (by
  unfold Module.clearLatches
  exact (only_foldl fun _ _ => by simp (disch := decide) only [↓Module.clearLatch_only, ↓only_ite, ↓only_self,
    ite_self]).2 (Only.refl _ _))

theorem Module.cfgRefused_only {x addr why : Nat} (hS : [.regs, .live, .snap, .pend, .cfgRec, .rc] ⊆ S) :
    Only S m0 (m.cfgRefused x addr why) ↔ Only S m0 m := Only.step hS (by
  unfold Module.cfgRefused
  simp (disch := decide) only [↓Module.raise_only, ↓Module.recMake_only, ↓Module.setReg_only,
    ↓Module.countReg_only, ↓with_cfgRec_only, ↓only_ite, ↓only_self, ite_self])

theorem Module.pairRefused_only {x addr : Nat} (hS : [.regs, .live, .good, .snap, .pend, .ctrs, .rc] ⊆ S) :
    Only S m0 (m.pairRefused x addr) ↔ Only S m0 m := Only.step hS (by
  unfold Module.pairRefused
  simp (disch := decide) only [↓Module.raise_only, ↓Module.count_only, ↓Module.setReg_only, ↓Module.fault_only,
    ↓only_self])

theorem Module.winWrite_only {k : Nat} {v : W32} (hS : [.regs, .ovr, .winWait] ⊆ S) :
    Only S m0 (m.winWrite k v) ↔ Only S m0 m := Only.step hS (by
  unfold Module.winWrite
  simp (disch := decide) only [↓Module.setKey_only, ↓with_ovr_only, ↓with_winWait_only, ↓only_ite, ↓only_self,
    ite_self])

theorem Txn.refuse_only {t : Txn} {addr why : Nat} (hS : [.regs, .live, .good, .snap, .pend, .ctrs, .cfgRec,
    .rc] ⊆ S) :
    Only S m0 (t.refuse addr why).m ↔ Only S m0 t.m := Only.step hS (by
  unfold Txn.refuse
  simp (disch := decide) only [↓Module.pairRefused_only, ↓Module.cfgRefused_only, ↓only_ite, ↓only_self, ite_self])

theorem Txn.turnDown_only {t : Txn} {addr : Nat} {acc : Acc} {pairs : Bool} {why : Nat} (hS : [.regs, .live,
    .good, .snap, .pend, .ctrs, .cfgRec, .rc] ⊆ S) :
    Only S m0 (t.turnDown addr acc pairs why).m ↔ Only S m0 t.m := Only.step hS (by
  unfold Txn.turnDown
  (repeat' split) <;> simp (disch := decide) only [↓Txn.refuse_only, ↓only_self])

theorem Txn.accept_only {t : Txn} {k : Nat} {v : W32} (hS : [.regs, .live, .pend, .unc, .ovr, .defer] ⊆ S) :
    Only S m0 (t.accept k v).m ↔ Only S m0 t.m := Module.applyWrite_only hS

theorem Txn.mailWord_only {t : Txn} {p c i : Nat} {v : W32} (hS : [.regs, .live] ⊆ S) :
    Only S m0 (t.mailWord p c i v).m ↔ Only S m0 t.m := Only.step hS (by
  unfold Txn.mailWord
  (repeat' split) <;> simp (disch := decide) only [Txn.on_only, Module.chDenied_only, Module.setBoth_only,
    Module.chBusy_only, only_self])

theorem Txn.mailBind_only {t : Txn} {p c addr : Nat} {v : W32} (hS : [.regs, .live, .good, .snap, .pend, .ctrs,
    .cfgRec, .rc] ⊆ S) :
    Only S m0 (t.mailBind p c addr v).m ↔ Only S m0 t.m := Only.step hS (by
  unfold Txn.mailBind
  (repeat' split) <;> simp (disch := decide) only [Txn.on_only, Module.chDenied_only, Txn.refuse_only,
    Module.setBoth_only, only_self])

theorem Txn.mailReg_only {t : Txn} {p n addr : Nat} {v : W32} (hS : [.regs, .live, .good, .snap, .pend, .ctrs,
    .cfgRec, .rc] ⊆ S) :
    Only S m0 (t.mailReg p n addr v).m ↔ Only S m0 t.m := Only.step hS (by
  unfold Txn.mailReg
  (repeat' split) <;> simp (disch := decide) only [Txn.ite_only, Txn.on_only, Module.chBusy_only,
    Txn.refuse_only, Module.chDenied_only, only_self, ite_self])

theorem Txn.tblWrite_only {t : Txn} {b : Blk} {p n addr : Nat} {v : W32} (hS : [.regs, .live, .good, .snap,
    .pend, .unc, .ovr, .defer, .ctrs, .cfgRec, .idx, .rc, .adc] ⊆ S) :
    Only S m0 (t.tblWrite b p n addr v).m ↔ Only S m0 t.m := Only.step hS (by
  unfold Txn.tblWrite
  extract_lets s i
  split
  · exact (Module.raise_only (by decide)).2 (Only.refl _ _)
  · simp only [↓Txn.ite_only, ↓Txn.on_only]
    simp (disch := decide) only [Txn.accept_only, Module.monWritten_only, Txn.mailWord_only, Txn.turnDown_only,
      Txn.mailBind_only, ite_self]
    exact (with_idx_only (by decide)).2 (Only.refl _ _))

theorem Txn.sysCmd_only {t : Txn} {addr : Nat} {v : W32} (hS : [.sys, .regs, .live, .good, .snap, .pend, .ctrs,
    .cfgRec, .rc] ⊆ S) :
    Only S m0 (t.sysCmd addr v).m ↔ Only S m0 t.m := Only.step hS (by
  unfold Txn.sysCmd
  (repeat' split) <;> simp (disch := decide) only [Txn.ite_only, Txn.on_only, Txn.refuse_only,
    Module.updSys_only, Module.fwAsk_only, only_self, ite_self])

theorem Txn.cmdWrite_only {t : Txn} {b : Blk} {p n addr : Nat} {v : W32} (hS : [.sys, .nfree, .regs, .live,
    .good, .snap, .pend, .unc, .ctrs, .cfgRec, .rc, .sched, .adc, .tr, .sq, .pin, .bt, .th, .net, .bn, .twc,
    .hw] ⊆ S) :
    Only S m0 (t.cmdWrite b p n addr v).m ↔ Only S m0 t.m := Only.step hS (by
  unfold Txn.cmdWrite
  (repeat' split) <;> simp (disch := decide) only [Txn.ite_only, Txn.on_only, Module.blkCmd_only,
    Txn.sysCmd_only, Txn.refuse_only, Module.blkCommit_only, Module.wipeStart_only, only_self, ite_self])

theorem Txn.regWrite_only {t : Txn} {b : Blk} {p n addr : Nat} {row : RegRow} {v : W32} (hS : [.sys, .lc, .regs,
    .live, .good, .snap, .pend, .unc, .ovr, .defer, .winWait, .ctrs, .cfgRec, .rc, .sched, .ph, .adc, .pin, .hw,
    .up] ⊆ S) :
    Only S m0 (t.regWrite b p n addr row v).m ↔ Only S m0 t.m := Only.step hS (by
  unfold Txn.regWrite
  (repeat' split) <;> simp (disch := decide) only [Txn.ite_only, Txn.on_only, Module.wroteHook_only,
    Txn.accept_only, Module.profile_only, Module.updCommand_only, Module.setBoth_only, Module.winWrite_only,
    Txn.mailReg_only, Module.lifeCmd_only, Txn.turnDown_only, only_self, ite_self])

theorem Txn.submitGone_only {t : Txn} {addr : Nat} (hS : [.regs] ⊆ S) :
    Only S m0 (t.submitGone addr).m ↔ Only S m0 t.m := Only.step hS (by
  unfold Txn.submitGone
  (repeat' split) <;> simp (disch := decide) only [Txn.on_only, Module.raise_only, only_self])

theorem Txn.write_only {t : Txn} {w : RegWr} (hS : [.sys, .lc, .nfree, .regs, .live, .good, .snap, .pend, .unc,
    .ovr, .defer, .winWait, .ctrs, .cfgRec, .sel, .idx, .rc, .sched, .falls, .ph, .rl, .adc, .cle, .tr, .gr,
    .xg, .fd, .sq, .pin, .bt, .th, .net, .bn, .twc, .hw, .up] ⊆ S) :
    Only S m0 (t.write w).m ↔ Only S m0 t.m := Only.step hS (by
  unfold Txn.write
  extract_lets p off
  split
  · exact Only.refl _ _
  · simp only [↓Txn.ite_only, ↓Txn.on_only]
    simp (disch := decide) only [↓Txn.submitGone_only, ↓Txn.tblWrite_only, ↓Module.clearLatches_only,
      ↓Txn.regWrite_only, ↓Txn.cmdWrite_only, ↓Txn.refuse_only, ↓Module.setReg_only, ↓with_idx_only,
      ↓with_sel_only, ↓only_self, ite_self])

theorem Txn.ctrlWrite_only {t : Txn} {p : Nat} {v : W32} (hS : [.nfree, .regs, .live, .good, .snap, .pend,
    .defer, .ctrs, .cfgRec, .rc, .sched, .ph, .rl, .adc, .cle, .tr, .ep, .cp, .gr, .xg, .fd, .sq, .pin, .bt,
    .th, .net, .bn, .pt, .twc] ⊆ S) :
    Only S m0 (t.ctrlWrite p v).m ↔ Only S m0 t.m := Only.step hS (by
  unfold Txn.ctrlWrite
  split
  · exact Only.refl _ _
  · next b n _ =>
    extract_lets addr was want soft t1 old new t2 why
    have h1 : Only [.nfree, .regs, .live, .good, .snap, .pend, .defer, .ctrs, .cfgRec, .rc, .sched, .ph, .rl,
      .adc, .cle, .tr, .ep, .cp, .gr, .xg, .fd, .sq, .pin, .bt, .th, .net, .bn, .pt, .twc] t.m t1.m := by
      simp only [t1, ↓Txn.ite_only, ↓Txn.on_only]
      simp (disch := decide) only [↓Txn.refuse_only, ↓Module.softReset_only, ↓only_self, ite_self]
    clear_value t1
    have h2 : Only [.nfree, .regs, .live, .good, .snap, .pend, .defer, .ctrs, .cfgRec, .rc, .sched, .ph, .rl,
      .adc, .cle, .tr, .ep, .cp, .gr, .xg, .fd, .sq, .pin, .bt, .th, .net, .bn, .pt, .twc] t.m t2.m := by
      simp only [t2, ↓Txn.ite_only, ↓Txn.on_only]
      simp (disch := decide) only [h1, ↓Txn.refuse_only, ↓Module.setReg_only, ite_self]
    clear_value t2
    simp only [↓Txn.ite_only, ↓Txn.on_only]
    simp (disch := decide) only [h2, ↓Module.blkStart_only, ↓Module.blkStop_only, ↓Txn.refuse_only, ↓only_ite,
      ↓only_self, ite_self])

theorem Txn.takeBlock_only {t : Txn} (hS : [.sys, .regs, .live, .snap, .pend, .rc, .sched, .ep, .gr, .xg, .twc,
    .mem, .up] ⊆ S) :
    Only S m0 (t.takeBlock).m ↔ Only S m0 t.m := Only.step hS (by
  unfold Txn.takeBlock
  (repeat' split) <;> simp (disch := decide) only [Txn.ite_only, Txn.on_only, Module.setBoth_only,
    Module.block_only, only_self, ite_self])

theorem Txn.finish_only {t : Txn} (hS : [.sys, .nfree, .regs, .live, .good, .snap, .pend, .defer, .ctrs,
    .cfgRec, .rc, .sched, .ph, .rl, .adc, .cle, .tr, .ep, .cp, .gr, .xg, .fd, .sq, .pin, .bt, .th, .net, .bn,
    .pt, .twc, .mem, .rings, .up] ⊆ S) :
    Only S m0 (t.finish).m ↔ Only S m0 t.m := Only.step hS (by
  unfold Txn.finish
  refine (only_foldl_txn fun t l => ?_).2 ((only_foldl_txn fun t c => ?_).2 ?_)
  · exact (Module.setReg_only (by decide)).2 (Only.refl _ _)
  · exact (Txn.ctrlWrite_only (by decide)).2 (Only.refl _ _)
  · refine (only_foldl fun m a => (Module.chAck_only (by decide)).2 (Only.refl _ _)).2 ?_
    refine (only_foldl fun m r => (Module.chRings_only (by decide)).2 (Only.refl _ _)).2 ?_
    simp (disch := decide) only [↓Txn.ite_only, ↓Txn.on_only, ↓Txn.takeBlock_only, ↓Module.submitAll_only,
      ↓Module.recPlace_only, ↓only_self, ite_self])

theorem Module.tblPop_only {nv : NonVol} {b : Blk} {p n x : Nat} (hS : [.regs, .idx, .tr] ⊆ S) :
    Only S m0 (m.tblPop nv b p n x).2 ↔ Only S m0 m := Only.step hS (by
  unfold Module.tblPop
  dsimp only
  (repeat' split) <;> simp (disch := decide) only [↓Module.raise_only, ↓Module.trRead_only, ↓with_idx_only,
    ↓only_self])

theorem Module.setLatch_only {x addr : Nat} {v : W32} (hS : [.latch] ⊆ S) :
    Only S m0 (m.setLatch x addr v) ↔ Only S m0 m := Only.step hS (by
  unfold Module.setLatch
  simp (disch := decide) only [↓with_latch_only, ↓only_self])

theorem Module.busRead_only {nv : NonVol} {x addr : Nat} {accepted : Bool} (hS : [.regs, .idx, .latch, .rc, .tr]
    ⊆ S) :
    Only S m0 (m.busRead nv x addr accepted).2 ↔ Only S m0 m := Only.step hS (by
  unfold Module.busRead
  dsimp only
  (repeat' split) <;> simp (disch := decide) only [↓Module.recRead_only, ↓Module.setLatch_only,
    ↓Module.tblPop_only, ↓only_self])

theorem Module.failUnit_only {y0 : UnitFail} (hS : [.regs, .live, .snap, .pend, .rc, .sched, .adc, .cle] ⊆ S) :
    Only S m0 (m.failUnit y0) ↔ Only S m0 m := Only.step hS (by
  unfold Module.failUnit
  dsimp only
  (repeat' split) <;> simp (disch := decide) only [↓Module.raise_only, ↓Module.put_only, ↓Module.latchNow_only,
    ↓Module.setTbl_only, ↓Module.spareFail_only, ↓with_cle_only, ↓with_schedKeep_only, ↓only_self])

theorem Module.selfUnits_only {fs : List UnitFail} (hS : [.regs, .live, .snap, .pend, .rc, .sched, .ph, .rl,
    .adc, .cle] ⊆ S) :
    Only S m0 (m.selfUnits fs) ↔ Only S m0 m := Only.step hS (by
  unfold Module.selfUnits
  simp (disch := (intros; simp (decide := true) (disch := decide) only [↓Module.failUnit_only,
    ↓Module.convFail_only, ↓only_ite, ↓only_self, ite_self])) only [↓only_foldl, ↓only_self])

theorem Module.selfReport_only {fs : List UnitFail} {ms : Nat} {ro : Bool} (hS : [.regs, .live, .snap, .pend,
    .rc] ⊆ S) :
    Only S m0 (m.selfReport fs ms ro) ↔ Only S m0 m := Only.step hS (by
  unfold Module.selfReport
  simp (disch := decide) only [↓Module.raise_only, ↓Module.put_only, ↓Module.latchNow_only, ↓only_ite,
    ↓only_self, ite_self])

theorem Module.heartReload_only {nv : NonVol} (hS : [.mem, .hw] ⊆ S) :
    Only S m0 (m.heartReload nv) ↔ Only S m0 m := Only.step hS (by
  unfold Module.heartReload
  simp (disch := decide) only [↓Module.updMem_only, ↓Module.updHw_only, ↓only_self])

theorem Module.heartAclSet_only (hS : [.regs, .live] ⊆ S) :
    Only S m0 (m.heartAclSet) ↔ Only S m0 m := Only.step hS (by
  unfold Module.heartAclSet
  simp (disch := decide) only [↓Module.setReg_only, ↓Module.setBoth_only, ↓only_self])

theorem Module.deferStop_only {p k : Nat} {acc : Acc} {eff : Eff} {v : W32} {ok : Bool} (hS : [.ovr, .defer] ⊆
    S) :
    Only S m0 (m.deferStop p k acc eff v ok) ↔ Only S m0 m := Only.step hS (by
  unfold Module.deferStop
  split
  · exact fun q hq => by cases q <;> simp_all [Part.Same]
  · exact Only.refl _ _)

theorem Module.deferPage_only {w : RegWr} (hS : [.ovr, .defer] ⊆ S) :
    Only S m0 (m.deferPage w) ↔ Only S m0 m := Only.step hS (by
  unfold Module.deferPage
  dsimp only
  (repeat' split) <;> simp (disch := decide) only [↓Module.deferStop_only, ↓only_self])

theorem Module.deferWord_only {p t i : Nat} {v : W32} (hS : [.ovr, .defer] ⊆ S) :
    Only S m0 (m.deferWord p t i v) ↔ Only S m0 m := Only.step hS (by
  unfold Module.deferWord
  (repeat' split) <;> simp (disch := decide) only [↓Module.deferStop_only, ↓only_self])

theorem Module.planPoints_only {ps : List (Nat × Nat)} (hS : [.regs, .sched] ⊆ S) :
    Only S m0 (m.planPoints ps) ↔ Only S m0 m := Only.step hS (by
  unfold Module.planPoints
  simp (disch := (intros; simp (decide := true) (disch := decide) only [↓Module.raise_only, ↓Module.put_only,
    ↓Module.setTbl_only, ↓with_schedKeep_only, ↓only_ite, ↓only_self, ite_self])) only [↓only_foldl,
    ↓Module.raise_only, ↓Module.put_only, ↓with_schedKeep_only, ↓only_ite, ↓only_self, ite_self])

theorem Module.tryAdopt_only (hS : [.sys, .regs] ⊆ S) :
    Only S m0 (m.tryAdopt) ↔ Only S m0 m := Only.step hS (by
  unfold Module.tryAdopt
  simp (disch := decide) only [↓Module.toPhase_only, ↓Module.updSys_only, ↓only_ite, ↓only_self, ite_self])

theorem Module.holdRelease_only (hS : [.sys] ⊆ S) :
    Only S m0 (m.holdRelease) ↔ Only S m0 m := Only.step hS (by
  unfold Module.holdRelease
  simp (disch := decide) only [↓Module.updSys_only, ↓only_ite, ↓only_self, ite_self])

theorem Module.verdictRecords_only {nv : NonVol} {ver : Nat} (hS : [.sys, .regs, .live, .snap, .pend, .rc] ⊆ S)
    :
    Only S m0 (m.verdictRecords nv ver) ↔ Only S m0 m := Only.step hS (by
  unfold Module.verdictRecords
  simp (disch := decide) only [↓Module.recStart_only, ↓Module.updSys_only, ↓Module.recBegin_only, ↓only_ite,
    ↓only_self, ite_self])

theorem Module.retireNow_only {s : NonVol × Module} {row : Nat × Nat} (hS : [.regs, .live, .snap, .pend, .rc,
    .sched, .mem] ⊆ S) :
    Only S m0 (Module.retireNow s row).2 ↔ Only S m0 s.2 := Only.step hS (by
  unfold Module.retireNow
  simp (disch := decide) only [↓Module.rowFails_only, ↓Module.rowRetired_only, ↓only_self])

theorem Module.adoptPhase_only {lv : List Sensed} {n : Nat} (hS : [.regs, .ph] ⊆ S) :
    Only S m0 (m.adoptPhase lv n) ↔ Only S m0 m := Only.step hS (by
  unfold Module.adoptPhase
  simp (disch := decide) only [↓Module.put_only, ↓Module.updPh_only, ↓only_ite, ↓only_self, ite_self])

theorem Module.adoptRail_only {lv : List Sensed} {i : Nat} (hS : [.regs, .pin] ⊆ S) :
    Only S m0 (m.adoptRail lv i) ↔ Only S m0 m := Only.step hS (by
  unfold Module.adoptRail
  simp (disch := decide) only [↓Module.seqMapPut_only, ↓with_pin_only, ↓only_ite, ↓only_self]
  (repeat' split) <;> simp (disch := decide) only [↓Module.put_only, ↓Module.seqMapPut_only, ↓with_pin_only,
    ↓only_self])

theorem Module.adoptSysPg_only {lv : List Sensed} (hS : [.regs, .pin] ⊆ S) :
    Only S m0 (m.adoptSysPg lv) ↔ Only S m0 m := Only.step hS (by
  unfold Module.adoptSysPg
  (repeat' split) <;> simp (disch := decide) only [↓Module.put_only, ↓with_pin_only, ↓only_self])

theorem Module.adoptPps_only {lv : List Sensed} (hS : [.regs, .pin] ⊆ S) :
    Only S m0 (m.adoptPps lv) ↔ Only S m0 m := Only.step hS (by
  unfold Module.adoptPps
  (repeat' split) <;> simp (disch := decide) only [↓Module.put_only, ↓with_pin_only, ↓only_self])

theorem Module.adoptGate_only {lv : List Sensed} {c : Nat} (hS : [.fd] ⊆ S) :
    Only S m0 (m.adoptGate lv c) ↔ Only S m0 m := Only.step hS (by
  unfold Module.adoptGate
  simp (disch := decide) only [↓Module.updFd_only, ↓only_ite, ↓only_self, ite_self])

theorem Module.adopt_only {lv : List Sensed} (hS : [.regs, .live, .snap, .pend, .rc, .ph, .fd, .pin] ⊆ S) :
    Only S m0 (m.adopt lv) ↔ Only S m0 m := Only.step hS (by
  unfold Module.adopt
  simp (disch := (intros; simp (decide := true) (disch := decide) only [↓Module.adoptPps_only,
    ↓Module.raiseRec_only, ↓Module.adoptSysPg_only, ↓Module.adoptPhase_only, ↓Module.adoptRail_only,
    ↓Module.adoptGate_only, ↓only_ite, ↓only_self, ite_self])) only [↓only_foldl, ↓Module.adoptPps_only,
    ↓Module.raiseRec_only, ↓Module.adoptSysPg_only, ↓only_ite, ↓only_self, ite_self])

theorem Module.seqOwnOn_only (hS : [.regs] ⊆ S) :
    Only S m0 (m.seqOwnOn) ↔ Only S m0 m := Only.step hS (by
  unfold Module.seqOwnOn
  exact (only_foldl fun _ _ => by simp (disch := decide) only [↓Module.seqMapPut_only, ↓only_ite, ↓only_self,
    ite_self]).2 (Only.refl _ _))

theorem Module.busFetch_only {nv : NonVol} {x addr : Nat} {accepted : Bool} (hS : [.regs, .idx, .latch, .rc,
    .out, .tr] ⊆ S) :
    Only S m0 (m.busFetch nv x addr accepted) ↔ Only S m0 m := Only.step hS (by
  unfold Module.busFetch
  simp (disch := decide) only [↓Module.busRead_only, ↓with_out_only, ↓only_ite, ↓only_self, ite_self])

theorem Module.stage_only {t : Nat} {q : MemReq} {as : List Nat} {v : Nat} (hS : [.regs, .live, .good, .snap,
    .pend, .ctrs, .rc, .sched, .falls, .ep] ⊆ S) :
    Only S m0 (m.stage t q as v) ↔ Only S m0 m := Only.step hS (by
  unfold Module.stage
  simp (disch := simp) only [↓Module.updTask_only, ↓Module.taskDrop_only, ↓only_ite, ↓only_self, ite_self])

theorem Module.twtPoint_only {a : Nat} (hS : [.regs, .twtPtr] ⊆ S) :
    Only S m0 (m.twtPoint a) ↔ Only S m0 m := Only.step hS (by
  unfold Module.twtPoint
  simp (disch := decide) only [↓Module.setReg_only, ↓with_twtPtr_only, ↓only_self])

theorem Module.twtErr_only {kind addr : Nat} (hS : [.regs] ⊆ S) :
    Only S m0 (m.twtErr kind addr) ↔ Only S m0 m := Only.step hS (by
  unfold Module.twtErr
  simp (disch := decide) only [↓Module.put_only, ↓only_self])

theorem Module.twtRefused_only {kind : Nat} (hS : [.regs] ⊆ S) :
    Only S m0 (m.twtRefused kind) ↔ Only S m0 m := Only.step hS (by
  unfold Module.twtRefused
  simp (disch := decide) only [↓Module.count_only, ↓Module.twtErr_only, ↓Module.raise_only, ↓only_self])

theorem Module.twtCount_only {lo : Nat} (hS : [.regs] ⊆ S) :
    Only S m0 (m.twtCount lo) ↔ Only S m0 m := Module.put_only hS

theorem Module.twtSend_only {nv : NonVol} {last : Bool} {y0 : Nat} {y1 : Nat} {y2 : Nat} (hS : [.regs, .idx,
    .latch, .rc, .tr, .twtPtr] ⊆ S) :
    Only S m0 (m.twtSend nv last y0 y1 y2).2 ↔ Only S m0 m := by
  refine Only.step hS ?_
  induction y0 generalizing m y1 y2 with
  | zero => exact (Module.twtPoint_only (by decide)).2 (Only.refl _ _)
  | succ fuel ih =>
    unfold Module.twtSend
    dsimp only
    split
    · exact (Module.twtPoint_only (by decide)).2 (Only.refl _ _)
    · refine (Only.step (List.Subset.refl _) ih).2 ?_
      simp (disch := decide) only [↓Module.raise_only, ↓Module.busRead_only, ↓Module.twtErr_only, ↓only_ite,
        ↓only_self, ite_self]

theorem Module.twtBusy_only {on : Bool} (hS : [.regs] ⊆ S) :
    Only S m0 (m.twtBusy on) ↔ Only S m0 m := Module.put_only hS

theorem Module.twtRead_only {nv : NonVol} {ptr : Option Nat} {n : Nat} {last : Bool} (hS : [.regs, .live, .snap,
    .pend, .idx, .latch, .rc, .out, .tr, .twtPtr] ⊆ S) :
    Only S m0 (m.twtRead nv ptr n last) ↔ Only S m0 m := Only.step hS (by
  unfold Module.twtRead
  simp (disch := decide) only [↓Module.twtBusy_only, ↓Module.boundary_only, ↓Module.twtCount_only,
    ↓Module.twtSend_only, ↓Module.twtPoint_only, ↓with_out_only, ↓only_self])

theorem Module.mgmtReads_only {nv : NonVol} {y0 : Nat} {y1 : List Nat} (hS : [.regs, .idx, .latch, .rc, .tr] ⊆
    S) :
    Only S m0 (m.mgmtReads nv y0 y1).2 ↔ Only S m0 m := by
  refine Only.step hS ?_
  induction y1 generalizing m y0 with
  | nil => exact Only.refl _ _
  | cons a as ih =>
    unfold Module.mgmtReads
    exact (Only.step (List.Subset.refl _) ih).2 ((Module.busRead_only (by decide)).2 (Only.refl _ _))

theorem Module.mboxSend_only {q : MgmtHdr} {ch : Nat} {payload : List W32} (hS : [.regs, .live, .snap, .pend,
    .cfgRec, .rc, .sched, .net, .rings] ⊆ S) :
    Only S m0 (m.mboxSend q ch payload).1 ↔ Only S m0 m := Only.step hS (by
  unfold Module.mboxSend
  dsimp only
  (repeat' split) <;> simp (disch := (intros; (repeat' split) <;> simp (decide := true) (disch := decide) only
    [↓Module.chBusy_only, ↓Module.chRings_only, ↓Module.setBoth_only, ↓Module.cfgRefused_only,
    ↓Module.chDenied_only, ↓only_ite, ↓only_self, ite_self])) only [↓only_foldl, ↓Module.chBusy_only,
    ↓Module.chRings_only, ↓Module.cfgRefused_only, ↓Module.chDenied_only, ↓only_self])

theorem Module.mboxFrom_only {q : MgmtHdr} (hS : [.bn] ⊆ S) :
    Only S m0 (m.mboxFrom q) ↔ Only S m0 m := Module.updBn_only hS

theorem Module.capsetNote_only {f : Capset} {late refused : Bool} (hS : [.regs] ⊆ S) :
    Only S m0 (m.capsetNote f late refused) ↔ Only S m0 m := Module.setReg_only hS

theorem Module.autoRelease_only (hS : [.nfree, .regs, .live, .good, .snap, .pend, .ctrs, .rc, .sched, .falls,
    .ph, .rl, .adc, .cle, .tr, .gr, .xg, .fd, .th, .net, .bn] ⊆ S) :
    Only S m0 (m.autoRelease) ↔ Only S m0 m := Only.step hS (by
  unfold Module.autoRelease
  simp (disch := (intros; simp (decide := true) (disch := decide) only [↓Module.clearLatch_only, ↓only_ite,
    ↓only_self, ite_self])) only [↓only_foldl, ↓only_ite, ↓only_self, ite_self])

theorem Module.bucketEnd_only {win : Nat} (hS : [.nfree, .regs, .live, .good, .snap, .pend, .winWait, .ctrs,
    .cfgRec, .rc, .sched, .falls, .ph, .rl, .adc, .cle, .tr, .gr, .xg, .fd, .th, .net, .bn] ⊆ S) :
    Only S m0 (m.bucketEnd win) ↔ Only S m0 m := Only.step hS (by
  unfold Module.bucketEnd
  extract_lets wait m1 m2 m3
  have h1 : Only [.ctrs] m m1 := (with_ctrs_only (by decide)).2 (Only.refl _ _)
  have h2 : Only [.live, .winWait, .ctrs] m m2 := by
    have h1' : Only [.live, .winWait, .ctrs] m m1 := (Only.step (by decide) h1).2 (Only.refl _ _)
    clear_value wait
    cases wait with
    | some kv => exact (with_winWait_only (by decide)).2 ((Module.force_only (by decide)).2 h1')
    | none => exact h1'
  have h3 : Only [.live, .winWait, .ctrs, .cfgRec] m m3 := by
    have h2' : Only [.live, .winWait, .ctrs, .cfgRec] m m2 := (Only.step (by decide) h2).2 (Only.refl _ _)
    simp only [m3]
    split
    · exact (with_cfgRec_only (by decide)).2 h2'
    · exact h2'
  clear_value m3
  have h := fun S : List Part => fun hsub => (Only.step (S := S) (a := m) hsub h3).2 (Only.refl _ _)
  (repeat' split)
  · refine (Module.autoRelease_only (by decide)).2 ((with_sched_only (by decide) ?_).2 (h _ (by decide)))
    rw [List.map_map]
    rfl
  · exact (Module.autoRelease_only (by decide)).2 (h _ (by decide))
  · exact h _ (by decide))

theorem Module.allOn_only (hS : [.regs, .ph, .rl] ⊆ S) :
    Only S m0 (m.allOn) ↔ Only S m0 m := Only.step hS (by
  unfold Module.allOn
  refine (only_foldl fun m r => ?_).2 (Only.refl _ _)
  split
  · exact Only.refl _ _
  · refine (only_foldl fun m _ => ?_).2 (Only.refl _ _)
    split
    · exact (Module.addPhase_only (by decide)).2 (Only.refl _ _)
    · exact Only.refl _ _)

theorem Module.probeHold_only (hS : [.regs, .ph] ⊆ S) :
    Only S m0 (m.probeHold) ↔ Only S m0 m := Only.step hS (by
  unfold Module.probeHold
  simp (disch := (intros; simp (decide := true) (disch := decide) only [↓Module.updPh_only,
    ↓Module.probeAbort_only, ↓only_ite, ↓only_self, ite_self])) only [↓only_foldl, ↓only_self])

theorem Module.pollStale_only (hS : [.regs] ⊆ S) :
    Only S m0 (m.pollStale) ↔ Only S m0 m := Only.step hS (by
  unfold Module.pollStale
  exact (only_foldl fun _ _ => by simp (disch := decide) only [↓Module.rdPut_only, ↓only_ite, ↓only_self,
    ite_self]).2 (Only.refl _ _))

theorem Module.fallbackActs_only {t : Nat} (hS : [.regs, .live, .good, .snap, .pend, .ctrs, .rc, .ph, .rl, .ep,
    .gr, .net, .bn] ⊆ S) :
    Only S m0 (m.fallbackActs t) ↔ Only S m0 m := Only.step hS (by
  unfold Module.fallbackActs
  (repeat' split) <;> simp (disch := (intros; (repeat' split) <;> simp (decide := true) (disch := decide) only
    [↓Module.probeHold_only, ↓Module.tsReport_only, ↓Module.groveEpoch_only, ↓Module.allOn_only,
    ↓Module.pollStale_only, ↓Module.epeDrop_only, ↓Module.battHold_only, ↓Module.updAbort_only, ↓only_ite,
    ↓only_self, ite_self])) only [↓only_foldl, ↓Module.probeHold_only, ↓Module.groveEpoch_only,
    ↓Module.allOn_only, ↓Module.pollStale_only, ↓Module.epeDrop_only, ↓Module.battHold_only,
    ↓Module.updAbort_only, ↓only_self])

theorem Module.taskFallback_only {t : Nat} (hS : [.regs, .live, .good, .snap, .pend, .ctrs, .rc, .sched, .falls,
    .ph, .rl, .ep, .gr, .net, .bn] ⊆ S) :
    Only S m0 (m.taskFallback t) ↔ Only S m0 m := Only.step hS (by
  unfold Module.taskFallback
  simp (disch := decide) only [↓Module.raise_only, ↓Module.updTask_falls_only, ↓Module.fallbackActs_only,
    ↓only_self])

theorem Module.fallNow_only (hS : [.regs, .live, .good, .snap, .pend, .ctrs, .rc, .sched, .falls, .ph, .rl, .ep,
    .gr, .net, .bn] ⊆ S) :
    Only S m0 (m.fallNow) ↔ Only S m0 m := Only.step hS (by
  unfold Module.fallNow
  exact (only_foldl fun _ _ => by simp (disch := decide) only [↓Module.taskFallback_only, ↓only_self]).2
    (Only.refl _ _))

theorem Module.taskDropped_only {t reason : Nat} (hS : [.regs, .live, .good, .snap, .pend, .ctrs, .rc, .sched,
    .falls, .ph, .rl, .ep, .gr, .net, .bn] ⊆ S) :
    Only S m0 (m.taskDropped t reason) ↔ Only S m0 m := Only.step hS (by
  unfold Module.taskDropped
  simp (disch := decide) only [↓Module.taskDrop_only, ↓Module.fallNow_only, ↓only_self])

theorem Module.taskPolicy_only {t : Nat} (hS : [.regs, .live, .good, .snap, .pend, .ctrs, .rc, .sched, .falls,
    .ph, .rl, .ep, .gr, .net, .bn] ⊆ S) :
    Only S m0 (m.taskPolicy t) ↔ Only S m0 m := Only.step hS (by
  unfold Module.taskPolicy
  simp (disch := decide) only [↓only_ite, ↓only_self]
  (repeat' split) <;> simp (disch := decide) only [↓Module.taskFallback_only, ↓Module.policyMove_only, ↓only_self])

theorem Module.policies_only (hS : [.regs, .live, .good, .snap, .pend, .ctrs, .rc, .sched, .falls, .ph, .rl,
    .ep, .gr, .net, .bn] ⊆ S) :
    Only S m0 (m.policies) ↔ Only S m0 m := Only.step hS (by
  unfold Module.policies
  simp (disch := (intros; simp (decide := true) (disch := decide) only [↓Module.taskPolicy_only,
    ↓Module.repack_only, ↓only_ite, ↓only_self, ite_self])) only [↓only_foldl, ↓Module.repack_only, ↓only_ite,
    ↓only_self, ite_self])

theorem Module.taskTake_only {t : Nat} {due : Bool} (hS : [.regs, .sched] ⊆ S) :
    Only S m0 (m.taskTake t due) ↔ Only S m0 m := Only.step hS (by
  unfold Module.taskTake
  (repeat' split) <;> simp (disch := decide) only [↓Module.taskMove_only, ↓only_self])

theorem Module.taskArm_only {t : Nat} (hS : [.regs, .sched] ⊆ S) :
    Only S m0 (m.taskArm t) ↔ Only S m0 m := Only.step hS (by
  unfold Module.taskArm
  simp (disch := simp) only [↓Module.updTask_only, ↓Module.taskTake_only, ↓only_ite, ↓only_self, ite_self])

theorem Module.abortAll_only {reason : Nat} {done : List Nat} (hS : [.regs, .sched, .ep] ⊆ S) :
    Only S m0 (m.abortAll reason done) ↔ Only S m0 m := Only.step hS (by
  unfold Module.abortAll
  exact (only_foldl fun _ _ => by simp (disch := decide) only [↓Module.taskAbort_only, ↓Module.epeDrop_only,
    ↓only_ite, ↓only_self, ite_self]).2 (Only.refl _ _))

theorem Module.schedStop_only {done : List Nat} (hS : [.regs, .sched, .ep] ⊆ S) :
    Only S m0 (m.schedStop done) ↔ Only S m0 m := Only.step hS (by
  unfold Module.schedStop
  simp (disch := (intros; simp (decide := true) (disch := simp) only [↓Module.updTask_only,
    ↓Module.abortAll_only, ↓Module.tsReport_only, ↓with_schedKeep_only, ↓only_ite, ↓only_self, ite_self])) only
    [↓only_foldl, ↓Module.abortAll_only, ↓with_schedKeep_only, ↓only_ite, ↓only_self, ite_self])

theorem Module.frameTime_only {done : List Nat} (hS : [.regs, .live, .snap, .pend, .rc, .sched, .ep] ⊆ S) :
    Only S m0 (m.frameTime done) ↔ Only S m0 m := Only.step hS (by
  unfold Module.frameTime
  simp (disch := decide) only [↓Module.updRc_only, ↓Module.setReg_only, ↓with_schedKeep_only, ↓only_ite, ↓only_self]
  (repeat' split) <;> simp (disch := decide) only [↓Module.raise_only, ↓Module.anchorNow_only,
    ↓Module.abortAll_only, ↓Module.count_only, ↓Module.setReg_only, ↓with_schedKeep_only, ↓only_self])

theorem Module.placeFrame_only (hS : [.regs, .live, .good, .snap, .pend, .ctrs, .rc, .sched, .falls, .ph, .rl,
    .ep, .gr, .net, .bn] ⊆ S) :
    Only S m0 (m.placeFrame) ↔ Only S m0 m := Only.step hS (by
  unfold Module.placeFrame
  simp (disch := (intros; simp (decide := true) (disch := decide) only [↓Module.cluGate_only,
    ↓Module.taskArm_only, ↓Module.policies_only, ↓Module.rotChange_only, ↓Module.boundary_only,
    ↓Module.cluWakeAll_only, ↓Module.rotRetry_only, ↓only_ite, ↓only_self, ite_self])) only [↓only_foldl,
    ↓Module.cluGate_only, ↓Module.policies_only, ↓Module.rotChange_only, ↓Module.boundary_only,
    ↓Module.cluWakeAll_only, ↓Module.rotRetry_only, ↓only_ite, ↓only_self, ite_self])

theorem Module.hwFrame_only (hS : [.regs, .live, .snap, .pend, .rc, .sched] ⊆ S) :
    Only S m0 (m.hwFrame) ↔ Only S m0 m := Only.step hS (by
  unfold Module.hwFrame
  split
  · exact (with_schedKeep_only (by decide)).2 (Only.refl _ _)
  · refine (Module.checkLoads_only (by decide)).2 ((with_sched_only (by decide) ?_).2 (Only.refl _ _))
    rw [List.map_map]
    rfl)

theorem Module.armFrame_only (hS : [.regs] ⊆ S) :
    Only S m0 (m.armFrame) ↔ Only S m0 m := Only.step hS (by
  unfold Module.armFrame
  simp (disch := decide) only [↓Module.setReg_only, ↓only_ite, ↓only_self, ite_self])

theorem Module.settingsFrame_only (hS : [.nfree, .regs, .live, .good, .snap, .pend, .ctrs, .rc, .sched, .ph,
    .rl, .adc, .tr] ⊆ S) :
    Only S m0 (m.settingsFrame) ↔ Only S m0 m := Only.step hS (by
  unfold Module.settingsFrame
  simp (disch := decide) only [↓Module.pullStep_only, ↓Module.truncSyncAll_only, ↓Module.syncFrame_only,
    ↓Module.boundary_only]
  exact (only_foldl fun _ _ => by simp (disch := decide) only [↓Module.ginApply_only, ↓Module.ginThr_only,
    ↓only_self]).2 (Only.refl _ _))

theorem Module.haltFrame_only (hS : [.sys, .regs, .live, .snap, .pend, .rc, .sched, .ph, .ep, .bt] ⊆ S) :
    Only S m0 (m.haltFrame) ↔ Only S m0 m := Only.step hS (by
  unfold Module.haltFrame
  (repeat' split) <;> simp (disch := decide) only [↓Module.fwMs_only, ↓Module.probeHold_only,
    ↓Module.fwHalt_only, ↓only_self])

theorem Module.groveFrame_only (hS : [.regs, .live, .snap, .pend, .gr, .bn] ⊆ S) :
    Only S m0 (m.groveFrame) ↔ Only S m0 m := Only.step hS (by
  unfold Module.groveFrame
  simp (disch := decide) only [↓Module.groveStart_only, ↓Module.canopyStart_only, ↓only_ite, ↓only_self, ite_self])

theorem Module.majorFrame_only {nv : NonVol} {done : List Nat} (hS : [.sys, .nfree, .regs, .live, .good, .snap,
    .pend, .ctrs, .rc, .sched, .falls, .ph, .rl, .adc, .cle, .tr, .ep, .gr, .xg, .fd, .bt, .th, .net, .bn, .mem]
    ⊆ S) :
    Only S m0 (m.majorFrame nv done).2 ↔ Only S m0 m := Only.step hS (by
  unfold Module.majorFrame
  simp (disch := decide) only [↓Module.netMs_only, ↓Module.battMs_only, ↓Module.groveFrame_only,
    ↓Module.placeFrame_only, ↓Module.frameTime_only, ↓Module.tbSlew_only, ↓Module.rectMs_only,
    ↓Module.armFrame_only, ↓Module.xingFrame_only, ↓Module.hwFrame_only, ↓Module.autoRelease_only,
    ↓Module.schedStop_only, ↓Module.settingsFrame_only, ↓Module.haltFrame_only, ↓Module.mramFlush_only,
    ↓only_self])

theorem Module.epeNext_only (hS : [.sched] ⊆ S) :
    Only S m0 (m.epeNext) ↔ Only S m0 m := Only.step hS (by
  unfold Module.epeNext
  simp (disch := decide) only [↓with_schedKeep_only, ↓only_ite, ↓only_self, ite_self])

theorem Module.taskStart_only {t jit : Nat} {gin : List Int} {acok late : Nat} (hS : [.nfree, .regs, .live,
    .good, .snap, .pend, .ctrs, .rc, .sched, .ph, .rl, .adc, .tr, .ep, .xg, .net, .mem] ⊆ S) :
    Only S m0 (m.taskStart t jit gin acok late) ↔ Only S m0 m := Only.step hS (by
  unfold Module.taskStart
  simp (disch := simp) only [↓Module.groveSend_only, ↓Module.updTask_only, ↓Module.canopySend_only,
    ↓Module.taskTake_only, ↓Module.epeNext_only, ↓Module.setReg_only, ↓Module.epeRequest_only,
    ↓Module.localClear_only, ↓only_ite, ↓only_self, ite_self])

theorem Module.shedRail_only {r : Nat} (hS : [.regs, .ph, .rl] ⊆ S) :
    Only S m0 (m.shedRail r) ↔ Only S m0 m := Only.step hS (by
  unfold Module.shedRail
  (repeat' split) <;> simp (disch := decide) only [↓Module.put_only, ↓Module.updRl_only, ↓Module.updPh_only,
    ↓only_self])

theorem Module.sensePhase_only {n : Nat} {g : Int} (hS : [.regs, .live, .good, .snap, .pend, .ctrs, .rc, .ph] ⊆
    S) :
    Only S m0 (m.sensePhase n g) ↔ Only S m0 m := Only.step hS (by
  unfold Module.sensePhase
  simp (disch := decide) only [↓Module.raise_only, ↓Module.put_only, ↓Module.updPh_only, ↓Module.senseFail_only,
    ↓Module.setPh_only, ↓Module.usePair_only, ↓only_ite, ↓only_self, ite_self])

theorem Module.senseCheck_only {obs : List (Nat × Int × Int)} (hS : [.regs, .live, .good, .snap, .pend, .ctrs,
    .rc, .ph] ⊆ S) :
    Only S m0 (m.senseCheck obs) ↔ Only S m0 m := Only.step hS (by
  unfold Module.senseCheck
  exact (only_foldl fun _ _ => by simp (disch := decide) only [↓Module.sensePhase_only, ↓only_self]).2
    (Only.refl _ _))

theorem Module.thermCommit_only {obs : List (Nat × Int × Int)} (hS : [.regs, .th] ⊆ S) :
    Only S m0 (m.thermCommit obs) ↔ Only S m0 m := Only.step hS (by
  unfold Module.thermCommit
  simp (disch := (intros; simp (decide := true) (disch := decide) only [↓Module.thermRise_only, ↓only_ite,
    ↓only_self, ite_self])) only [↓only_foldl, ↓only_ite, ↓only_self, ite_self])

theorem Module.taskActs_only {r : TaskRun} (hS : [.nfree, .regs, .live, .good, .snap, .pend, .ctrs, .rc, .ph,
    .rl, .ep, .cp, .gr, .xg, .sq, .bt, .th, .twc] ⊆ S) :
    Only S m0 (m.taskActs r) ↔ Only S m0 m := Only.step hS (by
  unfold Module.taskActs
  (repeat' split) <;> simp (disch := (intros; (repeat' split) <;> simp (decide := true) (disch := decide) only
    [↓Module.xingSolved_only, ↓Module.shareTrim_only, ↓Module.senseCheck_only, ↓Module.groveCommit_only,
    ↓Module.epeCommit_only, ↓Module.xingBatt_only, ↓Module.battTick_only, ↓Module.shedRail_only,
    ↓Module.thermCommit_only, ↓only_ite, ↓only_self, ite_self])) only [↓only_foldl, ↓Module.xingSolved_only,
    ↓Module.shareTrim_only, ↓Module.senseCheck_only, ↓Module.groveCommit_only, ↓Module.epeCommit_only,
    ↓Module.xingBatt_only, ↓Module.battTick_only, ↓Module.thermCommit_only, ↓only_self])

theorem Module.taskStandIn_only {t : Nat} (hS : [.regs, .ph, .rl, .ep] ⊆ S) :
    Only S m0 (m.taskStandIn t) ↔ Only S m0 m := Only.step hS (by
  unfold Module.taskStandIn
  (repeat' split) <;> simp (disch := decide) only [↓Module.pollStale_only, ↓Module.allOn_only,
    ↓Module.epeDrop_only, ↓only_self])

theorem Module.bufWrites_only {nv : NonVol} {x : Nat} {buf : List Staged} (hS : [.sys, .nfree, .regs, .live,
    .good, .snap, .pend, .ctrs, .rc, .out, .sched, .falls, .ep, .gr, .xg, .net, .twc, .mem] ⊆ S) :
    Only S m0 (m.bufWrites nv x buf).2 ↔ Only S m0 m := Only.step hS (by
  unfold Module.bufWrites
  exact (only_foldl_pair fun _ _ => (Module.memAccess_only (by decide)).2 (Only.refl _ _)).2 (Only.refl _ _))

theorem Module.taskLate_only {t : Nat} (hS : [.regs, .live, .good, .snap, .pend, .ctrs, .rc, .sched, .falls,
    .ph, .rl, .ep, .gr, .net, .bn] ⊆ S) :
    Only S m0 (m.taskLate t) ↔ Only S m0 m := Only.step hS (by
  unfold Module.taskLate
  simp (disch := decide) only [↓Module.taskAbort_only, ↓Module.taskDropped_only, ↓Module.epeDrop_only,
    ↓Module.taskTake_only, ↓only_ite, ↓only_self, ite_self])

end

end Sys2Proof.Machine
end

section
/-! The footprints of the commands. -/

namespace Sys2Proof.Machine

/-- A command goes on with a state whose queue and non-volatile part are as before and whose module differs in parts of
`S` alone. -/
def Touches (S : List Part) (s : State) (o : Host.Outcome State Fault Refusal) : Prop :=
  ∀ t, o = .next t → t.pending = s.pending ∧ t.nv = s.nv ∧ Only S s.m t.m

/-- The same for a command that may also write the non-volatile part. -/
def TouchesNv (S : List Part) (s : State) (o : Host.Outcome State Fault Refusal) : Prop :=
  ∀ t, o = .next t → t.pending = s.pending ∧ Only S s.m t.m

theorem Only.mono {R S : List Part} {a b : Module} (hsub : R ⊆ S) (h : Only R a b) : Only S a b :=
  (Only.step hsub h).2 (Only.refl _ _)

section
variable {R S : List Part} {s : State} {o : Host.Outcome State Fault Refusal} {f : Module → Module}
  {g : NonVol → Module → NonVol × Module} {i : Nat} {n : Nat → Nat}

theorem Touches.mono (hsub : R ⊆ S) (h : Touches R s o) : Touches S s o := fun t ht => by
  obtain ⟨hq, hnv, hm⟩ := h t ht
  exact ⟨hq, hnv, hm.mono hsub⟩

theorem TouchesNv.mono (hsub : R ⊆ S) (h : TouchesNv R s o) : TouchesNv S s o := fun t ht => by
  obtain ⟨hq, hm⟩ := h t ht
  exact ⟨hq, hm.mono hsub⟩

theorem Touches.nv (h : Touches S s o) : TouchesNv S s o := fun t ht => by
  obtain ⟨hq, -, hm⟩ := h t ht
  exact ⟨hq, hm⟩

theorem act_touches (hout : [.out] ⊆ S) (h : ∀ m, Only S m (f m)) : Touches S s (act s f) := by
  rintro t ⟨⟩
  exact ⟨rfl, rfl, (Only.step (List.Subset.refl S) (h _)).2 ((with_out_only hout).2 (Only.refl _ _))⟩

theorem actLive_touches (hout : [.out] ⊆ S) (h : ∀ m, Only S m (f m)) : Touches S s (actLive s f) :=
  act_touches hout fun m => by
    split
    · exact h m
    · exact Only.refl _ _

theorem actSupply_touches (hout : [.out] ⊆ S) (h : ∀ m, Only S m (f m)) : Touches S s (actSupply s f) :=
  act_touches hout fun m => by
    split
    · exact h m
    · exact Only.refl _ _

theorem actAt_touches (hout : [.out] ⊆ S) (h : ∀ m, Only S m (f m)) : Touches S s (actAt i n s f) :=
  actLive_touches hout fun m => by
    split
    · exact h m
    · exact Only.refl _ _

theorem act2_touches (hout : [.out] ⊆ S) (h : ∀ nv m, Only S m (g nv m).2) : TouchesNv S s (act2 s g) := by
  rintro t ⟨⟩
  exact ⟨rfl, (Only.step (List.Subset.refl S) (h _ _)).2 ((with_out_only hout).2 (Only.refl _ _))⟩

theorem act2Live_touches (hout : [.out] ⊆ S) (h : ∀ nv m, Only S m (g nv m).2) : TouchesNv S s (act2Live s g) :=
  act2_touches hout fun nv m => by
    split
    · exact h nv m
    · exact Only.refl _ _

end

section
variable {s : State}

theorem execLoopSample_touches {r : Nat} {x : Sample} : Touches [.nfree, .regs, .live, .good, .snap, .pend,
    .ctrs, .rc, .out, .ph, .rl, .adc, .tr, .bt, .mem] s (execLoopSample r x s) := by
  unfold execLoopSample
  refine actAt_touches (by decide) fun m => ?_
  simp (disch := decide) only [↓Module.loopSample_only, ↓only_self]

theorem execDutyRelease_touches {r : Nat} {t : Instant} : Touches [.regs, .out, .ph, .rl] s (execDutyRelease r t
    s) := by
  unfold execDutyRelease
  refine actAt_touches (by decide) fun m => ?_
  simp (disch := decide) only [↓Module.dutyRelease_only, ↓Module.arrive_only, ↓only_self]

theorem execRailPeriodBoundary_touches {r : Nat} {t : Instant} : Touches [.regs, .live, .snap, .pend, .rc, .out,
    .ph, .rl] s (execRailPeriodBoundary r t s) := by
  unfold execRailPeriodBoundary
  refine actAt_touches (by decide) fun m => ?_
  simp (disch := decide) only [↓Module.arrive_only, ↓Module.railPeriod_only, ↓only_self]

theorem execTrunc_touches {r : Nat} {x : Int} {t : Instant} : Touches [.nfree, .regs, .out, .ph, .rl, .adc, .tr]
    s (execTrunc r x t s) := by
  unfold execTrunc
  refine actAt_touches (by decide) fun m => ?_
  simp (disch := decide) only [↓Module.arrive_only, ↓Module.truncOn_only, ↓only_self]

theorem execTruncExit_touches {r : Nat} {x : Int} {t : Instant} : Touches [.nfree, .regs, .out, .ph, .rl, .adc,
    .tr] s (execTruncExit r x t s) := by
  unfold execTruncExit
  refine actAt_touches (by decide) fun m => ?_
  simp (disch := decide) only [↓Module.arrive_only, ↓Module.truncOff_only, ↓only_self]

theorem execOv_touches {r cyc : Nat} : Touches [.nfree, .regs, .live, .good, .snap, .pend, .ctrs, .rc, .out,
    .ph, .rl, .adc, .tr] s (execOv r cyc s) := by
  unfold execOv
  refine actAt_touches (by decide) fun m => ?_
  simp (disch := decide) only [↓Module.overVolt_only, ↓Module.arriveAt_only, ↓only_self]

theorem execCbcTrip_touches {n : Nat} {x : Crossing} {t : Instant} : Touches [.nfree, .regs, .live, .good,
    .snap, .pend, .ctrs, .rc, .out, .ph, .rl, .tr] s (execCbcTrip n x t s) := by
  unfold execCbcTrip
  refine actAt_touches (by decide) fun m => ?_
  simp (disch := decide) only [↓Module.arrive_only, ↓Module.cbcTrip_only, ↓only_self]

theorem execNegLimitTrip_touches {n : Nat} {x : Crossing} {t : Instant} : Touches [.nfree, .regs, .live, .good,
    .snap, .pend, .ctrs, .rc, .out, .ph, .rl, .tr] s (execNegLimitTrip n x t s) := by
  unfold execNegLimitTrip
  refine actAt_touches (by decide) fun m => ?_
  simp (disch := decide) only [↓Module.negTrip_only, ↓Module.arrive_only, ↓only_self]

theorem execUvComparatorLow_touches {r : Nat} {x : Int} : Touches [.out, .rl] s (execUvComparatorLow r x s) :=
    by
  unfold execUvComparatorLow
  refine actAt_touches (by decide) fun m => ?_
  simp (disch := decide) only [↓Module.uvFalls_only, ↓only_self]

theorem execUvComparatorHigh_touches {r : Nat} {x : Int} : Touches [.regs, .out, .rl] s (execUvComparatorHigh r
    x s) := by
  unfold execUvComparatorHigh
  refine actAt_touches (by decide) fun m => ?_
  simp (disch := decide) only [↓Module.uvRises_only, ↓only_self]

theorem execUv_touches {r cyc : Nat} : Touches [.nfree, .regs, .live, .good, .snap, .pend, .ctrs, .rc, .out,
    .ph, .rl, .adc, .tr] s (execUv r cyc s) := by
  unfold execUv
  refine actAt_touches (by decide) fun m => ?_
  simp (disch := decide) only [↓Module.underVolt_only, ↓Module.arriveAt_only, ↓only_self]

theorem execDtAdapt_touches {r mean : Nat} : Touches [.regs, .out, .rl] s (execDtAdapt r mean s) := by
  unfold execDtAdapt
  refine actAt_touches (by decide) fun m => ?_
  simp (disch := decide) only [↓Module.dtAdapt_only, ↓only_self]

theorem execDropReady_touches {r : Nat} : Touches [.regs, .out] s (execDropReady r s) := by
  unfold execDropReady
  refine actAt_touches (by decide) fun m => ?_
  simp (disch := decide) only [↓Module.dropReady_only, ↓only_self]

theorem execSsStall_touches {r cyc : Nat} : Touches [.nfree, .regs, .live, .good, .snap, .pend, .ctrs, .rc,
    .out, .ph, .rl, .adc, .tr] s (execSsStall r cyc s) := by
  unfold execSsStall
  refine actAt_touches (by decide) fun m => ?_
  simp (disch := decide) only [↓Module.ssStall_only, ↓Module.arriveAt_only, ↓only_self]

theorem execSsCbcShort_touches {r cyc : Nat} : Touches [.nfree, .regs, .live, .good, .snap, .pend, .ctrs, .rc,
    .out, .ph, .rl, .adc, .tr] s (execSsCbcShort r cyc s) := by
  unfold execSsCbcShort
  refine actAt_touches (by decide) fun m => ?_
  simp (disch := decide) only [↓Module.ssCbc_only, ↓Module.arriveAt_only, ↓only_self]

theorem execShortRetry_touches {r : Nat} : Touches [.nfree, .regs, .live, .snap, .pend, .rc, .out, .ph, .rl,
    .adc, .tr] s (execShortRetry r s) := by
  unfold execShortRetry
  refine actAt_touches (by decide) fun m => ?_
  simp (disch := decide) only [↓Module.shortRetry_only, ↓only_self]

theorem execProbeStart_touches {n : Nat} : Touches [.regs, .out, .ph, .rl] s (execProbeStart n s) := by
  unfold execProbeStart
  refine actAt_touches (by decide) fun m => ?_
  simp (disch := decide) only [↓Module.probeStart_only, ↓only_self]

theorem execProbeDone_touches {n : Nat} : Touches [.nfree, .regs, .live, .snap, .pend, .rc, .out, .ph] s
    (execProbeDone n s) := by
  unfold execProbeDone
  refine actAt_touches (by decide) fun m => ?_
  simp (disch := decide) only [↓Module.probeDone_only, ↓only_self]

theorem execGinHi_touches {i : Nat} {x : Int} {t : Instant} : Touches [.nfree, .regs, .out, .ph, .rl, .adc, .tr]
    s (execGinHi i x t s) := by
  unfold execGinHi
  refine actLive_touches (by decide) fun m => ?_
  simp (disch := decide) only [↓Module.arrive_only, ↓Module.ginHi_only, ↓only_ite, ↓only_self, ite_self]

theorem execGinHiEnd_touches {i : Nat} {x : Int} {t : Instant} : Touches [.nfree, .regs, .out, .ph, .rl, .adc,
    .tr] s (execGinHiEnd i x t s) := by
  unfold execGinHiEnd
  refine actLive_touches (by decide) fun m => ?_
  simp (disch := decide) only [↓Module.arrive_only, ↓Module.ginHiEnd_only, ↓only_self]

theorem execGinLo_touches {i : Nat} {x : Int} {cyc : Nat} : Touches [.nfree, .regs, .out, .tr] s (execGinLo i x
    cyc s) := by
  unfold execGinLo
  refine actLive_touches (by decide) fun m => ?_
  simp (disch := decide) only [↓Module.ginLo_only, ↓Module.arriveAt_only, ↓only_ite, ↓only_self, ite_self]

theorem execRollSlotEnd_touches {off gain : Int} {span : Nat} : Touches [.regs, .live, .snap, .pend, .rc, .out,
    .adc] s (execRollSlotEnd off gain span s) := by
  unfold execRollSlotEnd
  refine actLive_touches (by decide) fun m => ?_
  simp (disch := decide) only [↓Module.rollSlotEnd_only, ↓only_ite, ↓only_self, ite_self]

theorem execRefCalDone_touches {off gain : Int} {spareOk : Bool} : Touches [.regs, .live, .snap, .pend, .rc,
    .out, .ph, .rl, .adc] s (execRefCalDone off gain spareOk s) := by
  unfold execRefCalDone
  refine actLive_touches (by decide) fun m => ?_
  simp (disch := decide) only [↓Module.refCalDone_only, ↓only_self]

theorem execMonReading_touches {i val : Nat} : Touches [.regs, .live, .good, .snap, .pend, .ctrs, .rc, .out,
    .adc] s (execMonReading i val s) := by
  unfold execMonReading
  refine actLive_touches (by decide) fun m => ?_
  simp (disch := decide) only [↓Module.monReading_only, ↓only_ite, ↓only_self, ite_self]

theorem execClusterReady_touches {c : Nat} : Touches [.regs, .live, .snap, .pend, .rc, .out, .sched] s
    (execClusterReady c s) := by
  unfold execClusterReady
  refine actLive_touches (by decide) fun m => ?_
  simp (disch := decide) only [↓Module.cluReady_only, ↓only_self]

theorem execClusterIsolated_touches {c : Nat} : Touches [.out, .sched] s (execClusterIsolated c s) := by
  unfold execClusterIsolated
  refine actLive_touches (by decide) fun m => ?_
  simp (disch := decide) only [↓Module.bistIsolate_only, ↓only_self]

theorem execBistDone_touches {c : Nat} {pass : Bool} : Touches [.regs, .live, .snap, .pend, .rc, .out, .sched,
    .rings] s (execBistDone c pass s) := by
  unfold execBistDone
  refine actLive_touches (by decide) fun m => ?_
  simp (disch := decide) only [↓Module.bistEnd_only, ↓only_self]

theorem execRotTest_touches : Touches [.regs, .live, .snap, .pend, .rc, .out, .sched] s (execRotTest s) := by
  unfold execRotTest
  refine actLive_touches (by decide) fun m => ?_
  simp (disch := decide) only [↓Module.rotExpire_only, ↓only_self]

theorem execExcluded_touches {i : Nat} : Touches [.regs, .live, .good, .snap, .pend, .ctrs, .rc, .out, .th] s
    (execExcluded i s) := by
  unfold execExcluded
  refine actAt_touches (by decide) fun m => ?_
  simp (disch := decide) only [↓Module.ringExclude_only, ↓only_self]

theorem execPollRound_touches {p : Nat} : Touches [.regs, .live, .snap, .pend, .out, .twc] s (execPollRound p s)
    := by
  unfold execPollRound
  refine actAt_touches (by decide) fun m => ?_
  simp (disch := decide) only [↓Module.pollRound_only, ↓only_self]

theorem execTwcTransactionStart_touches {p : Nat} : Touches [.regs, .out, .twc] s (execTwcTransactionStart p s)
    := by
  unfold execTwcTransactionStart
  refine actAt_touches (by decide) fun m => ?_
  simp (disch := decide) only [↓Module.twcStart_only, ↓only_self]

theorem execArbBackoffEnd_touches {p : Nat} : Touches [.out, .twc] s (execArbBackoffEnd p s) := by
  unfold execArbBackoffEnd
  refine actAt_touches (by decide) fun m => ?_
  simp (disch := decide) only [↓Module.twcRetry_only, ↓only_self]

theorem execTwcStretchTmo_touches {p : Nat} : Touches [.regs, .live, .snap, .pend, .out, .twc] s
    (execTwcStretchTmo p s) := by
  unfold execTwcStretchTmo
  refine actAt_touches (by decide) fun m => ?_
  simp (disch := decide) only [↓Module.twcStretch_only, ↓only_self]

theorem execBusStuck_touches {p : Nat} : Touches [.regs, .live, .snap, .pend, .rc, .out, .twc] s (execBusStuck p
    s) := by
  unfold execBusStuck
  refine actAt_touches (by decide) fun m => ?_
  simp (disch := decide) only [↓Module.twcStuck_only, ↓only_self]

theorem execBusRecoveryRetry_touches {p : Nat} {free : Bool} : Touches [.out, .twc] s (execBusRecoveryRetry p
    free s) := by
  unfold execBusRecoveryRetry
  refine actAt_touches (by decide) fun m => ?_
  simp (disch := decide) only [↓Module.twcRecover_only, ↓only_self]

theorem execAlert_touches {p addr : Nat} : Touches [.regs, .out, .twc] s (execAlert p addr s) := by
  unfold execAlert
  refine actAt_touches (by decide) fun m => ?_
  simp (disch := decide) only [↓Module.twcAlert_only, ↓only_self]

theorem execSolveDone_touches : Touches [.out, .ep] s (execSolveDone s) := by
  unfold execSolveDone
  refine actLive_touches (by decide) fun m => ?_
  simp (disch := decide) only [↓Module.epeSolved_only, ↓only_self]

theorem execWake_touches {slot : Nat} : Touches [.regs, .out, .ep] s (execWake slot s) := by
  unfold execWake
  refine actLive_touches (by decide) fun m => ?_
  simp (disch := decide) only [↓Module.rectSilent_only, ↓only_self]

theorem execDroopWake_touches {gin : List Int} : Touches [.nfree, .regs, .live, .good, .snap, .pend, .ctrs, .rc,
    .out, .ph, .rl, .adc, .tr, .ep, .twc] s (execDroopWake gin s) := by
  unfold execDroopWake
  refine actLive_touches (by decide) fun m => ?_
  simp (disch := decide) only [↓Module.vbusTake_only, ↓Module.droopWake_only, ↓only_ite, ↓only_self, ite_self]

theorem execWearAccumulate_touches : Touches [.regs, .out, .ep] s (execWearAccumulate s) := by
  unfold execWearAccumulate
  refine actLive_touches (by decide) fun m => ?_
  simp (disch := decide) only [↓Module.wearTick_only, ↓only_self]

theorem execWearSave_touches : TouchesNv [.out, .mem] s (execWearSave s) := by
  unfold execWearSave
  refine act2Live_touches (by decide) fun nv m => ?_
  simp (disch := decide) only [↓Module.nvWrite_only, ↓only_self]

theorem execTwcTransactionEnd_touches {p : Nat} {res : TwcRes} : Touches [.nfree, .regs, .live, .snap, .pend,
    .out, .ep, .twc] s (execTwcTransactionEnd p res s) := by
  unfold execTwcTransactionEnd
  refine actAt_touches (by decide) fun m => ?_
  dsimp only
  (repeat' split) <;> simp (disch := decide) only [↓Module.rectSeen_only, ↓Module.twcEnd_only, ↓only_self]

theorem execCapEstimate_touches {gin : List Int} : Touches [.nfree, .regs, .live, .good, .snap, .pend, .ctrs,
    .rc, .out, .ph, .rl, .adc, .tr, .cp] s (execCapEstimate gin s) := by
  unfold execCapEstimate
  refine actLive_touches (by decide) fun m => ?_
  simp (disch := decide) only [↓Module.capEstimate_only, ↓only_self]

theorem execAssistStep_touches {mean : Nat} {gin : List Int} : Touches [.nfree, .regs, .live, .good, .snap,
    .pend, .ctrs, .rc, .out, .ph, .rl, .adc, .tr, .cp] s (execAssistStep mean gin s) := by
  unfold execAssistStep
  refine actLive_touches (by decide) fun m => ?_
  simp (disch := decide) only [↓Module.assistStep_only, ↓only_self]

theorem execHardLimit_touches : Touches [.regs, .out, .twc] s (execHardLimit s) := by
  unfold execHardLimit
  refine actLive_touches (by decide) fun m => ?_
  simp (disch := decide) only [↓Module.hardLimit_only, ↓only_self]

theorem execReleased_touches : Touches [.regs, .out, .twc] s (execReleased s) := by
  unfold execReleased
  refine actLive_touches (by decide) fun m => ?_
  simp (disch := decide) only [↓Module.limitRelease_only, ↓only_self]

theorem execSustained_touches : Touches [.regs, .live, .good, .snap, .pend, .ctrs, .rc, .out] s (execSustained
    s) := by
  unfold execSustained
  refine actLive_touches (by decide) fun m => ?_
  simp (disch := decide) only [↓Module.sustained_only, ↓only_self]

theorem execSeqTick_touches {acok : Nat} : Touches [.nfree, .regs, .live, .good, .snap, .pend, .defer, .ctrs,
    .rc, .out, .ph, .rl, .adc, .cle, .tr, .sq, .pin] s (execSeqTick acok s) := by
  unfold execSeqTick
  refine actLive_touches (by decide) fun m => ?_
  simp (disch := decide) only [↓Module.seqTick_only, ↓only_self]

theorem execSeqWaitDone_touches : Touches [.regs, .out, .sq] s (execSeqWaitDone s) := by
  unfold execSeqWaitDone
  refine actLive_touches (by decide) fun m => ?_
  simp (disch := decide) only [↓Module.seqWaitDone_only, ↓only_self]

theorem execStepFault_touches : Touches [.nfree, .regs, .live, .snap, .pend, .defer, .rc, .out, .ph, .rl, .adc,
    .cle, .tr, .sq, .pin] s (execStepFault s) := by
  unfold execStepFault
  refine actLive_touches (by decide) fun m => ?_
  simp (disch := decide) only [↓Module.seqTimeout_only, ↓only_self]

theorem execSeqRetry_touches : Touches [.nfree, .regs, .live, .snap, .pend, .defer, .rc, .out, .ph, .rl, .adc,
    .cle, .tr, .sq, .pin] s (execSeqRetry s) := by
  unfold execSeqRetry
  refine actLive_touches (by decide) fun m => ?_
  simp (disch := decide) only [↓Module.seqRetry_only, ↓only_self]

theorem execDownLead_touches : Touches [.nfree, .regs, .live, .good, .snap, .pend, .defer, .ctrs, .rc, .out,
    .ph, .rl, .adc, .cle, .tr, .sq, .pin] s (execDownLead s) := by
  unfold execDownLead
  refine actLive_touches (by decide) fun m => ?_
  simp (disch := decide) only [↓Module.seqLead_only, ↓only_self]

theorem execSeqMinOff_touches : Touches [.nfree, .regs, .live, .good, .snap, .pend, .defer, .ctrs, .rc, .out,
    .ph, .rl, .adc, .cle, .tr, .sq, .pin] s (execSeqMinOff s) := by
  unfold execSeqMinOff
  refine actLive_touches (by decide) fun m => ?_
  simp (disch := decide) only [↓Module.seqRested_only, ↓only_self]

theorem execRailFail_touches {id : Nat} : Touches [.nfree, .regs, .live, .snap, .pend, .defer, .rc, .out, .ph,
    .rl, .adc, .cle, .tr, .sq, .pin] s (execRailFail id s) := by
  unfold execRailFail
  refine actLive_touches (by decide) fun m => ?_
  simp (disch := decide) only [↓Module.seqRailFail_only, ↓only_self]

theorem execRailPgDeglitch_touches {id : Nat} {level : Bool} : Touches [.nfree, .regs, .live, .good, .snap,
    .pend, .defer, .ctrs, .rc, .out, .ph, .rl, .adc, .cle, .tr, .sq, .pin] s (execRailPgDeglitch id level s) :=
    by
  unfold execRailPgDeglitch
  refine actLive_touches (by decide) fun m => ?_
  simp (disch := decide) only [↓Module.seqDeglitch_only, ↓only_self]

theorem execWdiKick_touches : Touches [.regs, .live, .good, .snap, .pend, .ctrs, .rc, .out, .pin] s (execWdiKick
    s) := by
  unfold execWdiKick
  refine actLive_touches (by decide) fun m => ?_
  simp (disch := decide) only [↓Module.wdiEdge_only, ↓only_self]

theorem execWinMinEnd_touches : Touches [.regs, .out] s (execWinMinEnd s) := by
  unfold execWinMinEnd
  refine actLive_touches (by decide) fun m => ?_
  simp (disch := decide) only [↓Module.wdOpens_only, ↓only_self]

theorem execExpired_touches : Touches [.regs, .live, .good, .snap, .pend, .ctrs, .rc, .out, .pin] s (execExpired
    s) := by
  unfold execExpired
  refine actLive_touches (by decide) fun m => ?_
  simp (disch := decide) only [↓Module.wdElapsed_only, ↓only_self]

theorem execHostRstEnd_touches : Touches [.out, .pin] s (execHostRstEnd s) := by
  unfold execHostRstEnd
  refine actLive_touches (by decide) fun m => ?_
  simp (disch := decide) only [↓Module.wdPulseEnd_only, ↓only_self]

theorem execFeedDetect_touches {cyc : Nat} {gin : List Int} : Touches [.nfree, .regs, .live, .good, .snap,
    .pend, .ctrs, .rc, .out, .ph, .rl, .adc, .tr, .ep, .cp, .xg, .bt] s (execFeedDetect cyc gin s) := by
  unfold execFeedDetect
  refine actLive_touches (by decide) fun m => ?_
  simp (disch := decide) only [↓Module.xingDetect_only, ↓Module.xingVbus_only, ↓only_ite, ↓only_self, ite_self]

theorem execSlopeDetect_touches {cyc : Nat} {gin : List Int} : Touches [.nfree, .regs, .live, .good, .snap,
    .pend, .ctrs, .rc, .out, .ph, .rl, .adc, .tr, .ep, .cp, .xg, .bt] s (execSlopeDetect cyc gin s) := by
  unfold execSlopeDetect
  refine actLive_touches (by decide) fun m => ?_
  simp (disch := decide) only [↓Module.xingDetect_only, ↓Module.xingVbus_only, ↓only_ite, ↓only_self, ite_self]

theorem execAcokDetect_touches {cyc : Nat} {gin : List Int} : Touches [.nfree, .regs, .live, .good, .snap,
    .pend, .ctrs, .rc, .out, .ph, .rl, .adc, .tr, .ep, .cp, .xg, .bt] s (execAcokDetect cyc gin s) := by
  unfold execAcokDetect
  refine actLive_touches (by decide) fun m => ?_
  simp (disch := decide) only [↓Module.xingDetect_only, ↓Module.xingVbus_only, ↓only_ite, ↓only_self, ite_self]

theorem execFull_touches {tx : Nat} : Touches [.regs, .out, .xg] s (execFull tx s) := by
  unfold execFull
  refine actLive_touches (by decide) fun m => ?_
  simp (disch := decide) only [↓Module.xingFull_only, ↓only_self]

theorem execBusLoopSample_touches {gin : List Int} : Touches [.nfree, .regs, .live, .good, .snap, .pend, .ctrs,
    .rc, .out, .ph, .rl, .adc, .tr, .xg] s (execBusLoopSample gin s) := by
  unfold execBusLoopSample
  refine actLive_touches (by decide) fun m => ?_
  simp (disch := decide) only [↓Module.busSample_only, ↓only_self]

theorem execStringShedResume_touches : Touches [.out, .rl] s (execStringShedResume s) := by
  unfold execStringShedResume
  refine actLive_touches (by decide) fun m => ?_
  simp (disch := decide) only [↓Module.xingShed_only, ↓only_self]

theorem execInGoodChange_touches {acok : Nat} : Touches [.regs, .live, .snap, .pend, .out, .xg] s
    (execInGoodChange acok s) := by
  unfold execInGoodChange
  refine actLive_touches (by decide) fun m => ?_
  simp (disch := decide) only [↓Module.inGoodSee_only, ↓only_self]

theorem execReturning_touches : Touches [.regs, .live, .snap, .pend, .out, .ep, .xg, .twc] s (execReturning s)
    := by
  unfold execReturning
  refine actLive_touches (by decide) fun m => ?_
  simp (disch := decide) only [↓Module.xingQualified_only, ↓only_self]

theorem execCutoffExit_touches : Touches [.regs, .live, .snap, .pend, .out, .rl, .sq] s (execCutoffExit s) := by
  unfold execCutoffExit
  refine actLive_touches (by decide) fun m => ?_
  simp (disch := decide) only [↓Module.xingCutoffExit_only, ↓only_self]

theorem execFeedInsDelay_touches {c : Nat} : Touches [.regs, .out, .fd] s (execFeedInsDelay c s) := by
  unfold execFeedInsDelay
  refine actAt_touches (by decide) fun m => ?_
  simp (disch := decide) only [↓Module.fdInserted_only, ↓only_self]

theorem execFeedExcursion_touches {c : Nat} {hi : Bool} : Touches [.regs, .out, .fd] s (execFeedExcursion c hi
    s) := by
  unfold execFeedExcursion
  refine actAt_touches (by decide) fun m => ?_
  simp (disch := decide) only [↓Module.fdExcursion_only, ↓only_self]

theorem execFeedOn_touches {c : Nat} : Touches [.regs, .out, .fd] s (execFeedOn c s) := by
  unfold execFeedOn
  refine actAt_touches (by decide) fun m => ?_
  simp (disch := decide) only [↓Module.fdOn_only, ↓only_self]

theorem execFeedSample_touches {c vin vout : Nat} {vs vgs : Int} : Touches [.nfree, .regs, .live, .good, .snap,
    .pend, .ctrs, .rc, .out, .fd] s (execFeedSample c vin vout vs vgs s) := by
  unfold execFeedSample
  refine actAt_touches (by decide) fun m => ?_
  simp (disch := decide) only [↓Module.fdSample_only, ↓only_self]

theorem execFastTrip_touches {c : Nat} : Touches [.regs, .live, .good, .snap, .pend, .ctrs, .rc, .out, .fd] s
    (execFastTrip c s) := by
  unfold execFastTrip
  refine actAt_touches (by decide) fun m => ?_
  simp (disch := decide) only [↓Module.fdFast_only, ↓only_self]

theorem execFeedRetry_touches {c : Nat} : Touches [.regs, .out, .fd] s (execFeedRetry c s) := by
  unfold execFeedRetry
  refine actAt_touches (by decide) fun m => ?_
  simp (disch := decide) only [↓Module.fdRetry_only, ↓only_self]

theorem execFeedConduct_touches {c : Nat} : Touches [.regs, .out, .fd] s (execFeedConduct c s) := by
  unfold execFeedConduct
  refine actAt_touches (by decide) fun m => ?_
  simp (disch := decide) only [↓Module.fdConduct_only, ↓only_self]

theorem execReverse_touches {c : Nat} : Touches [.regs, .out, .fd] s (execReverse c s) := by
  unfold execReverse
  refine actAt_touches (by decide) fun m => ?_
  simp (disch := decide) only [↓Module.fdReverse_only, ↓only_self]

theorem execDamaged_touches {c : Nat} : Touches [.regs, .live, .snap, .pend, .rc, .out, .fd] s (execDamaged c s)
    := by
  unfold execDamaged
  refine actAt_touches (by decide) fun m => ?_
  simp (disch := decide) only [↓Module.fdDamaged_only, ↓only_self]

theorem execNoConduct_touches {c : Nat} : Touches [.regs, .live, .snap, .pend, .rc, .out, .fd] s (execNoConduct
    c s) := by
  unfold execNoConduct
  refine actAt_touches (by decide) fun m => ?_
  simp (disch := decide) only [↓Module.fdNoConduct_only, ↓only_self]

theorem execDegraded_touches {c : Nat} : Touches [.regs, .live, .snap, .pend, .rc, .out, .fd] s (execDegraded c
    s) := by
  unfold execDegraded
  refine actAt_touches (by decide) fun m => ?_
  simp (disch := decide) only [↓Module.fdDegraded_only, ↓only_self]

theorem execBatIdRead_touches {b rid : Nat} : Touches [.regs, .live, .snap, .pend, .rc, .out, .xg, .sq, .bt] s
    (execBatIdRead b rid s) := by
  unfold execBatIdRead
  refine actAt_touches (by decide) fun m => ?_
  simp (disch := decide) only [↓Module.battIdRead_only, ↓only_self]

theorem execImpPeriod_touches {b : Nat} : Touches [.out, .bt] s (execImpPeriod b s) := by
  unfold execImpPeriod
  refine actAt_touches (by decide) fun m => ?_
  simp (disch := decide) only [↓Module.impAsk_only, ↓only_self]

theorem execImpFreqStep_touches {b zmag : Nat} {zph zreal : Int} : Touches [.regs, .live, .out, .bt] s
    (execImpFreqStep b zmag zph zreal s) := by
  unfold execImpFreqStep
  refine actAt_touches (by decide) fun m => ?_
  simp (disch := decide) only [↓Module.raise_only, ↓Module.put_only, ↓Module.learnTo_only, ↓Module.updBt_only,
    ↓Module.setTbl_only, ↓only_ite, ↓only_self, ite_self]

theorem execBattVoltageJudge_touches {b mv : Nat} : Touches [.regs, .live, .good, .snap, .pend, .ctrs, .rc,
    .out, .xg, .sq, .bt] s (execBattVoltageJudge b mv s) := by
  unfold execBattVoltageJudge
  refine actAt_touches (by decide) fun m => ?_
  simp (disch := decide) only [↓Module.battVoltage_only, ↓only_self]

theorem execBattLevelTimer_touches {b lvl : Nat} {enter : Bool} : Touches [.regs, .out, .xg, .sq, .bt] s
    (execBattLevelTimer b lvl enter s) := by
  unfold execBattLevelTimer
  refine actAt_touches (by decide) fun m => ?_
  simp (disch := decide) only [↓Module.battLevelTimer_only, ↓only_ite, ↓only_self, ite_self]

theorem execEngineFlag_touches {mask reason cyc : Nat} : Touches [.nfree, .regs, .live, .good, .snap, .pend,
    .ctrs, .rc, .out, .net] s (execEngineFlag mask reason cyc s) := by
  unfold execEngineFlag
  refine actLive_touches (by decide) fun m => ?_
  simp (disch := decide) only [↓Module.engFlag_only, ↓Module.arriveAt_only, ↓only_self]

theorem execSupervisionSend_touches : Touches [.regs, .out] s (execSupervisionSend s) :=
  actLive_touches (by decide) fun m => by
  split
  · exact Only.refl _ _
  · refine (with_out_only (by decide)).2 ((only_foldl fun m p => ?_).2 ?_)
    · exact (Module.setReg_only (by decide)).2 (Only.refl _ _)
    · exact (Module.takeTrailer_only (by decide)).2 (Only.refl _ _)

theorem execRepairStageDone_touches {e : Nat} {ok : Bool} : Touches [.regs, .out, .net] s (execRepairStageDone e
    ok s) := by
  unfold execRepairStageDone
  refine actAt_touches (by decide) fun m => ?_
  simp (disch := decide) only [↓Module.repairStage_only, ↓only_self]

theorem execRebuildDone_touches {e : Nat} : Touches [.regs, .out, .net] s (execRebuildDone e s) := by
  unfold execRebuildDone
  refine actAt_touches (by decide) fun m => ?_
  simp (disch := decide) only [↓Module.rebuilt_only, ↓only_self]

theorem execHelloReceived_touches {f : Hello} : Touches [.regs, .live, .good, .snap, .pend, .ctrs, .rc, .out,
    .gr, .net, .bn] s (execHelloReceived f s) := by
  unfold execHelloReceived
  refine actLive_touches (by decide) fun m => ?_
  simp (disch := decide) only [↓Module.hello_only, ↓only_self]

theorem execHelloSend_touches : Touches [.regs, .live, .good, .snap, .pend, .ctrs, .rc, .out, .net] s
    (execHelloSend s) := by
  unfold execHelloSend
  refine actLive_touches (by decide) fun m => ?_
  simp (disch := decide) only [↓Module.sendHello_only, ↓only_ite, ↓only_self, ite_self]

theorem execJoinDone_touches : Touches [.regs, .out, .gr] s (execJoinDone s) := by
  unfold execJoinDone
  refine actLive_touches (by decide) fun m => ?_
  simp (disch := decide) only [↓Module.joinEnd_only, ↓only_self]

theorem execLeavingHello_touches : Touches [.regs, .live, .good, .snap, .pend, .ctrs, .rc, .out, .net, .bn] s
    (execLeavingHello s) := by
  unfold execLeavingHello
  refine actLive_touches (by decide) fun m => ?_
  simp (disch := decide) only [↓Module.updBn_only, ↓Module.sendHello_only, ↓only_ite, ↓only_self, ite_self]

theorem execMemberDrop_touches {mem : Nat} : Touches [.regs, .out, .bn] s (execMemberDrop mem s) := by
  unfold execMemberDrop
  refine actAt_touches (by decide) fun m => ?_
  simp (disch := decide) only [↓Module.raise_only, ↓Module.memFree_only, ↓only_ite, ↓only_self, ite_self]

theorem execDupShelfGone_touches : Touches [.out, .bn] s (execDupShelfGone s) := by
  unfold execDupShelfGone
  refine actLive_touches (by decide) fun m => ?_
  simp (disch := decide) only [↓Module.updBn_only, ↓only_self]

theorem execHealthSend_touches : Touches [.regs, .out, .net] s (execHealthSend s) := by
  unfold execHealthSend
  refine actLive_touches (by decide) fun m => ?_
  simp (disch := decide) only [↓Module.release_only, ↓only_ite, ↓only_self, ite_self]

theorem execShareReceived_touches {f : ShareRpt} : Touches [.regs, .out, .gr, .bn] s (execShareReceived f s) :=
    by
  unfold execShareReceived
  refine actLive_touches (by decide) fun m => ?_
  simp (disch := decide) only [↓Module.shareIn_only, ↓only_self]

theorem execSummaryReceived_touches {f : SumRpt} : Touches [.out, .gr] s (execSummaryReceived f s) := by
  unfold execSummaryReceived
  refine actLive_touches (by decide) fun m => ?_
  simp (disch := decide) only [↓Module.sumIn_only, ↓only_self]

theorem execGroveCutoff_touches : Touches [.nfree, .regs, .live, .good, .snap, .pend, .ctrs, .rc, .out, .gr] s
    (execGroveCutoff s) := by
  unfold execGroveCutoff
  refine actLive_touches (by decide) fun m => ?_
  simp (disch := decide) only [↓Module.groveCut_only, ↓only_self]

theorem execShareRise_touches {canopy : Bool} : Touches [.regs, .out, .gr] s (execShareRise canopy s) := by
  unfold execShareRise
  refine actLive_touches (by decide) fun m => ?_
  simp (disch := decide) only [↓Module.canopyUp_only, ↓Module.shareUp_only, ↓only_ite, ↓only_self, ite_self]

theorem execCanopyCutoff_touches : Touches [.regs, .live, .good, .snap, .pend, .ctrs, .rc, .out, .gr] s
    (execCanopyCutoff s) := by
  unfold execCanopyCutoff
  refine actLive_touches (by decide) fun m => ?_
  simp (disch := decide) only [↓Module.canopyCut_only, ↓only_self]

theorem execPtpMessage_touches {x : PtpMsg} : Touches [.regs, .live, .good, .snap, .pend, .ctrs, .rc, .out,
    .sched, .gr, .pin, .net, .bn, .pt] s (execPtpMessage x s) := by
  unfold execPtpMessage
  refine actLive_touches (by decide) fun m => ?_
  simp (disch := decide) only [↓Module.ptpMessage_only, ↓only_self]

theorem execAnnounceTimeout_touches {p : Nat} : Touches [.regs, .live, .good, .snap, .pend, .ctrs, .rc, .out,
    .sched, .gr, .pin, .net, .bn, .pt] s (execAnnounceTimeout p s) := by
  unfold execAnnounceTimeout
  refine actAt_touches (by decide) fun m => ?_
  simp (disch := decide) only [↓Module.ptpPortLost_only, ↓only_self]

theorem execPpsEdge_touches {rise : Bool} : Touches [.out, .pin] s (execPpsEdge rise s) := by
  unfold execPpsEdge
  refine actLive_touches (by decide) fun m => ?_
  simp (disch := decide) only [↓Module.ppsIdle_only, ↓with_pin_only, ↓only_ite, ↓only_self, ite_self]

theorem execSyncInterval_touches {p : Nat} : Touches [.regs, .out] s (execSyncInterval p s) := by
  unfold execSyncInterval
  refine actAt_touches (by decide) fun m => ?_
  simp (disch := decide) only [↓Module.setReg_only, ↓only_ite, ↓only_self, ite_self]

theorem execAnchorInterval_touches : Touches [.regs, .live, .snap, .pend, .rc, .out] s (execAnchorInterval s) :=
    by
  unfold execAnchorInterval
  refine actLive_touches (by decide) fun m => ?_
  simp (disch := decide) only [↓Module.anchorNow_only, ↓Module.boundary_only, ↓only_ite, ↓only_self, ite_self]

theorem execLinkUp_touches {p : Nat} {an fd : Bool} : Touches [.regs, .out] s (execLinkUp p an fd s) := by
  unfold execLinkUp
  refine actAt_touches (by decide) fun m => ?_
  simp (disch := decide) only [↓Module.linkUp_only, ↓only_self]

theorem execLinkDown_touches {p : Nat} : Touches [.regs, .live, .good, .snap, .pend, .ctrs, .rc, .out, .sched,
    .gr, .pin, .net, .bn, .pt] s (execLinkDown p s) := by
  unfold execLinkDown
  refine actAt_touches (by decide) fun m => ?_
  simp (disch := decide) only [↓Module.linkDown_only, ↓only_self]

theorem execFrameReceived_touches {p : Nat} {bytes : List Byte} {fcsOk : Bool} : Touches [.regs, .out, .net] s
    (execFrameReceived p bytes fcsOk s) := by
  unfold execFrameReceived
  refine actAt_touches (by decide) fun m => ?_
  simp (disch := decide) only [↓Module.frameIn_only, ↓only_self]

theorem execMergeEntry_touches {e : Entry} {equal : Bool} : Touches [.regs, .live, .snap, .pend, .rc, .out,
    .net, .bn] s (execMergeEntry e equal s) := by
  unfold execMergeEntry
  refine actLive_touches (by decide) fun m => ?_
  simp (disch := decide) only [↓Module.mergeEntry_only, ↓only_self]

theorem execEntryForget_touches {i : Nat} : Touches [.regs, .out, .net] s (execEntryForget i s) := by
  unfold execEntryForget
  refine actLive_touches (by decide) fun m => ?_
  simp (disch := decide) only [↓Module.setDup_only, ↓only_self]

theorem execClusterLockup_touches {c : Nat} : Touches [.sys, .regs, .live, .snap, .pend, .rc, .out] s
    (execClusterLockup c s) := by
  unfold execClusterLockup
  refine actAt_touches (by decide) fun m => ?_
  simp (disch := decide) only [↓Module.fwAsk_only, ↓only_self]

theorem execCodeShadowLoaded_touches {fmtOk : List Bool} : Touches [.sys, .regs, .live, .snap, .pend, .rc, .out,
    .sched, .mem, .rings, .up] s (execCodeShadowLoaded fmtOk s) := by
  unfold execCodeShadowLoaded
  refine actLive_touches (by decide) fun m => ?_
  (repeat' split) <;> simp (disch := decide) only [↓Module.shadowLoad_only, ↓Module.fwImage_only,
    ↓Module.fwStart_only, ↓only_self]

theorem execClustersStart_touches {fmtOk : List Bool} : Touches [.sys, .regs, .live, .snap, .pend, .rc, .out,
    .sched, .rings] s (execClustersStart fmtOk s) := by
  unfold execClustersStart
  refine actLive_touches (by decide) fun m => ?_
  (repeat' split) <;> simp (disch := decide) only [↓Module.fwStart_only, ↓only_self]

theorem execRetired_touches {unit row : Nat} : TouchesNv [.regs, .live, .snap, .pend, .rc, .out, .mem] s
    (execRetired unit row s) := by
  unfold execRetired
  refine act2Live_touches (by decide) fun nv m => ?_
  simp (disch := decide) only [↓Module.rowRetired_only, ↓only_self]

theorem execScrubStep_touches {sram : Bool} {bad sym : Nat} : TouchesNv [.sys, .regs, .live, .good, .snap,
    .pend, .ctrs, .rc, .out, .sched, .ep, .gr, .xg, .twc, .mem] s (execScrubStep sram bad sym s) := by
  unfold execScrubStep
  refine act2Live_touches (by decide) fun nv m => ?_
  simp (disch := decide) only [↓Module.scrubStep_only, ↓only_self]

theorem execShadowReload_touches {addr : Nat} : Touches [.out, .mem] s (execShadowReload addr s) := by
  unfold execShadowReload
  refine actLive_touches (by decide) fun m => ?_
  simp (disch := decide) only [↓Module.shadowReload_only, ↓only_self]

theorem execBankMoveDone_touches {bank : Nat} : Touches [.regs, .out, .sched, .tr, .mem] s (execBankMoveDone
    bank s) := by
  unfold execBankMoveDone
  refine actLive_touches (by decide) fun m => ?_
  simp (disch := decide) only [↓Module.bankMoved_only, ↓with_schedKeep_only, ↓only_ite, ↓only_self, ite_self]

theorem execTamper_touches {j : Nat} : TouchesNv [.regs, .live, .snap, .pend, .rc, .out, .hw] s (execTamper j s)
    := by
  unfold execTamper
  refine act2Live_touches (by decide) fun nv m => ?_
  (repeat' split) <;> simp (disch := decide) only [↓Module.tampered_only, ↓Module.tamperPin_only, ↓only_self]

theorem execTamperPulseCheck_touches {j : Nat} {wentLow wentHigh : Bool} : TouchesNv [.regs, .live, .snap,
    .pend, .rc, .out, .hw] s (execTamperPulseCheck j wentLow wentHigh s) := by
  unfold execTamperPulseCheck
  refine act2Live_touches (by decide) fun nv m => ?_
  dsimp only
  (repeat' split) <;> simp (disch := decide) only [↓Module.tampered_only, ↓Module.tamperPin_only,
    ↓Module.updHw_only, ↓only_self]

theorem execGlitch_touches {kind : Nat} : TouchesNv [.regs, .live, .snap, .pend, .rc, .out, .hw] s (execGlitch
    kind s) := by
  unfold execGlitch
  refine act2Live_touches (by decide) fun nv m => ?_
  simp (disch := decide) only [↓Module.glitched_only, ↓only_self]

theorem execWiped_touches : TouchesNv [.lc, .regs, .live, .snap, .pend, .rc, .out, .mem, .hw] s (execWiped s) :=
    by
  unfold execWiped
  refine act2_touches (by decide) fun nv m => ?_
  (repeat' split) <;> simp (disch := decide) only [↓Module.breathWrite_only, ↓Module.wiped_only, ↓with_lc_only,
    ↓only_ite, ↓only_self, ite_self]

theorem execThermRound_touches {x : TherRound} : TouchesNv [.regs, .live, .good, .snap, .pend, .ctrs, .rc, .out,
    .th, .mem] s (execThermRound x s) := by
  unfold execThermRound
  refine act2Live_touches (by decide) fun nv m => ?_
  simp (disch := decide) only [↓Module.thermRound_only, ↓Module.mramFlush_only, ↓only_self]

theorem execRecordDrain_touches : TouchesNv [.regs, .live, .snap, .pend, .rc, .out] s (execRecordDrain s) := by
  unfold execRecordDrain
  refine act2Live_touches (by decide) fun nv m => ?_
  simp (disch := decide) only [↓Module.recDrain_only, ↓only_self]

theorem execStreamFrame_touches : Touches [.regs, .live, .snap, .pend, .out, .net] s (execStreamFrame s) := by
  unfold execStreamFrame
  refine actLive_touches (by decide) fun m => ?_
  simp (disch := decide) only [↓Module.streamSend_only, ↓only_self]

theorem execOptimeStore_touches : TouchesNv [.out, .mem] s (execOptimeStore s) := by
  unfold execOptimeStore
  refine act2Live_touches (by decide) fun nv m => ?_
  simp (disch := decide) only [↓Module.nvWrite_only, ↓only_self]

theorem execMboxResend_touches {ch : Nat} : Touches [.regs, .out, .net] s (execMboxResend ch s) := by
  unfold execMboxResend
  refine actLive_touches (by decide) fun m => ?_
  simp (disch := decide) only [↓Module.chFrame_only, ↓only_ite, ↓only_self, ite_self]

theorem execInstall_touches {ch : Nat} : TouchesNv [.regs, .live, .out, .hw] s (execInstall ch s) := by
  unfold execInstall
  refine act2Live_touches (by decide) fun nv m => ?_
  (repeat' split) <;> simp (disch := decide) only [↓Module.keyService_only, ↓only_self]

theorem execErase_touches {ch : Nat} : TouchesNv [.regs, .live, .out, .hw] s (execErase ch s) := by
  unfold execErase
  refine act2Live_touches (by decide) fun nv m => ?_
  (repeat' split) <;> simp (disch := decide) only [↓Module.keyService_only, ↓only_self]

theorem execBrownOut_touches : Touches [.regs, .out] s (execBrownOut s) := by
  unfold execBrownOut
  refine actSupply_touches (by decide) fun m => ?_
  simp (disch := decide) only [↓Module.brown_only, ↓only_self]

theorem execBrownOutEnd_touches : Touches [.regs, .out] s (execBrownOutEnd s) := by
  unfold execBrownOutEnd
  refine actSupply_touches (by decide) fun m => ?_
  simp (disch := decide) only [↓Module.brown_only, ↓only_self]

theorem execVauxInputLost_touches {inp : Nat} : Touches [.regs, .live, .snap, .pend, .rc, .out] s
    (execVauxInputLost inp s) := by
  unfold execVauxInputLost
  refine actSupply_touches (by decide) fun m => ?_
  simp (disch := decide) only [↓Module.inputLost_only, ↓only_ite, ↓only_self, ite_self]

theorem execVauxInputReturn_touches {inp : Nat} : Touches [.regs, .out] s (execVauxInputReturn inp s) := by
  unfold execVauxInputReturn
  refine actSupply_touches (by decide) fun m => ?_
  simp (disch := decide) only [↓Module.put_only, ↓only_ite, ↓only_self, ite_self]

theorem execVauxDip_touches {lowest us : Nat} : Touches [.sys, .regs, .live, .snap, .pend, .rc, .out] s
    (execVauxDip lowest us s) := by
  unfold execVauxDip
  refine act_touches (by decide) fun m => ?_
  simp (disch := decide) only [↓Module.vauxDip_only, ↓Module.brown_only, ↓only_ite, ↓only_self, ite_self]

theorem execResetRelease_touches {straps : Nat} : TouchesNv [.sys, .regs, .live, .snap, .pend, .rc, .out, .ep,
    .mem, .hw] s (execResetRelease straps s) := by
  unfold execResetRelease
  refine act2_touches (by decide) fun nv m => ?_
  (repeat' split) <;> simp (disch := decide) only [↓Module.romStart_only, ↓Module.updSys_only, ↓only_self]

theorem execClkRestartTry_touches {clk : Nat} {present : Bool} : Touches [.clk, .out] s (execClkRestartTry clk
    present s) := by
  unfold execClkRestartTry
  refine actLive_touches (by decide) fun m => ?_
  simp (disch := decide) only [↓Module.clkTry_only, ↓only_self]

theorem execClkResume_touches {clk : Nat} : TouchesNv [.clk, .regs, .rc, .out, .mem] s (execClkResume clk s) :=
    by
  unfold execClkResume
  refine act2Live_touches (by decide) fun nv m => ?_
  simp (disch := decide) only [↓Module.clkBack_only, ↓only_self]

theorem execSyncInPresent_touches {ferr : Int} : Touches [.regs, .live, .good, .snap, .pend, .ctrs, .rc, .out,
    .sched] s (execSyncInPresent ferr s) := by
  unfold execSyncInPresent
  refine actLive_touches (by decide) fun m => ?_
  simp (disch := decide) only [↓Module.syncPresent_only, ↓only_self]

theorem execSyncLock_touches {ferr : Int} : Touches [.regs, .out, .sched] s (execSyncLock ferr s) := by
  unfold execSyncLock
  refine actLive_touches (by decide) fun m => ?_
  simp (disch := decide) only [↓Module.syncLock_only, ↓only_self]

theorem execSyncLost_touches : Touches [.regs, .live, .good, .snap, .pend, .ctrs, .rc, .out, .sched] s
    (execSyncLost s) := by
  unfold execSyncLost
  refine actLive_touches (by decide) fun m => ?_
  simp (disch := decide) only [↓Module.syncLost_only, ↓only_self]

theorem execVerifyDone_touches : TouchesNv [.sys, .regs, .live, .snap, .pend, .rc, .out] s (execVerifyDone s) :=
    by
  unfold execVerifyDone
  refine act2Live_touches (by decide) fun nv m => ?_
  simp (disch := decide) only [↓Module.updVerify_only, ↓only_self]

theorem execPlanStoreDone_touches : TouchesNv [.regs, .live, .snap, .pend, .rc, .out, .mem] s (execPlanStoreDone
    s) := by
  unfold execPlanStoreDone
  refine act2Live_touches (by decide) fun nv m => ?_
  simp (disch := decide) only [↓Module.planStored_only, ↓only_self]

theorem execFreezeEnd_touches : Touches [.sys, .regs, .live, .good, .snap, .pend, .ctrs, .rc, .out, .sched, .ep,
    .gr, .xg, .net, .bn, .twc] s (execFreezeEnd s) := by
  unfold execFreezeEnd
  refine actLive_touches (by decide) fun m => ?_
  simp (disch := decide) only [↓Module.fwThaw_only, ↓Module.updRan_only, ↓only_ite, ↓only_self, ite_self]

theorem execFwLost_touches : Touches [.sys, .regs, .live, .snap, .pend, .rc, .out, .sched, .ep, .gr, .xg, .twc]
    s (execFwLost s) := by
  unfold execFwLost
  refine actLive_touches (by decide) fun m => ?_
  simp (disch := decide) only [↓Module.updRan_only, ↓Module.fwLose_only, ↓only_ite, ↓only_self, ite_self]

theorem execArmExpiry_touches : Touches [.lc, .regs, .out] s (execArmExpiry s) := by
  unfold execArmExpiry
  refine actLive_touches (by decide) fun m => ?_
  simp (disch := decide) only [↓Module.lifeDisarm_only, ↓only_ite, ↓only_self, ite_self]

theorem execHoldOk_touches : Touches [.sys, .regs, .out] s (execHoldOk s) := by
  unfold execHoldOk
  refine actSupply_touches (by decide) fun m => ?_
  simp (disch := decide) only [↓Module.setHold_only, ↓only_self]

theorem execScanDone_touches : TouchesNv [.sys, .regs, .live, .snap, .pend, .rc, .out] s (execScanDone s) := by
  unfold execScanDone
  refine act2Live_touches (by decide) fun nv m => ?_
  (repeat' split) <;> simp (disch := decide) only [↓Module.tryAdopt_only, ↓Module.recScan_only, ↓only_self]

theorem execCalDone_touches : Touches [.sys, .regs, .out, .th] s (execCalDone s) := by
  unfold execCalDone
  refine actLive_touches (by decide) fun m => ?_
  simp (disch := decide) only [↓Module.tryAdopt_only, ↓Module.ringCal_only, ↓only_self]

theorem execStartHoldRelease_touches : Touches [.sys, .out] s (execStartHoldRelease s) := by
  unfold execStartHoldRelease
  refine actLive_touches (by decide) fun m => ?_
  simp (disch := decide) only [↓Module.holdRelease_only, ↓only_self]

theorem execRdData_touches {m : Nat} {accepted : Bool} : Touches [.regs, .idx, .latch, .rc, .out, .tr] s
    (execRdData m accepted s) :=
  act_touches (by decide) fun _ => (Module.busFetch_only (by decide)).2 (Only.refl _ _)

theorem execOptimeHRead_touches {m : Nat} : Touches [.regs, .idx, .latch, .rc, .out, .tr] s (execOptimeHRead m
    s) :=
  act_touches (by decide) fun _ => (Module.busFetch_only (by decide)).2 (Only.refl _ _)

theorem execTaiSRead_touches {m sec ns : Nat} : Touches [.regs, .idx, .latch, .rc, .out, .tr] s (execTaiSRead m
    sec ns s) := by
  unfold execTaiSRead
  refine act_touches (by decide) fun m => ?_
  simp (disch := decide) only [↓Module.busFetch_only, ↓Module.setReg_only, ↓with_out_only, ↓only_ite,
    ↓only_self, ite_self]

theorem execTwtRead_touches {ptr : Option Nat} {n : Nat} {lastAcc : Bool} : Touches [.regs, .live, .snap, .pend,
    .idx, .latch, .rc, .out, .tr, .twtPtr] s (execTwtRead ptr n lastAcc s) := by
  unfold execTwtRead
  refine act_touches (by decide) fun m => ?_
  simp (disch := decide) only [↓Module.twtRead_only, ↓only_ite, ↓only_self, ite_self]

theorem execTimeout_touches : Touches [.regs, .out] s (execTimeout s) := by
  unfold execTimeout
  refine act_touches (by decide) fun m => ?_
  simp (disch := decide) only [↓Module.twtErr_only, ↓Module.raise_only, ↓Module.count_only, ↓only_ite,
    ↓only_self, ite_self]

theorem execStretchLimit_touches {reading : Bool} : Touches [.regs, .out] s (execStretchLimit reading s) := by
  unfold execStretchLimit
  refine act_touches (by decide) fun m => ?_
  simp (disch := decide) only [↓Module.twtErr_only, ↓Module.raise_only, ↓Module.count_only,
    ↓Module.twtRefused_only, ↓only_ite, ↓only_self, ite_self]

theorem execBucketBoundary_touches {win : Nat} : Touches [.nfree, .regs, .live, .good, .snap, .pend, .winWait,
    .ctrs, .cfgRec, .rc, .out, .sched, .falls, .ph, .rl, .adc, .cle, .tr, .gr, .xg, .fd, .th, .net, .bn] s
    (execBucketBoundary win s) := by
  unfold execBucketBoundary
  refine actLive_touches (by decide) fun m => ?_
  simp (disch := decide) only [↓Module.bucketEnd_only, ↓only_self]

theorem execMajorFrame_touches {done : List Nat} : TouchesNv [.sys, .nfree, .regs, .live, .good, .snap, .pend,
    .ctrs, .rc, .out, .sched, .falls, .ph, .rl, .adc, .cle, .tr, .ep, .gr, .xg, .fd, .bt, .th, .net, .bn, .mem]
    s (execMajorFrame done s) := by
  unfold execMajorFrame
  refine act2Live_touches (by decide) fun nv m => ?_
  (repeat' split) <;> simp (disch := decide) only [↓Module.majorFrame_only, ↓only_self]

theorem execTaskStart_touches {id jit : Nat} {gin : List Int} {acok late : Nat} : Touches [.nfree, .regs, .live,
    .good, .snap, .pend, .ctrs, .rc, .out, .sched, .ph, .rl, .adc, .tr, .ep, .xg, .net, .mem] s (execTaskStart
    id jit gin acok late s) := by
  unfold execTaskStart
  refine actAt_touches (by decide) fun m => ?_
  simp (disch := decide) only [↓Module.taskStart_only, ↓only_self]

theorem execOverflow_touches {id : Nat} : Touches [.regs, .live, .good, .snap, .pend, .ctrs, .rc, .out, .sched,
    .falls, .ph, .rl, .ep, .gr, .net, .bn] s (execOverflow id s) := by
  unfold execOverflow
  refine actAt_touches (by decide) fun m => ?_
  simp (disch := decide) only [↓Module.taskDropped_only, ↓only_ite, ↓only_self, ite_self]

end

end Sys2Proof.Machine
end

section
/-! The footprints of the families of events, and their frames (O54 to O60). -/

namespace Sys2Proof.Machine

section
variable {c : Instr} {s : State}

/-- The parts of the module that the commands of `railEvents` may change. -/
def railEventsParts : List Part :=
  [.nfree, .regs, .live, .good, .snap, .pend, .ctrs, .rc, .out, .ph, .rl, .adc, .tr, .bt, .mem]

theorem railEvents_touches (h : railEvents c = true) : Touches railEventsParts s (exec c s) := by
  cases c
  case loopSample => exact execLoopSample_touches.mono (by decide)
  case dutyRelease => exact execDutyRelease_touches.mono (by decide)
  case railPeriodBoundary => exact execRailPeriodBoundary_touches.mono (by decide)
  case trunc => exact execTrunc_touches.mono (by decide)
  case truncExit => exact execTruncExit_touches.mono (by decide)
  case ov => exact execOv_touches.mono (by decide)
  case cbcTrip => exact execCbcTrip_touches.mono (by decide)
  case negLimitTrip => exact execNegLimitTrip_touches.mono (by decide)
  case uvComparatorLow => exact execUvComparatorLow_touches.mono (by decide)
  case uvComparatorHigh => exact execUvComparatorHigh_touches.mono (by decide)
  case uv => exact execUv_touches.mono (by decide)
  case ginHi => exact execGinHi_touches.mono (by decide)
  case ginHiEnd => exact execGinHiEnd_touches.mono (by decide)
  case ginLo => exact execGinLo_touches.mono (by decide)
  case rollSlotEnd => exact execRollSlotEnd_touches.mono (by decide)
  case refCalDone => exact execRefCalDone_touches.mono (by decide)
  case monReading => exact execMonReading_touches.mono (by decide)
  case dropReady => exact execDropReady_touches.mono (by decide)
  case ssStall => exact execSsStall_touches.mono (by decide)
  case ssCbcShort => exact execSsCbcShort_touches.mono (by decide)
  case shortRetry => exact execShortRetry_touches.mono (by decide)
  case probeStart => exact execProbeStart_touches.mono (by decide)
  case probeDone => exact execProbeDone_touches.mono (by decide)
  case dtAdapt => exact execDtAdapt_touches.mono (by decide)
  all_goals exact absurd h Bool.false_ne_true

/-- The parts of the module that the commands of `feedEvents` may change. -/
def feedEventsParts : List Part :=
  [.nfree, .regs, .live, .good, .snap, .pend, .ctrs, .rc, .out, .xg, .fd]

theorem feedEvents_touches (h : feedEvents c = true) : Touches feedEventsParts s (exec c s) := by
  cases c
  case feedInsDelay => exact execFeedInsDelay_touches.mono (by decide)
  case feedExcursion => exact execFeedExcursion_touches.mono (by decide)
  case feedOn => exact execFeedOn_touches.mono (by decide)
  case feedSample => exact execFeedSample_touches.mono (by decide)
  case fastTrip => exact execFastTrip_touches.mono (by decide)
  case feedRetry => exact execFeedRetry_touches.mono (by decide)
  case feedConduct => exact execFeedConduct_touches.mono (by decide)
  case reverse => exact execReverse_touches.mono (by decide)
  case damaged => exact execDamaged_touches.mono (by decide)
  case noConduct => exact execNoConduct_touches.mono (by decide)
  case degraded => exact execDegraded_touches.mono (by decide)
  case inGoodChange => exact execInGoodChange_touches.mono (by decide)
  case full => exact execFull_touches.mono (by decide)
  all_goals exact absurd h Bool.false_ne_true

/-- The parts of the module that the commands of `placementEvents` may change. -/
def placementEventsParts : List Part :=
  [.nfree, .regs, .live, .good, .snap, .pend, .ctrs, .rc, .out, .ph, .rl, .adc, .tr, .ep, .cp, .xg, .sq, .bt,
   .twc]

theorem placementEvents_touches (h : placementEvents c = true) : Touches placementEventsParts s (exec c s) := by
  cases c
  case feedDetect => exact execFeedDetect_touches.mono (by decide)
  case slopeDetect => exact execSlopeDetect_touches.mono (by decide)
  case acokDetect => exact execAcokDetect_touches.mono (by decide)
  case returning => exact execReturning_touches.mono (by decide)
  case cutoffExit => exact execCutoffExit_touches.mono (by decide)
  case stringShedResume => exact execStringShedResume_touches.mono (by decide)
  case wake => exact execWake_touches.mono (by decide)
  case droopWake => exact execDroopWake_touches.mono (by decide)
  case solveDone => exact execSolveDone_touches.mono (by decide)
  case wearAccumulate => exact execWearAccumulate_touches.mono (by decide)
  case capEstimate => exact execCapEstimate_touches.mono (by decide)
  case assistStep => exact execAssistStep_touches.mono (by decide)
  case busLoopSample => exact execBusLoopSample_touches.mono (by decide)
  case hardLimit => exact execHardLimit_touches.mono (by decide)
  case released => exact execReleased_touches.mono (by decide)
  case sustained => exact execSustained_touches.mono (by decide)
  all_goals exact absurd h Bool.false_ne_true

/-- The parts of the module that the commands of `supervisionEvents` may change. -/
def supervisionEventsParts : List Part :=
  [.sys, .nfree, .regs, .live, .good, .snap, .pend, .defer, .ctrs, .rc, .out, .ph, .rl, .adc, .cle, .tr, .xg, .sq,
   .pin, .bt, .th]

theorem supervisionEvents_touches (h : supervisionEvents c = true) : Touches supervisionEventsParts s (exec c s) := by
  cases c
  case seqTick => exact execSeqTick_touches.mono (by decide)
  case seqWaitDone => exact execSeqWaitDone_touches.mono (by decide)
  case stepFault => exact execStepFault_touches.mono (by decide)
  case seqRetry => exact execSeqRetry_touches.mono (by decide)
  case downLead => exact execDownLead_touches.mono (by decide)
  case seqMinOff => exact execSeqMinOff_touches.mono (by decide)
  case railFail => exact execRailFail_touches.mono (by decide)
  case railPgDeglitch => exact execRailPgDeglitch_touches.mono (by decide)
  case wdiKick => exact execWdiKick_touches.mono (by decide)
  case winMinEnd => exact execWinMinEnd_touches.mono (by decide)
  case expired => exact execExpired_touches.mono (by decide)
  case hostRstEnd => exact execHostRstEnd_touches.mono (by decide)
  case batIdRead => exact execBatIdRead_touches.mono (by decide)
  case impPeriod => exact execImpPeriod_touches.mono (by decide)
  case impFreqStep => exact execImpFreqStep_touches.mono (by decide)
  case battVoltageJudge => exact execBattVoltageJudge_touches.mono (by decide)
  case battLevelTimer => exact execBattLevelTimer_touches.mono (by decide)
  case excluded => exact execExcluded_touches.mono (by decide)
  case calDone => exact execCalDone_touches.mono (by decide)
  all_goals exact absurd h Bool.false_ne_true

/-- The parts of the module that the commands of `networkEvents` may change. -/
def networkEventsParts : List Part :=
  [.nfree, .regs, .live, .good, .snap, .pend, .ctrs, .rc, .out, .sched, .gr, .pin, .net, .bn, .pt]

theorem networkEvents_touches (h : networkEvents c = true) : Touches networkEventsParts s (exec c s) := by
  cases c
  case linkUp => exact execLinkUp_touches.mono (by decide)
  case linkDown => exact execLinkDown_touches.mono (by decide)
  case frameReceived => exact execFrameReceived_touches.mono (by decide)
  case mergeEntry => exact execMergeEntry_touches.mono (by decide)
  case engineFlag => exact execEngineFlag_touches.mono (by decide)
  case supervisionSend => exact execSupervisionSend_touches.mono (by decide)
  case entryForget => exact execEntryForget_touches.mono (by decide)
  case repairStageDone => exact execRepairStageDone_touches.mono (by decide)
  case rebuildDone => exact execRebuildDone_touches.mono (by decide)
  case helloReceived => exact execHelloReceived_touches.mono (by decide)
  case shareReceived => exact execShareReceived_touches.mono (by decide)
  case summaryReceived => exact execSummaryReceived_touches.mono (by decide)
  case helloSend => exact execHelloSend_touches.mono (by decide)
  case joinDone => exact execJoinDone_touches.mono (by decide)
  case leavingHello => exact execLeavingHello_touches.mono (by decide)
  case memberDrop => exact execMemberDrop_touches.mono (by decide)
  case dupShelfGone => exact execDupShelfGone_touches.mono (by decide)
  case healthSend => exact execHealthSend_touches.mono (by decide)
  case ptpMessage => exact execPtpMessage_touches.mono (by decide)
  case announceTimeout => exact execAnnounceTimeout_touches.mono (by decide)
  case ppsEdge => exact execPpsEdge_touches.mono (by decide)
  case syncInterval => exact execSyncInterval_touches.mono (by decide)
  case groveCutoff => exact execGroveCutoff_touches.mono (by decide)
  case shareRise => exact execShareRise_touches.mono (by decide)
  case canopyCutoff => exact execCanopyCutoff_touches.mono (by decide)
  all_goals exact absurd h Bool.false_ne_true

/-- The parts of the module that the commands of `busEvents` may change. -/
def busEventsParts : List Part :=
  [.nfree, .regs, .live, .snap, .pend, .rc, .out, .ep, .net, .twc]

theorem busEvents_touches (h : busEvents c = true) : Touches busEventsParts s (exec c s) := by
  cases c
  case pollRound => exact execPollRound_touches.mono (by decide)
  case twcTransactionStart => exact execTwcTransactionStart_touches.mono (by decide)
  case twcTransactionEnd => exact execTwcTransactionEnd_touches.mono (by decide)
  case arbBackoffEnd => exact execArbBackoffEnd_touches.mono (by decide)
  case twcStretchTmo => exact execTwcStretchTmo_touches.mono (by decide)
  case busStuck => exact execBusStuck_touches.mono (by decide)
  case busRecoveryRetry => exact execBusRecoveryRetry_touches.mono (by decide)
  case alert => exact execAlert_touches.mono (by decide)
  case mboxResend => exact execMboxResend_touches.mono (by decide)
  all_goals exact absurd h Bool.false_ne_true

/-- The parts of the module that the commands of `readsThatMove` may change. -/
def readsThatMoveParts : List Part :=
  [.regs, .live, .snap, .pend, .idx, .latch, .rc, .out, .tr, .net, .twtPtr]

theorem readsThatMove_touches (h : readsThatMove c = true) : Touches readsThatMoveParts s (exec c s) := by
  cases c
  case twtRead => exact execTwtRead_touches.mono (by decide)
  case timeout => exact execTimeout_touches.mono (by decide)
  case stretchLimit => exact execStretchLimit_touches.mono (by decide)
  case rdData => exact execRdData_touches.mono (by decide)
  case optimeHRead => exact execOptimeHRead_touches.mono (by decide)
  case taiSRead => exact execTaiSRead_touches.mono (by decide)
  case streamFrame => exact execStreamFrame_touches.mono (by decide)
  all_goals exact absurd h Bool.false_ne_true

/-- The parts of the module that the commands of `memoryUpkeep` may change. -/
def memoryUpkeepParts : List Part :=
  [.sys, .regs, .live, .good, .snap, .pend, .ctrs, .rc, .out, .sched, .ep, .gr, .xg, .twc, .mem]

theorem memoryUpkeep_touches (h : memoryUpkeep c = true) : TouchesNv memoryUpkeepParts s (exec c s) := by
  cases c
  case scrubStep => exact execScrubStep_touches.mono (by decide)
  case shadowReload => exact (execShadowReload_touches.mono (by decide)).nv
  case scanDone => exact execScanDone_touches.mono (by decide)
  case verifyDone => exact execVerifyDone_touches.mono (by decide)
  case retired => exact execRetired_touches.mono (by decide)
  case planStoreDone => exact execPlanStoreDone_touches.mono (by decide)
  all_goals exact absurd h Bool.false_ne_true

/-- The parts of the module that the commands of `recorderUpkeep` may change. -/
def recorderUpkeepParts : List Part :=
  [.lc, .regs, .live, .snap, .pend, .rc, .out, .mem, .hw]

theorem recorderUpkeep_touches (h : recorderUpkeep c = true) : TouchesNv recorderUpkeepParts s (exec c s) := by
  cases c
  case recordDrain => exact execRecordDrain_touches.mono (by decide)
  case anchorInterval => exact (execAnchorInterval_touches.mono (by decide)).nv
  case optimeStore => exact execOptimeStore_touches.mono (by decide)
  case wearSave => exact execWearSave_touches.mono (by decide)
  case armExpiry => exact (execArmExpiry_touches.mono (by decide)).nv
  case wiped => exact execWiped_touches.mono (by decide)
  all_goals exact absurd h Bool.false_ne_true

end

end Sys2Proof.Machine

open Sys2Proof Sys2Proof.Machine

/-- Settles O55: the footprint of the events of feeds and the Crossing inputs leaves these parts out. -/
theorem frameOfFeedEvents : Obligations.FrameOfFeedEvents := by
  intro c s t hc ht
  obtain ⟨hq, hnv, hm⟩ := feedEvents_touches hc t ht
  refine ⟨hq, hnv, hm .sys ?_, hm .lc ?_, hm .clk ?_, hm .unc ?_, hm .ovr ?_, hm .defer ?_, hm .winWait ?_,
      hm .cfgRec ?_, hm .sel ?_, hm .idx ?_, hm .latch ?_, hm .sched ?_, hm .ph ?_, hm .adc ?_, hm .cle ?_,
      hm .tr ?_, hm .ep ?_, hm .cp ?_, hm .gr ?_, hm .sq ?_, hm .pin ?_, hm .bt ?_, hm .th ?_, hm .net ?_,
      hm .bn ?_, hm .pt ?_, hm .twtPtr ?_, hm .twc ?_, hm .mem ?_, hm .hw ?_, hm .up ?_⟩ <;> decide

/-- Settles O56: the footprint of the events of the Crossing, the energy placement and the caps leaves these parts out. -/
theorem frameOfPlacementEvents : Obligations.FrameOfPlacementEvents := by
  intro c s t hc ht
  obtain ⟨hq, hnv, hm⟩ := placementEvents_touches hc t ht
  refine ⟨hq, hnv, hm .sys ?_, hm .lc ?_, hm .clk ?_, hm .unc ?_, hm .ovr ?_, hm .defer ?_, hm .winWait ?_,
      hm .cfgRec ?_, hm .sel ?_, hm .idx ?_, hm .latch ?_, hm .sched ?_, hm .cle ?_, hm .gr ?_, hm .fd ?_,
      hm .pin ?_, hm .th ?_, hm .net ?_, hm .bn ?_, hm .pt ?_, hm .twtPtr ?_, hm .mem ?_, hm .hw ?_, hm .up ?_⟩
      <;> decide

/-- Settles O57: the footprint of the events of sequencer, watchdog, batteries and temperatures leaves these parts out. -/
theorem frameOfSupervisionEvents : Obligations.FrameOfSupervisionEvents := by
  intro c s t hc ht
  obtain ⟨hq, hnv, hm⟩ := supervisionEvents_touches hc t ht
  refine ⟨hq, hnv, hm .lc ?_, hm .clk ?_, hm .unc ?_, hm .ovr ?_, hm .winWait ?_, hm .cfgRec ?_, hm .sel ?_,
      hm .idx ?_, hm .latch ?_, hm .sched ?_, hm .ep ?_, hm .cp ?_, hm .gr ?_, hm .fd ?_, hm .bn ?_, hm .pt ?_,
      hm .twtPtr ?_, hm .twc ?_, hm .mem ?_, hm .hw ?_, hm .up ?_⟩ <;> decide

/-- Settles O58: the footprint of the events of ports, path engines, groves, Benuf and PTP leaves these parts out. -/
theorem frameOfNetworkEvents : Obligations.FrameOfNetworkEvents := by
  intro c s t hc ht
  obtain ⟨hq, hnv, hm⟩ := networkEvents_touches hc t ht
  refine ⟨hq, hnv, hm .sys ?_, hm .lc ?_, hm .clk ?_, hm .unc ?_, hm .ovr ?_, hm .defer ?_, hm .winWait ?_,
      hm .cfgRec ?_, hm .sel ?_, hm .idx ?_, hm .latch ?_, hm .ph ?_, hm .rl ?_, hm .adc ?_, hm .cle ?_,
      hm .tr ?_, hm .ep ?_, hm .cp ?_, hm .xg ?_, hm .fd ?_, hm .sq ?_, hm .bt ?_, hm .th ?_, hm .twtPtr ?_,
      hm .twc ?_, hm .mem ?_, hm .hw ?_, hm .up ?_⟩ <;> decide

/-- Settles O59: the footprint of the events of the two-wire controllers and resends leaves these parts out. -/
theorem frameOfBusEvents : Obligations.FrameOfBusEvents := by
  intro c s t hc ht
  obtain ⟨hq, hnv, hm⟩ := busEvents_touches hc t ht
  refine ⟨hq, hnv, hm .sys ?_, hm .lc ?_, hm .clk ?_, hm .unc ?_, hm .ovr ?_, hm .defer ?_, hm .winWait ?_,
      hm .ctrs ?_, hm .cfgRec ?_, hm .sel ?_, hm .idx ?_, hm .latch ?_, hm .sched ?_, hm .ph ?_, hm .rl ?_,
      hm .adc ?_, hm .cle ?_, hm .tr ?_, hm .cp ?_, hm .gr ?_, hm .xg ?_, hm .fd ?_, hm .sq ?_, hm .pin ?_,
      hm .bt ?_, hm .th ?_, hm .bn ?_, hm .pt ?_, hm .twtPtr ?_, hm .mem ?_, hm .hw ?_, hm .up ?_⟩ <;> decide

/-- Settles O60: the footprints of reads, of the upkeep of the memories and of the recorder leave these parts out. -/
theorem frameOfReadsAndUpkeep : Obligations.FrameOfReadsAndUpkeep := by
  refine ⟨fun c s t hc ht => ?_, fun c s t hc ht => ?_, fun c s t hc ht => ?_⟩
  · obtain ⟨hq, hnv, hm⟩ := readsThatMove_touches hc t ht
    refine ⟨hq, hnv, hm .sys ?_, hm .lc ?_, hm .clk ?_, hm .nfree ?_, hm .unc ?_, hm .ovr ?_, hm .defer ?_,
        hm .winWait ?_, hm .ctrs ?_, hm .cfgRec ?_, hm .sel ?_, hm .sched ?_, hm .ph ?_, hm .rl ?_, hm .adc ?_,
        hm .cle ?_, hm .ep ?_, hm .cp ?_, hm .gr ?_, hm .xg ?_, hm .fd ?_, hm .sq ?_, hm .pin ?_, hm .bt ?_,
        hm .th ?_, hm .bn ?_, hm .pt ?_, hm .twc ?_, hm .mem ?_, hm .hw ?_, hm .up ?_⟩ <;> decide
  · obtain ⟨hq, hm⟩ := memoryUpkeep_touches hc t ht
    refine ⟨hq, hm .lc ?_, hm .clk ?_, hm .nfree ?_, hm .unc ?_, hm .ovr ?_, hm .defer ?_, hm .winWait ?_,
        hm .cfgRec ?_, hm .sel ?_, hm .idx ?_, hm .latch ?_, hm .ph ?_, hm .rl ?_, hm .adc ?_, hm .cle ?_,
        hm .tr ?_, hm .cp ?_, hm .fd ?_, hm .sq ?_, hm .pin ?_, hm .bt ?_, hm .th ?_, hm .net ?_, hm .bn ?_,
        hm .pt ?_, hm .twtPtr ?_, hm .hw ?_, hm .up ?_⟩ <;> decide
  · obtain ⟨hq, hm⟩ := recorderUpkeep_touches hc t ht
    refine ⟨hq, hm .sys ?_, hm .clk ?_, hm .nfree ?_, hm .unc ?_, hm .ovr ?_, hm .defer ?_, hm .winWait ?_,
        hm .ctrs ?_, hm .cfgRec ?_, hm .sel ?_, hm .idx ?_, hm .latch ?_, hm .sched ?_, hm .ph ?_, hm .rl ?_,
        hm .adc ?_, hm .cle ?_, hm .tr ?_, hm .ep ?_, hm .cp ?_, hm .gr ?_, hm .xg ?_, hm .fd ?_, hm .sq ?_,
        hm .pin ?_, hm .bt ?_, hm .th ?_, hm .net ?_, hm .bn ?_, hm .pt ?_, hm .twtPtr ?_, hm .twc ?_, hm .up ?_⟩
        <;> decide

end

section
/-! What a loop sample stores: words of the banks that the trace units have claimed (O54). -/

namespace Sys2Proof.Machine

/-- A word lies in no bank that a trace unit has claimed. -/
def Module.Unclaimed (m : Module) (w : Nat) : Prop :=
  ∀ k b, k < 4 → (m.trace k).bank = some b → w < b * 8192 ∨ b * 8192 + 8192 ≤ w

/-- The trace units keep their banks, and of the memories only words of these banks change. -/
structure Traced (a b : Module) : Prop where
  bank : ∀ k, (b.trace k).bank = (a.trace k).bank
  rest : b.mem = { a.mem with sram := b.mem.sram, poison := b.mem.poison }
  word : ∀ w, a.Unclaimed w → getK zero64 b.mem.sram w = getK zero64 a.mem.sram w
    ∧ b.mem.poison.contains w = a.mem.poison.contains w

theorem Traced.refl (a : Module) : Traced a a := ⟨fun _ => rfl, rfl, fun _ _ => ⟨rfl, rfl⟩⟩

theorem Traced.trans {a b c : Module} (h : Traced a b) (h' : Traced b c) : Traced a c where
  bank k := (h'.bank k).trans (h.bank k)
  rest := by rw [h'.rest, h.rest]
  word w hw := by
    obtain ⟨hv, hp⟩ := h.word w hw
    obtain ⟨hv', hp'⟩ := h'.word w fun k b hk hb => hw k b hk ((h.bank k).symm.trans hb)
    exact ⟨hv'.trans hv, hp'.trans hp⟩

theorem Traced.foldl {α : Type} {f : Module → α → Module} (l : List α) (m : Module)
    (h : ∀ m, ∀ x ∈ l, Traced m (f m x)) : Traced m (l.foldl f m) := by
  induction l generalizing m with
  | nil => exact .refl m
  | cons x l ih =>
    exact (h m x List.mem_cons_self).trans (ih _ fun m y hy => h m y (List.mem_cons_of_mem x hy))

theorem Only.traced {S : List Part} {a b : Module} (h : Only S a b) (htr : .tr ∉ S) (hmem : .mem ∉ S) : Traced a b := by
  have ht : b.tr = a.tr := h .tr htr
  have hm : b.mem = a.mem := h .mem hmem
  refine ⟨fun k => ?_, ?_, fun w _ => ?_⟩
  · rw [Module.trace, ht, ← Module.trace]
  · rw [hm]
  · rw [hm]
    exact ⟨rfl, rfl⟩

theorem nth_upd_congr {α β : Type} {d : α} {g : α → β} {f : α → α} (hf : ∀ x, g (f x) = g x) (l : List α) (n i : Nat) :
    g (nth d (upd l n f) i) = g (nth d l i) := by
  simp only [nth, upd, List.getD_eq_getElem?_getD, List.getElem?_modify]
  cases l[i]? with
  | none => rfl
  | some x => by_cases hn : n = i <;> simp [hn, hf]

theorem updTr_traced {m : Module} {k : Nat} {f : Trace → Trace} (hf : ∀ x, (f x).bank = x.bank) :
    Traced m (m.updTr k f) :=
  ⟨fun j => nth_upd_congr hf m.tr k j, rfl, fun _ _ => ⟨rfl, rfl⟩⟩

theorem Traced.step_only {S : List Part} {a b c : Module} (h : Traced a b) (ho : Only S b c)
    (htr : .tr ∉ S := by decide) (hmem : .mem ∉ S := by decide) : Traced a c := h.trans (ho.traced htr hmem)

theorem trTrigger_traced (fuel : Nat) (m : Module) (k : Nat) : Traced m (m.trTrigger k fuel) := by
  induction fuel generalizing m k with
  | zero => exact .refl m
  | succ fuel ih =>
    unfold Module.trTrigger
    split
    · exact .refl m
    · have htrig : ∀ (p : Nat) (f c : W32) (u : Module), Traced m u →
          Traced m (((((u.put (pgTrace + k) TRACE_STATUS_STATE tsPost).put (pgTrace + k) TRACE_STATUS_TRIG_POS p).setReg
            (pgTrace + k) TRACE_TRIG_FRAME f).setReg (pgTrace + k) TRACE_TRIG_CYC c).updTr k (fun x => { x with n := 0 })) :=
        fun p f c u hu => (hu.step_only (S := [.regs]) (by
          simp (disch := decide) only [↓Module.setReg_only, ↓Module.put_only, ↓only_self])).trans (updTr_traced fun _ => rfl)
      have hraise : ∀ u : Module, Traced m u → Traced m (u.raise (pgTrace + k) TRACE_EV_TRIGGERED) := fun u hu =>
        hu.step_only ((Module.raise_only (List.Subset.refl _)).2 (Only.refl _ u))
      dsimp only
      refine Traced.trans (hraise _ ?_) (Traced.foldl _ _ fun u j _ => ?_)
      · split
        · exact htrig _ _ _ m (.refl m)
        · exact htrig _ _ _ _ (Only.traced ((Module.draw_only (List.Subset.refl _)).2 (Only.refl _ m)) (by decide) (by decide))
      · split
        · exact ih u j
        · exact .refl u

theorem trFault_traced (m : Module) (r b : Nat) : Traced m (m.trFault r b) :=
  Traced.foldl _ _ fun m k _ => by
    split
    · exact trTrigger_traced 4 m k
    · exact .refl m

theorem truncBegin_traced (m : Module) (r : Nat) : Traced m (m.truncBegin r) := by
  unfold Module.truncBegin
  refine Traced.trans (Only.traced (S := [.regs, .ph]) ?_ (by decide) (by decide)) (trFault_traced _ r 0)
  simp (disch := decide) only [↓Module.truncFlags_only]
  refine (only_foldl fun m n => (Module.updPh_only (by decide)).2 (Only.refl _ _)).2 ?_
  simp (disch := decide) only [↓Module.probeAbort_only, ↓Module.raise_only, ↓Module.countReg_only, ↓only_self]

theorem truncSync_traced (m : Module) (r : Nat) : Traced m (m.truncSync r) := by
  unfold Module.truncSync
  extract_lets was
  split
  · exact .refl m
  · split
    · exact truncBegin_traced m r
    · split
      · exact ((Module.truncEnd_only (List.Subset.refl _)).2 (Only.refl _ m)).traced (by decide) (by decide)
      · exact .refl m

theorem ginNow_traced (m : Module) (gin : List Int) : Traced m (m.ginNow gin) :=
  (((Module.ginTake_only (List.Subset.refl _)).2 (Only.refl _ m)).traced (by decide) (by decide)).trans
    (Traced.foldl _ _ fun m r _ => truncSync_traced m r)

theorem contains_delKey (l : List Nat) (k w : Nat) (h : w ≠ k) : (delKey l k).contains w = l.contains w := by
  rw [Bool.eq_iff_iff]
  simp [delKey, h]

theorem apart_of_outside {b w : Nat} (s : Nat) (h : w < b * 8192 ∨ b * 8192 + 8192 ≤ w) :
    w ≠ b * 8192 + 2 * (s % 4096) ∧ w ≠ b * 8192 + 2 * (s % 4096) + 1 := by omega

theorem trStore_traced (m : Module) (k s : Nat) (vs : List Int) (hk : k < 4) : Traced m (m.trStore k s vs) := by
  unfold Module.trStore
  split
  · exact .refl m
  · next b hb =>
    refine ⟨fun _ => rfl, rfl, fun w hw => ?_⟩
    have hb' := hw k b hk hb
    obtain ⟨h0, h1⟩ := apart_of_outside s hb'
    constructor
    · rw [getK_setK_other _ _ _ _ _ h1, getK_setK_other _ _ _ _ _ h0]
    · rw [contains_delKey _ _ _ h1, contains_delKey _ _ _ h0]

theorem trRecord_traced (m : Module) (k : Nat) (hk : k < 4) : Traced m (m.trRecord k) := by
  unfold Module.trRecord
  extract_lets vs v last was m1 m2 m3
  have h1 : Traced m m1 := by
    simp only [m1]
    split
    · exact trTrigger_traced 4 m k
    · exact .refl m
  have h3 : Traced m m3 := (h1.trans (trStore_traced m1 k _ vs hk)).trans (updTr_traced fun _ => rfl)
  clear_value m3
  split
  · exact h3.step_only ((Module.trFill_only (List.Subset.refl _)).2 (Only.refl _ m3))
  · exact h3.step_only ((Module.trEnd_only (List.Subset.refl _)).2 (Only.refl _ m3))

theorem trSample_traced (m : Module) (r : Nat) (full : List Nat) : Traced m (m.trSample r full) :=
  Traced.foldl _ _ fun m k hk => by
    extract_lets st m1
    have h1 : Traced m m1 := updTr_traced fun _ => rfl
    split
    · split
      · exact updTr_traced fun _ => rfl
      · split
        · exact h1.step_only ((Module.raise_only (S := [.regs]) (by decide)).2 ((Module.put_only (by decide)).2 (Only.refl _ m1)))
        · exact h1.trans (trRecord_traced m1 k (List.mem_range.mp hk))
    · exact .refl m

theorem loopSample_traced (m : Module) (r : Nat) (x : Sample) : Traced m (m.loopSample r x) := by
  unfold Module.loopSample
  extract_lets m1
  have h1 : Traced m m1 :=
    (((Module.arrive_only (List.Subset.refl _)).2 (Only.refl _ m)).traced (by decide) (by decide)).trans (ginNow_traced _ _)
  clear_value m1
  split
  · exact h1
  · refine Traced.trans (h1.step_only (S := [.nfree, .regs, .live, .good, .snap, .pend, .ctrs, .rc, .ph, .rl, .adc, .bt]) ?_)
      (trSample_traced _ _ _)
    simp (disch := decide) only [↓Module.loopThr_only, ↓Module.loopStall_only, ↓Module.loopDwell_only, ↓Module.loopAdd_only,
      ↓Module.loopCharge_only, ↓Module.loopMeas_only, ↓Module.updRl_only]
    refine (only_foldl fun m n => (Module.loopBal_only (by decide)).2 (Only.refl _ _)).2 ?_
    simp (disch := decide) only [↓Module.loopCeil_only, ↓Module.loopSat_only, ↓Module.loopCurr_only, ↓Module.loopVolt_only,
      ↓Module.loopRampEnd_only, ↓Module.loopLevels_only, ↓Module.loopProbe_only, ↓Module.loopCurrent_only,
      ↓Module.loopPoison_only, ↓Module.loopPreset_only, ↓Module.loopRef_only]
    exact (Module.loopTake_only (by decide)).2 (Only.refl _ _)

theorem execLoopSample_traced {r : Nat} {x : Sample} {s t : State} (ht : execLoopSample r x s = .next t) :
    Traced s.m t.m := by
  cases ht
  have hout : Traced s.m { s.m with out := {} } :=
    ((with_out_only (List.Subset.refl _)).2 (Only.refl _ s.m)).traced (by decide) (by decide)
  dsimp only
  split
  · split
    · exact hout.trans (loopSample_traced _ r x)
    · exact hout
  · exact hout

/-- The events of rails but a loop sample reach no memory. -/
theorem railEvents_mem {c : Instr} {s t : State} (h : railEvents c = true) (hne : ∀ r x, c ≠ .loopSample r x)
    (ht : exec c s = .next t) : t.m.mem = s.m.mem := by
  have hmem : ∀ S : List Part, Touches S s (exec c s) → .mem ∉ S → t.m.mem = s.m.mem := fun S hS hm => by
    obtain ⟨-, -, ho⟩ := hS t ht
    exact ho .mem hm
  cases c
  case loopSample r x => exact absurd rfl (hne r x)
  case dutyRelease => exact hmem _ execDutyRelease_touches (by decide)
  case railPeriodBoundary => exact hmem _ execRailPeriodBoundary_touches (by decide)
  case trunc => exact hmem _ execTrunc_touches (by decide)
  case truncExit => exact hmem _ execTruncExit_touches (by decide)
  case ov => exact hmem _ execOv_touches (by decide)
  case cbcTrip => exact hmem _ execCbcTrip_touches (by decide)
  case negLimitTrip => exact hmem _ execNegLimitTrip_touches (by decide)
  case uvComparatorLow => exact hmem _ execUvComparatorLow_touches (by decide)
  case uvComparatorHigh => exact hmem _ execUvComparatorHigh_touches (by decide)
  case uv => exact hmem _ execUv_touches (by decide)
  case ginHi => exact hmem _ execGinHi_touches (by decide)
  case ginHiEnd => exact hmem _ execGinHiEnd_touches (by decide)
  case ginLo => exact hmem _ execGinLo_touches (by decide)
  case rollSlotEnd => exact hmem _ execRollSlotEnd_touches (by decide)
  case refCalDone => exact hmem _ execRefCalDone_touches (by decide)
  case monReading => exact hmem _ execMonReading_touches (by decide)
  case dropReady => exact hmem _ execDropReady_touches (by decide)
  case ssStall => exact hmem _ execSsStall_touches (by decide)
  case ssCbcShort => exact hmem _ execSsCbcShort_touches (by decide)
  case shortRetry => exact hmem _ execShortRetry_touches (by decide)
  case probeStart => exact hmem _ execProbeStart_touches (by decide)
  case probeDone => exact hmem _ execProbeDone_touches (by decide)
  case dtAdapt => exact hmem _ execDtAdapt_touches (by decide)
  all_goals exact absurd h Bool.false_ne_true

/-- The events of rails leave every word alone that lies in no claimed bank. -/
theorem railEvents_words {c : Instr} {s t : State} (h : railEvents c = true) (ht : exec c s = .next t) :
    t.m.mem = { s.m.mem with sram := t.m.mem.sram, poison := t.m.mem.poison }
      ∧ ∀ w, s.m.Unclaimed w → getK zero64 t.m.mem.sram w = getK zero64 s.m.mem.sram w
        ∧ t.m.mem.poison.contains w = s.m.mem.poison.contains w := by
  by_cases hl : ∃ r x, c = .loopSample r x
  · obtain ⟨r, x, rfl⟩ := hl
    obtain ⟨-, hrest, hword⟩ := execLoopSample_traced ht
    exact ⟨hrest, hword⟩
  · rw [railEvents_mem h (fun r x hc => hl ⟨r, x, hc⟩) ht]
    exact ⟨rfl, fun w _ => ⟨rfl, rfl⟩⟩

end Sys2Proof.Machine

open Sys2Proof Sys2Proof.Machine

/-- Settles O54: the footprint of the events of rails, and what a loop sample stores. -/
theorem frameOfRailEvents : Obligations.FrameOfRailEvents := by
  intro c s t hc ht
  obtain ⟨hq, hnv, hm⟩ := railEvents_touches hc t ht
  obtain ⟨hrest, hword⟩ := railEvents_words hc ht
  refine ⟨hq, hnv, hm .sys ?_, hm .lc ?_, hm .clk ?_, hm .unc ?_, hm .ovr ?_, hm .defer ?_, hm .winWait ?_,
    hm .cfgRec ?_, hm .sel ?_, hm .idx ?_, hm .latch ?_, hm .sched ?_, hm .cle ?_, hm .ep ?_, hm .cp ?_, hm .gr ?_,
    hm .xg ?_, hm .fd ?_, hm .sq ?_, hm .pin ?_, hm .th ?_, hm .bn ?_, hm .pt ?_, hm .twtPtr ?_, hm .twc ?_, hm .hw ?_,
    hm .up ?_, hrest,
    fun hne => railEvents_mem hc hne ht, hword⟩ <;> decide

end

section
/-! What every operation keeps (O6, O7, O8): the form of the memories, what the non-volatile part holds for good, one
entry for each unit, and no task that has yet to enter its fallback. -/

namespace Sys2Proof.Machine

/-- One entry for each phase, rail, trace unit, feed and string. -/
def Sized (m : Module) : Prop :=
  m.ph.length = 48 ∧ m.rl.length = 12 ∧ m.tr.length = 4 ∧ m.fd.length = 8 ∧ m.bt.length = 8

/-- No task has yet to enter its fallback. -/
def NoneDue (m : Module) : Prop := ∀ t, t < 12 → (m.task t).fallDue = false

theorem shaped_iff (m : Module) : Shaped m ↔ Sized m ∧ NoneDue m := by
  constructor
  · rintro ⟨hph, hrl, htr, hfd, hbt, hdue⟩
    exact ⟨⟨hph, hrl, htr, hfd, hbt⟩, hdue⟩
  · rintro ⟨⟨hph, hrl, htr, hfd, hbt⟩, hdue⟩
    exact ⟨hph, hrl, htr, hfd, hbt, hdue⟩

/-- What is stored for good stays, within its sizes. -/
def Lasts (a b : NonVol) : Prop := Bounded a → Grows a b ∧ Bounded b

theorem Grows.refl (a : NonVol) : Grows a a :=
  ⟨List.prefix_refl _, List.prefix_refl _, le_refl _, le_refl _, le_refl _, le_refl _⟩

theorem Grows.trans {a b c : NonVol} (h : Grows a b) (h' : Grows b c) : Grows a c := by
  obtain ⟨hroot, hremap, hver, hepoch, hwipes, hpcc⟩ := h
  obtain ⟨hroot', hremap', hver', hepoch', hwipes', hpcc'⟩ := h'
  exact ⟨hroot.trans hroot', hremap.trans hremap', hver.trans hver', hepoch.trans hepoch', hwipes.trans hwipes',
    hpcc.trans hpcc'⟩

theorem Lasts.refl (a : NonVol) : Lasts a a := fun h => ⟨.refl a, h⟩

theorem Lasts.trans {a b c : NonVol} (h : Lasts a b) (h' : Lasts b c) : Lasts a c := fun ha => by
  obtain ⟨hab, hb⟩ := h ha
  obtain ⟨hbc, hc⟩ := h' hb
  exact ⟨hab.trans hbc, hc⟩

/-- Where none of the lasting parts changes, and the words of the MRAM keep theirs. -/
theorem Lasts.of_same {a b : NonVol} (hroot : b.root = a.root) (hremap : b.remap = a.remap)
    (hver : b.highVer = a.highVer) (hepoch : b.otp.epoch = a.otp.epoch) (hwipes : b.wipeCnt = a.wipeCnt)
    (hpcc : b.pcc = a.pcc) : Lasts a b := fun ⟨h1, h2, h3⟩ =>
  ⟨⟨hroot ▸ List.prefix_refl _, hremap ▸ List.prefix_refl _, hver ▸ le_refl _, hepoch ▸ le_refl _,
    hwipes ▸ le_refl _, hpcc ▸ le_refl _⟩, hpcc ▸ h1, hwipes ▸ h2, hroot ▸ h3⟩

/-- What a step of the module keeps; `c` is whether it also leaves no task to enter its fallback. -/
structure Sound (c : Prop) (x y : NonVol × Module) : Prop where
  form : memForm x → memForm y
  lasts : Lasts x.1 y.1
  sized : Sized x.2 → Sized y.2
  due : c → NoneDue x.2 → NoneDue y.2

/-- Every part but the memories, the lists' lengths and the tasks that are to enter their fallback. -/
def quietParts : List Part := [.sys, .lc, .clk, .nfree, .regs, .live, .good, .snap, .pend, .unc, .ovr, .defer, .winWait,
  .ctrs, .cfgRec, .sel, .idx, .latch, .rc, .out, .sched, .ph, .rl, .adc, .cle, .tr, .ep, .cp, .gr, .xg, .fd, .sq, .pin,
  .bt, .th, .net, .bn, .pt, .twtPtr, .twc, .rings, .hw, .up]

theorem fallDue_of_same {a b : Module} (h : b.sched.tasks.map Task.fallDue = a.sched.tasks.map Task.fallDue) (t : Nat) :
    (b.task t).fallDue = (a.task t).fallDue := by
  have hget := congrArg (·[t]?) h
  simp only [List.getElem?_map] at hget
  simp only [Module.task, nth, List.getD_eq_getElem?_getD]
  cases hb : b.sched.tasks[t]? with
  | none => cases ha : a.sched.tasks[t]? with
    | none => rfl
    | some y => simp [ha, hb] at hget
  | some x => cases ha : a.sched.tasks[t]? with
    | none => simp [ha, hb] at hget
    | some y => simpa [ha, hb] using hget

theorem Only.sized {S : List Part} {a b : Module} (h : Only S a b)
    (hS : ∀ q ∈ [Part.phLen, .rlLen, .trLen, .fdLen, .btLen], q ∉ S := by decide) : Sized a → Sized b := by
  rintro ⟨hph, hrl, htr, hfd, hbt⟩
  have hph' : b.ph.length = a.ph.length := h .phLen (hS _ (by decide))
  have hrl' : b.rl.length = a.rl.length := h .rlLen (hS _ (by decide))
  have htr' : b.tr.length = a.tr.length := h .trLen (hS _ (by decide))
  have hfd' : b.fd.length = a.fd.length := h .fdLen (hS _ (by decide))
  have hbt' : b.bt.length = a.bt.length := h .btLen (hS _ (by decide))
  exact ⟨hph'.trans hph, hrl'.trans hrl, htr'.trans htr, hfd'.trans hfd, hbt'.trans hbt⟩

theorem Only.noneDue {S : List Part} {a b : Module} (h : Only S a b) (hS : .falls ∉ S := by decide) :
    NoneDue a → NoneDue b := fun ha t ht => (fallDue_of_same (h .falls hS) t).trans (ha t ht)

section
variable {c : Prop} {x y : NonVol × Module} {nv nv' : NonVol} {m m' : Module}

theorem Sound.refl (c : Prop) (x : NonVol × Module) : Sound c x x := ⟨id, .refl _, id, fun _ => id⟩

theorem Sound.trans {z : NonVol × Module} (h : Sound c x y) (h' : Sound c y z) : Sound c x z :=
  ⟨h'.form ∘ h.form, h.lasts.trans h'.lasts, h'.sized ∘ h.sized, fun hc => h'.due hc ∘ h.due hc⟩

theorem Sound.weaken (h : Sound True x y) : Sound c x y := ⟨h.form, h.lasts, h.sized, fun _ => h.due trivial⟩

theorem Sound.foldl {α : Type} {l : List α} {f : NonVol × Module → α → NonVol × Module} (h : Sound c x y)
    (hf : ∀ z a, Sound c x z → Sound c x (f z a)) : Sound c x (l.foldl f y) := by
  induction l generalizing y with
  | nil => exact h
  | cons a l ih => exact ih (hf y a h)

/-- An operation of the module alone. -/
theorem Sound.quiet (h : Sound c x (nv, m)) (ho : Only quietParts m m') : Sound c x (nv, m') :=
  h.trans ⟨fun ⟨hm, hs⟩ => ⟨hm, (congrArg Mem.sram (ho .mem (by decide))) ▸ hs⟩, .refl _, ho.sized, fun _ => ho.noneDue⟩

theorem Sound.and (h : Sound c x y) (ho : Only quietParts y.2 m') : Sound c x (y.1, m') := h.quiet ho

/-- An operation that also reaches the memories. -/
theorem Sound.mem (h : Sound c x (nv, m)) (hform : memForm (nv, m) → memForm y) (hl : Lasts nv y.1)
    (ho : Only (.mem :: quietParts) m y.2) : Sound c x y := h.trans ⟨hform, hl, ho.sized, fun _ => ho.noneDue⟩

/-- An operation that reaches no word of the memories. -/
theorem Sound.sram (h : Sound c x (nv, m)) (hs : m'.mem.sram = m.mem.sram) (ho : Only (.mem :: quietParts) m m') :
    Sound c x (nv, m') := h.mem (fun ⟨hm, hm'⟩ => ⟨hm, hs ▸ hm'⟩) (.refl _) ho

/-- A word of the non-volatile part is stored. -/
theorem Sound.stored (h : Sound c x (nv, m)) (hmram : wfMap zero64 nv.mram = true → wfMap zero64 nv'.mram = true)
    (hl : Lasts nv nv') : Sound c x (nv', m) :=
  h.trans ⟨fun ⟨hm, hs⟩ => ⟨hmram hm, hs⟩, hl, id, fun _ => id⟩

end

end Sys2Proof.Machine
end

section
/-! What each operation that reaches the memories or the non-volatile part keeps, in the order of the definitions. -/

namespace Sys2Proof.Machine

section
variable {c : Prop} {x : NonVol × Module} {nv : NonVol} {m : Module}

/-! ### Module state and the memories -/

theorem nvApply_lasts (nv : NonVol) (w : NvWr) : Lasts nv (nvApply nv w) := by
  cases w with
  | wear l => exact .of_same rfl rfl rfl rfl rfl rfl
  | optime t => exact .of_same rfl rfl rfl rfl rfl rfl
  | remap u sp row => exact fun h =>
      ⟨⟨List.prefix_refl _, List.prefix_append _ _, le_refl _, le_refl _, le_refl _, le_refl _⟩, h⟩

theorem foldl_nvApply_lasts (ws : List NvWr) (nv : NonVol) : Lasts nv (ws.foldl nvApply nv) := by
  induction ws generalizing nv with
  | nil => exact .refl nv
  | cons w ws ih => exact (nvApply_lasts nv w).trans (ih _)

theorem nvWrite_sound {w : NvWr} (h : Sound c x (nv, m)) : Sound c x (m.nvWrite nv w) := by
  unfold Module.nvWrite
  split
  · exact h.sram rfl ((with_mem_only (by decide)).2 (Only.refl _ m))
  · exact h.stored (by cases w <;> exact id) (nvApply_lasts nv w)

theorem rowFails_sound {u row : Nat} (h : Sound c x (nv, m)) : Sound c x (nv, m.rowFails u row) :=
  h.sram (Module.rowFails_sram m u row) ((Module.rowFails_only (by decide)).2 (Only.refl _ m))

theorem corrected_sound {p : Place} {sym : Nat} (h : Sound c x (nv, m)) : Sound c x (nv, m.corrected p sym) :=
  h.sram (Module.corrected_sram m p sym) ((Module.corrected_only (by decide)).2 (Only.refl _ m))

theorem updMem_sound {f : Mem → Mem} (h : Sound c x (nv, m)) (hf : ∀ y, (f y).sram = y.sram) :
    Sound c x (nv, m.updMem f) :=
  h.sram (hf m.mem) ((Module.updMem_only (by decide)).2 (Only.refl _ m))

theorem rowRetired_sound {u row : Nat} (h : Sound c x (nv, m)) : Sound c x (m.rowRetired nv u row) := by
  unfold Module.rowRetired
  split
  · exact h
  · refine nvWrite_sound (Sound.quiet
      (updMem_sound (f := fun y => { y with copy := y.copy.filter (fun z => z ≠ (u, row)) }) h fun _ => rfl) ?_)
    simp (disch := decide) only [↓Module.raiseRec_only, ↓Module.setTbl_only, ↓only_self]

theorem shadowOpen_sound (h : Sound c x (nv, m)) : Sound c x (nv, m.shadowOpen) := by
  have hopen := updMem_sound (f := fun y => { y with opened := true }) h fun _ => rfl
  unfold Module.shadowOpen
  dsimp only
  split
  · exact hopen.quiet ((Module.shadowPoison_only (by decide)).2 (Only.refl _ _))
  · exact hopen

theorem setPoison_sound {p : Place} (h : Sound c x (nv, m)) : Sound c x (m.setPoison nv p) := by
  refine h.mem (Module.setPoison_form m nv p) ?_ ((Module.setPoison_only (by decide)).2 (Only.refl _ m))
  unfold Module.setPoison
  dsimp only
  (repeat' split) <;> exact .of_same rfl rfl rfl rfl rfl rfl

theorem unPoison_sound {p : Place} (h : Sound c x (nv, m)) : Sound c x (m.unPoison nv p) := by
  refine h.mem (Module.unPoison_form m nv p) ?_ ((Module.unPoison_only (by decide)).2 (Only.refl _ m))
  cases p <;> exact .of_same rfl rfl rfl rfl rfl rfl

theorem setWord_sound {p : Place} {v : W64} (h : Sound c x (nv, m)) : Sound c x (m.setWord nv p v) := by
  refine h.mem (Module.setWord_form m nv p v) ?_ ((Module.setWord_only (by decide)).2 (Only.refl _ m))
  unfold Module.setWord
  (repeat' split) <;> exact .of_same rfl rfl rfl rfl rfl rfl

theorem mramFlush_sound (h : Sound c x (nv, m)) : Sound c x (m.mramFlush nv) := by
  refine h.mem (Module.mramFlush_form m nv) ?_ ((Module.mramFlush_only (by decide)).2 (Only.refl _ m))
  unfold Module.mramFlush
  split
  · exact .refl nv
  · have hheld : Lasts nv { nv with mram := m.mem.held.foldl (fun l x => setK zero64 l x.1 x.2) nv.mram } :=
      .of_same rfl rfl rfl rfl rfl rfl
    exact hheld.trans (foldl_nvApply_lasts m.mem.heldNv _)

theorem writeBack_sound {p : Place} (h : Sound c x (nv, m)) : Sound c x (m.writeBack nv p) := by
  unfold Module.writeBack
  split
  · exact h
  · exact setWord_sound h

theorem readWord_sound {p : Place} {bad sym : Nat} (h : Sound c x (nv, m)) :
    Sound c x ((m.readWord nv p bad sym).1, (m.readWord nv p bad sym).2.1) := by
  simp only [Module.readWord]
  (repeat' split)
  · exact h
  · exact h
  · exact writeBack_sound (corrected_sound h)
  · exact setPoison_sound h
  · exact h

theorem granted_sound {p : Place} {q : MemReq} (h : Sound c x (nv, m)) : Sound c x (nv, (m.granted p q).1) :=
  h.sram (Module.granted_sram m p q) ((Module.granted_only (by decide)).2 (Only.refl _ m))

theorem partAccess_sound {p : Place} {i n : Nat} {wr : Option Nat} {bad sym : Nat} (h : Sound c x (nv, m)) :
    Sound c x ((m.partAccess nv p i n wr bad sym).1, (m.partAccess nv p i n wr bad sym).2.1) := by
  cases wr with
  | none => exact readWord_sound h
  | some v =>
    simp only [Module.partAccess]
    split
    · exact setWord_sound (unPoison_sound (p := p) h)
    · have hread := readWord_sound (p := p) (bad := bad) (sym := sym) h
      split
      · exact hread
      · exact setWord_sound hread

/-- An operation that may ask a task to enter its fallback. -/
theorem Sound.drop {m' : Module} (h : Sound False x (nv, m)) (hs : m'.mem.sram = m.mem.sram)
    (ho : Only (.falls :: .mem :: quietParts) m m') : Sound False x (nv, m') :=
  h.trans ⟨fun ⟨hm, hm'⟩ => ⟨hm, hs ▸ hm'⟩, .refl _, ho.sized, False.elim⟩

theorem busError_sound {p : Option Place} {t : Nat} (h : Sound False x (nv, m)) :
    Sound False x (nv, m.busError p t) :=
  h.drop (congrArg Mem.sram (Module.busError_mem m p t)) ((Module.busError_only (by decide)).2 (Only.refl _ m))

theorem out_sound {r : Reply} (h : Sound c x (nv, m)) : Sound c x (nv, { m with out := r }) :=
  h.quiet ((with_out_only (by decide)).2 (Only.refl _ m))

theorem memAccess_sound {q : MemReq} (h : Sound False x (nv, m)) : Sound False x (m.memAccess nv q) := by
  unfold Module.memAccess
  extract_lets n i n1 n2 wr deny p1 p2
  have hdeny : ∀ p : Option Place, Sound False x (nv, deny m p) := fun p => by
    refine h.quiet ?_
    simp only [deny]
    (repeat' split) <;> simp (disch := decide) only [↓Module.countReg_only, ↓Module.heartDeny_only, ↓only_self]
  clear_value deny p1 p2 wr n2 n1 i
  split
  · next a b =>
    split
    · exact busError_sound (hdeny _)
    · split
      · exact busError_sound (hdeny _)
      · have hgranted : Sound False x (nv, (m.granted a q).1) := granted_sound h
        simp only
        split
        · exact hgranted
        · split
          · exact busError_sound hgranted
          · split
            · exact busError_sound (partAccess_sound hgranted)
            · split
              · exact out_sound (partAccess_sound hgranted)
              · split
                · exact busError_sound (partAccess_sound (partAccess_sound hgranted))
                · exact out_sound (partAccess_sound (partAccess_sound hgranted))
  · exact busError_sound h

theorem scrubStep_sound {sram : Bool} {bad sym : Nat} (h : Sound c x (nv, m)) :
    Sound c x (m.scrubStep nv sram bad sym) := by
  simp only [Module.scrubStep]
  split
  · exact h
  · generalize (if sram = true then m.mem.scrubS else m.mem.scrubM) = k
    generalize (if sram = true then Place.sram k else Place.mram (k - 64 * 8192)) = p
    have hread : Sound c x (if m.poisoned nv p = true then (nv, m)
        else ((m.readWord nv p bad sym).1, (m.readWord nv p bad sym).2.1)) := by
      split
      · exact h
      · exact readWord_sound h
    generalize (if m.poisoned nv p = true then (nv, m)
      else ((m.readWord nv p bad sym).1, (m.readWord nv p bad sym).2.1)) = r at hread
    split
    · exact updMem_sound hread fun y => by split <;> rfl
    · refine Sound.quiet (updMem_sound (f := fun y => if sram then { y with scrubS := 0 }
        else { y with scrubM := 64 * 8192 }) hread fun y => by split <;> rfl) ?_
      simp (disch := decide) only [↓Module.raise_only, ↓Module.put_only, ↓Module.boundary_only, ↓only_self]

theorem shadowReload_sound {addr : Nat} (h : Sound c x (nv, m)) : Sound c x (nv, m.shadowReload nv addr) :=
  h.mem (Module.shadowReload_form m nv addr) (.refl nv) ((Module.shadowReload_only (by decide)).2 (Only.refl _ m))

theorem localClear_sound {k : Nat} (h : Sound c x (nv, m)) : Sound c x (nv, m.localClear k) :=
  h.mem (Module.localClear_form m nv k) (.refl nv) ((Module.localClear_only (by decide)).2 (Only.refl _ m))

theorem shadowLoad_sound (h : Sound c x (nv, m)) : Sound c x (nv, m.shadowLoad nv.mram) :=
  h.mem (Module.shadowLoad_form m nv) (.refl nv) ((Module.shadowLoad_only (by decide)).2 (Only.refl _ m))

theorem heartReload_sound (h : Sound c x (nv, m)) : Sound c x (nv, m.heartReload nv) :=
  h.mem (Module.heartReload_form m nv) (.refl nv) ((Module.heartReload_only (by decide)).2 (Only.refl _ m))

theorem trStore_sound {k s : Nat} {vs : List Int} (h : Sound c x (nv, m)) : Sound c x (nv, m.trStore k s vs) :=
  h.mem (Module.trStore_form m nv k s vs) (.refl nv) ((Module.trStore_only (by decide)).2 (Only.refl _ m))

theorem trRecord_sound {k : Nat} (h : Sound c x (nv, m)) : Sound c x (nv, m.trRecord k) := by
  have hwhen : Sound c x (nv, if m.trSt k = tsArmed && m.trCond k (m.trace k).last
      (nth 0 ((List.range 8).map fun j => m.node (m.nodeCode k j)) (m.cfg (pgTrace + k) TRACE_TRIG_NODE))
      then m.trTrigger k 4 else m) := by
    split
    · exact h.quiet ((Module.trTrigger_only (by decide)).2 (Only.refl _ m))
    · exact h
  unfold Module.trRecord
  extract_lets vs v last was m1 m2 m3
  have hstored : Sound c x (nv, m3) :=
    (trStore_sound hwhen).quiet ((Module.updTr_only (by decide)).2 (Only.refl _ _))
  split
  · exact hstored.quiet ((Module.trFill_only (by decide)).2 (Only.refl _ m3))
  · exact hstored.quiet ((Module.trEnd_only (by decide)).2 (Only.refl _ m3))

/-- An operation of the module in a fold. -/
theorem Sound.foldlModule {α : Type} {l : List α} {f : Module → α → Module} (h : Sound c x (nv, m))
    (hf : ∀ m a, Sound c x (nv, m) → Sound c x (nv, f m a)) : Sound c x (nv, l.foldl f m) := by
  induction l generalizing m with
  | nil => exact h
  | cons a l ih => exact ih (hf m a h)

theorem trSample_sound {r : Nat} {full : List Nat} (h : Sound c x (nv, m)) : Sound c x (nv, m.trSample r full) :=
  h.foldlModule fun m k h => by
    have hfull : Sound c x (nv, m.updTr k (fun y => { y with div := 0 })) :=
      h.quiet ((Module.updTr_only (by decide)).2 (Only.refl _ m))
    dsimp only
    split
    · split
      · exact h.quiet ((Module.updTr_only (by decide)).2 (Only.refl _ m))
      · split
        · exact hfull.quiet ((Module.raise_only (by decide)).2 ((Module.put_only (by decide)).2 (Only.refl _ _)))
        · exact trRecord_sound hfull
    · exact h

theorem bankCopy_sound {b t : Nat} (h : Sound c x (nv, m)) : Sound c x (nv, m.bankCopy b t) :=
  h.mem (Module.bankCopy_form m nv b t) (.refl nv) ((Module.bankCopy_only (by decide)).2 (Only.refl _ m))

theorem bankMoved_sound {b : Nat} (h : Sound c x (nv, m)) : Sound c x (nv, m.bankMoved b) := by
  unfold Module.bankMoved
  refine Sound.quiet (Sound.foldlModule h fun m k h => ?_)
    ((only_foldl fun m kv => (Module.setKey_only (by decide)).2 (Only.refl _ m)).2 (Only.refl _ _))
  split
  · dsimp only
    split
    · exact (bankCopy_sound h).quiet ((Module.updTr_only (by decide)).2 (Only.refl _ _))
    · exact h.quiet ((Module.updTr_only (by decide)).2 (Only.refl _ m))
  · exact h

theorem clkBack_sound {k : Nat} (h : Sound c x (nv, m)) : Sound c x (m.clkBack nv k) := by
  unfold Module.clkBack
  split
  · exact h
  · refine mramFlush_sound (h.quiet ?_)
    simp (disch := decide) only [↓Module.updRc_only, ↓Module.clkStat_only, ↓with_clk_only, ↓only_ite, ↓only_self, ite_self]

/-! ### Heartwood, keys and the recorder -/

theorem wipeStart_sound {cause : Nat} (h : Sound c x (nv, m)) : Sound c x (m.wipeStart nv cause) := by
  unfold Module.wipeStart
  split
  · exact h
  · refine (Sound.quiet h ?_).stored id (.of_same rfl rfl rfl rfl rfl rfl)
    simp (disch := decide) only [↓Module.put_only, ↓Module.updHw_only, ↓only_self]

theorem le_satAdd {w a : Nat} (ha : a < 2 ^ w) : a ≤ satAdd w a 1 ∧ satAdd w a 1 < 2 ^ w := by
  unfold satAdd
  omega

theorem wipeNv_lasts (nv : NonVol) : Lasts nv (Module.wipeNv nv) := fun ⟨hpcc, hwipes, hroot⟩ => by
  obtain ⟨hle, hlt⟩ := le_satAdd hwipes
  exact ⟨⟨List.prefix_refl _, List.prefix_refl _, le_refl _, le_refl _, hle, le_refl _⟩, hpcc, hlt, hroot⟩

theorem wiped_sound {cause : Nat} (h : Sound c x (nv, m)) : Sound c x (m.wiped nv cause) := by
  refine Sound.quiet (m := m.wipeSram) (h.mem (y := (Module.wipeNv nv, m.wipeSram)) (Module.wipe_form m nv) (wipeNv_lasts nv)
    ((Module.wipeSram_only (by decide)).2 (Only.refl _ m))) ?_
  simp (disch := decide) only [↓Module.recMake_only, ↓Module.raise_only, ↓Module.put_only, ↓Module.setReg_only, ↓only_self]

theorem tampered_sound {j : Nat} (h : Sound c x (nv, m)) : Sound c x (m.tampered nv j) := by
  unfold Module.tampered
  split
  · refine wipeStart_sound (h.quiet ?_)
    simp (disch := decide) only [↓Module.latchNow_only, ↓Module.raise_only, ↓only_self]
  · exact h

theorem glitched_sound {kind : Nat} (h : Sound c x (nv, m)) : Sound c x (m.glitched nv kind) := by
  unfold Module.glitched
  split
  · exact h
  · refine wipeStart_sound (h.quiet ?_)
    simp (disch := decide) only [↓Module.latchNow_only, ↓Module.raise_only, ↓only_self]

theorem recReserve_sound (h : Sound c x (nv, m)) : Sound c x (m.recReserve nv) := by
  unfold Module.recReserve
  split
  · exact h
  · exact (h.quiet ((Module.updRc_only (by decide)).2 (Only.refl _ m))).stored id (.of_same rfl rfl rfl rfl rfl rfl)

theorem ringPut_lasts (nv : NonVol) (r : Rec) : Lasts nv (ringPut nv r) := .of_same rfl rfl rfl rfl rfl rfl

/-- A record goes to the Root log only while it has a free slot. -/
theorem rootPut_lasts (nv : NonVol) (r : Rec) (hfree : nv.root.length < 512) : Lasts nv (rootPut nv r) :=
  fun ⟨hpcc, hwipes, _⟩ =>
    ⟨⟨List.prefix_append _ _, List.prefix_refl _, le_refl _, le_refl _, le_refl _, le_refl _⟩, hpcc, hwipes, by
      simp only [rootPut, List.length_append, List.length_singleton]
      omega⟩

theorem recDrain_sound (h : Sound c x (nv, m)) : Sound c x (m.recDrain nv) := by
  unfold Module.recDrain
  split
  · exact h
  · split
    · exact h
    · next r rest _ =>
      extract_lets root r' nv1 nv2 m1 m2 m3 m4
      have hput : Sound c x (nv2, m) := by
        have hring : Sound c x (nv1, m) := h.stored id (ringPut_lasts nv r')
        simp only [nv2]
        split
        · next hroot =>
          refine hring.stored id (rootPut_lasts nv1 r' ?_)
          simp only [root, Bool.and_eq_true, decide_eq_true_eq] at hroot
          exact hroot.2
        · exact hring
      refine recReserve_sound (hput.quiet ?_)
      simp (disch := decide) only [m4, m3, m2, m1, ↓Module.recLostSay_only, ↓Module.put_only, ↓Module.raise_only,
        ↓Module.recLogRegs_only, ↓Module.recStageReg_only, ↓Module.updRc_only, ↓only_ite, ↓only_self, ite_self]

theorem recScan_sound (h : Sound c x (nv, m)) : Sound c x (m.recScan nv) := by
  unfold Module.recScan
  split
  · exact h
  · refine recReserve_sound (h.quiet ?_)
    simp (disch := decide) only [↓Module.recBegin_only, ↓Module.latchNow_only, ↓Module.put_only, ↓Module.recLogRegs_only,
      ↓Module.setReg_only, ↓with_sys_only, ↓Module.updRc_only, ↓only_ite, ↓only_self, ite_self]

theorem breathWrite_sound {us : Nat} {torn : Bool} (h : Sound c x (nv, m)) : Sound c x (m.breathWrite nv us torn) := by
  unfold Module.breathWrite
  extract_lets m1 pl r m2 m3
  have h1 : Sound c x (nv, m1) := h.quiet ((Module.updRc_only (by decide)).2 (Only.refl _ m))
  split
  · exact h1
  · have hput : Sound c x (if torn then ringTorn nv r else ringPut nv r, m1) := by
      refine h1.stored ?_ ?_
      · split <;> exact id
      · split <;> exact .of_same rfl rfl rfl rfl rfl rfl
    refine hput.quiet ?_
    simp (disch := decide) only [m3, m2, ↓Module.setReg_only, ↓Module.updRc_only, ↓only_self]

theorem breathEnter_sound {us : Nat} {torn : Bool} (h : Sound c x (nv, m)) : Sound c x (m.breathEnter nv us torn) := by
  unfold Module.breathEnter
  split
  · exact h.quiet ((Module.updRc_only (by decide)).2 (Only.refl _ m))
  · exact breathWrite_sound h

theorem keyService_sound {k : Nat} (h : Sound c x (nv, m)) : Sound c x (m.keyService nv k) := by
  simp only [Module.keyService]
  split
  · refine h.quiet ?_
    simp (disch := decide) only [↓Module.raise_only, ↓Module.chSet_only, ↓only_self]
  · refine (h.quiet ?_).stored id (.of_same rfl rfl rfl rfl rfl rfl)
    simp (disch := decide) only [↓Module.raise_only, ↓Module.chSet_only, ↓Module.put_only, ↓Module.updHw_only,
      ↓only_ite, ↓only_self, ite_self]

/-! ### Supply and reset -/

theorem lastBreath_sound {us : Nat} {torn : Bool} (h : Sound c x (nv, m)) : Sound c x (m.lastBreath nv us torn) := by
  refine breathEnter_sound (h.quiet ?_)
  simp (disch := decide) only [↓Module.updSys_only, ↓Module.outputsZ_only, ↓only_self]

theorem collapse_sound {va vb : Nat} {torn : Bool} (h : Sound c x (nv, m)) :
    Sound c x (m.collapse nv va vb torn) := by
  unfold Module.collapse
  extract_lets full m1 m2 m3
  have hm : Sound c x (nv, m3) := by
    refine h.quiet ?_
    simp (disch := decide) only [m3, m2, m1, ↓Module.setHold_only, ↓Module.brown_only, ↓Module.updRc_only,
      ↓Module.updSys_only, ↓only_self]
  split
  · exact hm.quiet ((Module.updSys_only (by decide)).2 (Only.refl _ _))
  · exact lastBreath_sound hm

theorem lifeBlown_sound {target : Nat} (h : Sound c x (nv, m)) : Sound c x (Module.lifeBlown nv target, m) :=
  h.stored id (.of_same rfl rfl rfl rfl rfl rfl)

theorem romRepair_sound (h : Sound c x (nv, m)) : Sound c x (m.romRepair nv) := by
  simp only [Module.romRepair]
  have hwiped : Sound c x (if nv.wipePending = true then m.wiped nv 8 else (nv, m)) := by
    split
    · exact wiped_sound h
    · exact h
  generalize (if nv.wipePending = true then m.wiped nv 8 else (nv, m)) = z at hwiped
  split
  · refine lifeBlown_sound (Sound.and (wiped_sound hwiped) ?_)
    simp (disch := decide) only [↓Module.lifeRecord_only, ↓only_self]
  · exact hwiped

theorem romStart_sound {cause : W32} (h : Sound c x (nv, m)) : Sound c x (m.romStart nv cause) := by
  simp only [Module.romStart]
  refine Sound.and (romRepair_sound (h.quiet ?_)) ?_
  · simp (disch := decide) only [↓Module.romIdent_only, ↓Module.updRc_only, ↓Module.updEp_only, ↓Module.setReg_only,
      ↓only_self]
  · simp (disch := decide) only [↓Module.toPhase_only, ↓Module.wearWords_only, ↓Module.romRegs_only, ↓Module.romMac_only,
      ↓only_self]

/-- A module that begins anew. -/
theorem Sound.fresh {m' : Module} (h : Sound c x (nv, m)) (hs : m'.mem.sram = []) (hlen : Sized m') (hdue : NoneDue m') :
    Sound c x (nv, m') :=
  h.trans ⟨fun ⟨hm, _⟩ => ⟨hm, hs ▸ rfl⟩, .refl _, fun _ => hlen, fun _ _ => hdue⟩

theorem cleared_sound {p : Power} (h : Sound c x (nv, m)) : Sound c x (nv, m.cleared p) := by
  unfold Module.cleared
  extract_lets brown a b z z1 z2
  have hz : Sound c x (nv, z) := h.fresh rfl ⟨rfl, rfl, rfl, rfl, rfl⟩ fun t ht => by
    interval_cases t <;> rfl
  refine hz.quiet ?_
  simp (disch := decide) only [z2, z1, ↓Module.put_only, ↓only_self]

theorem moduleReset_sound {cause clk cmd unit : Nat} (h : Sound c x (nv, m)) :
    Sound c x (m.moduleReset nv cause clk cmd unit) := by
  refine romStart_sound (Sound.quiet (cleared_sound (h.quiet ?_)) ((Module.updSys_only (by decide)).2 (Only.refl _ _)))
  exact (Module.updLost_only (by decide)).2 (Only.refl _ m)

theorem unpowered_sound (h : Sound c x (nv, m)) : Sound c x (nv, m.unpowered) :=
  h.fresh rfl ⟨rfl, rfl, rfl, rfl, rfl⟩ fun t ht => by interval_cases t <;> rfl

theorem powerOn_sound {va vb straps : Nat} (h : Sound c x (nv, m)) : Sound c x (m.powerOn nv va vb straps) := by
  unfold Module.powerOn
  extract_lets pcc nv1 z z1
  have hpcc : Sound c x (nv1, m) := h.stored id fun ⟨hpcc, hwipes, hroot⟩ => by
    obtain ⟨hle, hlt⟩ := le_satAdd hpcc
    exact ⟨⟨List.prefix_refl _, List.prefix_refl _, le_refl _, le_refl _, le_refl _, hle⟩, hlt, hwipes, hroot⟩
  have hz : Sound c x (nv1, z) := hpcc.fresh rfl ⟨rfl, rfl, rfl, rfl, rfl⟩ fun t ht => by
    interval_cases t <;> rfl
  refine romStart_sound (hz.quiet ?_)
  simp (disch := decide) only [z1, ↓Module.put_only, ↓only_self]

end

end Sys2Proof.Machine
end

section
/-! What a download, the life cycle, the schedule and the register fabric keep, in the order of the definitions. -/

namespace Sys2Proof.Machine

section
variable {c : Prop} {x : NonVol × Module} {nv : NonVol} {m : Module}

/-! ### Downloads and the life cycle -/

theorem writeBytes_sound {a : Nat} {bs : List Byte} (h : Sound c x (nv, m)) : Sound c x (m.writeBytes nv a bs) :=
  h.foldl fun _ y hz => setWord_sound (unPoison_sound (p := .mram ((a + y.2) / 8)) hz)

theorem setMark_sound {on : Bool} (h : Sound c x (nv, m)) : Sound c x (m.setMark nv on) :=
  (h.quiet ((Module.put_only (by decide)).2 (Only.refl _ m))).stored id (.of_same rfl rfl rfl rfl rfl rfl)

theorem blockWrite_sound {ofs : Nat} {data : List Byte} (h : Sound c x (nv, m)) :
    Sound c x (m.blockWrite nv ofs data) := by
  have hmarked : Sound c x ((m.writeBytes nv (m.updBase + ofs) data).1,
      (m.writeBytes nv (m.updBase + ofs) data).2.markGranules ofs data.length) :=
    (writeBytes_sound h).and ((Module.markGranules_only (by decide)).2 (Only.refl _ _))
  unfold Module.blockWrite
  dsimp only
  split
  · exact hmarked.quiet ((Module.updTo_only (by decide)).2 (Only.refl _ _))
  · exact hmarked

theorem blockFirst_sound {data : List Byte} (h : Sound c x (nv, m)) :
    Sound c x ((m.blockFirst nv data).1, (m.blockFirst nv data).2.1) := by
  have htaken : Sound c x (nv, m.takeHeader data) := h.quiet ((Module.takeHeader_only (by decide)).2 (Only.refl _ m))
  have hopen : Sound c x (if m.updPlan = true
      then (m.takeHeader data).writeBytes nv (copyBase (m.takeHeader data).up.copy) (toBytes 4 0x0000FFFF)
      else (((m.takeHeader data).setMark nv true).1, ((m.takeHeader data).setMark nv true).2.shadowOpen)) := by
    split
    · exact writeBytes_sound htaken
    · exact shadowOpen_sound (setMark_sound htaken)
  simp only [Module.blockFirst]
  generalize (if m.updPlan = true then 16 else 256) = least
  generalize (if m.updPlan = true then if planHeader magicPlan data = true then 0 else 3
    else imageHeader m nv data) = why
  generalize (if m.updSt = usReady then some UPDATE_EV_OPENED else none) = ev
  generalize (if m.updPlan = true then _ else _) = z at hopen ⊢
  (repeat' split) <;> try exact h
  · exact blockWrite_sound (hopen.and ((Module.updTo_only (by decide)).2 (Only.refl _ _)))

theorem blockTake_sound {k ofs : Nat} {data : List Byte} (h : Sound c x (nv, m)) :
    Sound c x ((m.blockTake nv k ofs data).1, (m.blockTake nv k ofs data).2.1) := by
  simp only [Module.blockTake]
  (repeat' split) <;> try exact h
  · exact blockFirst_sound h
  · exact blockWrite_sound (h.quiet ((Module.updTo_only (by decide)).2 (Only.refl _ m)))

theorem updRefuse_sound {why ofs : Nat} (h : Sound c x (nv, m)) :
    Sound c x (nv, if why = 0 then m else m.updRefuse why ofs) :=
  h.quiet (by simp (disch := decide) only [↓Module.updRefuse_only, ↓only_ite, ↓only_self, ite_self])

theorem block_sound {k ofs : Nat} {data : List Byte} (h : Sound c x (nv, m)) :
    Sound c x ((m.block nv k ofs data).1, (m.block nv k ofs data).2.1) :=
  updRefuse_sound (blockTake_sound h)

theorem makeRun_sound {ver : Nat} (h : Sound c x (nv, m)) : Sound c x (m.makeRun nv ver) := by
  refine (h.quiet ?_).stored id fun ⟨hpcc, hwipes, hroot⟩ =>
    ⟨⟨List.prefix_refl _, List.prefix_refl _, le_max_left _ _, le_max_left _ _, le_refl _, le_refl _⟩, hpcc, hwipes,
      hroot⟩
  simp (disch := decide) only [↓Module.setReg_only, ↓only_self]

theorem updActivate_sound (h : Sound c x (nv, m)) :
    Sound c x ((m.updActivate nv).1, (m.updActivate nv).2.1) := by
  simp only [Module.updActivate]
  (repeat' split) <;> try exact h
  · exact h.quiet ((Module.updTo_only (by decide)).2 (Only.refl _ m))
  · refine (makeRun_sound h).and ?_
    simp (disch := decide) only [↓Module.updSys_only, ↓Module.updTo_only, ↓Module.fmtDiff_only, ↓only_self]
  · refine (makeRun_sound h).and ?_
    simp (disch := decide) only [↓Module.fwAsk_only, ↓Module.updTo_only, ↓Module.fmtDiff_only, ↓only_self]

theorem updVerify_sound (h : Sound c x (nv, m)) : Sound c x (m.updVerify nv) := by
  unfold Module.updVerify
  split
  · exact h
  · split
    · extract_lets bs why m1
      have hto : Sound c x (nv, m1) := h.quiet ((Module.updTo_only (by decide)).2 (Only.refl _ m))
      clear_value why m1
      split
      · refine h.quiet ?_
        simp (disch := decide) only [↓Module.updTo_only, ↓Module.put_only, ↓only_self]
      · split
        · exact updRefuse_sound (updActivate_sound hto)
        · exact hto
    · extract_lets sum
      split
      · exact h.quiet ((Module.updTo_only (by decide)).2 (Only.refl _ m))
      · have hto : Sound c x ((m.setMark nv false).1, (m.setMark nv false).2.updTo usVerified (some UPDATE_EV_VERIFIED)) :=
          (setMark_sound h).and ((Module.updTo_only (by decide)).2 (Only.refl _ _))
        dsimp only
        split
        · exact updRefuse_sound (updActivate_sound hto)
        · exact hto

theorem planStored_sound (h : Sound c x (nv, m)) : Sound c x (m.planStored nv) := by
  unfold Module.planStored
  extract_lets k plan inForce g g'
  clear_value g' plan k
  split
  · exact h
  · have hlimp : Sound c x (m.writeBytes nv limpBase (limpBytes plan ((planOf magicPlan plan).getD []))) :=
      writeBytes_sound h
    generalize m.writeBytes nv limpBase _ = z at hlimp
    have hpair : Sound c x (z.2.writeBytes z.1 (copyBase k) (toBytes 4 (mkPair g').toNat)) := writeBytes_sound hlimp
    dsimp only
    generalize z.2.writeBytes z.1 _ _ = y at hpair
    refine hpair.and ?_
    simp (disch := decide) only [↓Module.updTo_only, ↓Module.fmtDiff_only, ↓only_self]

theorem updOp_sound {k op : Nat} (h : Sound c x (nv, m)) :
    Sound c x ((m.updOp nv k op).1, (m.updOp nv k op).2.1) := by
  simp only [Module.updOp]
  (repeat' split) <;> try exact h
  · exact h.quiet ((Module.updStart_only (by decide)).2 (Only.refl _ m))
  · exact h.quiet ((Module.updStart_only (by decide)).2 (Only.refl _ m))
  · exact updActivate_sound h
  · exact h.quiet ((Module.updAbort_only (by decide)).2 (Only.refl _ m))
  · exact h.quiet ((Module.updSys_only (by decide)).2 (Only.refl _ m))

theorem updCommand_sound {k op : Nat} (h : Sound c x (nv, m)) :
    Sound c x ((m.updCommand nv k op).1, (m.updCommand nv k op).2.1) :=
  updRefuse_sound (updOp_sound h)

theorem lifeCommit_sound {k target : Nat} {auth : Bool} (h : Sound c x (nv, m)) :
    Sound c x (m.lifeCommit nv k auth target) := by
  unfold Module.lifeCommit
  dsimp only
  split
  · exact h.quiet ((Module.lifeRefuse_only (by decide)).2 (Only.refl _ m))
  · refine wipeStart_sound (h.quiet ?_)
    simp (disch := decide) only [↓Module.put_only, ↓Module.updLc_only, ↓Module.lifeDisarm_only, ↓only_self]

theorem lifeCmd_sound {k : Nat} {auth : Bool} {v : W32} (h : Sound c x (nv, m)) :
    Sound c x (m.lifeCmd nv k auth v) := by
  unfold Module.lifeCmd
  dsimp only
  split
  · exact h.quiet ((Module.lifeArm_only (by decide)).2 (Only.refl _ m))
  · exact lifeCommit_sound h

theorem lifeChanged_sound {target : Nat} (h : Sound c x (nv, m)) : Sound c x (m.lifeChanged nv target) := by
  unfold Module.lifeChanged
  extract_lets old nv1 m1 m2 m3 m4 m5 m6
  have hm : Sound c x (nv1, m6) := by
    refine lifeBlown_sound (h.quiet ?_)
    simp (disch := decide) only [m6, m5, m4, m3, m2, m1, ↓Module.raise_only, ↓Module.lifeRecord_only, ↓Module.updRc_only,
      ↓Module.put_only, ↓Module.updLc_only, ↓Module.updSys_only, ↓only_ite, ↓only_self, ite_self]
  split
  · exact moduleReset_sound hm
  · exact hm

end

end Sys2Proof.Machine
end

section
/-! What the tasks, the register fabric and its transactions keep. -/

namespace Sys2Proof.Machine

section
variable {c : Prop} {x : NonVol × Module} {nv : NonVol} {m : Module}

/-! ### Tasks and their fallbacks -/

theorem task_updTask (m : Module) (t u : Nat) (f : Task → Task) :
    (m.updTask t f).task u = if u = t ∧ u < m.sched.tasks.length then f (m.task u) else m.task u := by
  simp only [Module.updTask, Module.task, nth, upd, List.getD_eq_getElem?_getD, List.getElem?_modify]
  by_cases hu : u < m.sched.tasks.length
  · by_cases htu : t = u
    · simp [hu, htu]
    · simp [hu, htu, Ne.symm (a := t) htu]
  · simp [hu]

/-- A task is told that it need not enter its fallback. -/
theorem updTask_fallDue_false {t u : Nat} {f : Task → Task} (hf : ∀ y, (f y).fallDue = false) :
    ((m.updTask t f).task u).fallDue = if u = t then false else (m.task u).fallDue := by
  rw [task_updTask]
  by_cases hut : u = t
  · by_cases hu : u < m.sched.tasks.length
    · simp [hut, hut ▸ hu, hf]
    · have hnone : m.task u = { } := by
        simp only [Module.task, nth, List.getD_eq_getElem?_getD, List.getElem?_eq_none (Nat.le_of_not_lt hu)]
        rfl
      simp [hut, hut ▸ hu, hut ▸ hnone]
  · simp [hut]

theorem updTask_quiet {t : Nat} {f : Task → Task} (hf : ∀ y, (f y).fallDue = y.fallDue) :
    Only quietParts m (m.updTask t f) := (Module.updTask_only (by decide) hf).2 (Only.refl _ m)

theorem updTask_sound {t : Nat} {f : Task → Task} (hf : ∀ y, (f y).fallDue = false) (h : Sound c x (nv, m)) :
    Sound c x (nv, m.updTask t f) := by
  refine h.trans ⟨id, .refl _, id, fun _ hdue u hu => ?_⟩
  rw [updTask_fallDue_false hf]
  split
  · rfl
  · exact hdue u hu

theorem latchGone_sound {b : Blk} {n i : Nat} (h : Sound c x (nv, m)) : Sound c x (nv, m.latchGone b n i) := by
  by_cases hb : b = .sched
  · subst hb
    simp only [Module.latchGone]
    split
    · exact h
    · exact (updTask_sound (fun _ => rfl) h).quiet ((Module.groveEpoch_only (by decide)).2 (Only.refl _ _))
  · refine h.quiet ?_
    unfold Module.latchGone
    split
    · exact absurd rfl hb
    all_goals simp (disch := decide) only [↓Module.groveUpdate_only, ↓Module.put_only, ↓Module.ringReadmit_only,
      ↓Module.convRelease_only, ↓Module.xingJudge_only, ↓Module.spareRelease_only, ↓Module.phaseRelease_only,
      ↓Module.netRepair_only, ↓Module.capDrive_only, ↓Module.fdRelease_only, ↓Module.railRelease_only, ↓only_ite,
      ↓only_self, ite_self]

theorem clearLatch_sound {b : Blk} {p n i : Nat} (h : Sound c x (nv, m)) : Sound c x (nv, m.clearLatch b p n i) := by
  unfold Module.clearLatch
  split
  · exact h
  · refine latchGone_sound (h.quiet ?_)
    simp (disch := decide) only [↓Module.recFault_only, ↓Module.clearCtr_only, ↓Module.setReg_only, ↓only_self]

theorem clearLatches_sound {b : Blk} {p n : Nat} {v : W32} (h : Sound c x (nv, m)) :
    Sound c x (nv, m.clearLatches b p n v) :=
  h.foldlModule fun m i h => by
    split
    · exact clearLatch_sound h
    · exact h

theorem autoRelease_sound (h : Sound c x (nv, m)) : Sound c x (nv, m.autoRelease) := by
  unfold Module.autoRelease
  split
  · exact h.foldlModule fun m t h => clearLatch_sound h
  · exact h

theorem bucketEnd_sound {win : Nat} (h : Sound c x (nv, m)) : Sound c x (nv, m.bucketEnd win) := by
  unfold Module.bucketEnd
  extract_lets wait m1 m2 m3
  have h1 : Sound c x (nv, m1) := h.quiet ((with_ctrs_only (by decide)).2 (Only.refl _ m))
  have h2 : Sound c x (nv, m2) := by
    clear_value wait
    cases wait with
    | some kv =>
      exact h1.quiet ((with_winWait_only (by decide)).2 ((Module.force_only (by decide)).2 (Only.refl _ m1)))
    | none => exact h1
  have h3 : Sound c x (nv, m3) := by
    simp only [m3]
    split
    · exact h2.quiet ((with_cfgRec_only (by decide)).2 (Only.refl _ m2))
    · exact h2
  clear_value m3
  split
  · split
    · refine autoRelease_sound (h3.quiet ((with_sched_only (by decide) ?_).2 (Only.refl _ m3)))
      rw [List.map_map]
      rfl
    · exact autoRelease_sound h3
  · exact h3

/-- What a fallback does when it begins moves no other task towards its own. -/
theorem fallbackActs_quiet (m : Module) (t : Nat) :
    Only quietParts m ((m.raise pgSched SCHED_EV_FALLBACK).fallbackActs t) := by
  simp (disch := decide) only [↓Module.fallbackActs_only, ↓Module.raise_only, ↓only_self]

theorem taskFallback_sound {t : Nat} (h : Sound c x (nv, m)) : Sound c x (nv, m.taskFallback t) := by
  unfold Module.taskFallback
  exact (updTask_sound (fun y => by rfl) h).quiet (fallbackActs_quiet _ t)

/-- Once it has entered its fallback, a task need not do so; the others are as they were. -/
theorem taskFallback_fallDue (m : Module) (t u : Nat) :
    ((m.taskFallback t).task u).fallDue = if u = t then false else (m.task u).fallDue := by
  unfold Module.taskFallback
  exact (fallDue_of_same (fallbackActs_quiet _ t .falls (by decide)) u).trans (updTask_fallDue_false fun y => by rfl)

/-- After it no task has yet to enter its fallback. -/
theorem fallNow_noneDue (m : Module) : NoneDue m.fallNow := by
  have hfold : ∀ (l : List Nat) (m : Module), (∀ u, u < 12 → (m.task u).fallDue = true → u ∈ l) →
      NoneDue (l.foldl (fun m t => m.taskFallback t) m) := fun l => by
    induction l with
    | nil => exact fun m hm u hu => Bool.eq_false_iff.2 fun hdue => by simpa using hm u hu hdue
    | cons t l ih =>
      refine fun m hm => ih _ fun u hu hdue => ?_
      rw [taskFallback_fallDue] at hdue
      split at hdue
      · simp at hdue
      · next hut => exact (List.mem_cons.1 (hm u hu hdue)).resolve_left hut
  exact hfold _ m fun u hu hdue => by simp [hu, hdue]

theorem fallNow_sound (h : Sound False x (nv, m)) : Sound c x (nv, m.fallNow) := by
  have hfold : Sound False x (nv, m.fallNow) := h.foldlModule fun m t h => taskFallback_sound h
  exact ⟨hfold.form, hfold.lasts, hfold.sized, fun _ _ => fallNow_noneDue m⟩

theorem taskDrop_sound {t why : Nat} (h : Sound False x (nv, m)) : Sound False x (nv, m.taskDrop t why) :=
  h.drop (congrArg Mem.sram (Module.taskDrop_mem m t why)) ((Module.taskDrop_only (by decide)).2 (Only.refl _ m))

theorem Sound.lax (h : Sound c x (nv, m)) : Sound False x (nv, m) := ⟨h.form, h.lasts, h.sized, False.elim⟩

theorem taskDropped_sound {t why : Nat} (h : Sound c x (nv, m)) : Sound c x (nv, m.taskDropped t why) :=
  fallNow_sound (taskDrop_sound h.lax)

theorem taskPolicy_sound {t : Nat} (h : Sound c x (nv, m)) : Sound c x (nv, m.taskPolicy t) := by
  unfold Module.taskPolicy
  split
  · exact h
  · split
    · exact h.quiet ((Module.policyMove_only (by decide)).2 (Only.refl _ m))
    · exact taskFallback_sound h

theorem policies_sound (h : Sound c x (nv, m)) : Sound c x (nv, m.policies) := by
  have hfold : Sound c x (nv, (List.range 12).foldl (fun m t => m.taskPolicy t) m) :=
    h.foldlModule fun m t h => taskPolicy_sound h
  unfold Module.policies
  split
  · exact h
  · dsimp only
    split
    · exact hfold.quiet ((Module.repack_only (by decide)).2 (Only.refl _ _))
    · exact hfold

theorem placeFrame_sound (h : Sound c x (nv, m)) : Sound c x (nv, m.placeFrame) := by
  unfold Module.placeFrame
  extract_lets lean rot m1 m2 m3 m4 m5
  have hm2 : Sound c x (nv, m2) := h.quiet (by
    simp (disch := decide) only [m2, m1, ↓Module.rotChange_only, ↓Module.boundary_only, ↓only_ite, ↓only_self, ite_self])
  split
  · exact hm2
  · have hm3 : Sound c x (nv, m3) := hm2.quiet
      ((only_foldl fun m t => (Module.taskArm_only (by decide)).2 (Only.refl _ m)).2 (Only.refl _ m2))
    refine (policies_sound hm3).quiet ?_
    simp (disch := decide) only [m5, m4, ↓Module.rotRetry_only, ↓Module.cluGate_only, ↓Module.cluWakeAll_only, ↓only_ite,
      ↓only_self, ite_self]

theorem majorFrame_sound {done : List Nat} (h : Sound c x (nv, m)) : Sound c x (m.majorFrame nv done) := by
  unfold Module.majorFrame
  extract_lets m1 m2 m3 m4 m5
  have hm1 : Sound c x (nv, m1) := h.quiet (by
    simp (disch := decide) only [m1, ↓Module.frameTime_only, ↓Module.haltFrame_only, ↓Module.schedStop_only, ↓only_self])
  have hm2 : Sound c x (nv, m2) := autoRelease_sound
    ((placeFrame_sound hm1).quiet ((Module.hwFrame_only (by decide)).2 (Only.refl _ _)))
  refine mramFlush_sound (hm2.quiet ?_)
  simp (disch := decide) only [m5, m4, m3, ↓Module.groveFrame_only, ↓Module.netMs_only, ↓Module.battMs_only,
    ↓Module.rectMs_only, ↓Module.xingFrame_only, ↓Module.tbSlew_only, ↓Module.armFrame_only, ↓Module.settingsFrame_only,
    ↓only_self]

theorem taskStart_sound {t jit : Nat} {gin : List Int} {acok late : Nat} (h : Sound c x (nv, m)) :
    Sound c x (nv, m.taskStart t jit gin acok late) := by
  unfold Module.taskStart
  extract_lets m1 m2 m3 m4 m5
  have hm2 : Sound c x (nv, m2) := h.quiet (by
    simp (disch := decide) only [m2, m1, ↓Module.taskTake_only, ↓Module.epeNext_only, ↓only_ite, ↓only_self, ite_self])
  split
  · exact hm2
  · have hm4 : Sound c x (nv, m4) := (localClear_sound hm2).quiet (updTask_quiet fun y => by rfl)
    have hm5 : Sound c x (nv, m5) := hm4.quiet ((Module.setReg_only (by decide)).2 (Only.refl _ _))
    refine hm5.quiet ?_
    simp (disch := decide) only [↓Module.epeRequest_only, ↓Module.groveSend_only, ↓Module.canopySend_only, ↓only_ite,
      ↓only_self, ite_self]

end

end Sys2Proof.Machine
end

section
/-! What the transactions of the register fabric and the start-up keep. -/

namespace Sys2Proof.Machine

section
variable {c : Prop} {x : NonVol × Module} {nv : NonVol} {m : Module} {t t' : Txn}

/-! ### Transactions -/

/-- What a transaction has kept since `x`. -/
def Txn.Keeps (c : Prop) (x : NonVol × Module) (t : Txn) : Prop := Sound c x (t.nv, t.m)

/-- A step of a transaction that leaves the non-volatile part alone. -/
theorem Txn.Keeps.quiet (h : t.Keeps c x) (hnv : t'.nv = t.nv) (ho : Only quietParts t.m t'.m) : t'.Keeps c x := by
  unfold Txn.Keeps
  rw [hnv]
  exact Sound.quiet h ho

theorem Txn.Keeps.ite {p : Prop} [Decidable p] (h : t.Keeps c x) (h' : t'.Keeps c x) :
    (if p then t else t').Keeps c x := by
  split
  · exact h
  · exact h'

theorem cmdWrite_keeps {b : Blk} {p n addr : Nat} {v : W32} (h : t.Keeps c x) : (t.cmdWrite b p n addr v).Keeps c x := by
  unfold Txn.cmdWrite
  dsimp only
  split
  · exact h.quiet rfl ((Module.blkCommit_only (by decide)).2 (Only.refl _ _))
  · split
    · split
      · exact h.quiet rfl ((Txn.refuse_only (by decide)).2 (Only.refl _ _))
      · split
        · exact h.quiet rfl ((Txn.refuse_only (by decide)).2 (Only.refl _ _))
        · exact h.quiet (Txn.sysCmd_nv ..) ((Txn.sysCmd_only (by decide)).2 (Only.refl _ _))
    · split
      · exact wipeStart_sound h
      · exact h
    · exact h
    · exact h
    · exact h.quiet rfl ((Module.blkCmd_only (by decide)).2 (Only.refl _ _))

theorem accept_keeps {k : Nat} {v : W32} (h : t.Keeps c x) : (t.accept k v).Keeps c x :=
  h.quiet rfl ((Txn.accept_only (by decide)).2 (Only.refl _ _))

theorem regWrite_keeps {b : Blk} {p n addr : Nat} {row : RegRow} {v : W32} (h : t.Keeps c x) :
    (t.regWrite b p n addr row v).Keeps c x := by
  unfold Txn.regWrite
  extract_lets off old w free pairs why r1 r2 t1
  clear_value pairs why
  split
  · exact h.quiet (Txn.turnDown_nv ..) ((Txn.turnDown_only (by decide)).2 (Only.refl _ _))
  · split
    · exact h.quiet rfl ((Module.winWrite_only (by decide)).2 (Only.refl _ _))
    · split
      · exact h.quiet (Txn.mailReg_nv ..) ((Txn.mailReg_only (by decide)).2 (Only.refl _ _))
      · split
        · exact lifeCmd_sound h
        · split
          · exact updCommand_sound h
          · split
            · refine h.quiet rfl ?_
              simp (disch := decide) only [Txn.on, ↓Module.profile_only, ↓Module.setBoth_only, ↓only_self]
            · have ht1 : t1.Keeps c x :=
                (accept_keeps h).quiet rfl ((Module.wroteHook_only (by decide)).2 (Only.refl _ _))
              split
              · exact ht1
              · exact ht1

theorem write_keeps {w : RegWr} (h : t.Keeps c x) : (t.write w).Keeps c x := by
  have hgone : ∀ why, ((t.refuse w.addr why).submitGone w.addr).Keeps c x := fun why =>
    h.quiet (by rw [Txn.submitGone_nv, Txn.refuse_nv])
      ((Txn.submitGone_only (by decide)).2 ((Txn.refuse_only (by decide)).2 (Only.refl _ _)))
  unfold Txn.write
  extract_lets p off
  split
  · exact h
  · refine .ite (hgone whyBrown) (.ite (hgone whyAuto) (.ite ?_ (.ite h (.ite ?_ (.ite ?_ (.ite ?_ (.ite ?_ (.ite ?_
      (.ite h (.ite h (.ite (cmdWrite_keeps h) (regWrite_keeps h))))))))))))
    · exact h.quiet (Txn.tblWrite_nv ..) ((Txn.tblWrite_only (by decide)).2 (Only.refl _ _))
    · exact h.quiet rfl ((with_sel_only (by decide)).2 (Only.refl _ _))
    · exact h.quiet rfl ((with_idx_only (by decide)).2 (Only.refl _ _))
    · exact h.quiet rfl ((Module.setReg_only (by decide)).2 (Only.refl _ _))
    · exact h.quiet rfl ((Module.setReg_only (by decide)).2 (Only.refl _ _))
    · exact clearLatches_sound h

theorem takeBlock_keeps (h : t.Keeps c x) : t.takeBlock.Keeps c x := by
  unfold Txn.takeBlock
  split
  · exact h
  · extract_lets ofs r t1
    have hblock : t1.Keeps c x := block_sound h
    split
    · exact hblock.quiet rfl ((Module.setBoth_only (by decide)).2 (Only.refl _ _))
    · exact hblock

theorem Txn.Keeps.foldl {α : Type} {l : List α} {f : Txn → α → Txn} (h : t.Keeps c x)
    (hf : ∀ t a, Txn.Keeps c x t → (f t a).Keeps c x) : (l.foldl f t).Keeps c x := by
  induction l generalizing t with
  | nil => exact h
  | cons a l ih => exact ih (hf t a h)

theorem finish_keeps (h : t.Keeps c x) : t.finish.Keeps c x := by
  unfold Txn.finish
  extract_lets t1 t2 t3 t4 t5 t6
  have h1 : t1.Keeps c x := h.quiet rfl ((Module.submitAll_only (by decide)).2 (Only.refl _ _))
  have h2 : t2.Keeps c x := by
    simp only [t2]
    split
    · exact h1.quiet rfl ((Module.recPlace_only (by decide)).2 (Only.refl _ _))
    · exact h1
  have h3 : t3.Keeps c x := takeBlock_keeps h2
  have h4 : t4.Keeps c x :=
    h3.quiet rfl ((only_foldl fun m r => (Module.chRings_only (by decide)).2 (Only.refl _ m)).2 (Only.refl _ _))
  have h5 : t5.Keeps c x :=
    h4.quiet rfl ((only_foldl fun m r => (Module.chAck_only (by decide)).2 (Only.refl _ m)).2 (Only.refl _ _))
  have h6 : t6.Keeps c x :=
    h5.foldl fun t a h => h.quiet (Txn.ctrlWrite_nv ..) ((Txn.ctrlWrite_only (by decide)).2 (Only.refl _ _))
  exact h6.foldl fun t l h => h.quiet rfl ((Module.setReg_only (by decide)).2 (Only.refl _ _))

theorem transact_sound {k : Nat} {auth brown : Bool} {ws : List RegWr} (h : Sound c x (nv, m)) :
    Sound c x ((m.transact nv k auth brown ws).1, (m.transact nv k auth brown ws).2.1) :=
  finish_keeps (Txn.Keeps.foldl h fun _ _ h => write_keeps h)

theorem busWrite_sound {k : Nat} {auth : Bool} {ws : List RegWr} (h : Sound c x (nv, m)) :
    Sound c x (m.busWrite nv k auth ws) := by
  unfold Module.busWrite
  split
  · exact h
  · split
    · exact out_sound h
    · exact transact_sound h

/-! ### Start-up -/

theorem rootWrite_sound {y : NonVol × Module} {ws : List RegWr} (h : Sound c x y) : Sound c x (Module.rootWrite y ws) :=
  transact_sound h

theorem planRun_sound {rs : List PlanRec} {cnt : List Nat} {y : NonVol × Module} (h : Sound c x y) :
    Sound c x (Module.planRun rs cnt y) := by
  induction rs generalizing cnt y with
  | nil =>
    refine Sound.and h ((only_foldl fun m p => ?_).2 (Only.refl _ _))
    dsimp only
    split
    · exact Only.refl _ _
    · simp (disch := decide) only [↓Module.raise_only, ↓Module.put_only, ↓only_ite, ↓only_self, ite_self]
  | cons r rs ih =>
    simp only [Module.planRun]
    split
    · refine ih (rootWrite_sound (Sound.and h ((only_foldl fun m w => ?_).2 ?_)))
      · exact (Module.deferPage_only (by decide)).2 (Only.refl _ _)
      · exact (Module.updSys_only (by decide)).2 (Only.refl _ _)
    · split
      · refine ih (rootWrite_sound (Sound.and h ((only_foldl fun m w => ?_).2 (Only.refl _ _))))
        exact (Module.deferWord_only (by decide)).2 (Only.refl _ _)
      · split
        · exact ih (rootWrite_sound h)
        · exact ih h

theorem planCommit_sound {y : NonVol × Module} (h : Sound c x y) : Sound c x (Module.planCommit y) :=
  h.foldl fun z p h => by
    (repeat' split) <;> try exact h
    exact rootWrite_sound h

theorem planLoad_sound {rs : List PlanRec} (h : Sound c x (nv, m)) : Sound c x (m.planLoad nv rs) :=
  (planCommit_sound (planRun_sound h)).and ((Module.planPoints_only (by decide)).2 (Only.refl _ _))

theorem settings_sound (h : Sound c x (nv, m)) : Sound c x (m.settings nv) := by
  unfold Module.settings
  split
  · exact h
  · extract_lets fmt m1 m2 m3 m4 m5 m6
    have hm3 : Sound c x (nv, m3) := h.quiet (by
      simp (disch := decide) only [m3, m2, m1, ↓Module.put_only, ↓only_self])
    clear_value m3 fmt
    split
    · exact planLoad_sound (hm3.quiet ((Module.put_only (by decide)).2 (Only.refl _ _)))
    · refine planLoad_sound (hm3.quiet ?_)
      simp (disch := decide) only [m6, m5, ↓Module.raiseRec_only, ↓Module.put_only, ↓only_self]

/-- Once it holds its settings, start-up may open the adopt window. -/
theorem loaded_sound {y : NonVol × Module} (h : Sound c x y) :
    Sound c x (y.1, (y.2.updSys (fun z => { z with loaded := true })).tryAdopt) :=
  h.and ((Module.tryAdopt_only (by decide)).2 ((Module.updSys_only (by decide)).2 (Only.refl _ _)))

theorem sapling_sound (h : Sound c x (nv, m)) : Sound c x (m.sapling nv) := by
  unfold Module.sapling
  extract_lets m1 m2 h' m3 m4 none' m5
  have hm4 : Sound c x (nv, m4) := by
    have hm1 : Sound c x (nv, m1) := heartReload_sound (h.quiet
      ((Module.put_only (by decide)).2 ((Module.toPhase_only (by decide)).2 (Only.refl _ m))))
    refine hm1.quiet ?_
    simp (disch := decide) only [m4, m3, m2, ↓Module.pathStart_only, ↓Module.verdictRecords_only, ↓Module.updTh_only,
      ↓only_self]
  clear_value m4 none'
  split
  · exact hm4
  · next rs _ =>
    extract_lets m6
    have hm6 : Sound c x (m6.planLoad nv rs) := planLoad_sound (hm4.quiet (by
      simp (disch := decide) only [m6, m5, ↓Module.updSys_only, ↓Module.put_only, ↓only_self]))
    exact loaded_sound hm6

theorem imageStep_sound (h : Sound c x (nv, m)) : Sound c x (m.imageStep nv) := by
  unfold Module.imageStep
  extract_lets m1 ver
  have hm1 : Sound c x (nv, m1) := by
    have hheart : Sound c x (nv, (m.toPhase 2).heartReload nv) :=
      heartReload_sound (h.quiet ((Module.toPhase_only (by decide)).2 (Only.refl _ m)))
    refine hheart.quiet ?_
    simp (disch := decide) only [m1, ↓Module.calStart_only, ↓Module.heartAclSet_only, ↓only_self]
  clear_value m1 ver
  split
  · have hrun : Sound c x (m1.makeRun nv ver) := makeRun_sound hm1
    generalize m1.makeRun nv ver = z at hrun
    dsimp only
    have himage : Sound c x (z.1, (z.2.fwImage z.1.mram).shadowLoad z.1.mram) :=
      shadowLoad_sound (hrun.and ((Module.fwImage_only (by decide)).2 (Only.refl _ _)))
    refine loaded_sound (settings_sound (himage.quiet ?_))
    · simp (disch := decide) only [↓Module.verdictRecords_only, ↓Module.fwCosts_only, ↓only_self]
  · exact sapling_sound hm1

theorem retireNow_sound {y : NonVol × Module} {row : Nat × Nat} (h : Sound c x y) :
    Sound c x (Module.retireNow y row) := rowRetired_sound (rowFails_sound h)

theorem selfTest_sound {fails : List UnitFail} {rows : List (Nat × Nat)} {ms : Nat} {ro : Bool} (h : Sound c x (nv, m)) :
    Sound c x (m.selfTest nv fails rows ms ro) := by
  have hrows : Sound c x ((rows.filter fun z => m.sramUnit z.1 || 64 ≤ z.1).foldl Module.retireNow (nv, m)) :=
    h.foldl fun _ _ h => retireNow_sound h
  unfold Module.selfTest
  dsimp only
  generalize List.foldl Module.retireNow (nv, m) _ = z at hrows
  generalize hm : Module.updSys _ _ = m1
  have hm1 : Sound c x (z.1, m1) := hrows.and (by
    rw [← hm]
    simp (disch := decide) only [↓Module.updSys_only, ↓Module.updRc_only, ↓Module.selfReport_only,
      ↓Module.selfUnits_only, ↓only_self])
  split
  · exact moduleReset_sound hm1
  · split
    · exact sapling_sound (hm1.quiet ((Module.updSys_only (by decide)).2 (Only.refl _ _)))
    · exact imageStep_sound hm1

theorem release'_sound {lv : List Sensed} {ms : Nat} (h : Sound c x (nv, m)) : Sound c x (m.release' nv lv ms) := by
  unfold Module.release'
  extract_lets m1 m2 m3 ws m4 sap m5
  have hm5 : Sound c x (nv, m5) := h.quiet (by
    simp (disch := decide) only [m5, m4, m3, m2, m1, ↓Module.packNow_only, ↓Module.updSys_only, ↓Module.toPhase_only,
      ↓Module.updRc_only, ↓Module.put_only, ↓Module.adopt_only, ↓only_ite, ↓only_self, ite_self])
  clear_value m5 ws
  have hroot : Sound c x (Module.rootWrite (nv, m5) ws) := rootWrite_sound hm5
  generalize Module.rootWrite (nv, m5) ws = z at hroot
  obtain ⟨nv1, m6⟩ := z
  dsimp only at hroot ⊢
  generalize hm7 : (if sap then m6.seqOwnOn.fdAdoptAll else _) = m7
  have ho : Only quietParts m6 m7 := by
    have hpins : ∀ (l : List Nat) (m' : Module), Only quietParts m6 m' →
        Only quietParts m6 (l.foldl (fun m n => if m.phSt n = psOff then m else m.phPins n) m') := fun l m' h =>
      (only_foldl fun m n => by
        simp (disch := decide) only [↓Module.phPins_only, ↓only_ite, ↓only_self, ite_self]).2 h
    rw [← hm7]
    split
    · simp (disch := decide) only [↓Module.fdAdoptAll_only, ↓Module.seqOwnOn_only, ↓only_self]
    · refine (Module.capDrive_only (by decide)).2 ((Module.ppsIdle_only (by decide)).2 (hpins _ _ ?_))
      simp (disch := decide) only [↓Module.pathStart_only, ↓Module.fdAdoptAll_only, ↓Module.seqOwnOn_only, ↓only_self]
  refine hroot.quiet ?_
  split
  · exact (Module.seqRequest_only (by decide)).2 ho
  · exact ho

theorem leaveSapling_sound (h : Sound c x (nv, m)) : Sound c x (m.leaveSapling nv) := by
  unfold Module.leaveSapling
  refine imageStep_sound (h.quiet ?_)
  simp (disch := decide) only [↓Module.updRan_only, ↓Module.put_only, ↓Module.updSys_only, ↓only_self]

theorem settle_sound {y : NonVol × Module} (h : Sound c x y) : Sound c x (Module.settle y) := by
  have hon : Sound c x (if y.2.sys.goOn then y.2.leaveSapling y.1 else y) := by
    split
    · exact leaveSapling_sound h
    · exact h
  unfold Module.settle
  dsimp only
  split
  · exact moduleReset_sound hon
  · exact hon

theorem busDo_sound {k : Nat} {auth : Bool} {ws : List RegWr} (h : Sound c x (nv, m)) :
    Sound c x (m.busDo nv k auth ws) := settle_sound (busWrite_sound h)

end

end Sys2Proof.Machine
end

section
/-! What accesses, frames and deadlines keep. -/

namespace Sys2Proof.Machine

section
variable {c : Prop} {x : NonVol × Module} {nv : NonVol} {m : Module}

/-! ### Accesses of the register space and the memories -/

theorem regSpace_sound {q : MemReq} (h : Sound c x (nv, m)) : Sound c x (m.regSpace nv q) := by
  unfold Module.regSpace
  extract_lets a
  split
  · split
    · exact h.quiet ((Module.busFetch_only (by decide)).2 (Only.refl _ m))
    · exact out_sound h
  · split
    · exact busDo_sound h
    · split
      · exact busDo_sound h
      · exact out_sound h

theorem memDirect_sound {q : MemReq} (h : Sound False x (nv, m)) : Sound False x (m.memDirect nv q) := by
  unfold Module.memDirect
  split
  · exact regSpace_sound h
  · exact memAccess_sound h

theorem stage_sound {t : Nat} {q : MemReq} {as : List Nat} {v : Nat} (h : Sound False x (nv, m)) :
    Sound False x (nv, m.stage t q as v) := by
  unfold Module.stage
  extract_lets n1 es buf
  split
  · exact taskDrop_sound h
  · exact h.quiet (updTask_quiet fun y => by rfl)

theorem stageRead_sound {t : Nat} {q : MemReq} {as : List Nat} (h : Sound False x (nv, m)) :
    Sound False x (m.stageRead nv t q as) := by
  have hgive : ∀ {n : NonVol} {y : Module} (v : Nat), Sound False x (n, y) → Sound False x (n,
      if as.all inRegs then { y with out := { words := [BitVec.ofNat 32 v] } }
      else { y with out := { dword := some (BitVec.ofNat 64 v) } }) := fun v hy => by
    split
    · exact out_sound hy
    · exact out_sound hy
  simp only [Module.stageRead]
  split
  · exact hgive _ h
  · have hdirect : Sound False x (m.memDirect nv q) := memDirect_sound h
    generalize m.memDirect nv q = z at hdirect
    split
    · split
      · exact hdirect
      · exact hgive _ hdirect
    · exact hdirect

theorem memCommand_sound {q : MemReq} (h : Sound False x (nv, m)) : Sound False x (m.memCommand nv q) := by
  unfold Module.memCommand
  split
  · exact h
  · split
    · exact out_sound h
    · split
      · split
        · exact out_sound h
        · split
          · exact stage_sound h
          · exact stageRead_sound h
      · exact memDirect_sound h

theorem bufWrites_sound {k : Nat} {buf : List Staged} (h : Sound False x (nv, m)) :
    Sound False x (m.bufWrites nv k buf) := h.foldl fun _ _ h => memAccess_sound h

theorem taskCommit_sound {r : TaskRun} (h : Sound False x (nv, m)) : Sound False x (m.taskCommit nv r) := by
  unfold Module.taskCommit
  extract_lets y ends m1 m2 m3
  have hm1 : Sound False x (nv, m1) := h.quiet (updTask_quiet fun y => by rfl)
  have hm3 : Sound False x (nv, m3) := hm1.quiet (by
    simp (disch := decide) only [m3, m2, ↓Module.checkLoads_only, ↓Module.taskTake_only, ↓Module.taskStandIn_only,
      ↓Module.taskActs_only, ↓only_ite, ↓only_self, ite_self])
  have hbuf : Sound False x (m3.bufWrites nv (4 + y.owner) y.buf) := bufWrites_sound hm3
  generalize m3.bufWrites nv (4 + y.owner) y.buf = z at hbuf
  dsimp only
  split
  · exact hbuf
  · exact busDo_sound hbuf

theorem taskLate_sound {t : Nat} (h : Sound c x (nv, m)) : Sound c x (nv, m.taskLate t) := by
  unfold Module.taskLate
  extract_lets ends why m1
  have hm1 : Sound c x (nv, m1) := by
    simp only [m1]
    split
    · exact taskDropped_sound h
    · exact h.quiet (by
        simp (disch := decide) only [↓Module.taskAbort_only, ↓Module.epeDrop_only, ↓only_ite, ↓only_self, ite_self])
  exact hm1.quiet ((Module.taskTake_only (by decide)).2 (Only.refl _ _))

theorem taskDeadline_sound {r : TaskRun} (h : Sound False x (nv, m)) : Sound False x (m.taskDeadline nv r) := by
  unfold Module.taskDeadline
  split
  · exact h
  · split
    · exact taskCommit_sound h
    · exact taskLate_sound h

/-! ### The two-wire target and frames -/

theorem twtCommit_sound {brown : Bool} {ws : List RegWr} (h : Sound c x (nv, m)) :
    Sound c x (m.twtCommit nv brown ws) := by
  unfold Module.twtCommit
  extract_lets bad r m1
  split
  · split
    · refine h.quiet ?_
      simp (disch := decide) only [↓Module.twtRefused_only, ↓Module.cfgRefused_only, ↓only_self]
    · exact h
  · have hr : Sound c x (r.1, m1) := transact_sound h
    split
    · exact hr.quiet ((Module.twtRefused_only (by decide)).2 (Only.refl _ _))
    · split
      · exact hr.quiet ((Module.twtCount_only (by decide)).2 ((Module.twtRefused_only (by decide)).2 (Only.refl _ _)))
      · exact hr.quiet ((Module.twtCount_only (by decide)).2 (Only.refl _ _))

theorem twtData_sound {w : TwtWr} {acked : List Byte} (h : Sound c x (nv, m)) : Sound c x (m.twtData nv w acked) := by
  unfold Module.twtData
  extract_lets ptr data pec body ws sent full sum ok m1
  have hm1 : Sound c x (nv, m1) := h.quiet ((Module.twtPoint_only (by decide)).2 (Only.refl _ m))
  clear_value ok
  split
  · exact twtCommit_sound hm1
  · split
    · exact hm1.quiet ((Module.twtRefused_only (by decide)).2 ((Module.raise_only (by decide)).2 (Only.refl _ _)))
    · split
      · exact hm1.quiet ((Module.twtRefused_only (by decide)).2 (Only.refl _ _))
      · split
        · refine hm1.quiet ?_
          simp (disch := decide) only [↓Module.twtRefused_only, ↓Module.count_only, ↓Module.raise_only, ↓only_self]
        · exact twtCommit_sound hm1

theorem twtWrite_sound {w : TwtWr} (h : Sound c x (nv, m)) : Sound c x (m.twtWrite nv w) := by
  unfold Module.twtWrite
  extract_lets m1 acked m2
  have hm1 : Sound c x (nv, m1) := h.quiet ((Module.boundary_only (by decide)).2 (Only.refl _ m))
  have hm2 : Sound c x (nv, m2) := hm1.quiet ((Module.twtPoint_only (by decide)).2 (Only.refl _ m1))
  clear_value m1 m2 acked
  split
  · exact hm1
  · split
    · exact hm2
    · exact twtData_sound hm2

/-- A request keeps what its run keeps. -/
theorem mgmtOnce_sound {q : MgmtHdr} {addr count : Nat} {run : NonVol → Module → NonVol × Module × MgmtRes}
    (h : Sound c x (nv, m)) (hrun : Sound c x ((run nv m).1, (run nv m).2.1)) :
    Sound c x (m.mgmtOnce nv q addr count run) := by
  unfold Module.mgmtOnce
  split
  · exact h
  · split
    · exact h.quiet ((Module.mgmtSend_only (by decide)).2 (Only.refl _ m))
    · extract_lets ans
      split
      · exact h.quiet ((Module.mgmtSend_only (by decide)).2 ((Module.mgmtCount_only (by decide)).2 (Only.refl _ m)))
      · exact settle_sound (hrun.quiet ((Module.mgmtAnswer_only (by decide)).2 (Only.refl _ _)))

theorem mgmtRead_sound {q : MgmtHdr} {addr count step : Nat} (h : Sound c x (nv, m)) :
    Sound c x (m.mgmtRead nv q addr count step) := mgmtOnce_sound h (by
  split
  · exact h
  · exact h.quiet ((Module.mgmtReads_only (by decide)).2 (Only.refl _ m)))

theorem mgmtWrite_sound {q : MgmtHdr} {addr step : Nat} {data : List W32} (h : Sound c x (nv, m)) :
    Sound c x (m.mgmtWrite nv q addr step data) := mgmtOnce_sound h (by
  dsimp only
  split
  · exact h
  · exact transact_sound h)

theorem mgmtBlock_sound {q : MgmtHdr} {ofs : Nat} {data : List Byte} (h : Sound c x (nv, m)) :
    Sound c x (m.mgmtBlock nv q ofs data) := mgmtOnce_sound h (by
  have hrefused : ∀ why, Sound c x (nv, m.cfgRefused 2 (rkey pgUpdate UPDATE_BLK_DATA) why) := fun why =>
    h.quiet ((Module.cfgRefused_only (by decide)).2 (Only.refl _ m))
  dsimp only
  split
  · exact hrefused whyBrown
  · split
    · exact hrefused whyAuto
    · split
      · exact h
      · exact block_sound h)

theorem mgmtMbox_sound {q : MgmtHdr} {ch : Nat} {payload : List W32} (h : Sound c x (nv, m)) :
    Sound c x (m.mgmtMbox nv q ch payload) := by
  unfold Module.mgmtMbox
  split
  · exact h.quiet ((Module.raise_only (by decide)).2 ((Module.count_only (by decide)).2 (Only.refl _ m)))
  · refine mgmtOnce_sound h (h.quiet ?_)
    simp (disch := decide) only [↓Module.mboxSend_only, ↓Module.mboxFrom_only, ↓only_self]

theorem mgmtAck_sound {q : MgmtHdr} {ch : Nat} (h : Sound c x (nv, m)) : Sound c x (m.mgmtAck nv q ch) :=
  mgmtOnce_sound h (by
    dsimp only
    split
    · exact h
    · exact h.quiet ((Module.mboxFrom_only (by decide)).2 (Only.refl _ m)))

theorem capsetWrite_sound {f : Capset} {late : Bool} (h : Sound c x (nv, m)) :
    Sound c x (m.capsetWrite nv f late) := by
  unfold Module.capsetWrite
  dsimp only
  refine Sound.quiet (transact_sound h) ?_
  simp (disch := decide) only [↓Module.raise_only, ↓Module.capsetNote_only, ↓only_ite, ↓only_self, ite_self]

theorem capset_sound {f : Capset} (h : Sound c x (nv, m)) : Sound c x (m.capset nv f) := by
  unfold Module.capset
  extract_lets d
  split
  · exact h
  · split
    · refine h.quiet ?_
      simp (disch := decide) only [↓Module.raise_only, ↓Module.capsetNote_only, ↓only_self]
    · split
      · exact h.quiet ((Module.updBn_only (by decide)).2 (Only.refl _ m))
      · exact capsetWrite_sound h

theorem capsetApply_sound (h : Sound c x (nv, m)) : Sound c x (m.capsetApply nv) := by
  have hkept : Sound c x (nv, m.updBn (fun y => { y with capsets := m.bn.capsets.filter (fun f => !m.capsetDue f) })) :=
    h.quiet ((Module.updBn_only (by decide)).2 (Only.refl _ m))
  exact hkept.foldl fun _ _ h => capsetWrite_sound h

end

end Sys2Proof.Machine
end

section
/-! What every command keeps (O6, O7, O8). -/

namespace Sys2Proof.Machine

section
variable {c : Prop} {x : NonVol × Module} {nv : NonVol} {m : Module}

theorem loopSample_sound {r : Nat} {z : Sample} (h : Sound c x (nv, m)) : Sound c x (nv, m.loopSample r z) := by
  simp only [Module.loopSample]
  split
  · refine h.quiet ?_
    simp (disch := decide) only [↓Module.ginNow_only, ↓Module.arrive_only, ↓only_self]
  · refine trSample_sound (h.quiet ?_)
    simp (disch := (intros; simp (decide := true) (disch := decide) only [↓Module.loopBal_only, ↓only_self])) only
      [↓only_foldl, ↓Module.loopTake_only, ↓Module.loopCurr_only, ↓Module.loopRampEnd_only, ↓Module.ginNow_only,
      ↓Module.loopStall_only, ↓Module.loopCeil_only, ↓Module.loopSat_only, ↓Module.updRl_only, ↓Module.loopMeas_only,
      ↓Module.loopCharge_only, ↓Module.loopDwell_only, ↓Module.loopVolt_only, ↓Module.loopAdd_only,
      ↓Module.loopCurrent_only, ↓Module.loopRef_only, ↓Module.loopPoison_only, ↓Module.loopProbe_only,
      ↓Module.loopLevels_only, ↓Module.loopThr_only, ↓Module.loopPreset_only, ↓Module.arrive_only, ↓only_self]

/-- The life-cycle step that waits for the end of a wipe is noted (R556). -/
theorem wipeNoted_sound {y : NonVol × Module} {t : Option Nat} (h : Sound c x y) :
    Sound c x (if t.isSome then { y.1 with otp := { y.1.otp with half := t } } else y.1,
      if t.isSome then { y.2 with lc := { y.2.lc with wiped := true } } else y.2) := by
  split
  · exact (h.and ((with_lc_only (by decide)).2 (Only.refl _ _))).stored id (.of_same rfl rfl rfl rfl rfl rfl)
  · exact h

end

/-- What holds across a command: the state that it goes on with keeps what the state before it had. -/
structure Sounds (s : State) (o : Host.Outcome State Fault Refusal) : Prop where
  sound : ∀ t, o = .next t → Sound True (s.nv, s.m) (t.nv, t.m)

section
variable {s : State} {S : List Part}

theorem Touches.sounds {o : Host.Outcome State Fault Refusal} (h : Touches S s o)
    (hS : S ⊆ quietParts := by decide) : Sounds s o := ⟨fun t ht => by
  obtain ⟨-, hnv, hm⟩ := h t ht
  rw [hnv]
  exact (Sound.refl True (s.nv, s.m)).quiet (hm.mono hS)⟩

theorem act2_sounds {f : NonVol → Module → NonVol × Module}
    (h : ∀ nv m, Sound True (s.nv, s.m) (nv, m) → Sound True (s.nv, s.m) (f nv m)) : Sounds s (act2 s f) := ⟨by
  rintro t ⟨⟩
  exact h _ _ (out_sound (.refl _ _))⟩

theorem act2Live_sounds {f : NonVol → Module → NonVol × Module}
    (h : ∀ nv m, Sound True (s.nv, s.m) (nv, m) → Sound True (s.nv, s.m) (f nv m)) : Sounds s (act2Live s f) :=
  act2_sounds fun nv m hm => by
    split
    · exact h nv m hm
    · exact hm

theorem act_sounds {f : Module → Module}
    (h : ∀ m, Sound True (s.nv, s.m) (s.nv, m) → Sound True (s.nv, s.m) (s.nv, f m)) : Sounds s (act s f) := ⟨by
  rintro t ⟨⟩
  exact h _ (out_sound (.refl _ _))⟩

theorem actLive_sounds {f : Module → Module}
    (h : ∀ m, Sound True (s.nv, s.m) (s.nv, m) → Sound True (s.nv, s.m) (s.nv, f m)) : Sounds s (actLive s f) :=
  act_sounds fun m hm => by
    split
    · exact h m hm
    · exact hm

theorem actAt_sounds {i : Nat} {n : Nat → Nat} {f : Module → Module}
    (h : ∀ m, Sound True (s.nv, s.m) (s.nv, m) → Sound True (s.nv, s.m) (s.nv, f m)) : Sounds s (actAt i n s f) :=
  actLive_sounds fun m hm => by
    split
    · exact h m hm
    · exact hm

/-- Only where a condition holds the command does something. -/
theorem Sound.when {p : Prop} [Decidable p] {c : Prop} {x y z : NonVol × Module} (hy : Sound c x y) (hz : Sound c x z) :
    Sound c x (if p then y else z) := by
  split
  · exact hy
  · exact hz

theorem busCmd_sounds (k : Nat) (ws : List RegWr) : Sounds s (busCmd s k ws) := act2_sounds fun _ _ h => busDo_sound h

theorem busAt_sounds (k i n base off : Nat) (v : W32) : Sounds s (busAt s k i n base off v) :=
  act2_sounds fun _ _ h => (busDo_sound h).when h

theorem busGet_sounds (k addr : Nat) (took : Bool) : Sounds s (busGet s k addr took) :=
  act_sounds fun _ h => h.quiet ((Module.busFetch_only (by decide)).2 (Only.refl _ _))

theorem answer_sounds (k ch : Nat) (h l : W32) : Sounds s (answer k ch h l s) :=
  act2_sounds fun _ _ hm => (busDo_sound hm).when hm

/-- A command after whose sampling of the phases a write follows. -/
theorem arriveAt_sound {c : Prop} {x : NonVol × Module} {nv : NonVol} {m : Module} {cyc : Nat} (h : Sound c x (nv, m)) :
    Sound c x (nv, if m.powered then m.arriveAt cyc else m) :=
  h.quiet (by simp (disch := decide) only [↓Module.arriveAt_only, ↓only_ite, ↓only_self, ite_self])

/-- Every command keeps the form of the memories, what is stored for good, the sizes and that no task has yet to enter
its fallback. The commands stand by the way on which they reach the memories and the non-volatile part. -/
theorem exec_sounds (c : Instr) (s : State) : Sounds s (exec c s) := by
  unfold exec
  cases c with
  | fwRestart | moduleResetCmd | saplingCmd | profileChange | wipeCmd | schedEn | bistReq | calReq | cleCommit | cleEn
  | epeCommitSrc | groveEn | xingEn | xingCommitBus | seqReqOn | seqReqOff | seqEn | seqtblCommitUp | seqtblCommitDown
  | kick | wdogEn | cal | repair | forget | helloNow | benufEn | rdSeq | submit | startImage | startPlan | activate
  | abort | resume | updateBlock => exact busCmd_sounds ..
  | softRst | lock | evtRawClear | fltStatClear | railEn | phaseEn | railCommitRef | railCommitProt | railCommitShed
  | traceEn | arm | stop | feedEn | feedCommitWin | feedCommitTrip | accept | impGo | battEn | battCommitOcv
  | battCommitChg | battCommitLvl | twcCommitPoll | doorbell => exact busAt_sounds ..
  | tblDataAccess k p wr =>
    unfold execTblDataAccess
    cases wr with
    | none => exact busGet_sounds ..
    | some v => exact busAt_sounds ..
  | taken | done => exact answer_sounds ..
  | lifeArm | lifeCommit => exact act2_sounds fun _ _ h => busDo_sound h
  | switch => exact act2_sounds fun _ _ h => busDo_sound (arriveAt_sound h)
  | force => exact act2_sounds fun _ _ h => (busDo_sound (arriveAt_sound h)).when h
  | fltWinWrite | battCommitLearn | mboxBind => exact act2_sounds fun _ _ h => (busDo_sound h).when h
  | registerWrite k a v others => exact act2_sounds fun _ _ h => h.foldl fun _ _ h => busDo_sound h
  | read | readFixed => exact act2_sounds fun _ _ h => mgmtRead_sound h
  | write | writeFixed => exact act2_sounds fun _ _ h => mgmtWrite_sound h
  | updateBlk => exact act2_sounds fun _ _ h => mgmtBlock_sound h
  | send => exact act2_sounds fun _ _ h => mgmtMbox_sound h
  | ackRead => exact act2_sounds fun _ _ h => mgmtAck_sound h
  | capset => exact act2_sounds fun _ _ h => capset_sound h
  | capsetApply => exact act2_sounds fun _ _ h => (capsetApply_sound h).when h
  | twtWrite => exact act2_sounds fun _ _ h => (settle_sound (twtWrite_sound h)).when h
  | powerOn => exact act2_sounds fun _ _ h => (powerOn_sound h).when h
  | collapse => exact act2_sounds fun _ _ h => (collapse_sound h).when ((unpowered_sound h).when h)
  | lastBreathEntry => exact act2_sounds fun _ _ h => (lastBreath_sound h).when ((unpowered_sound h).when h)
  | lastBreathReset =>
    refine act_sounds fun m h => ?_
    split
    · exact unpowered_sound h
    · exact h
  | resetPin =>
    exact actLive_sounds fun m h => cleared_sound (h.quiet ((Module.updLost_only (by decide)).2 (Only.refl _ m)))
  | resetRelease =>
    exact act2_sounds fun _ m h =>
      (romStart_sound (h.quiet ((Module.updSys_only (by decide)).2 (Only.refl _ m)))).when h
  | clkLoss =>
    exact act2Live_sounds fun _ m h => (moduleReset_sound h).when
      ((h.quiet ((Module.clkLost_only (by decide)).2 (Only.refl _ m))).when h)
  | clkResume => exact act2Live_sounds fun _ _ h => clkBack_sound h
  | codeShadowLoaded =>
    refine actLive_sounds fun m h => ?_
    split
    · refine Sound.quiet (shadowLoad_sound h) ?_
      simp (disch := decide) only [↓Module.fwStart_only, ↓Module.fwImage_only, ↓only_self]
    · exact h
  | bucketBoundary => exact actLive_sounds fun _ h => bucketEnd_sound h
  | memoryAccess => exact act2Live_sounds fun _ _ h => fallNow_sound (memCommand_sound h.lax)
  | retired => exact act2Live_sounds fun _ _ h => rowRetired_sound h
  | scrubStep => exact act2Live_sounds fun _ _ h => scrubStep_sound h
  | shadowReload => exact actLive_sounds fun _ h => shadowReload_sound h
  | tamper =>
    exact act2Live_sounds fun _ m h =>
      (tampered_sound (h.quiet ((Module.tamperPin_only (by decide)).2 (Only.refl _ m)))).when h
  | tamperPulseCheck =>
    refine act2Live_sounds fun nv m h => Sound.when ?_ h
    extract_lets ok m1
    have hpin : Sound True (s.nv, s.m) (nv, m1) :=
      h.quiet ((Module.updHw_only (by decide)).2 ((Module.tamperPin_only (by decide)).2 (Only.refl _ m)))
    exact hpin.when (tampered_sound hpin)
  | glitch => exact act2Live_sounds fun _ _ h => glitched_sound h
  | wiped =>
    refine act2_sounds fun _ m h => ?_
    split
    · next k _ =>
      refine h.when ?_
      have hnoted := wipeNoted_sound (t := m.lc.target) (wiped_sound (cause := k) h)
      dsimp only
      split
      · exact breathWrite_sound hnoted
      · exact hnoted
    · exact h
  | majorFrame => exact act2Live_sounds fun _ _ h => (majorFrame_sound h).when h
  | taskStart => exact actAt_sounds fun _ h => taskStart_sound h
  | taskDeadline => exact act2Live_sounds fun _ _ h => fallNow_sound (taskDeadline_sound h.lax)
  | overflow =>
    refine actAt_sounds fun m h => ?_
    split
    · exact taskDropped_sound h
    · exact h
  | bankMoveDone =>
    refine actLive_sounds fun m h => ?_
    split
    · exact bankMoved_sound (h.quiet ((with_schedKeep_only (by decide)).2 (Only.refl _ _)))
    · exact h
  | loopSample => exact actAt_sounds fun _ h => loopSample_sound h
  | wearSave | optimeStore => exact act2Live_sounds fun _ _ h => nvWrite_sound h
  | thermRound =>
    exact act2Live_sounds fun _ m h => mramFlush_sound (h.quiet ((Module.thermRound_only (by decide)).2 (Only.refl _ m)))
  | install | erase => exact act2Live_sounds fun _ _ h => (keyService_sound h).when h
  | recordDrain => exact act2Live_sounds fun _ _ h => recDrain_sound h
  | scanDone =>
    exact act2Live_sounds fun _ _ h => h.when
      ((recScan_sound h).and ((Module.tryAdopt_only (by decide)).2 (Only.refl _ _)))
  | selftestDone => exact act2Live_sounds fun _ _ h => (selfTest_sound h).when h
  | adoptWindowEnd => exact act2Live_sounds fun _ _ h => (release'_sound h).when h
  | changed =>
    refine act2Live_sounds fun _ m h => ?_
    split
    · exact (lifeChanged_sound h).when h
    · exact h
  | verifyDone => exact act2Live_sounds fun _ _ h => updVerify_sound h
  | planStoreDone => exact act2Live_sounds fun _ _ h => planStored_sound h
  | brownOut => exact execBrownOut_touches.sounds
  | brownOutEnd => exact execBrownOutEnd_touches.sounds
  | vauxInputLost => exact execVauxInputLost_touches.sounds
  | vauxDip => exact execVauxDip_touches.sounds
  | holdOk => exact execHoldOk_touches.sounds
  | clkRestartTry => exact execClkRestartTry_touches.sounds
  | syncLock => exact execSyncLock_touches.sounds
  | syncLost => exact execSyncLost_touches.sounds
  | clusterLockup => exact execClusterLockup_touches.sounds
  | freezeEnd => exact execFreezeEnd_touches.sounds
  | fwLost => exact execFwLost_touches.sounds
  | clusterReady => exact execClusterReady_touches.sounds
  | clusterIsolated => exact execClusterIsolated_touches.sounds
  | bistDone => exact execBistDone_touches.sounds
  | rotTest => exact execRotTest_touches.sounds
  | dutyRelease => exact execDutyRelease_touches.sounds
  | railPeriodBoundary => exact execRailPeriodBoundary_touches.sounds
  | trunc => exact execTrunc_touches.sounds
  | truncExit => exact execTruncExit_touches.sounds
  | ov => exact execOv_touches.sounds
  | cbcTrip => exact execCbcTrip_touches.sounds
  | negLimitTrip => exact execNegLimitTrip_touches.sounds
  | uvComparatorLow => exact execUvComparatorLow_touches.sounds
  | uv => exact execUv_touches.sounds
  | ginHi => exact execGinHi_touches.sounds
  | ginLo => exact execGinLo_touches.sounds
  | rollSlotEnd => exact execRollSlotEnd_touches.sounds
  | refCalDone => exact execRefCalDone_touches.sounds
  | monReading => exact execMonReading_touches.sounds
  | dtAdapt => exact execDtAdapt_touches.sounds
  | dropReady => exact execDropReady_touches.sounds
  | ssStall => exact execSsStall_touches.sounds
  | ssCbcShort => exact execSsCbcShort_touches.sounds
  | shortRetry => exact execShortRetry_touches.sounds
  | probeStart => exact execProbeStart_touches.sounds
  | probeDone => exact execProbeDone_touches.sounds
  | solveDone => exact execSolveDone_touches.sounds
  | wake => exact execWake_touches.sounds
  | droopWake => exact execDroopWake_touches.sounds
  | wearAccumulate => exact execWearAccumulate_touches.sounds
  | capEstimate => exact execCapEstimate_touches.sounds
  | assistStep => exact execAssistStep_touches.sounds
  | hardLimit => exact execHardLimit_touches.sounds
  | released => exact execReleased_touches.sounds
  | sustained => exact execSustained_touches.sounds
  | groveCutoff => exact execGroveCutoff_touches.sounds
  | shareRise => exact execShareRise_touches.sounds
  | canopyCutoff => exact execCanopyCutoff_touches.sounds
  | feedDetect => exact execFeedDetect_touches.sounds
  | slopeDetect => exact execSlopeDetect_touches.sounds
  | acokDetect => exact execAcokDetect_touches.sounds
  | full => exact execFull_touches.sounds
  | busLoopSample => exact execBusLoopSample_touches.sounds
  | stringShedResume => exact execStringShedResume_touches.sounds
  | inGoodChange => exact execInGoodChange_touches.sounds
  | returning => exact execReturning_touches.sounds
  | cutoffExit => exact execCutoffExit_touches.sounds
  | feedInsDelay => exact execFeedInsDelay_touches.sounds
  | feedExcursion => exact execFeedExcursion_touches.sounds
  | feedOn => exact execFeedOn_touches.sounds
  | feedSample => exact execFeedSample_touches.sounds
  | fastTrip => exact execFastTrip_touches.sounds
  | feedRetry => exact execFeedRetry_touches.sounds
  | feedConduct => exact execFeedConduct_touches.sounds
  | reverse => exact execReverse_touches.sounds
  | damaged => exact execDamaged_touches.sounds
  | noConduct => exact execNoConduct_touches.sounds
  | degraded => exact execDegraded_touches.sounds
  | seqTick => exact execSeqTick_touches.sounds
  | seqWaitDone => exact execSeqWaitDone_touches.sounds
  | stepFault => exact execStepFault_touches.sounds
  | seqRetry => exact execSeqRetry_touches.sounds
  | downLead => exact execDownLead_touches.sounds
  | seqMinOff => exact execSeqMinOff_touches.sounds
  | railFail => exact execRailFail_touches.sounds
  | railPgDeglitch => exact execRailPgDeglitch_touches.sounds
  | wdiKick => exact execWdiKick_touches.sounds
  | winMinEnd => exact execWinMinEnd_touches.sounds
  | expired => exact execExpired_touches.sounds
  | hostRstEnd => exact execHostRstEnd_touches.sounds
  | batIdRead => exact execBatIdRead_touches.sounds
  | impPeriod => exact execImpPeriod_touches.sounds
  | impFreqStep => exact execImpFreqStep_touches.sounds
  | battVoltageJudge => exact execBattVoltageJudge_touches.sounds
  | battLevelTimer => exact execBattLevelTimer_touches.sounds
  | excluded => exact execExcluded_touches.sounds
  | calDone => exact execCalDone_touches.sounds
  | linkUp => exact execLinkUp_touches.sounds
  | linkDown => exact execLinkDown_touches.sounds
  | frameReceived => exact execFrameReceived_touches.sounds
  | mergeEntry => exact execMergeEntry_touches.sounds
  | engineFlag => exact execEngineFlag_touches.sounds
  | supervisionSend => exact execSupervisionSend_touches.sounds
  | entryForget => exact execEntryForget_touches.sounds
  | repairStageDone => exact execRepairStageDone_touches.sounds
  | rebuildDone => exact execRebuildDone_touches.sounds
  | helloReceived => exact execHelloReceived_touches.sounds
  | shareReceived => exact execShareReceived_touches.sounds
  | summaryReceived => exact execSummaryReceived_touches.sounds
  | helloSend => exact execHelloSend_touches.sounds
  | joinDone => exact execJoinDone_touches.sounds
  | leavingHello => exact execLeavingHello_touches.sounds
  | memberDrop => exact execMemberDrop_touches.sounds
  | dupShelfGone => exact execDupShelfGone_touches.sounds
  | healthSend => exact execHealthSend_touches.sounds
  | ptpMessage => exact execPtpMessage_touches.sounds
  | announceTimeout => exact execAnnounceTimeout_touches.sounds
  | ppsEdge => exact execPpsEdge_touches.sounds
  | taiSRead => exact execTaiSRead_touches.sounds
  | twtRead => exact execTwtRead_touches.sounds
  | timeout => exact execTimeout_touches.sounds
  | stretchLimit => exact execStretchLimit_touches.sounds
  | pollRound => exact execPollRound_touches.sounds
  | twcTransactionStart => exact execTwcTransactionStart_touches.sounds
  | twcTransactionEnd => exact execTwcTransactionEnd_touches.sounds
  | arbBackoffEnd => exact execArbBackoffEnd_touches.sounds
  | twcStretchTmo => exact execTwcStretchTmo_touches.sounds
  | busStuck => exact execBusStuck_touches.sounds
  | busRecoveryRetry => exact execBusRecoveryRetry_touches.sounds
  | alert => exact execAlert_touches.sounds
  | mboxResend => exact execMboxResend_touches.sounds
  | rdData => exact execRdData_touches.sounds
  | streamFrame => exact execStreamFrame_touches.sounds
  | anchorInterval => exact execAnchorInterval_touches.sounds
  | optimeHRead => exact execOptimeHRead_touches.sounds
  | startHoldRelease => exact execStartHoldRelease_touches.sounds
  | armExpiry => exact execArmExpiry_touches.sounds
  | syncInPresent => exact execSyncInPresent_touches.sounds
  | vauxInputReturn => exact execVauxInputReturn_touches.sounds
  | clustersStart => exact execClustersStart_touches.sounds
  | syncInterval => exact execSyncInterval_touches.sounds
  | ginHiEnd => exact execGinHiEnd_touches.sounds
  | uvComparatorHigh => exact execUvComparatorHigh_touches.sounds

/-- The step of an empty queue, which sends what waits, reaches no memory. -/
theorem idle_sound (s : State) : Sound True (s.nv, s.m) ((idle s).nv, (idle s).m) := by
  have hrefl := Sound.refl True (s.nv, s.m)
  have hports : ∀ (l : List Nat) (m : Module), Only quietParts m (l.foldl (fun m p =>
      m.setReg (pgNet + p) NET_TX_FRAMES (m.reg (pgNet + p) NET_TX_FRAMES + 1)) m) := fun l m =>
    (only_foldl fun m p => (Module.setReg_only (by decide)).2 (Only.refl _ m)).2 (Only.refl _ m)
  unfold idle Module.txStep
  split
  · split
    · next hm =>
      (repeat' split at hm) <;> cases hm
      · exact hrefl.quiet ((with_out_only (by decide)).2 ((Module.updNet_only (by decide)).2 (hports _ _)))
      · exact hrefl.quiet ((Module.updNet_only (by decide)).2 (Only.refl _ _))
    · exact hrefl
  · exact hrefl

theorem step_sound {s t : State} (h : step s = .next t) : Sound True (s.nv, s.m) (t.nv, t.m) := by
  unfold step at h
  split at h
  · cases h
    exact idle_sound s
  · next c cs _ => exact (exec_sounds c { s with pending := cs }).sound t h

end

end Sys2Proof.Machine

open Sys2Proof Sys2Proof.Machine

/-- Settles O6: no operation that a step is made of breaks the form of the memories. -/
theorem memoriesKeepTheirForm : Obligations.MemoriesKeepTheirForm := by
  intro s t hmram hsram hstep
  exact (step_sound hstep).form ⟨hmram, hsram⟩

/-- Settles O7: units keep their entries, and a dropped task enters its fallback within its step. -/
theorem shapeIsKept : Obligations.ShapeIsKept := by
  intro s t hshaped hstep
  obtain ⟨hsized, hdue⟩ := (shaped_iff s.m).1 hshaped
  have hsound := step_sound hstep
  exact (shaped_iff t.m).2 ⟨hsound.sized hsized, hsound.due trivial hdue⟩

/-- Settles O8: records, retired rows, versions, fuses and counts only ever gain. -/
theorem nothingPermanentIsTakenBack : Obligations.NothingPermanentIsTakenBack := by
  intro s t hbounded hstep
  exact (step_sound hstep).lasts hbounded

end

section
/-! Without supply only the return of the supply has an effect (O5). -/

namespace Sys2Proof.Machine

/-- A module without supply that has neither a reset nor the end of Sapling before it. -/
structure Dark (m : Module) : Prop where
  off : m.sys.pwr = .off
  stays : m.sys.goOn = false
  noReset : m.sys.resetDue = none

section
variable {m : Module} {nv : NonVol}

theorem Dark.quiet (h : Dark m) : Dark { m with out := {} } := ⟨h.off, h.stays, h.noReset⟩

theorem Dark.unpowered (h : Dark m) : m.powered = false := by simp [Module.powered, h.off]

theorem Dark.busOpen (h : Dark m) (k : Nat) : m.busOpen k = false := by simp [Module.busOpen, h.unpowered]

theorem Dark.busServes (h : Dark m) (k : Nat) (as : List Nat) : m.busServes k as = false := by
  simp [Module.busServes, h.busOpen, h.unpowered]

theorem Dark.twtOn (h : Dark m) : m.twtOn = false := by simp [Module.twtOn, h.busOpen]

theorem Dark.settle (h : Dark m) : Module.settle (nv, m) = (nv, m) := by simp [Module.settle, h.stays, h.noReset]

/-- No master reaches a register. -/
theorem Dark.busDo (h : Dark m) (k : Nat) (auth : Bool) (ws : List RegWr) : m.busDo nv k auth ws = (nv, m) := by
  simp [Module.busDo, Module.busWrite, h.busServes, h.settle]

theorem Dark.busFetch (h : Dark m) (k addr : Nat) (took : Bool) : m.busFetch nv k addr took = m := by
  simp [Module.busFetch, h.busServes]

theorem Dark.mgmtOnce (h : Dark m) (q : MgmtHdr) (addr count : Nat)
    (run : NonVol → Module → NonVol × Module × MgmtRes) : m.mgmtOnce nv q addr count run = (nv, m) := by simp [Module.mgmtOnce, h.busOpen]

end

theorem Dark.foldl_busDo {m : Module} {nv : NonVol} (h : Dark m) (l : List (Nat × RegWr)) :
    l.foldl (fun z w => z.2.busDo z.1 w.1 false [w.2]) (nv, m) = (nv, m) := by
  induction l with
  | nil => rfl
  | cons w l ih => rw [List.foldl_cons, h.busDo, ih]

/-- A command that only empties the reply of the one before it. -/
structure Idles (s : State) (o : Host.Outcome State Fault Refusal) : Prop where
  idles : o = .next { s with m := { s.m with out := {} } }

section
variable {s : State} (hdark : Dark s.m)
include hdark

theorem act_idles {f : Module → Module} (h : ∀ m, Dark m → f m = m) : Idles s (act s f) :=
  ⟨congrArg (fun m => Host.Outcome.next ({ s with m := m } : State)) (h { s.m with out := {} } hdark.quiet)⟩

theorem act2_idles {f : NonVol → Module → NonVol × Module} (h : ∀ nv m, Dark m → f nv m = (nv, m)) :
    Idles s (act2 s f) :=
  ⟨congrArg (fun y : NonVol × Module => Host.Outcome.next ({ s with nv := y.1, m := y.2 } : State))
    (h s.nv { s.m with out := {} } hdark.quiet)⟩

theorem actLive_idles (f : Module → Module) : Idles s (actLive s f) :=
  act_idles hdark fun m hm => by simp [hm.unpowered]

theorem actAt_idles (i : Nat) (n : Nat → Nat) (f : Module → Module) : Idles s (actAt i n s f) :=
  actLive_idles hdark _

theorem act2Live_idles (f : NonVol → Module → NonVol × Module) : Idles s (act2Live s f) :=
  act2_idles hdark fun nv m hm => by simp [hm.unpowered]

theorem actSupply_idles (f : Module → Module) : Idles s (actSupply s f) :=
  act_idles hdark fun m hm => by simp [hm.unpowered, hm.off]

theorem busCmd_idles (k : Nat) (ws : List RegWr) : Idles s (busCmd s k ws) :=
  act2_idles hdark fun _ _ hm => hm.busDo ..

theorem busAt_idles (k i n base off : Nat) (v : W32) : Idles s (busAt s k i n base off v) :=
  act2_idles hdark fun _ _ hm => by simp [hm.busDo]

theorem busGet_idles (k addr : Nat) (took : Bool) : Idles s (busGet s k addr took) :=
  act_idles hdark fun _ hm => hm.busFetch ..

theorem answer_idles (k ch : Nat) (h l : W32) : Idles s (answer k ch h l s) :=
  act2_idles hdark fun _ _ hm => by simp [hm.busDo]

/-- The commands stand by what keeps them from having an effect. -/
theorem exec_idles (c : Instr) (hc : needsNoPower c = false) : Idles s (exec c s) := by
  unfold exec
  cases c with
  | powerOn => simp [needsNoPower] at hc
  | fwRestart | moduleResetCmd | saplingCmd | profileChange | wipeCmd | schedEn | bistReq | calReq | cleCommit | cleEn
  | epeCommitSrc | groveEn | xingEn | xingCommitBus | seqReqOn | seqReqOff | seqEn | seqtblCommitUp | seqtblCommitDown
  | kick | wdogEn | cal | repair | forget | helloNow | benufEn | rdSeq | submit | startImage | startPlan | activate
  | abort | resume | updateBlock => exact busCmd_idles hdark ..
  | softRst | lock | evtRawClear | fltStatClear | railEn | phaseEn | railCommitRef | railCommitProt | railCommitShed
  | traceEn | arm | stop | feedEn | feedCommitWin | feedCommitTrip | accept | impGo | battEn | battCommitOcv
  | battCommitChg | battCommitLvl | twcCommitPoll | doorbell => exact busAt_idles hdark ..
  | tblDataAccess k p wr =>
    unfold execTblDataAccess
    cases wr with
    | none => exact busGet_idles hdark ..
    | some v => exact busAt_idles hdark ..
  | rdData | optimeHRead => exact busGet_idles hdark ..
  | taken | done => exact answer_idles hdark ..
  | fltWinWrite | battCommitLearn | mboxBind => exact act2_idles hdark fun _ _ hm => by simp [hm.busDo]
  | lifeArm | lifeCommit => exact act2_idles hdark fun _ _ hm => hm.busDo ..
  | switch | force => exact act2_idles hdark fun _ _ hm => by simp [hm.unpowered, hm.busDo]
  | registerWrite => exact act2_idles hdark fun _ _ hm => hm.foldl_busDo _
  | taiSRead => exact act_idles hdark fun _ hm => by simp [hm.busOpen]
  | read | readFixed | write | writeFixed | updateBlk | ackRead => exact act2_idles hdark fun _ _ hm => hm.mgmtOnce ..
  | send => exact act2_idles hdark fun _ _ hm => by simp [Module.mgmtMbox, hm.busOpen, hm.mgmtOnce]
  | capset => exact act2_idles hdark fun _ _ hm => by simp [Module.capset, Module.capsetMine, hm.busOpen]
  | capsetApply => exact act2_idles hdark fun _ _ hm => by simp [hm.busOpen]
  | twtWrite => exact act2_idles hdark fun _ _ hm => by simp [hm.twtOn]
  | twtRead | timeout | stretchLimit => exact act_idles hdark fun _ hm => by simp [hm.twtOn]
  | collapse | lastBreathEntry | resetRelease => exact act2_idles hdark fun _ _ hm => by simp [hm.off]
  | vauxDip | lastBreathReset => exact act_idles hdark fun _ hm => by simp [hm.off]
  | wiped => exact act2_idles hdark fun _ _ hm => by simp only [hm.off]; split <;> rfl
  | brownOut | brownOutEnd | vauxInputLost | vauxInputReturn | holdOk => exact actSupply_idles hdark _
  | clkLoss | clkResume | memoryAccess | retired | scrubStep | tamper | tamperPulseCheck | glitch | majorFrame
  | taskDeadline | wearSave | thermRound | install | erase | recordDrain | optimeStore | scanDone | selftestDone
  | adoptWindowEnd | changed | verifyDone | planStoreDone => exact act2Live_idles hdark _
  | clusterLockup | taskStart | overflow | loopSample | dutyRelease | railPeriodBoundary | trunc | truncExit | ov
  | cbcTrip | negLimitTrip | uvComparatorLow | uv | dtAdapt | dropReady | ssStall | ssCbcShort | shortRetry
  | probeStart | probeDone | feedInsDelay | feedExcursion | feedOn | feedSample | fastTrip | feedRetry | feedConduct
  | reverse | damaged | noConduct | degraded | batIdRead | impPeriod | impFreqStep | battVoltageJudge | battLevelTimer
  | excluded | linkUp | linkDown | frameReceived | repairStageDone | rebuildDone | memberDrop | announceTimeout
  | pollRound | twcTransactionStart | twcTransactionEnd | arbBackoffEnd | twcStretchTmo | busStuck | busRecoveryRetry
  | alert | syncInterval | uvComparatorHigh => exact actAt_idles hdark ..
  | _ => exact actLive_idles hdark _

end

end Sys2Proof.Machine

open Sys2Proof Sys2Proof.Machine

/-- Settles O5: without supply no unit works, no master is served, and no event of the supply but POWER_ON acts. -/
theorem noSupplyNoEffect : Obligations.NoSupplyNoEffect := by
  intro c s hoff hstays hnoReset hc
  exact (exec_idles ⟨hoff, hstays, hnoReset⟩ c hc).idles

end

section
/-! Restart requests during a restart, and what a module reset makes of one (O48). -/

namespace Sys2Proof.Machine

section
variable {m : Module} {nv : NonVol}

theorem Only.sys {S : List Part} {a b : Module} (h : Only S a b) (hS : .sys ∉ S := by decide) : b.sys = a.sys :=
  h .sys hS

/-- A request during a restart only notes its cause (R31). -/
theorem fwAsk_of_running {cause : Nat} (hcan : m.fwCan = true) (hrun : m.sys.restart ≠ .none) :
    m.fwAsk cause = ((m.put pgSys SYS_RESTART_CAUSE cause).put pgSys SYS_RESTART_MERGED 1).fwRecord cause := by
  simp only [Module.fwAsk, hcan, Bool.not_true, Bool.false_eq_true, if_false]
  split
  · next hnone => exact absurd hnone hrun
  · rfl

/-- A record leaves the registers of every other page. -/
theorem fwRecord_reg {cause off : Nat} (hoff : off < 256) : (m.fwRecord cause).reg pgSys off = m.reg pgSys off :=
  recMake_key _ _ _ _ _ _ (not_recKeys_of_page (by rw [pageOfKey_rkey (by decide) hoff]; decide))

theorem fwRecord_get {cause : Nat} {f : Fld} (hoff : f.off < 256) : (m.fwRecord cause).get pgSys f = m.get pgSys f :=
  congrArg (fun v => bits v f.lo f.w) (fwRecord_reg hoff)

theorem romIdent_restart : (m.romIdent nv).sys.restart = m.sys.restart := by
  unfold Module.romIdent
  extract_lets m1 m2 w
  have hfold : Only [.regs] m m1 := (only_foldl fun _ _ => (Module.setTbl_only (by decide)).2 (Only.refl _ _)).2
    (Only.refl _ m)
  have hm2 : m2.sys = m.sys := by
    refine (Only.sys (S := [.regs, .live, .snap, .pend, .rc]) ?_).trans hfold.sys
    simp (disch := decide) only [m2, ↓Module.latchNow_only, ↓Module.raise_only, ↓Module.put_only, ↓only_ite, ↓only_self,
      ite_self]
  clear_value m2
  split
  · exact (rfl : _ = m2.sys.restart).trans (congrArg SysSt.restart hm2)
  · exact congrArg SysSt.restart hm2

theorem romRegs_restart : (m.romRegs nv).sys.restart = m.sys.restart := by
  unfold Module.romRegs
  extract_lets m1 m2 m3 m4 m5 m6 m7 m8 m9 m10 m11 m12 m13
  have hm11 : Only [.regs, .live] m m11 := by
    simp (disch := decide) only [m11, m10, m9, m8, m7, m6, m5, m4, m3, m2, m1, ↓Module.setReg_only, ↓Module.put_only,
      ↓Module.setBoth_only, ↓only_self]
  have hm12 : Only [.regs, .live] m11 m12 :=
    (only_foldl fun _ _ => (Module.put_only (by decide)).2 (Only.refl _ _)).2 (Only.refl _ _)
  have hm13 : Only [.regs, .live] m12 m13 := by
    simp (disch := decide) only [m13, ↓Module.setBoth_only, ↓only_ite, ↓only_self, ite_self]
  have htables : ∀ y : Module, (y.memTables nv).sys = y.sys := fun y =>
    Only.sys (S := [.regs]) ((Module.memTables_only (by decide)).2 (Only.refl _ y))
  calc _ = (m13.updSys (fun x => { x with life := nv.otp.life })).sys.restart := congrArg SysSt.restart (htables _)
    _ = m13.sys.restart := rfl
    _ = m.sys.restart := congrArg SysSt.restart (hm13.sys.trans (hm12.sys.trans hm11.sys))

/-- The ROM start takes a restart as it finds it. -/
theorem romStart_restart {cause : W32} : (m.romStart nv cause).2.sys.restart = m.sys.restart := by
  have hrepair : ∀ y : Module, (y.romRepair nv).2.sys = y.sys := fun y =>
    Only.sys ((Module.romRepair_only (List.Subset.refl _)).2 (Only.refl _ y))
  have hshown : ∀ y : Module, ((y.wearWords).toPhase 1).sys = y.sys := fun y =>
    Only.sys (S := [.regs]) ((Module.toPhase_only (by decide)).2 ((Module.wearWords_only (by decide)).2 (Only.refl _ y)))
  have hmac : ∀ y : Module, y.romMac.sys = y.sys := fun y =>
    Only.sys (S := [.regs]) ((Module.romMac_only (by decide)).2 (Only.refl _ y))
  simp only [Module.romStart, hshown, romRegs_restart, hmac, hrepair, romIdent_restart]
  rfl

/-- A module reset leaves no restart in progress (R33). -/
theorem moduleReset_restart {cause clk cmd unit : Nat} : (m.moduleReset nv cause clk cmd unit).2.sys.restart = .none := by
  simp only [Module.moduleReset, romStart_restart]
  rfl

end

end Sys2Proof.Machine

open Sys2Proof Sys2Proof.Machine

/-- Settles O48: during a restart the request only notes its cause. -/
theorem restartRequestsMerge : Obligations.RestartRequestsMerge := by
  intro s m x hon hopen
  obtain ⟨hcan, hrun⟩ := Bool.and_eq_true _ _ ▸ ((port_open_iff _ m).1 hopen).2.2
  have hmerged : m.fwAsk 2 = ((m.put pgSys SYS_RESTART_CAUSE 2).put pgSys SYS_RESTART_MERGED 1).fwRecord 2 :=
    fwAsk_of_running hcan (of_decide_eq_true hrun)
  refine ⟨?_, ?_, ?_, ?_, ?_, ?_, fun nv cause clk cmd unit => moduleReset_restart⟩
  · rw [← hmerged]
    have hopen' : (cmdPort x .sys 0 pgSys SYS_CMD (fun m => m.fwCan && decide (m.sys.restart ≠ .none))
        (fun m => m.fwAsk 2)).open m = true := hopen
    exact hon.busCmd_turns (rfl : execFwRestart x s = busCmd s x _)
      (busDo_cmdPort_on s.nv false _ (fun m => m.fwAsk 2) hopen' (by decide) (by decide) (by decide)
        ((cmdWrite_sys 0 (by decide) rfl).trans (sysCmd_restart _ hcan)) rfl)
  · exact recMake_sys ..
  · rw [fwRecord_get (by decide), Module.get_put_apart _ _ _ _ _ (by decide) (by decide) (by decide),
      Module.get_put_same _ _ _ _ (by decide)]
    rfl
  · rw [fwRecord_get (by decide), Module.get_put_same _ _ _ _ (by decide)]
    rfl
  · rw [fwRecord_reg (by decide), Module.reg_put_other _ _ _ _ _ _ (by decide),
      Module.reg_put_other _ _ _ _ _ _ (by decide)]
  · exact fun hstart hroom => recMake_next (m := (m.put pgSys SYS_RESTART_CAUSE 2).put pgSys SYS_RESTART_MERGED 1) _ _ _ _ _ _ hstart hroom

end

section
/-! A rail without coefficients is not placed (O49). -/

namespace Sys2Proof.Machine

section
variable {m : Module} {r : Nat}

/-- A rail that could start, but whose KP and KI are 0, is reported and stays (R213). -/
theorem tryStart_of_coefZero (hcle : (m.railBoundary r).en pgCle = true)
    (hlatch : (m.railBoundary r).railLatched r = false) (hrating : (m.railBoundary r).val (pgRail + r) RAIL_PH_RATING ≠ 0)
    (hmember : (m.railBoundary r).hasMember r = true) (hzero : (m.railBoundary r).coefZero r = true) :
    m.tryStart r = (((m.railBoundary r).put pgCle CLE_LAST_KIND 1).put pgCle CLE_LAST_RAIL r).raise pgCle
      CLE_EV_COEF_ZERO := by
  simp only [Module.tryStart, hcle, hlatch, hrating, hmember, hzero, Bool.not_true, Bool.or_false, Bool.false_eq_true,
    if_false, decide_false, if_true]

theorem foldl_boundary_reg (l : List Nat) (m : Module) (p off : Nat) :
    (l.foldl (fun m n => m.boundary (pgPhase + n)) m).reg p off = m.reg p off := by
  induction l generalizing m with
  | nil => rfl
  | cons n l ih => exact (ih _).trans (boundary_key m _ _)

theorem dtApply_reg {p off : Nat} (h : rkey p off ≠ rkey (pgRail + r) RAIL_DT_NOW) :
    (m.dtApply r).reg p off = m.reg p off := by
  unfold Module.dtApply
  split
  · exact Module.reg_put_other _ _ _ _ _ _ h
  · exact Module.reg_setReg_other _ _ _ _ _ _ h

/-- What waits for the boundaries of a rail reaches no register but the dead time in force. -/
theorem railBoundary_reg {p off : Nat} (h : rkey p off ≠ rkey (pgRail + r) RAIL_DT_NOW) :
    (m.railBoundary r).reg p off = m.reg p off :=
  (dtApply_reg h).trans ((foldl_boundary_reg _ _ _ _).trans (boundary_key m _ _))

/-- The rail with its EN set, before it starts: the first half of `Module.railEnable`. -/
def enSet (m : Module) (r : Nat) : Module :=
  let m := (m.applyDefer (pgRail + r)).perTaps r
  (m.setReg (pgRail + r) CTRL (setBit (m.reg (pgRail + r) CTRL) 0)).updRl r (fun x => { x with enIn := true })

theorem enRisen_eq (m : Module) (r : Nat) : enRisen m r = (enSet m r).railBoundary r := rfl

theorem railEnable_eq (h : bit (m.reg (pgRail + r) CTRL) 0 = false) : m.railEnable r = (enSet m r).tryStart r := by
  have htaps : ((m.applyDefer (pgRail + r)).perTaps r).reg (pgRail + r) CTRL
      = (m.applyDefer (pgRail + r)).reg (pgRail + r) CTRL :=
    Module.reg_put_other _ _ _ _ _ _ (Module.rkey_ne_of_off _ _ _ (by decide))
  simp only [Module.railEnable, enSet, h, htaps, Bool.false_eq_true, if_false]

theorem enRisen_ctrl (m : Module) (r : Nat) : bit ((enRisen m r).reg (pgRail + r) CTRL) 0 = true := by
  rw [enRisen_eq, railBoundary_reg (Module.rkey_ne_of_off _ _ _ (by decide))]
  unfold enSet
  rw [Module.updRl_reg, Module.reg_setReg_same]
  exact bit_setBit_same _ _ (by decide)

/-- A rising EN alone leaves the slots of the engine. -/
theorem enRisen_cle (m : Module) (r : Nat) : (enRisen m r).cle = m.cle := by
  have ho : Only [.regs, .live, .snap, .pend, .defer, .rl] m (enRisen m r) := by
    unfold enRisen
    simp (disch := decide) only [↓Module.railBoundary_only, ↓Module.updRl_only, ↓Module.setReg_only, ↓Module.perTaps_only,
      ↓Module.applyDefer_only, ↓only_self]
  exact ho .cle (by decide)

end

end Sys2Proof.Machine

open Sys2Proof Sys2Proof.Machine

/-- Settles O49: the start ends at the report, which reaches the page of the engine alone. -/
theorem coefZeroStaysOff : Obligations.CoefZeroStaysOff := by
  intro m r hr hoff w hcle hlatch hrating hmember hzero m'
  have hm' : m' = ((w.put pgCle CLE_LAST_KIND 1).put pgCle CLE_LAST_RAIL r).raise pgCle CLE_EV_COEF_ZERO := by
    exact (railEnable_eq hoff).trans (tryStart_of_coefZero hcle hlatch hrating hmember hzero)
  have hreg : ∀ off, off < 256 → m'.reg (pgRail + r) off = w.reg (pgRail + r) off := fun off hlt => by
    have hne : ∀ o, o < 256 → rkey (pgRail + r) off ≠ rkey pgCle o := fun o ho =>
      Module.rkey_ne_of_page _ _ _ _ ho hlt (by simp only [pgRail, pgCle]; omega)
    rw [hm', Module.reg_raise_other _ _ _ _ _ (hne _ (by decide)), Module.reg_put_other _ _ _ _ _ _ (hne _ (by decide)),
      Module.reg_put_other _ _ _ _ _ _ (hne _ (by decide))]
  have ho : Only [.regs] w m' := by
    rw [hm']
    simp (disch := decide) only [↓Module.raise_only, ↓Module.put_only, ↓only_self]
  refine ⟨?_, ?_, ?_, ho .ph (by decide), ?_, ?_⟩
  · rw [hreg _ (by decide)]
    exact enRisen_ctrl m r
  · exact congrArg (fun v => bits v RAIL_STATUS_STATE.lo RAIL_STATUS_STATE.w) (hreg _ (by decide))
  · have hcle' : m'.cle = w.cle := ho .cle (by decide)
    exact hcle'.trans (enRisen_cle m r)
  · rw [hm']
    exact Module.raise_bit _ _ _ (by decide)
  · rw [hm', Module.get_raise_other _ _ _ _ _ (by decide), Module.get_put_same _ _ _ _ (by decide)]
    exact Nat.mod_eq_of_lt (by simp only [CLE_LAST_RAIL]; omega)

end

section
/-! Where the phases of a rail start (O50), and how long they are on (O51). -/

namespace Sys2Proof.Machine

section
variable {m : Module} {r : Nat}

/-! ### The duty of a phase -/

theorem clampInt_bounds {lo hi : Int} (h : lo ≤ hi) (x : Int) : lo ≤ clampInt lo hi x ∧ clampInt lo hi x ≤ hi := by
  unfold clampInt
  split
  · omega
  · split <;> omega

theorem dutyMax_nonneg (m : Module) (r : Nat) : 0 ≤ m.dutyMax r := by
  unfold Module.dutyMax
  omega

/-- The cap of a duty is the least of DUTY_MAX and the ceiling that is in force. -/
theorem dutyCap_bounds (m : Module) (n : Nat) : 0 ≤ m.dutyCap n ∧ m.dutyCap n ≤ m.dutyMax (m.railOf n)
    ∧ (m.get (pgPhase + n) PHASE_DUTY_D_CEIL ≠ 0 → m.dutyCap n ≤ m.get (pgPhase + n) PHASE_DUTY_D_CEIL) := by
  have hmax := dutyMax_nonneg m (m.railOf n)
  unfold Module.dutyCap
  dsimp only
  split
  · next hnone => exact ⟨hmax, le_refl _, fun h => absurd hnone h⟩
  · omega

/-- An integrator stays where it was or lies within its clamps. -/
theorem integrate_bounds {lo hi : Int} (h : lo ≤ hi) (st inc sat : Int) (frozen : Bool) :
    integrate st inc sat lo hi frozen = st
      ∨ (lo * 32768 ≤ integrate st inc sat lo hi frozen ∧ integrate st inc sat lo hi frozen ≤ hi * 32768) := by
  unfold integrate
  split
  · exact .inl rfl
  · exact .inr (clampInt_bounds (by omega) _)

theorem phase_updPh_same {n : Nat} (f : Phase → Phase) (h : n < m.ph.length) : (m.updPh n f).phase n = f (m.phase n) :=
  nth_upd_same _ _ _ _ h

theorem phase_updPh_other {n j : Nat} (f : Phase → Phase) (h : n ≠ j) : (m.updPh n f).phase j = m.phase j :=
  nth_upd_other _ _ _ _ _ h

/-- What a balance step gives a phase: a duty within its cap, an integrator and an output within the limit, or as they
were (R218). -/
theorem loopBal_phase {n : Nat} (hn : n < m.ph.length) :
    let x := (m.loopBal r n).phase n
    let lim : Int := min 32767 (m.tblVal pgCle 1 (4 * r + 3) : Nat)
    (∃ want, x.dNext = clampInt 0 (m.dutyCap n) want)
    ∧ (x.bState = (m.phase n).bState ∨ ∃ inc sat frozen, x.bState = integrate (m.phase n).bState inc sat (-lim) lim frozen)
    ∧ (x.db = (m.phase n).db ∨ ∃ raw, x.db = clampInt (-lim) lim raw) := by
  unfold Module.loopBal
  extract_lets ph ceil lim probing fz scale eb skip st pb raw db dMax want sat x
  have hx : x = { ph with bState := st, bTerm := pb, db := db, bSat := sat, dNext := clampInt 0 dMax want } :=
    phase_updPh_same _ hn
  refine ⟨⟨want, congrArg Phase.dNext hx⟩, ?_, ?_⟩
  · rw [congrArg Phase.bState hx]
    simp only [st]
    split
    · exact .inl rfl
    · exact .inr ⟨_, _, _, rfl⟩
  · rw [congrArg Phase.db hx]
    simp only [db]
    split
    · exact .inl rfl
    · exact .inr ⟨_, rfl⟩

theorem loopBal_phase_other {n j : Nat} (h : j ≠ n) : (m.loopBal r n).phase j = m.phase j :=
  phase_updPh_other _ (Ne.symm h)

/-! ### The offset of a phase -/

/-- Half-even rounding of a quotient of numbers lies within half a divisor, on a tie at an even number. -/
theorem roundDiv_error {a b : Nat} (hb : 0 < b) : ∃ q : Nat, roundDiv (a : Int) b = q ∧ 2 * (q * b) ≤ 2 * a + b
    ∧ 2 * a ≤ 2 * (q * b) + b ∧ (2 * (q * b) = 2 * a + b ∨ 2 * a = 2 * (q * b) + b → q % 2 = 0) := by
  have hdiv : b * (a / b) + a % b = a := Nat.div_add_mod a b
  have hlt : a % b < b := Nat.mod_lt _ hb
  have hmul : (a / b) * b = b * (a / b) := Nat.mul_comm _ _
  have hsucc : (a / b + 1) * b = b * (a / b) + b := by rw [Nat.add_mul, hmul, Nat.one_mul]
  have hq : (a : Int) / (b : Int) = ((a / b : Nat) : Int) := rfl
  have hr : (a : Int) % (b : Int) = ((a % b : Nat) : Int) := rfl
  simp only [roundDiv, Nat.ne_of_gt hb, if_false, hq, hr]
  split
  · exact ⟨a / b, rfl, by omega⟩
  · split
    · exact ⟨a / b + 1, rfl, by omega⟩
    · split
      · exact ⟨a / b, rfl, by omega⟩
      · exact ⟨a / b + 1, rfl, by omega⟩

theorem actives_pairwise (m : Module) (r : Nat) : (m.actives r).Pairwise (· < ·) :=
  (List.pairwise_lt_range.filter _).filter _

theorem mem_actives_lt {n : Nat} (h : n ∈ m.actives r) : n < 48 := by
  have hpart : nPhases m.sys.part ≤ 48 := by
    unfold nPhases
    (repeat' split) <;> decide
  exact lt_of_lt_of_le (List.mem_range.1 (List.mem_of_mem_filter (List.mem_of_mem_filter h))) hpart

/-- Each phase of a list takes its own offset, and no other phase takes one. -/
theorem foldl_offset_phase (act l : List Nat) (m : Module) (hl : l.Nodup) (hlt : ∀ n ∈ l, n < m.ph.length) (j : Nat) :
    (l.foldl (fun m n => m.updPh n (fun x => { x with offset := m.offsetAt r (act.idxOf n) act.length })) m).phase j
      = if j ∈ l then { m.phase j with offset := m.offsetAt r (act.idxOf j) act.length } else m.phase j := by
  induction l generalizing m with
  | nil => rfl
  | cons n l ih =>
    obtain ⟨hn, hl⟩ := List.nodup_cons.1 hl
    have hlen : ∀ f, (m.updPh n f).ph.length = m.ph.length := fun f => List.length_modify ..
    rw [List.foldl_cons, ih _ hl fun k hk => by rw [hlen]; exact hlt k (List.mem_cons_of_mem _ hk)]
    by_cases hjn : j = n
    · subst hjn
      rw [if_neg hn, if_pos List.mem_cons_self, phase_updPh_same _ (hlt _ List.mem_cons_self)]
    · rw [phase_updPh_other _ (Ne.symm hjn)]
      simp only [List.mem_cons, hjn, false_or]
      rfl

theorem spaceOut_phase (hlen : m.ph.length = 48) (j : Nat) : (m.spaceOut r).phase j = if j ∈ m.actives r
    then { m.phase j with offset := m.offsetAt r ((m.actives r).idxOf j) (m.actives r).length } else m.phase j :=
  foldl_offset_phase _ _ m (actives_pairwise m r).nodup (fun _ hn => hlen ▸ mem_actives_lt hn) j

end

end Sys2Proof.Machine

open Sys2Proof Sys2Proof.Machine

/-- Settles O50: the offsets are those that half-even rounding gives, each to its own phase. -/
theorem phasesAreSpacedEvenly : Obligations.PhasesAreSpacedEvenly := by
  intro m r i hshaped act per
  refine ⟨fun hi => ?_, actives_pairwise m r, fun n hn => ?_⟩
  · have hget : act.getD i 0 = act[i] := by simp [hi]
    have hidx : act.idxOf act[i] = i := (actives_pairwise m r).nodup.idxOf_getElem i hi
    have hoff : ((m.spaceOut r).phase (act.getD i 0)).offset = (roundDiv ((i * per : Nat) : Int) act.length).toNat := by
      rw [hget, spaceOut_phase hshaped.1, if_pos (List.getElem_mem hi)]
      simp only [Module.offsetAt]
      rw [hidx]
    obtain ⟨q, hq, hlow, hhigh, htie⟩ := roundDiv_error (a := i * per) (Nat.zero_lt_of_lt hi)
    rw [hoff, hq, Int.toNat_natCast]
    have hcast : (2 * (q : Int) * act.length) = 2 * ((q * act.length : Nat) : Int) := by push_cast; ring
    dsimp only
    rw [hcast]
    omega
  · rw [spaceOut_phase hshaped.1, if_neg hn]

/-- Settles O51: the last step clamps the duty, and each of the others clamps what it gives. -/
theorem dutyWithinItsLimits : Obligations.DutyWithinItsLimits := by
  intro m r n hn m' ceil lim
  obtain ⟨hnonneg, hmax, hceil⟩ := dutyCap_bounds m n
  have hlim : -lim ≤ lim := by omega
  obtain ⟨⟨want, hduty⟩, hstate, hout⟩ := loopBal_phase (r := r) hn
  obtain ⟨hduty0, hdutyCap⟩ := clampInt_bounds hnonneg want
  rw [← hduty] at hduty0 hdutyCap
  refine ⟨hduty0, hdutyCap.trans hmax, fun h => hdutyCap.trans (hceil h), ?_, ?_, fun j hj => loopBal_phase_other hj⟩
  · rcases hstate with hsame | ⟨inc, sat, frozen, hnew⟩
    · exact .inl hsame
    · have hbounds := integrate_bounds hlim (m.phase n).bState inc sat frozen
      rwa [← hnew] at hbounds
  · rcases hout with hsame | ⟨raw, hnew⟩
    · exact .inl hsame
    · have hbounds := clampInt_bounds hlim raw
      rw [← hnew] at hbounds
      exact .inr hbounds

end

section
/-! A word of a RAM reads as it was written (O52). -/

namespace Sys2Proof.Machine

section
variable {m : Module} {nv : NonVol} {x a k : Nat} {v : W64}

/-- Whichever master a bank served last, its turn comes to the only one that asks (R479). -/
theorem turn_alone (last : Nat) (hrank : memRank x < 20) :
    ((List.range 20).map (fun i => (last + 1 + i) % 20)).findSome? (fun r => [x].find? (fun y => memRank y = r))
      = some x := by
  have hone : ∀ r, [x].find? (fun y => memRank y = r) = if memRank x = r then some x else none := fun r => by
    by_cases h : memRank x = r <;> simp [List.find?, h]
  have hmem : memRank x ∈ (List.range 20).map (fun i => (last + 1 + i) % 20) :=
    List.mem_map.2 ⟨(memRank x + 20 - (last + 1) % 20) % 20, List.mem_range.2 (by omega), by omega⟩
  simp only [hone]
  cases hfound : ((List.range 20).map (fun i => (last + 1 + i) % 20)).findSome?
      (fun r => if memRank x = r then some x else none) with
  | none => simpa using List.findSome?_eq_none_iff.1 hfound _ hmem
  | some y =>
    obtain ⟨r, -, hr⟩ := List.exists_of_findSome?_eq_some hfound
    split at hr
    · exact hr.symm
    · cases hr

/-- A bank that one master alone asks serves it, and the guard does not act (R480). -/
theorem grant_alone (u : Nat) (hrank : memRank x < 20) : m.grant u [(x, 0)] = some (x, false) := by
  unfold Module.grant
  extract_lets least last turn cl rest
  have hturn : turn [x] = some x := turn_alone last hrank
  split
  · simp [hturn]
  · by_cases hclu : isCluster x = true
    · simp [cl, rest, least, hclu, hturn]
    · have hcl : cl = [] := by simp [cl, hclu]
      have hempty : turn (cl.map (·.1)) = none := by simp [hcl, turn, List.findSome?_eq_none_iff]
      rw [hempty]
      simp [rest, least, hclu]

/-- The access of one master to a RAM word is granted in its cycle; at most the turn of the bank is noted. -/
theorem granted_alone (hrank : memRank x < 20) (wr : Option W64) : ∃ l,
    m.granted (.sram k) (wordAccess x a wr) = (m.updMem (fun y => { y with last := l }), true) := by
  unfold Module.granted
  dsimp only
  split
  · exact ⟨m.mem.last, rfl⟩
  · have hgrant : m.grant (k / 8192) (((wordAccess x a wr).m, (wordAccess x a wr).waited) :: (wordAccess x a wr).rivals)
        = some (x, false) := grant_alone _ hrank
    rw [hgrant]
    simp only [Bool.false_and, Bool.false_eq_true, if_false]
    split
    · exact ⟨_, congrArg (Prod.mk _) (decide_eq_true rfl)⟩
    · exact ⟨m.mem.last, congrArg (Prod.mk m) (decide_eq_true rfl)⟩

/-- The module after a whole word of a RAM has been written: the mark of the word is gone, and the bank may have noted
a turn. -/
def wroteWord (m : Module) (l : List (Nat × Nat)) (k : Nat) (v : W64) : Module :=
  { m with out := {}, mem := { m.mem with last := l, poison := delKey m.mem.poison k, sram := setK zero64 m.mem.sram k v } }

/-- A whole word that is written replaces the one held, and its mark goes. -/
theorem partAccess_write : m.partAccess nv (.sram k) 0 8 (some (v.toNat % 2 ^ 64)) 0 0
    = (nv, { m with mem := { m.mem with poison := delKey m.mem.poison k, sram := setK zero64 m.mem.sram k v } }, some 0) := by
  have hval : BitVec.ofNat 64 (v.toNat % 2 ^ 64) = v := by
    rw [Nat.mod_eq_of_lt v.isLt, BitVec.ofNat_toNat, BitVec.setWidth_eq]
  simp only [Module.partAccess, if_true, hval]
  rfl

theorem memAccess_write (halign : a % 8 = 0) (hplace : placeOf m.sys.part x a = some (.sram k)) (hrank : memRank x < 20)
    (hallowed : m.memAllowed (.sram k) x true = true) :
    ∃ l, m.memAccess nv (wordAccess x a (some v)) = (nv, wroteWord m l k v) := by
  obtain ⟨l, hgranted⟩ := granted_alone (m := m) (k := k) (a := a) hrank (some v)
  refine ⟨l, ?_⟩
  rw [memAccess_word (q := wordAccess x a (some v)) rfl halign hplace hallowed (congrArg Prod.snd hgranted), hgranted]
  simp only [wordAccess, Option.map_some, partAccess_write, Option.isSome_some, if_true]
  rfl

/-- A whole word without a mark is read as it is held. -/
theorem memAccess_read (halign : a % 8 = 0) (hplace : placeOf m.sys.part x a = some (.sram k)) (hrank : memRank x < 20)
    (hallowed : m.memAllowed (.sram k) x false = true) (hgood : m.mem.poison.contains k = false) :
    ∃ l, m.memAccess nv (wordAccess x a none) = (nv, { m with
      out := { dword := some (m.word nv (.sram k)) }, mem := { m.mem with last := l } }) := by
  obtain ⟨l, hgranted⟩ := granted_alone (m := m) (k := k) (a := a) hrank none
  refine ⟨l, ?_⟩
  have hval : ∀ w : W64, BitVec.ofNat 64 (wordPart w 0 8) = w := fun w => by
    simp [wordPart, Nat.mod_eq_of_lt w.isLt]
  rw [memAccess_word (q := wordAccess x a none) rfl halign hplace hallowed (congrArg Prod.snd hgranted), hgranted]
  have hfree : (m.updMem (fun y => { y with last := l })).poisoned nv (.sram k) = false := hgood
  simp only [wordAccess, Option.map_none, Module.partAccess, Module.readWord, hfree, Bool.false_eq_true, if_false, if_true,
    Option.map_some, hval, Option.isSome_none]
  rfl

theorem delKey_not_contains (l : List Nat) (k : Nat) : (delKey l k).contains k = false := by simp [delKey]

/-- An access outside the register space, which no task makes, of a module in which no task has yet to enter its
fallback. -/
theorem memoryAccess_turns {s : State} {wr : Option W64} {m' : Module} (hon : On s m) (hserved : m.cluServed x = true)
    (hrank : memRank x < 20) (hout : ¬(0x50000000 ≤ a ∧ a < 0x50010000))
    (haccess : m.memAccess s.nv (wordAccess x a wr) = (s.nv, m')) (hdue : NoneDue m') :
    Turns2 (.memoryAccess (wordAccess x a wr)) s (s.nv, m') := by
  have hregs : inRegs a = false := 
    Bool.eq_false_iff.2 fun h => by
      obtain ⟨hlow, hhigh⟩ := (Bool.and_eq_true_iff).1 h
      exact hout ⟨of_decide_eq_true hlow, of_decide_eq_true hhigh⟩
  have hfree : m.busDenied x = false := by
    have hdebug : x ≠ 3 := by
      rintro rfl
      exact absurd hrank (by decide)
    simp [Module.busDenied, hdebug]
  refine hon.turns2_live (fun nv m => let r := m.memCommand nv (wordAccess x a wr); (r.1, r.2.fallNow)) rfl ?_
  rw [memCommand_direct (q := wordAccess x a wr) hserved hfree rfl hregs, haccess]
  exact congrArg (Prod.mk s.nv) (fallNow_of_none_due hdue)

end

end Sys2Proof.Machine

open Sys2Proof Sys2Proof.Machine

/-- Settles O52: the access reaches the word alone, and the next one finds it without a mark. -/
theorem memoryReadsWhatWasWritten : Obligations.MemoryReadsWhatWasWritten := by
  intro s m x a k v hon hform hshaped hserved halign hout hplace hrank hwrite hread
  obtain ⟨-, hdue⟩ := (shaped_iff m).1 hshaped
  obtain ⟨l, haccess⟩ := memAccess_write (nv := s.nv) (v := v) halign hplace hrank hwrite
  refine ⟨wroteWord m l k v, memoryAccess_turns hon hserved hrank hout haccess hdue, getK_setK_same _ _ _ _ hform,
    fun j hj => getK_setK_other _ _ _ _ _ hj, wfMap_setK _ _ _ _ hform, rfl, rfl, fun s' hs' => ?_⟩
  have hon' : On s' (wroteWord m l k v) := ⟨by rw [hs']; rfl, hon.2⟩
  obtain ⟨l', haccess'⟩ := memAccess_read (m := wroteWord m l k v) (nv := s'.nv) halign hplace hrank hread
    (delKey_not_contains m.mem.poison k)
  refine ⟨_, memoryAccess_turns hon' hserved hrank hout haccess' hdue, ?_, rfl⟩
  exact congrArg some (getK_setK_same _ _ _ _ hform)

end
